-- ==== Sys2Proof/Word.lean ====
section
/-! DEFINITION. Words of the block: 32-bit registers, bytes, configuration frames, and association lists by number. -/

namespace Sys2Proof

/-- A register word (02_register_pages.md R36). -/
abbrev Word := BitVec 32

/-- A byte. -/
abbrev Byte := BitVec 8

/-- The 256 payload bytes of a configuration frame (05_images.md R123). -/
abbrev Frame := BitVec 2048

/-- Values by number, in ascending order of the number, with no number twice. What an unlisted number holds is said
where a table is read. -/
abbrev Tab (α : Type) := List (Nat × α)

/-- A hard block of a fabric die whose signals join the routing (07_fabric.md R156, R189, R190). -/
inductive HardBlock where
  | bank | engine | deep | port | icp | pin
  deriving DecidableEq, Repr, Inhabited

/-- A wire of the fabric that a tile multiplexer can select (07_fabric.md R160, R163, R164, R179, R190). -/
inductive Wire where
  /-- output `o` of tile (c, t): 4k + 0 FOUT or S of cell k, + 1 HOUT, + 2 Q0, + 3 Q1; 32 COUT -/
  | out (die c t o : Nat)
  /-- hop `i` of length 2^l leaving tile (c, t) in direction 0 north, 1 east, 2 south, 3 west -/
  | hop (die c t l dir i : Nat)
  /-- horizontal span: row, track, segment -/
  | hspan (die r t s : Nat)
  /-- vertical span: column, track, segment -/
  | vspan (die c t s : Nat)
  /-- horizontal long span: row, track -/
  | hlong (die r t : Nat)
  /-- vertical long span: column, track -/
  | vlong (die c t : Nat)
  /-- incoming crossing wire -/
  | xin (die side i : Nat)
  /-- event input EVI `i` -/
  | evi (die i : Nat)
  /-- CAP_DONE -/
  | capDone (die : Nat)
  /-- signal `i` of hard block `k`, at a tile where it joins the routing -/
  | hard (die c t : Nat) (b : HardBlock) (k i : Nat)
  deriving DecidableEq, Repr, Inhabited

end Sys2Proof
end

