-- ==== Sys2Proof/Syntax.lean ====
section
/-! DEFINITION. The commands of the block: one constructor of `Instr` for each row of spec/opcode_table.json, with the
operands the row's rule names. `ini` is the ID of the initiator (12_noc.md R302), `die` and `blk` name a page
(01_package.md R32), `val` is the word written. -/

namespace Sys2Proof

/-- An oscillator of 03_clocks.md R61. -/
inductive Osc where
  | xoA | xoB | rtc
  deriving DecidableEq, Repr

/-- A clock switch (03_clocks.md R80): the selection of the XO, or the source of domain `k`. -/
inductive ClkSwitch where
  | xo
  | cd (k : Nat)
  deriving DecidableEq, Repr

/-- Fields of the M slot beside MOP (11_loop_programs.md R283). -/
structure MFields where
  h : Nat := 0
  ga : Nat := 0
  bb : Bool := false
  bs : Nat := 0
  sa : Bool := false
  sb : Bool := false
  fs : Bool := false
  lm : Nat := 0
  aux : Nat := 0
  deriving DecidableEq, Repr

/-- Receiver settings a lane has converged to (14_lanes.md R361 to R363). -/
structure LaneSettings where
  ctle : Nat := 0
  vga : Nat := 0
  phase : Nat := 0
  dfe : Word := 0
  farTaps : Nat := 0
  preTx : Bool := false
  preRx : Bool := false
  deriving DecidableEq, Repr

/-- MACsec facts of a received frame (15_flow_slices.md R408, R409): its SecTAG and what GCM verification found. -/
structure SecTag where
  present : Bool := false
  wellFormed : Bool := true
  sci : Nat := 0
  an : Nat := 0
  pn : Nat := 0
  icvOk : Bool := true
  deriving DecidableEq, Repr

/-- A stream descriptor of the header (R120). -/
structure StreamDesc where
  frames : Nat := 0
  firstGroup : Nat := 0
  offset : Nat := 0
  stored : Nat := 0
  rest : Nat := 0
  deriving DecidableEq, Repr

/-- The partial fields at 0x300 (R226). -/
structure PartialHdr where
  magic : Nat := 0
  partNo : Nat := 0
  die : Nat := 0
  cFirst : Nat := 0
  cLast : Nat := 0
  pflags : Nat := 0
  rsv1 : Nat := 0
  designId : Nat := 0
  rsv2 : Nat := 0
  baseRoot : Nat := 0
  rsv3 : Nat := 0
  deriving DecidableEq, Repr

/-- The image header (R120). -/
structure Header where
  magic : Nat := 0
  formatVer : Nat := 0
  kind : Nat := 0
  flags : Nat := 0
  family : Nat := 0
  device : Nat := 0
  dieCount : Nat := 0
  rsv11 : Nat := 0
  streamMask : Nat := 0
  imageLen : Nat := 0
  secVer : Nat := 0
  secCtr : Nat := 0
  rsv1f : Nat := 0
  signerHash : Nat := 0
  root : Nat := 0
  groupCount : Nat := 0
  nodeCount : Nat := 0
  nodeOff : Nat := 0
  tableOff : Nat := 0
  tableFrames : Nat := 0
  tableStored : Nat := 0
  partOff : Nat := 0
  partLen : Nat := 0
  seqOff : Nat := 0
  seqLen : Nat := 0
  routeOff : Nat := 0
  routeLen : Nat := 0
  rsv98 : Nat := 0
  streams : List StreamDesc := []
  part : PartialHdr := { }
  rsv380 : Nat := 0
  deriving DecidableEq, Repr

/-- What regeneration read from one source: the active image, or the copy of partition `part`'s partial image; its node table
and the payloads of the group of the frame (R232, R520). -/
structure RegenRead where
  part : Option Nat := none
  nodes : List (BitVec 256) := []
  frames : List Frame := []
  deriving DecidableEq, Repr

/-- One stored frame or record as it arrives (R123, R124). `kind` 0 RAW, 1 MASKED, 2 REPEAT, 3 not valid; an
uncompressed frame uses kind 0 with `len` 260. -/
structure ImgRec where
  kind : Nat := 0
  rsv : Nat := 0
  len : Nat := 0
  mask : Nat := 0
  words : List Word := []
  payload : Frame := 0
  crc : Word := 0
  unreadable : Bool := false
  deriving DecidableEq, Repr

/-- A packet: its header (R297) and the bytes it carries. -/
structure Packet where
  cmd : Nat
  sched : Bool := false
  urg : Nat := 0
  len : Nat := 0
  src : Nat := 0
  srcNode : Nat := 0
  dst : Nat := 0
  tag : Nat := 0
  addr : Nat := 0
  size : Nat := 0
  code : Nat := 0
  chk : Nat := 0
  poison : Bool := false
  cls : Nat := 0
  peek : Bool := false
  flow : Nat := 0
  arg0 : Nat := 0
  arg1 : Nat := 0
  data : List (BitVec 8) := []
  /-- a user check field the packet carries does not match its data flit (R324) -/
  chkBad : Bool := false
  deriving DecidableEq, Repr

/-- Operation of an atomic memory operation of a system core (17_processors.md R445: RV64GC). -/
inductive AmoOp where
  | swap | add | xor | and | or | min | max | minu | maxu
  deriving DecidableEq, Repr

/-- What a system core makes an access for (17_processors.md R446, R448). -/
inductive CoreUse where
  /-- a load or a store, and every access of an initiator that is no system core -/
  | plain
  /-- an instruction fetch -/
  | fetch
  | lr | sc
  | amo (op : AmoOp)
  /-- no access: the core waits for an interrupt -/
  | wfi
  /-- no access: a branch, jump or return is taken to `target` -/
  | branch (target : Nat)
  /-- no access: the instruction at `pc` traps with mcause `cause` -/
  | trap (cause pc : Nat)
  /-- no access: comparators `mask` fire on an instruction and do not halt the core -/
  | fires (mask : Nat)
  /-- the caches give up the line at the address -/
  | evict
  /-- the caches' own read of a line; no command -/
  | fill
  /-- the caches' own write-back of a line; no command -/
  | wback
  deriving DecidableEq, Repr

/-- An access of an initiator (R299). -/
structure Access where
  ini : Nat
  /-- 0 RD, 1 WR, 2 PWR, 3 STRM -/
  kind : Nat
  addr : Nat
  size : Nat
  data : List (BitVec 8) := []
  peek : Bool := false
  sched : Bool := false
  /-- tag the initiator itself gave the access (RQ_TAG of a fabric port, or a device's own number) -/
  tag : Nat := 0
  use : CoreUse := .plain
  deriving DecidableEq, Repr

/-- One 128-byte router block (R312): entries by 4 × die + VC and by 4 × router + VC. -/
structure RouteTab where
  node : Nat := 0
  rsv : Nat := 0
  die : List Nat := []
  loc : List Nat := []
  rest : Nat := 0
  deriving DecidableEq, Repr

/-- A beat of the RS, TQ channels or a request being received on RQ or TR of a fabric NoC port (R326). -/
structure PortBeat where
  kind : Nat := 0
  tag : Nat := 0
  code : Nat := 0
  addr : Nat := 0
  size : Nat := 0
  src : Nat := 0
  cls : Nat := 0
  data : BitVec 256 := 0
  chk : Word := 0
  last : Bool := true
  deriving DecidableEq, Repr

/-- The commands. -/
inductive Instr where
  -- Register pages
  /-- A 32-bit write by initiator `ini` to the register at `off` of block `blk` on `die` (R39); `bar0`: it came through
  BAR0 of the PCIe function whose mailbox page it names (17_processors.md R453). -/
  | registerWrite (ini : Nat) (bar0 : Bool) (die blk off : Nat) (val : Word)
  /-- A read of a register; with `peek` no RC field clears (R11, R12). -/
  | registerReadClear (ini : Nat) (bar0 : Bool) (die blk off : Nat) (peek : Bool)
  /-- An access that is not a naturally aligned 32-bit access (R36). -/
  | wrongSizeAccess (ini die blk off : Nat)
  /-- A write of PG_CTRL with ENABLE `en` and FREEZE_SEL `frz` (R43). -/
  | blockEnable (ini die blk : Nat) (en : Bool) (frz : Nat)
  /-- A write of PG_CTRL.SOFT_RESET = 1 (R45). -/
  | softReset (ini die blk : Nat)
  /-- The soft reset of a block completes (R45). -/
  | softResetDone (die blk : Nat)
  /-- A write of PG_COMMIT.COMMIT = 1, with DISCARD = `disc` (R54). -/
  | commit (ini die blk : Nat) (disc : Bool)
  /-- A write of PG_COMMIT.DISCARD = 1 alone (R54). -/
  | discard (ini die blk : Nat)
  /-- The block reaches its commit point (R55). -/
  | commitPoint (die blk : Nat)
  /-- A write of PG_EVT_FORCE (R46). -/
  | evtForce (ini die blk : Nat) (val : Word)
  /-- A write of PG_VOTE (R49). -/
  | pgVoteWrite (ini die blk : Nat) (val : Word)
  /-- A write of PG_LOCK (R50). -/
  | pgLockWrite (ini die blk : Nat) (val : Word)
  /-- A write of PG_RETAIN (R56). -/
  | pgRetainWrite (ini die blk : Nat) (val : Word)
  /-- A write to die 15 (R58). -/
  | broadcastWrite (ini blk off : Nat) (val : Word)
  -- Clocks
  /-- An XO (`b`: XO_B) completes its count with `rc` RC cycles (R62). -/
  | xoQualified (b : Bool) (rc : Nat)
  /-- 65,536 RC cycles pass before the count of an XO completes (R62). -/
  | xoQualTimeout (b : Bool)
  /-- The RTC crystal completes its count with `rc` RC cycles (R62). -/
  | rtcQualified (rc : Nat)
  /-- 50,331,648 RC cycles pass before the RTC count completes (R62). -/
  | rtcQualTimeout
  /-- No edge of an XO arrives within 16 RC cycles (R63). -/
  | xoEdgeTimeout (b : Bool)
  /-- A 256-RC-cycle window ends with `count` XO cycles (R63). -/
  | xoWindowCheck (b : Bool) (count : Nat)
  /-- No edge of the crystal arrives within 4,096 RC cycles (R64). -/
  | rtcEdgeTimeout
  /-- A 1,048,576-RC-cycle window ends with `count` crystal cycles (R64). -/
  | rtcWindowCheck (count : Nat)
  /-- PLL `pll` of `die` completes locking (R68). Die 8: HPLL0 to HPLL7. -/
  | pllLocked (die pll : Nat)
  /-- No reference edge returns within 256 phase-detector periods (R76). -/
  | pllRefLost (die pll : Nat)
  /-- A fabric PLL finds its reference more than 2 % off (R77). -/
  | fpllRefDeviation (die pll : Nat)
  /-- The glitch-free switch of `sw` completes (R80). -/
  | clockSwitchDone (sw : ClkSwitch)
  /-- No old-clock edge within 64 new-clock cycles: the switch of `sw` is forced (R81). -/
  | switchForced (sw : ClkSwitch)
  /-- A write of CD_CFG of domain `k` (R84). -/
  | cdCfgWrite (ini k : Nat) (val : Word)
  /-- A write of CU_OSC_CTRL (R78). -/
  | xoPrefWrite (ini : Nat) (val : Word)
  /-- A write of CD_GATE.GATE_REQ = 1 of domain `k` (R82). -/
  | gateRequest (ini k : Nat)
  /-- Every block of domain `k` has acknowledged; 64 + 72 × die + set: of a set of engines (R82, R237). -/
  | gateClosed (k : Nat)
  /-- An acknowledge is missing after 4,096 domain clocks (R82). -/
  | gateDenied (k : Nat)
  /-- An access arrives at a block of domain `k` (R83). -/
  | gateReopen (k : Nat)
  /-- A 1 ms measuring window of domain `k` ends with `khz` (R72). -/
  | cdFreqUpdate (k khz : Nat) (toggled : Bool)
  -- Start
  /-- Every monitored rail has been in range for 200 µs (R89). -/
  | suppliesValid
  /-- RESET_N is recognised low (R112). -/
  | resetNLow
  /-- RESET_N is recognised high (R89). -/
  | resetNHigh
  /-- A device reset raised inside the device (R89). -/
  | deviceResetInternal
  /-- SRC_SEL has been steady for 100 µs at the end of S0 (R90). -/
  | srcSelLatch
  /-- The management-path seam `seam` has not reached MGMT within 1 ms (R67). -/
  | mgmtPathTimeout (seam : Nat)
  /-- R91 steps 1 and 2; `read0`, `read1`: the records of K0 and K1 can be read; `errs`: die, unit and number of bit errors
  that units of the Keep have come to hold (R135). -/
  | keepRecordsRead (read0 read1 : Bool) (errs : List (Nat × Nat × Nat))
  /-- The quick self-test completes (R92). -/
  | quickSelftestDone (pass : Bool)
  /-- The header of the image with bytes 4,097 to 8,191 as the number they spell (`pad`), the SHAKE256 hash of its carried key, the outcome of Falcon-1024 verification and its
  node table (R121, R122, R127). `readOk`: the units of header, signature and key were readable; `nodesOk`: those of the
  node table. -/
  | signatureVerified (hdr : Header) (pad : Nat) (readOk : Bool) (keyHash : Nat) (sigOk : Bool) (nodesOk : Bool) (nodes : List (BitVec 256))
  /-- The table engine performs the WRITE entry it stands at (R96). -/
  | seqWrite
  /-- The WAIT entry the table engine stands at reads its register (R96). -/
  | seqWait
  /-- The WAIT entry reaches its TIMEOUT (R98). -/
  | seqWaitTimeout
  /-- The table engine performs the RELEASE_PART entry it stands at (R96). -/
  | releasePart
  /-- The table engine reaches the end of a stage (R96). -/
  | seqEnd
  /-- A frame or record of stream `stream` arrives (R102). -/
  | frameArrival (stream : Nat) (rec : ImgRec)
  /-- Every die's configuration memory has been cleared (R103). -/
  | configCleared
  /-- The flash does not respond in 10 ms, or host data stops for 1 s (R114, R115). -/
  | sourceTimeout
  /-- A host write of `len` bytes at byte `addr` of the load window (R132). -/
  | hostPushWrite (addr len : Nat)
  /-- START with word 1 = `w1` in host mailbox 0 (R116). -/
  | holdStartCmd (w1 : Nat)
  /-- S5 memory clear, initial values and snapshot resume complete; `snapOk`: the partitions whose snapshot
  data passed its checks (R105). -/
  | memoryClearDone (snapOk : List Nat)
  /-- The S6 scan completes (R147). -/
  | journalRestore
  -- Keep
  /-- A write of KP_BOOT (R140). -/
  | bootRecordWrite (ini : Nat) (val : Word)
  /-- Both copies have been programmed, `worn`: the unit is worn (R140, R150). -/
  | bootRecordDone (worn : Bool)
  /-- A write of KP_CTRk (R141). -/
  | counterWrite (ini k : Nat) (val : Word)
  /-- A write of KP_XFER_CTRL with GO = 1 (R142). -/
  | xferGo (ini : Nat) (val : Word)
  /-- The transfer ends after `units` units with `result` of KP_XFER_STAT (R142); `errs` as for `keepRecordsRead`. -/
  | xferDone (units result : Nat) (errs : List (Nat × Nat × Nat))
  /-- The 10 ms window of a page ends (R144). -/
  | journalWindowEnd (die blk : Nat)
  /-- COMMIT of the oldest appended record is programmed (R145). -/
  | journalCommit
  /-- A write of `bytes` at offset `off` of the user area (R151). -/
  | userAreaWrite (off : Nat) (bytes : List (BitVec 8))
  /-- The merge buffer programs unit `unit`, which then holds `errs` bit errors (R135, R151). -/
  | userUnitProgram (unit errs : Nat)
  -- Fabric
  /-- An upset turns configuration bit `bit` of frame `addr` and leaves two drivers enabled (R166). -/
  | contentionDetected (die addr bit : Nat)
  /-- A write of CF_GCK_EN (`reg` 0), CF_BCK_EN0 (1) or CF_BCK_EN1 (2) (R174). -/
  | networkEnableWrite (ini die reg : Nat) (val : Word)
  /-- Crossing group `g` of side `side` completes its pattern (R182). -/
  | xgTrained (die side g : Nat)
  /-- A crossing group has not trained within 1 ms (R182). -/
  | xgTrainTimeout (die side g : Nat)
  /-- A write of CF_CAP_CTRL with GO = 1 (R185). -/
  | captureGo (ini die : Nat) (val : Word)
  /-- CAP_TRIG is first sampled high while armed (R185). -/
  | capTrig (die : Nat)
  /-- A system core halts while a capture is armed with TRIG HALT (R185). -/
  | haltTrigger (die : Nat)
  /-- Network `net` (0–31 GCK, 32–95 BCK) reaches its capture edge (R185). -/
  | captureEdge (die net : Nat)
  /-- Network `net` has not captured 1 ms after the trigger (R185). -/
  | captureAbandon (die net : Nat)
  /-- A write of CF_RB_CTRL.GO (R187). -/
  | readbackGo (ini die : Nat)
  /-- The readback ends; `busError`: a memory bus error after `frames` frames; `pfw`: stopped by PFW_N (R188). -/
  | readbackDone (die : Nat) (frames : Nat) (busError pfw : Bool)
  /-- EVO line `i` toggles and is steady for 4 CD6 cycles (R190). -/
  | evoToggle (die i : Nat)
  -- Memories
  /-- An edge of the clock of port A (`portB` false) or B of bank memory `mem`, with an access where `en`; `coll`: the other port writes the same word within
  50 ps and this port is ordered second (R198, R199). -/
  | bankAccess (die mem : Nat) (portB en : Bool) (we : BitVec 8) (addr : Nat) (din : BitVec 72) (srst coll : Bool)
  /-- A push at port A; `popToo`: port B pops at the same edge (R203). -/
  | fifoPush (die mem : Nat) (din : BitVec 72) (popToo : Bool)
  /-- A pop at port B (R203). -/
  | fifoPop (die mem : Nat)
  /-- A give at port A (R206). -/
  | tokenGive (die mem : Nat)
  /-- A take at port B; `giveToo`: a give at the same edge of one clock (R206). -/
  | tokenTake (die mem : Nat) (giveToo : Bool)
  /-- An entry of stage `mem` moves one stage north (R205). -/
  | cascadeForward (die mem : Nat)
  /-- One operation of the other side becomes visible: `toRead` an accepted entry, otherwise a delivery; `deep`: a deep
  memory (R204). -/
  | queueViewSync (die mem : Nat) (deep toRead : Bool)
  /-- The occupancy equation is audited after 8 quiet cycles (R207). -/
  | queueAudit (die mem : Nat) (deep : Bool)
  /-- The fabric port of deep memory `mem` accepts a request, or a push or pop in FIFO mode (R209). -/
  | dmFabricRequest (die mem : Nat) (we : Bool) (addr : Nat) (data : BitVec 64) (be : BitVec 8)
  /-- The oldest fabric request is served and answered (R209). -/
  | dmFabricResponse (die mem : Nat)
  /-- A NoC read (`we` false) or write of `len` bytes at `off` in the window (R210). -/
  | dmNocAccess (die mem : Nat) (we : Bool) (off len : Nat) (bytes : List (BitVec 8))
  /-- A NoC write to the FIFO window (R211). -/
  | dmNocPush (die mem off : Nat) (bytes : List (BitVec 8))
  /-- A NoC read of the FIFO window (R211). -/
  | dmNocPop (die mem off len : Nat) (peek : Bool)
  /-- The oldest corrected word is written back (R212). -/
  | dmWriteback (die mem : Nat)
  /-- The patrol reads its next word (R212). -/
  | dmPatrolRead (die mem : Nat)
  -- Partitions
  /-- IC_PCMD FENCE (R223). -/
  | fence (ini die part : Nat)
  /-- IC_PCMD UNFENCE (R223). -/
  | unfence (ini die part : Nat)
  /-- IC_PCMD HOLD (R223). -/
  | hold (ini die part : Nat)
  /-- IC_PCMD RELEASE (R224). -/
  | release (ini die part : Nat)
  /-- IC_PCMD RELOAD (R231). -/
  | reload (ini die part : Nat)
  /-- Every toggling network of the extent has passed its fourth edge (R224). -/
  | releaseComplete (die part : Nat)
  /-- The ICP accepts a word; `last`: ICP_LAST (R225). -/
  | icpWord (die : Nat) (word : BitVec 64) (last : Bool)
  /-- ICP_ABORT is high at an edge (R225). -/
  | icpAbort (die : Nat)
  /-- No word arrives for IC_TMO ms (R225). -/
  | icpDataTimeout (die : Nat)
  /-- The header checks complete (R227). -/
  | icpHeaderChecked (die : Nat) (hdr : Header) (keyHash : Nat) (sigOk : Bool) (nodes : List (BitVec 256))
  /-- The next group of the partial image, whole in a group buffer, is verified and written (R229). -/
  | icpGroupWrite (die : Nat)
  /-- The next group of the active image that holds a frame of the extent is read, `recs` its frames as stored (R231). -/
  | reloadGroup (die : Nat) (recs : List ImgRec)
  -- Loop engines
  /-- The idle conditions of set `set` have held for 256 cycles (R237). -/
  | setGateRequest (die set : Nat)
  /-- A write of LE_MDATA (R240). -/
  | leMdataWrite (ini die eng : Nat) (val : Word)
  /-- A read of LE_MDATA (R240). -/
  | leMdataRead (ini die eng : Nat)
  /-- A write of LE_CMD with START and VEC (R257). -/
  | leStart (ini die eng vec : Nat)
  /-- A write of LE_CMD with ABORT (R260). -/
  | leAbort (ini die eng : Nat)
  /-- A write of LE_CMD with CLEAR (R255). -/
  | leClear (ini die eng : Nat)
  /-- A start on the ST_ handshake (R257). -/
  | fabricStart (die eng vec : Nat) (arg : BitVec 24)
  /-- An IDLE engine takes the next queued start (R258). -/
  | startDequeue (die eng : Nat)
  /-- The run's writes and NoC write descriptors have completed (R259). -/
  | runComplete (die eng : Nat)
  /-- A stall has lasted STALL_TMO × 1,024 cycles (R255). -/
  | stallTimeout (die eng : Nat)
  -- Loop-engine instructions: each issues the instruction at PC, whose slot holds the named operation
  /-- C slot NOP (R274). -/
  | cNop (die eng : Nat)
  /-- C slot END (R274). -/
  | endOp (die eng : Nat)
  /-- C slot TRAP (R274). -/
  | trap (die eng : Nat)
  /-- C slot BR (R274). -/
  | br (die eng t : Nat)
  /-- C slot BZ (R274). -/
  | bz (die eng t : Nat)
  /-- C slot BNZ (R274). -/
  | bnz (die eng t : Nat)
  /-- C slot BN (R274). -/
  | bn (die eng t : Nat)
  /-- C slot BNN (R274). -/
  | bnn (die eng t : Nat)
  /-- C slot BSL (R274). -/
  | bsl (die eng t : Nat)
  /-- C slot CALL (R274). -/
  | call (die eng t : Nat)
  /-- C slot RET (R274). -/
  | ret (die eng : Nat)
  /-- C slot LEXIT (R274). -/
  | lexit (die eng t : Nat)
  /-- C slot LOOPD (R275). -/
  | loopd (die eng r len : Nat)
  /-- C slot LOOPI (R275). -/
  | loopi (die eng len n : Nat)
  /-- C slot MOVTO (R277). -/
  | movto (die eng reg r : Nat)
  /-- C slot MOVFROM (R277). -/
  | movfrom (die eng reg r : Nat)
  /-- C slot SETR (R277). -/
  | setr (die eng reg imm : Nat)
  /-- C slot NGO (R278). -/
  | ngo (die eng k : Nat)
  /-- C slot NWAIT (R278). -/
  | nwait (die eng mask : Nat)
  /-- C slot CLRF (R274). -/
  | clrf (die eng mask : Nat)
  /-- X slot (`y` false) or Y slot NOP (R279). -/
  | xyNop (die eng : Nat) (y : Bool)
  /-- X or Y slot POP (R282). -/
  | pop (die eng : Nat) (y : Bool) (port g : Nat)
  /-- X or Y slot PUSH (R282). -/
  | push (die eng : Nat) (y : Bool) (port g : Nat) (last : Bool)
  /-- X or Y slot LD (R281). -/
  | ld (die eng : Nat) (y : Bool) (i am r : Nat) (q : Bool)
  /-- X or Y slot ST (R281). -/
  | st (die eng : Nat) (y : Bool) (i am r : Nat) (q : Bool)
  /-- X or Y slot PMOD (R280). -/
  | pmod (die eng : Nat) (y : Bool) (i am : Nat)
  /-- M slot NOP (R284). -/
  | mNop (die eng : Nat)
  /-- M slot MUL (R284). -/
  | mul (die eng : Nat) (f : MFields)
  /-- M slot MAC (R284). -/
  | mac (die eng : Nat) (f : MFields)
  /-- M slot MSU (R284). -/
  | msu (die eng : Nat) (f : MFields)
  /-- M slot CLR (R284). -/
  | clr (die eng : Nat) (f : MFields)
  /-- M slot LDA (R284). -/
  | lda (die eng : Nat) (f : MFields)
  /-- M slot ADA (R284). -/
  | ada (die eng : Nat) (f : MFields)
  /-- M slot SBA (R284). -/
  | sba (die eng : Nat) (f : MFields)
  /-- M slot AADD (R284). -/
  | aadd (die eng : Nat) (f : MFields)
  /-- M slot ASUB (R284). -/
  | asub (die eng : Nat) (f : MFields)
  /-- M slot ACPY (R284). -/
  | acpy (die eng : Nat) (f : MFields)
  /-- M slot ANEG (R284). -/
  | aneg (die eng : Nat) (f : MFields)
  /-- M slot AMIN (R284). -/
  | amin (die eng : Nat) (f : MFields)
  /-- M slot AMAX (R284). -/
  | amax (die eng : Nat) (f : MFields)
  /-- M slot EXT (R244). -/
  | ext (die eng : Nat) (f : MFields)
  /-- M slot SMAX (R249). -/
  | smax (die eng : Nat) (f : MFields)
  /-- M slot SMIN (R249). -/
  | smin (die eng : Nat) (f : MFields)
  /-- M slot RMAX (R250). -/
  | rmax (die eng : Nat) (f : MFields)
  /-- M slot RMIN (R250). -/
  | rmin (die eng : Nat) (f : MFields)
  /-- The fabric transfers a beat into SI0 (`port` 0) or SI1 (R261). -/
  | streamBeatIn (die eng port : Nat) (data : BitVec 96) (last : Bool)
  /-- The fabric accepts a beat from SO0 or SO1 (R261). -/
  | streamBeatOut (die eng port : Nat)
  /-- Descriptor `k` takes the result of its access, which has ended at the bridge (R264). -/
  | nocDescriptorDone (die eng k : Nat)
  /-- Direct mode: an SCLK edge with DIR_V high (R265). -/
  | directOp (die eng : Nat) (a b : BitVec 96) (op : Nat) (hi : Bool)
  /-- A breakpoint matches the instruction at PC (R289). -/
  | breakpointHit (die eng : Nat)
  /-- A data watch matched in the instruction that issued last (R289). -/
  | dataWatchHit (die eng : Nat)
  -- NoC
  /-- A RD packet reaches its target bridge (R298). -/
  | rd (p : Packet)
  /-- A WR packet reaches its target bridge (R298). -/
  | wr (p : Packet)
  /-- A PWR packet reaches its target (R298). -/
  | pwr (p : Packet)
  /-- A STRM packet reaches its target (R298). -/
  | strm (p : Packet)
  /-- A RSP reaches its initiator bridge, `lat` router cycles after injection (R306, R328). -/
  | rsp (p : Packet) (lat : Nat)
  /-- A CRD reaches its initiator bridge (R307). -/
  | crd (p : Packet)
  /-- A CFG packet writes one configuration frame (R298). -/
  | cfg (p : Packet)
  /-- A MGMT packet performs a management operation (R298). -/
  | mgmt (p : Packet)
  /-- A MRSP answers a VC0 request at its sender (R298). -/
  | mrsp (p : Packet)
  /-- An initiator bridge takes an access (R299). -/
  | accessInject (a : Access)
  /-- A head flit arrives at input `port` of router `node` (R311); `flaw`: what the hidden code finds in the packet, 0 nothing, 1
  an error it corrects, 2 a data flit or 3 the header flit beyond correction (R324). -/
  | headArrival (node port : Nat) (p : Packet) (flaw : Nat)
  /-- AGE router cycles have passed for the heads waiting at `node` (R309). -/
  | urgencyAge (node : Nat)
  /-- A quiet link is audited; the flits and credits found on it (R308). -/
  | linkAudit (node port lane onLink inBuffer returning : Nat)
  /-- A quiet pair is audited; the requests and returns found in flight (R308). -/
  | pairAudit (ini target : Nat)
  /-- RT_CTRL.GO with APPLY 0: the set staged at RT_SRC is checked (R315). -/
  | routeCheck (ini : Nat)
  /-- RT_CTRL.GO with APPLY 1 (R315). -/
  | routeInstall (ini : Nat)
  /-- The MGMT DRAIN of the loader reaches router `node` (R315). -/
  | drain (node : Nat)
  /-- The last old worm has passed at router `node` (R315). -/
  | drainComplete (node : Nat)
  /-- The drain of router `node` exceeds RT_DRAIN_TMO (R316). -/
  | drainTimeout (node : Nat)
  /-- A write of QU_Qk (R317). -/
  | quenchWrite (ini k : Nat) (val : Word)
  /-- A write of NR_BR_CTRL.ISOLATE of endpoint node `node` (R322). -/
  | bridgeIsolate (ini node : Nat) (on : Bool)
  /-- A write of NR_BR_CTRL.STAT_CLR (R328). -/
  | statClr (ini node : Nat)
  /-- A target has not begun its response within TGT_TMO (R319). -/
  | targetTimeout (node : Nat)
  /-- A request of initiator `ini` with `tag` has no response within RSP_TMO (R321). -/
  | responseTimeout (ini tag : Nat)
  /-- Port `port` of fabric die `die` accepts a beat on RQ (R327). -/
  | rqBeat (die port : Nat) (b : PortBeat)
  /-- The port delivers a beat on RS (R327). -/
  | rsBeat (die port : Nat)
  /-- The port delivers a beat on TQ (R327). -/
  | tqBeat (die port : Nat)
  /-- The port accepts a beat on TR (R327). -/
  | trBeat (die port : Nat) (b : PortBeat)
  -- Seams
  /-- A DATA frame arrives at the endpoint of `seam` on `die`; `crcOk`: its CRC passes; `flaw`: what the hidden code of the
  router finds in its flit, as for a head (R324, R339). -/
  | seamData (die seam link ch seq : Nat) (flit : BitVec 256) (crcOk : Bool) (flaw : Nat)
  /-- An ACK frame arrives: ACK_SEQ and NAK by link (R339). -/
  | seamAck (die seam : Nat) (acks : List (Nat × Bool)) (crcOk : Bool)
  /-- An SCRED frame arrives: counters by link and channel, 5k + c (R340). -/
  | seamScred (die seam : Nat) (counters : List Nat) (crcOk : Bool)
  /-- An HCRED frame arrives (R340). -/
  | seamHcred (die seam : Nat) (counters : List Nat) (crcOk : Bool)
  /-- A TRAIN frame arrives (R342). -/
  | seamTrain (die seam fromDie seamNo : Nat) (widthReq vcEn : Bool) (epoch : Nat) (crcOk : Bool)
  /-- A WIDTH frame arrives (R345). -/
  | seamWidth (die seam : Nat) (widthReq reply crcOk : Bool)
  /-- An IDLE frame arrives (R338). -/
  | seamIdle (die seam : Nat) (crcOk : Bool)
  /-- An ACK (`kind` 2), SCRED (3) or HCRED (4) frame falls due (R338). -/
  | counterFrameDue (die seam kind : Nat)
  /-- ACK_SEQ of `link` has not advanced for 256 frame times (R339). -/
  | replayTimeout (die seam link : Nat)
  /-- No frame passes its CRC for 1 µs (R342). -/
  | seamCrcSilence (die seam : Nat)
  /-- The endpoint completes its training state (R341). -/
  | seamTrainStepDone (die seam : Nat)
  /-- The endpoint has not reached CREDIT 1 ms after RESET (R341). -/
  | seamTrainFail (die seam : Nat)
  /-- The credit conditions hold, `us` after RESET (R344). -/
  | creditConditionsMet (die seam us : Nat)
  /-- A write of SM_CTRL.RETRAIN = 1 (R342). -/
  | retrain (ini die seam : Nat)
  /-- A write of SM_CTRL.VC_EN (R341). -/
  | vcEnWrite (ini die seam : Nat) (on : Bool)
  /-- A write of SM_CTRL.WIDTH_REQ (R345). -/
  | widthReqWrite (ini die seam : Nat) (half : Bool)
  /-- A width step's acknowledgements do not complete in 10 µs (R345). -/
  | widthStepTimeout (die seam : Nat)
  /-- A quiet link channel is audited (R340). -/
  | seamCreditAudit (die seam link ch : Nat)
  -- Die isolation
  /-- A write of DI_CTRL with ISOLATE = 1 (R350). -/
  | dieIsolateWrite (ini die : Nat)
  /-- The heartbeat of a die has not toggled for HB_TMO µs (R350). -/
  | heartbeatTimeout (die : Nat)
  /-- Every seam of a die has been down for 1 ms after S7 (R350). -/
  | seamsDownTimeout (die : Nat)
  /-- The manager of a die requests a die reset (R350). -/
  | dieResetRequest (die : Nat)
  /-- A write of DI_CTRL with REJOIN = 1 (R353). -/
  | rejoin (ini die : Nat)
  /-- The cause of a die's isolation ends with AUTO_REJOIN set (R353). -/
  | autoRejoin (die : Nat)
  /-- The rejoin step of a die completes or fails (R353). -/
  | rejoinStepDone (die : Nat) (ok : Bool)
  -- Lanes
  /-- The transmit synthesiser of device lane `lane` locks (R359). -/
  | synthLocked (lane : Nat)
  /-- Device lane `lane` detects signal (R366). -/
  | signalDetect (lane : Nat)
  /-- Device lane `lane` loses signal; `together`: within 100 ns of every other lane of its bundle (R366, R371). -/
  | signalLoss (lane : Nat) (together : Bool)
  /-- A 2^20-symbol window ends: the samples' 256th extremes per eye (a, b) and the count of samples with |e| above each
  bound 0 to 30 (R361), the converged settings, and the adaptation time in ms. -/
  | lfmWindow (lane : Nat) (eyes : List (Int × Int)) (above : List Nat) (cfg : LaneSettings) (ms : Nat)
  /-- A seeded lane has not reached LFM_MIN within 5 ms (R364). -/
  | seedRejectTimeout (lane : Nat)
  /-- TRAIN or ALIGN of a bundle exceeds its limit (R366). -/
  | bundleTrainTimeout (die k : Nat)
  /-- The PCS locks: the logical lane and the inversion found on each physical lane, and the skew in ps (R366 to R368). -/
  | pcsAligned (die k : Nat) (logical : List Nat) (inverted : List Bool) (skew : Nat)
  /-- The PCS reports loss of alignment (R366). -/
  | alignmentLoss (die k : Nat)
  /-- A write of LB_BCFGk that sets EN (R365). -/
  | bundleEnWrite (ini die k : Nat) (on : Bool)
  /-- A write of LB_BCFGk.RETRAIN = 1 (R366). -/
  | bundleRetrain (ini die k : Nat)
  /-- A write of LB_BCFGk.IDLE (R370). -/
  | bundleIdleWrite (ini die k : Nat) (on : Bool)
  /-- 1 ms after signal returns to an idling bundle (R371). -/
  | idleReturnCheck (die k : Nat)
  /-- A write of LQ_CTRL.SEED_SAVE of device lane `lane` (R363). -/
  | seedSave (ini lane : Nat)
  /-- A write of LQ_CTRL.SEED_CLR (R363). -/
  | seedClr (ini lane : Nat)
  /-- The checker locks (R374). -/
  | checkerLock (lane : Nat)
  /-- A write of LQ_PCHK with CLR = 1 (R374). -/
  | checkerClear (ini lane : Nat)
  /-- A write of LQ_PGEN with INJ_GO = 1 (R375). -/
  | injGo (ini lane : Nat)
  -- Flow slices
  /-- A frame arrives at port `port` of slice die `die`: its bytes through the FCS, the FCS check and MACsec facts
  (R382). `ended` false: the frame is cut short at the MTU or by link loss (R384). -/
  | rxFrame (die port : Nat) (bytes : List (BitVec 8)) (fcsOk : Bool) (sec : SecTag) (ended : Bool)
  /-- The frame at the head of queue `queue` begins transmission (R400). -/
  | txFrameStart (die port queue : Nat)
  /-- The first cell of stream or local frame `id` reaches the egress slice (R395). -/
  | seqRecovery (die id : Nat)
  /-- A stream frame's next packet has not arrived for 10 µs (R384). -/
  | streamPacketTimeout (die id : Nat)
  /-- The background sweep visits context `ctx` (R392). -/
  | meterSweep (die ctx : Nat)
  /-- No frame has reached recovery context `ctx` for CB_RESET_MS (R395). -/
  | cbResetTimeout (die ctx : Nat)
  /-- A gate-list interval of a port ends (R401). -/
  | gateEntryAdvance (die port : Nat)
  /-- The commit point of a port's gate list (R401). -/
  | gclSwitch (die port : Nat)
  /-- 64 core cycles have passed without a frame beginning or ending (R398). -/
  | tokenAudit (die : Nat)
  /-- A write of FS_EM_CMD with GO and LOOKUP (R387). -/
  | lookup (ini die : Nat)
  /-- A write of FS_EM_CMD with GO and INSERT (R387). -/
  | insert (ini die ctx : Nat)
  /-- A write of FS_EM_CMD with GO and DELETE (R387). -/
  | delete (ini die : Nat)
  /-- A write of FS_TBL_CMD with GO and READ (R417). -/
  | tblRead (ini die table index : Nat)
  /-- A write of FS_TBL_CMD with GO and WRITE (R390). -/
  | tblWrite (ini die table index : Nat)
  /-- A write of FS_TBL_CMD with GO and WRITE_CFG (R390). -/
  | writeCfg (ini die table index : Nat)
  /-- A write of FS_TBL_CMD with GO and ZERO (R417). -/
  | zero (ini die table index : Nat)
  /-- A write of FS_ADM_CMD with GO and ADMIT (R413). -/
  | admitCtx (ini die ctx : Nat)
  /-- A write of FS_ADM_CMD with GO and WITHDRAW (R413). -/
  | withdraw (ini die ctx : Nat)
  /-- A write of FS_TRUNKi with RESERVE = 1 (R411). -/
  | trunkReserve (ini die i : Nat)
  /-- A write of FS_TRUNKi with RESERVE = 0 (R411). -/
  | trunkRelease (ini die i : Nat)
  /-- A write of FS_INJ_HEAD (R416). -/
  | injHeadWrite (ini die : Nat) (val : Word)
  /-- The slice reads the inject slot at FS_INJ_TAIL (R416). -/
  | injectSlot (die : Nat)
  /-- A read of FE_TXTS (R407). -/
  | txtsPop (ini die port : Nat) (peek : Bool)
  -- External memory
  /-- A write of PG_CTRL.ENABLE = 1 of channel `ch` (R422). -/
  | ddrEnable (ini ch : Nat)
  /-- The SPD read ends: CAUSE 0 and the geometry, or a CAUSE of R423 (R423). -/
  | spdReadDone (ch cause ranks dens : Nat)
  /-- Training ends after `ms` (R422). -/
  | ddrTrainDone (ch : Nat) (ok : Bool) (ms : Nat)
  /-- A write of PG_CTRL.ENABLE = 0 of channel `ch` (R422). -/
  | ddrDisable (ini ch : Nat)
  /-- A write of MC_CFG.ILV on the page of M0 (R426). -/
  | ilvWrite (ini ilv : Nat)
  /-- A read of line `line` of channel `ch` by `ini`; `errs`: symbol errors met by beat, symbol and value, `hit`: tag-cache
  hit, `tagBad`: its tag line is uncorrectable (R437, R438). -/
  | ddrRead (ch line ini : Nat) (errs : List (Nat × Nat × Nat)) (hit tagBad : Bool)
  /-- The tag result of the oldest speculative read arrives (R440). -/
  | lateTagCheck (ch : Nat)
  /-- A write of bytes at `off` of line `line`; `errs`: symbol errors met where the line is read first (R441). -/
  | ddrWrite (ch line off ini : Nat) (bytes : List (BitVec 8)) (poison : Bool) (errs : List (Nat × Nat × Nat)) (hit tagBad : Bool)
  /-- The bank of line `line` is idle: the oldest corrected line of that bank is written back (R430). -/
  | ddrWriteback (ch line : Nat)
  /-- The patrol reads its next line (R430); operands as of a read. -/
  | ddrPatrolRead (ch : Nat) (errs : List (Nat × Nat × Nat)) (hit tagBad : Bool)
  /-- A write of RNG_CTRL with EN = 1 (R432). -/
  | rangeEnable (ini ch range : Nat)
  /-- Initialisation of a range completes (R433). -/
  | rangeInitDone (ch range : Nat)
  /-- A write of RNG_CTRL with EN = 0 (R432). -/
  | rangeDisable (ini ch range : Nat)
  /-- A write of MC_KEY_DATA (R431). -/
  | keyDataWrite (ini ch : Nat) (val : Word)
  /-- A write of MC_RELEASE with GO (R440). -/
  | mcRelease (ini ch id : Nat)
  -- Processors and hub services
  /-- A write of CL_HART.EN (R447). -/
  | hartEnWrite (ini en : Nat)
  /-- A write of CL_CMO with GO and OP clean (R465). -/
  | cmoClean (ini : Nat)
  /-- A write of CL_CMO with GO and OP invalidate (R465). -/
  | cmoInvalidate (ini : Nat)
  /-- A write of CL_CMO with GO and OP both (R465). -/
  | cmoCleanInvalidate (ini : Nat)
  /-- The cache maintenance operation completes (R465). -/
  | cmoDone
  /-- A write of HD_CTRL.GO of channel `ch` (R450). -/
  | dmaGo (ini ch : Nat)
  /-- A write of HD_CTRL.ABORT (R450). -/
  | dmaAbort (ini ch : Nat)
  /-- The channel has copied `bytes`, and ends with `result`: 0 done, a response code, or 0xE stopped (R450). -/
  | dmaDone (ch bytes result : Nat)
  /-- A write of TB_CTRL.SET (R451). -/
  | timeSet (ini : Nat)
  /-- A write of TB_CTRL.STEP (R451). -/
  | timeStep (ini : Nat)
  /-- The time base reaches TB_CMP (R451). -/
  | timeCompare
  /-- A read of TB_NOW_LO (R451). -/
  | tbNowRead (ini : Nat)
  /-- A write of MB_SEND.GO of mailbox `m` (R454). Host mailboxes: 64 + 16 × controller + number; `bar0`: the access came
  through the function's BAR0. -/
  | send (ini m : Nat) (bar0 : Bool)
  /-- A read of MB_TAKE (R454). -/
  | take (ini m : Nat) (bar0 peek : Bool)
  /-- A write of MB_CTRL.WITHDRAW (R454). -/
  | mbWithdraw (ini m : Nat) (bar0 : Bool)
  /-- A message has been held for MB_TMO (R454). -/
  | mbTimeout (m : Nat)
  /-- The mailbox count equation is audited (R456). -/
  | mailboxAudit (m : Nat)
  /-- Vector `vec` of function `fn` of controller `pc` is unmasked (R457). -/
  | msixUnmask (pc fn vec : Nat)
  /-- A newt core takes the request in mailbox `m` (R598). -/
  | newtRequestTake (m : Nat)
  /-- Newt core `n` answers a request in mailbox 56 + n (R479). -/
  | diePowerReport (n : Nat)
  /-- Newt core `n` answers a request in mailbox 48 + n (R525). -/
  | scrubReport (n : Nat)
  /-- A read of lock word `k` (R459). -/
  | lockRead (ini k : Nat) (peek : Bool)
  /-- A write of lock word `k` (R459). -/
  | lockRelease (ini k : Nat) (val : Word)
  /-- A write of LK_FORCE with GO (R461). -/
  | lockForce (ini k : Nat)
  /-- An event of source `s`: a level change (`level`) or a pulse (R463). -/
  | eventArrival (s : Nat) (level : Option Bool)
  /-- A write of EV_RDATA0 (`word` 0) or EV_RDATA1 (R463). -/
  | evRouteWrite (ini word : Nat) (val : Word)
  /-- A read of EV_CLAIMc (R463). -/
  | evClaim (ini c : Nat) (peek : Bool)
  /-- A write of EV_DONEc (R463). -/
  | evDone (ini c s : Nat)
  /-- A spaced toggle of EVI line `line` of die `die` (R463). -/
  | eviToggle (die line : Nat)
  /-- PERST# of controller `pc` asserts (R469). -/
  | perstAssert (pc : Nat)
  /-- PERST# deasserts (R109). -/
  | perstDeassert (pc : Nat)
  /-- The link comes up (R470). -/
  | pcieLinkUp (pc width gen : Nat) (flit : Bool)
  /-- The link goes down (R461). -/
  | pcieLinkDown (pc : Nat)
  /-- A write of PC_MSI_SEND (`fn` 0) or PC_MSI_SEND1 (R467). -/
  | msiSend (ini pc fn : Nat) (val : Word)
  /-- A write to PC_DOORBELL that sets bits, by software or a downstream device (R468). -/
  | doorbell (ini pc : Nat) (val : Word)
  -- Power
  /-- Domain `idx` of `die` has had no vote or hold for LINGER_US (R476). -/
  | dropStart (die idx : Nat)
  /-- Every acknowledge arrives (R476). -/
  | dropped (die idx : Nat)
  /-- An acknowledge is missing (R476). -/
  | dropDenied (die idx : Nat)
  /-- Something wakes a dropped domain (R477). -/
  | domainWake (die idx : Nat)
  /-- A waking domain is ready after `us` (R477). -/
  | woken (die idx us : Nat)
  /-- The oldest access stalled for the wake has waited 200 µs (R477). -/
  | wakeTimeout (die idx : Nat)
  /-- A write of PD_TORPOR (R480). -/
  | torporArm (ini : Nat) (val : Word)
  /-- ARM is 1 and CORE has no vote (R480). -/
  | torporEntry
  /-- Only AON runs (R480). -/
  | torporEntered
  /-- PD_RTC reaches PD_ALARM (R481). -/
  | rtcAlarm
  /-- A write of PD_RTC_HI (R490). -/
  | rtcHiWrite (ini : Nat) (val : Word)
  /-- VCC_AON is lost (R14). -/
  | vccAonLoss
  /-- A sample: readings by sensor in hundredths of a degree (none: no answer for 1 ms), and the mean power over 1 ms in
  milliwatts (R483). -/
  | governorSample (temps : List (Option Int)) (milliwatts : Nat)
  /-- Descriptor `d` was revoked REVOKE_US ago (R485). -/
  | revokeTimeout (d : Nat)
  /-- The budget equations are audited (R484). -/
  | budgetAudit
  /-- A write of DS_SUBMIT (R486). -/
  | dsSubmit (ini d : Nat)
  /-- The dispatcher issues (R487). -/
  | descriptorIssue
  /-- The refusal pause of queue `q` expires (R487). -/
  | refusalPauseEnd (q : Nat)
  /-- The head of queue `q` has waited RESERVE_US (R487). -/
  | reserveTimeout (q : Nat)
  /-- A write of DS_DONE (R488). -/
  | dsDone (ini d status : Nat)
  /-- A write of DS_REL (R488). -/
  | dsRel (ini d count : Nat)
  /-- A read of DS_CQ (R488). -/
  | dsCqPop (ini : Nat) (peek : Bool)
  /-- A read of DS_MQc (R487). -/
  | dsMqPop (ini c : Nat) (peek : Bool)
  /-- A read of DS_PQn (R487). -/
  | dsPqPop (ini n : Nat) (peek : Bool)
  -- Security commands; `m`: mailbox 40 to 47, or 127 for the test window. `bufOk`: the buffer accesses completed with
  -- code 0; `keepOk`: the Keep writes succeeded
  /-- The security core serves ATTEST from `m` (R507). -/
  | attest (m : Nat) (bufOk : Bool)
  /-- GET_CERT (R502). -/
  | getCert (m : Nat) (bufOk : Bool)
  /-- COMMIT_VERSION (R504). -/
  | commitVersion (m : Nat) (keepOk : Bool)
  /-- SET_CTR (R504). -/
  | setCtr (m : Nat) (keepOk : Bool)
  /-- SIGNER_ADD of the 32-byte hash in the buffer (R503). -/
  | signerAdd (m : Nat) (bufOk keepOk : Bool)
  /-- SIGNER_REVOKE (R503). -/
  | signerRevoke (m : Nat) (keepOk : Bool)
  /-- LC_ADVANCE; `token`: the return token verifies over the identity hash and the valid nonce (R498, R500). -/
  | lcAdvance (m : Nat) (token bufOk keepOk : Bool)
  /-- RETURN_NONCE; `nonce`: the 32 bytes the security core draws (R500). -/
  | returnNonce (m : Nat) (nonce : List (BitVec 8)) (bufOk : Bool)
  /-- PROVISION; `pub`: the public key generated (R502). -/
  | provision (m : Nat) (pub : List (BitVec 8)) (bufOk keepOk : Bool)
  /-- CERT_WRITE of the bytes in the buffer (R502). -/
  | certWrite (m : Nat) (bufOk keepOk : Bool)
  /-- CLEAR_STEST (R501). -/
  | clearStest (m : Nat) (keepOk : Bool)
  /-- A command whose code the table of R505 does not list. -/
  | unknownCommand (m : Nat)
  /-- A write of SC_TGO with GO = 1 (R505). -/
  | testWindowGo (ini : Nat)
  -- Errors, scrubbing, black box
  /-- A report reaches the error unit (R510, R513). -/
  | errorReport (cls die src code info : Nat)
  /-- FATAL_HOLD_MS expires (R515). -/
  | fatalHoldExpiry
  /-- A write of ER_CTRL with DONE = 1 (R514). -/
  | errorDone (ini : Nat) (val : Word)
  /-- The engine of `die` reads the frame at its position; `errs`: by 64-bit word, the bits of the stored 72-bit word that
  are turned (R519). -/
  | scrubFrameRead (die : Nat) (errs : List (Nat × BitVec 72))
  /-- The regeneration of the frame completes; `reads`: what was read from each source that could be (R520, R521). -/
  | regenDone (die : Nat) (reads : List RegenRead)
  /-- A write of AX_CTRL (R524). -/
  | axEnWrite (ini die : Nat) (val : Word)
  /-- The hub has seen no heartbeat of `die` for SCRUB_TMO_MS (R524). -/
  | scrubHeartbeatMiss (die : Nat)
  /-- The recorder writes the next queued entry (R530). -/
  | bbEntryWrite
  /-- A write of BB_MARK (R529). -/
  | bbMark (ini : Nat) (val : Word)
  /-- The ring and header are copied with REASON `reason`; `ok`: every unit could be programmed (R532). -/
  | bbCopy (reason : Nat) (ok : Bool)
  /-- A write of BB_XFER_CTRL with GO = 1 (R533). -/
  | bbXferGo (ini : Nat)
  /-- The transfer ends; `ok`: every write completed with code 0 (R533). -/
  | bbXferDone (ok : Bool)
  -- Shut-down and self-test
  /-- PFW_N is recognised low (R538). -/
  | pfwFall
  /-- PFW_N is recognised high (R541). -/
  | pfwRise
  /-- The present step of R538 ends and the next begins. -/
  | lastGaspStepDone
  /-- Network `net` of `die` has not captured; 20 µs after the trigger, or with `late` 100 µs (R540). -/
  | captureStopTimeout (die net : Nat) (late : Bool)
  /-- A write of SD_CTRL with ARM = 1 (R542). -/
  | sdArm (ini : Nat)
  /-- The size computation completes (R542). -/
  | armDone
  /-- A write of SD_CTRL with DISARM = 1 (R543). -/
  | disarm (ini : Nat)
  /-- A write of SD_CTRL with SHDN = 1 (R549). -/
  | shdn (ini : Nat)
  /-- SHDN_REQ_N is recognised low (R549). -/
  | shdnReqNLow
  /-- The shut-down self-test ends after `ms`; `fail`: die, region and index of the first failure (R549, R553). -/
  | shutdownSelftestDone (ms : Nat) (fail : Option (Nat × Nat × Nat))
  /-- A write of ST_CMD with GO = 1 (R554). -/
  | selftestGo (ini die : Nat) (val : Word)
  /-- A direct self-test completes: `fail`, the index of the first failure (R557). -/
  | selftestDone (die : Nat) (fail : Option Nat)
  -- Debug and run control
  /-- TMS has been high on five rising TCK edges (R558). -/
  | testLogicReset
  /-- EXTEST is loaded (R559). -/
  | extest
  /-- SAMPLE/PRELOAD: `sampled` pin levels are captured and `preload` is shifted in, in BSDL order (R558). -/
  | samplePreload (sampled preload : List Bool)
  /-- IDCODE is loaded and captured (R558). -/
  | idcode
  /-- CLAMP is loaded (R559). -/
  | clamp
  /-- HIGHZ is loaded (R559). -/
  | highz
  /-- BYPASS, or a code `ir` not listed, is loaded (R558). -/
  | bypass (ir : Nat)
  /-- Update-DR of DBG_ACC with the 80 shifted bits (R560). -/
  | dbgAcc (dr : BitVec 80)
  /-- The debug access in progress completes (R560). -/
  | dbgAccDone
  /-- Capture-DR and Update-DR of DBG_STAT with the 32 shifted bits (R562). -/
  | dbgStat (dr : Word)
  /-- A write of DB_HALT whose HALT_REQ is `cores` (R563). -/
  | haltReq (ini cores : Nat)
  /-- A write of DB_HALT whose RESUME_REQ is `cores` (R566). -/
  | resumeReq (ini cores : Nat)
  /-- A write of DB_HALT whose STEP is `cores` (R566). -/
  | step (ini cores : Nat)
  /-- Core `c` halts for `cause`, with HIT `hit`; `regs`: its registers at the boundary, by REG (R563). -/
  | coreHalt (c cause hit : Nat) (regs : List (Nat × BitVec 64))
  /-- A write of DB_REGCMD with GO = 1 (R566). -/
  | dbRegcmd (ini : Nat) (val : Word)
  /-- A write of DB_LE with GO and OP HALT (R570). -/
  | leHalt (ini die eng : Nat)
  /-- A write of DB_LE with GO and OP RESUME (R570). -/
  | leResume (ini die eng : Nat)
  /-- A write of DB_LE with GO and OP STEP (R570). -/
  | leStep (ini die eng : Nat)
  /-- The oldest queued trace entry is written (R571). -/
  | traceEntryWrite
  /-- A write of WD_KICKc (R572). -/
  | watchdogKick (ini c : Nat) (val : Word)
  /-- The watchdog of core `c` reaches 0 (R572). -/
  | watchdogExpiry (c : Nat)
  /-- A write of WD_SENT_CTRL (R573). -/
  | sentinelStart (ini : Nat) (val : Word)
  /-- A write of WD_SENT_KICK (R573). -/
  | sentinelKick (ini : Nat) (val : Word)
  /-- The sentinel reaches 0 (R573). -/
  | sentinelBite
  -- Pins, supplies and the remaining events
  /-- Rail `rail` (8: a VCCIO) is outside its window for 2 µs (R589). -/
  | brownOut (rail : Nat)
  /-- The hottest valid sensor has read at least TRIP_C for 1 ms (R593). -/
  | thermalTrip
  /-- A write of IO_SAFE`i` of bank page `a` of `die` (R584). -/
  | ioSafeWrite (ini die a i : Nat) (val : Word)
  /-- Edges of a failed oscillator return (R63, R64). -/
  | oscEdgesReturn (o : Osc)
  /-- SRC_SEL changes during S0 (R90). -/
  | srcSelChange (sel : Nat)
  /-- More than 256 bit errors within 4,096 bits: the checker of `lane` loses lock (R374). -/
  | patternCheckerLockLoss (lane : Nat)
  /-- The transmit synthesiser of `lane` loses lock (R377). -/
  | synthesiserUnlock (lane : Nat)
  /-- The frame at port `port` of slice die `die` has left (R400). -/
  | txFrameEnd (die port : Nat)
  /-- VCC_AON becomes valid (R558). -/
  | vccAonValid
  deriving DecidableEq, Repr

end Sys2Proof
end

