-- ==== Sys2Proof/Decode.lean ====
section
/-! DEFINITION. The words of commands and of loop-engine instructions. -/

namespace Sys2Proof

/-- No row of the command table has bits: no word spells a command (log 3). -/
def decodeTableWord (nbits w : Nat) : Option Instr :=
  match nbits, w with
  | _, _ => none

end Sys2Proof
end

