-- ==== Sys2Proof/Config.lean ====
section
/-! DEFINITION. What one device fixes and the manual does not state, and the free values: constants without a body, so
that no proof can lean on a number for them. -/

namespace Sys2Proof

/-- The device is of speed grade 2 (00_scope.md R2). -/
opaque Config.grade2 : Bool
/-- PCIe vendor ID of PC_IDS (17_processors.md R470: "Welerron's ID"). -/
opaque Config.vendorId : BitVec 16
/-- Manufacturer code of IDCODE (22_debug.md R558: "as stated in the BSDL file"). -/
opaque Config.idcodeMfr : BitVec 11
/-- Identity hash and digests: SHAKE256 with 32-byte output (19_security.md R494). -/
opaque Config.shake256 : List Byte → BitVec 256
/-- The device secret of the one-time-programmable cells (19_security.md R493). -/
opaque Config.deviceSecret : BitVec 256
/-- KMAC256 of a message under a key with a customisation string, as many bits as asked for (19_security.md R493, R494). -/
opaque Config.kmac256 : (key : BitVec 256) → (custom : String) → (bits : Nat) → List Byte → Nat
/-- AES-256-GCM wrapping of a private key under a key, and the private key a wrapped one holds (19_security.md R493,
R496). -/
opaque Config.gcmWrap : BitVec 256 → List Byte → List Byte
@[inherit_doc Config.gcmWrap] opaque Config.gcmOpen : BitVec 256 → List Byte → List Byte
/-- The private key of the n-th Falcon-1024 pair the entropy source gives (19_security.md R502). -/
opaque Config.falconPrivate : Nat → List Byte
/-- Padded Falcon-1024 signature over bytes under a private key, drawn with the n-th random salt (19_security.md R502,
R507). -/
opaque Config.falconSign : (key : List Byte) → (salt : Nat) → List Byte → List Byte
/-- Bytes of the xSPI flash, the size of that source of an image (05_images.md R121; 04_start.md R114 gives no size). -/
opaque Config.flashBytes : Nat
/-- Bytes a host may push, the size of that source of an image (05_images.md R121; 04_start.md R115 gives no size). -/
opaque Config.hostBytes : Nat
/-- Logic column of the tile at which a user pin joins the routing, by die × 256 + pin of the die (23_pins.md R583:
"published with Pecel"). -/
opaque Config.pinColumn : Nat → Nat
/-- Row of the tile at which a user pin joins the routing and the multiplexer of it that serves the pin's output, by die × 256 +
pin of the die (23_pins.md R583: "published with Pecel"). -/
opaque Config.pinMux : Nat → Nat × Nat
/-- Cells of the boundary-scan register that hold a pin's level and its enable, by the numbers of `Machine.ctrlCell` (22_debug.md
R559: "The BSDL file gives the order of the cells"). -/
opaque Config.scanCells : Nat → Nat × Nat
/-- The wire that tile multiplexer `mux` of tile (c, t) of a die selects with select bits `sel`, the bits 800 to 1,599 of the
tile vector (07_fabric.md R167: "published with Pecel"). -/
opaque Config.muxSource : (mux sel die c t : Nat) → Wire
/-- FVAL of tile multiplexer `mux` where its FEN is 1 (09_partitions.md R219: "at positions published with Pecel"). -/
opaque Config.muxFence : (mux sel : Nat) → Option Bool
/-- Operation code of MGMT DRAIN in ARG0 (12_noc.md R297, R315: the operations are named, their codes are not). -/
opaque Config.drainOp : Nat
/-- Level of a hard block's signal that no command of the table shows, in the n-th state of the design (log 8). -/
opaque Config.hardLevel : Nat → Wire → Bool
/-- What a combinational loop of the fabric settles to (log 89). -/
opaque Config.loopLevel : Nat → Wire → Bool
/-- Response buffer of an initiator bridge, in flits, by node (12_noc.md R306, R307: RSPBUF, no figure given). -/
opaque Config.rspBuf : Nat → Nat
/-- What a line holds that was encrypted under key set `set` when it is read as it is stored (`now` 0) or under another
key set: bytes as AES-256-XTS leaves them, by key set, key set now, address and plaintext (16_external_memory.md R434). -/
opaque Config.ddrCipher : (set now addr : Nat) → List Byte → List Byte
/-- What the parser of a flow slice compares where a compared byte lies beyond the frame or its first 128 bytes, by the byte's
offset (15_flow_slices.md R386; log 106). -/
opaque Config.parseBeyond : Nat → BitVec 8
/-- The n-th free value: a value the manual leaves open (log 5). -/
opaque Config.freeValue : Nat → BitVec 2048

end Sys2Proof
end

