-- ==== Sys2Proof/Machine/State.lean ====
section
/-! DEFINITION. The state of the block as plain data, and its value at reset. Registers of the register pages are one
sparse list; everything the manual gives the machine beside them stands in one structure a chapter. Each field's comment
gives its width, the rule of spec/ that names it and its reset value. -/

namespace Sys2Proof.Machine

/-- The answer the last access or command port gave: the response code of R300 and the data word. -/
structure Resp where
  /-- response code of the last access [4 bits; 12_noc.md R300; reset 0, DESIGN CHOICE (log 4)] -/
  code : Nat := 0
  /-- data of the last read [32 bits or wider for a multi-word access; 02_register_pages.md R37; reset 0, DESIGN CHOICE (log 4)] -/
  data : Nat := 0
  deriving DecidableEq, Repr

/-- An access to a register that stalls (R31, R37, R45, R80). -/
structure Stall where
  /-- initiator ID of the access -/
  ini : Nat
  /-- it comes through BAR0 of a PCIe function -/
  bar0 : Bool := false
  /-- register-space offset -/
  reg : Nat
  wr : Bool
  /-- the word of a write; of a read, 1 where it carries PEEK -/
  val : Word
  /-- the broadcast write it is a copy of -/
  bcast : Option Nat := none
  deriving DecidableEq, Repr

/-- A broadcast write whose copies have not all ended (R58, R59). -/
structure Bcast where
  /-- number its copies carry -/
  no : Nat
  /-- copies that still stall -/
  left : Nat
  /-- code of the copies that have ended, merged -/
  code : Nat
  /-- its initiator, and its offset in register space -/
  ini : Nat := 0
  reg : Nat := 0
  /-- the packet it came in, with its target node; none: a command's -/
  pkt : Option (Nat × Packet) := none
  deriving DecidableEq, Repr

/-- Hidden state of the register pages beside their 32-bit registers. -/
structure PageState where
  /-- every register of every page by register-space offset (die, block, offset): registers not listed hold the After reset value of their map [32 bits each; 01_package.md R32, R33; reset: nothing listed] -/
  regs : Tab Word := []
  /-- held values of SHADOW fields, by register [32 bits each; 02_register_pages.md R54; reset: none] -/
  held : Tab Word := []
  /-- committed values of SHADOW fields not yet in effect [32 bits each; 02_register_pages.md R54; reset: none] -/
  committed : Tab Word := []
  /-- ONCE fields already written since device reset, by register, as a bit mask [32 bits each; 00_scope.md R10; reset: none] -/
  onceDone : Tab Word := []
  /-- pages whose soft reset is in progress [1 bit a page; 02_register_pages.md R45; reset: none] -/
  srst : List Nat := []
  /-- accesses that stall on a soft reset, a domain, a clock switch or an earlier access of their initiator to their page, oldest first [list; 02_register_pages.md R37, R45, 01_package.md R31, 03_clocks.md R80; reset: empty] -/
  stalled : List Stall := []
  /-- broadcast writes with copies that stall [list; 02_register_pages.md R58; reset: none] -/
  bcasts : List Bcast := []
  /-- registers whose held or committed SHADOW value a sequence table wrote [1 bit a register; 04_start.md R97, 06_keep.md R144; reset: none] -/
  fromTable : List Nat := []
  deriving DecidableEq, Repr

/-- Where an oscillator stands with the monitor. -/
inductive OscPhase where
  | stopped    -- no edges; a count starts when edges return
  | counting   -- a qualification count of R62 runs
  | running    -- qualified and watched under R63 or R64
  deriving DecidableEq, Repr

/-- Hidden state of the clock unit. -/
structure ClkState where
  /-- monitor phase of XO_A [3 values; 03_clocks.md R62, R63; reset counting] -/
  xoA : OscPhase := .counting
  /-- monitor phase of XO_B [3 values; 03_clocks.md R62, R63; reset counting] -/
  xoB : OscPhase := .counting
  /-- monitor phase of the RTC crystal, kept while VCC_AON is valid [3 values; 03_clocks.md R62, R64; reset counting] -/
  rtc : OscPhase := .counting
  /-- CD2, CD3, CD6 and CD7 still take the RC oscillator [1 bit; 03_clocks.md R67; reset true] -/
  hubOnRc : Bool := true
  /-- an XO has been chosen in this start and the hub PLL references follow it [1 bit; 03_clocks.md R66, R67; reset false] -/
  xoChosen : Bool := false
  /-- the XO switch in progress and its target (true: XO_B) [optional bit; 03_clocks.md R80; reset none] -/
  xoSwitch : Option Bool := none
  /-- clock source and divider in effect of a domain whose CD_CFG was written while its switch runs or its gate is closed, by domain [11 bits each; 03_clocks.md R84; reset: none] -/
  cdEff : Tab Nat := []
  /-- domains whose gate request waits for a switch to complete [1 bit each; 03_clocks.md R84; reset: none] -/
  gateWait : List Nat := []
  deriving DecidableEq, Repr

/-- Where the start sequencer stands. -/
inductive StartPhase where
  | off        -- supplies not valid
  | resetHeld  -- RESET_N low: start abandoned, waiting for it to rise
  | pfwHeld    -- PFW_N low during a start
  | s0 | s1 | s1Hold
  | s2Pll      -- R67 steps 1 to 4
  | s2Records  -- R91 steps 1 and 2
  | s2Quick    -- R91 step 3
  | s2HostHold -- R116: SRC_SEL 0b11, waiting for START
  | s2Header   -- R91 steps 5 to 7
  | s2Tables   -- R91 step 8: the table stream arrives
  | s3 | s4 | s5 | s6 | s7
  | ready      -- S8 reached
  | clearing   -- R103: configuration is being cleared before GOLDEN
  | safe       -- safe state of R104 or after a FATAL
  | down       -- shut-down, torpor or another way down that ended without the safe state
  deriving DecidableEq, Repr

/-- One 16-byte sequence-table entry (R96). -/
structure SeqEntry where
  blk : Nat
  die : Nat
  action : Nat
  stage : Nat
  timeout : Nat
  off : Nat
  value : Word
  mask : Word
  deriving DecidableEq, Repr

/-- A boot record copy (R94). -/
structure BootRec where
  seq : Nat
  primary : Nat
  trial : Nat
  trialLeft : Nat
  flags : Nat
  tagOk : Bool
  deriving DecidableEq, Repr

/-- Hidden state of the start sequencer. -/
structure StartState where
  /-- phase of the start [19 values; 04_start.md R88; reset s0 (a start trigger has come)] -/
  phase : StartPhase := .s0
  /-- the image being loaded is GOLDEN after a failure [1 bit; 04_start.md R103; reset false] -/
  golden : Bool := false
  /-- image source of the load in progress: 0 Keep, 1 xSPI, 2 host push [2 bits; 04_start.md R90, R116; reset 0] -/
  source : Nat := 0
  /-- Keep slot of the load in progress, 1 A, 2 B, 3 GOLDEN, 0 none [2 bits; 04_start.md R95; reset 0] -/
  slot : Nat := 0
  /-- sequence table of the image, in order [up to 4,096 entries; 04_start.md R96; reset: empty] -/
  table : List SeqEntry := []
  /-- index of the entry the table engine stands at [12 bits; 04_start.md R97; reset 0] -/
  idx : Nat := 0
  /-- registers that S6 restored from a valid journal record [list of register offsets; 04_start.md R97; reset: none] -/
  restored : List Nat := []
  /-- the last start was abandoned by RESET_N or PFW_N [1 bit; 04_start.md R112; reset false] -/
  abandoned : Bool := false
  /-- SHDN_REQ_N was low during the start and is held for after S8 [1 bit; 04_start.md R112; reset false] -/
  shdnHeld : Bool := false
  /-- keep dies unreachable in this start, K0 and K1 [2 bits; 04_start.md R67, R600; reset false] -/
  k0Lost : Bool := false
  k1Lost : Bool := false
  /-- S01 or SL0 has not reached MGMT in this start, so no host push can come [1 bit; 03_clocks.md R67; reset false] -/
  srcLost : Bool := false
  /-- READY pin [1 bit; 04_start.md R110; reset low] -/
  ready : Bool := false
  /-- FAIL_N pin low [1 bit; 04_start.md R111; reset false (FAIL_N high)] -/
  failLow : Bool := false
  deriving DecidableEq, Repr

/-- Progress of one stream of a load (R125, R127, R128). -/
structure StreamProg where
  /-- frames decoded so far -/
  frames : Nat := 0
  /-- stored bytes consumed so far -/
  bytes : Nat := 0
  /-- payload of the previous frame of the stream, for REPEAT -/
  prev : Option Frame := none
  /-- payloads of the present group, in order of arrival -/
  group : List Frame := []
  /-- target space of the present segment -/
  target : Nat := 0
  /-- next frame address of the present segment -/
  addr : Nat := 0
  /-- frames left in the present segment; 0: a descriptor is next -/
  left : Nat := 0
  deriving DecidableEq, Repr

/-- A segment of a die stream: the stream frame of its first payload, and where its frames go (R125). -/
structure SegRun where
  frame : Nat
  target : Nat
  addr : Nat
  count : Nat
  deriving DecidableEq, Repr

/-- Where a group of a stream begins: its stored offset in the stream, and the payload before it, which a REPEAT at its start
repeats (R124). -/
structure GroupMark where
  bytes : Nat := 0
  prev : Option Frame := none
  deriving DecidableEq, Repr

/-- Hidden state of the image loader. -/
structure LoadState where
  /-- header of the image being loaded or last loaded [1,024 bytes; 05_images.md R120; reset: all zero] -/
  hdr : Header := { }
  /-- the start stopped the load: no further frame is taken [1 bit; 05_images.md R131; reset false] -/
  stopped : Bool := false
  /-- node table read in S2, node 0 first [NODE_COUNT × 256 bits; 05_images.md R126; reset: empty] -/
  nodes : List (BitVec 256) := []
  /-- nodes whose trust bit is set [1 bit a node; 05_images.md R127; reset: none] -/
  trusted : List Nat := []
  /-- progress by stream: 0 to 14 dies, 16 the table stream [see StreamProg; 05_images.md R125, R128; reset: start] -/
  prog : Tab StreamProg := []
  /-- decompressed table stream so far [frames of 2,048 bits; 05_images.md R125; reset: empty] -/
  tableFrames : List Frame := []
  /-- segment map of each die's stream, kept by its newt core, segments in stream order [list by die; 20_errors.md R520; reset: empty] -/
  segMap : Tab (List SegRun) := []
  /-- group index kept beside the map, by group [stored offset; 20_errors.md R520; reset: empty] -/
  groupIdx : Tab GroupMark := []
  /-- next byte expected in the host load window [bytes; 05_images.md R132; reset 0] -/
  hostNext : Nat := 0
  /-- fabric configuration content by die and frame address (targets 0x01, not yet written: zero) [2,048 bits a frame; 07_fabric.md R168; reset: all zero, DESIGN CHOICE (log 6)] -/
  cfg : Tab Frame := []
  /-- memories whose contents were written since the load began: die × 1,048,576 + bank memory, or + 65,536 + deep memory [1 bit each; 04_start.md R105, 08_memories.md R201; reset: none] -/
  bankInit : List Nat := []
  deriving DecidableEq, Repr

/-- A journal record unit (R143). -/
structure JUnit where
  seq : Nat
  page : Nat
  pageId : Word
  sel : Word
  /-- entries: register offset and value -/
  entries : List (Nat × Word)
  magicOk : Bool := true
  tagOk : Bool := true
  committed : Bool
  readable : Bool := true
  deriving DecidableEq, Repr

/-- A unit of the merge buffer of the user area (R151): unit number and the bytes written so far. -/
structure MergeBuf where
  unit : Nat
  bytes : List Host.Cell
  deriving DecidableEq, Repr

/-- A transfer of the Keep as GO started it (R142). -/
structure XferRun where
  slot : Nat
  /-- Keep to memory -/
  out : Bool
  off : Nat
  len : Nat
  addr : Nat
  deriving DecidableEq, Repr

/-- Hidden state of the Keep and of its controller. -/
structure KeepState where
  /-- directory copies accepted on K0 and K1 [1 bit each; 06_keep.md R138; reset true, DESIGN CHOICE (log 7): provisioned] -/
  dir0 : Bool := true
  dir1 : Bool := true
  /-- boot record copies on K0 and K1 [64 bytes each; 06_keep.md R139, 04_start.md R94; reset none, DESIGN CHOICE (log 7)] -/
  boot0 : Option BootRec := none
  boot1 : Option BootRec := none
  /-- boot record being programmed [64 bytes; 06_keep.md R140; reset none] -/
  bootWr : Option BootRec := none
  /-- anti-rollback counter copies by counter, K0 and K1: value, none when the tag does not verify [16 bits; 06_keep.md R141; reset 0] -/
  ctr0 : Tab (Option Nat) := []
  ctr1 : Tab (Option Nat) := []
  /-- journal units by number; an unlisted unit holds no record [4 KiB each, 16,384 units; 06_keep.md R143; reset: none] -/
  journal : Tab (Option JUnit) := []
  /-- journal head [14 bits; 06_keep.md R145; reset 0] -/
  head : Nat := 0
  /-- pages with an open coalescing window, oldest first [at most 1,024; 06_keep.md R144; reset: none] -/
  windows : List Nat := []
  /-- appended records whose COMMIT is not yet programmed, oldest first: unit number and record [list; 06_keep.md R145; reset: none] -/
  appends : List (Nat × JUnit) := []
  /-- a way down has begun: no further record is requested [1 bit; 06_keep.md R146, 21_shutdown.md R538; reset false] -/
  pfwClosed : Bool := false
  /-- PFW_N has fallen in this start: the user area takes no write [1 bit; 06_keep.md R151; reset false] -/
  pfwLow : Bool := false
  /-- transfer in progress [slot 2 bits, direction 1 bit, offset and length 19 bits, address 42 bits; 06_keep.md R142; reset none] -/
  xfer : Option XferRun := none
  /-- merge buffer of K0 (even units) and K1 (odd units), oldest first [64 units each; 06_keep.md R151; reset: empty] -/
  merge0 : List MergeBuf := []
  merge1 : List MergeBuf := []
  /-- user area bytes by offset in the area [2 GiB; 06_keep.md R151; reset: unwritten bytes read 0, DESIGN CHOICE (log 6)] -/
  user : List Host.Cell := []
  /-- image slot bytes by slot and offset (slot × 0x5000_0000 + offset) [3 × 1,280 MiB; 06_keep.md R137; reset: unwritten bytes read 0, DESIGN CHOICE (log 6)] -/
  slots : List Host.Cell := []
  /-- write counters by die and unit on the die [17 bits each; 06_keep.md R134, R149; reset 0] -/
  wear : Tab Nat := []
  /-- bit errors of a stored unit, by die and unit on the die: up to 40 are corrected at a read [15 bits each; 06_keep.md R135; reset: none] -/
  bitErr : Tab Nat := []
  /-- remap table: retired unit to spare unit, by die and unit [06_keep.md R149; reset: empty] -/
  remap : Tab Nat := []
  deriving DecidableEq, Repr

/-- A capture in progress on one die (R185). -/
structure CapRun where
  /-- networks still to capture: bits 0–31 GCK, 32–95 BCK -/
  left : List Nat
  /-- STOP of this capture -/
  stop : Bool
  deriving DecidableEq, Repr

/-- A readback in progress or waiting on one die (R187). -/
structure RbRun where
  frame : Nat
  left : Nat
  dst : Nat
  /-- waits for a capture to finish (R186) -/
  waiting : Bool
  deriving DecidableEq, Repr

/-- Hidden state of the fabric. -/
structure FabState where
  /-- present flip-flop values, laid out as CAPTURE frames, by die and frame 0 to 2,999 [2,048 bits; 07_fabric.md R158, R184; reset 0, DESIGN CHOICE (log 8)] -/
  ff : Tab Frame := []
  /-- shadow latches, laid out as CAPTURE frames, by die and frame [2,048 bits; 07_fabric.md R184; reset 0, DESIGN CHOICE (log 8)] -/
  shadow : Tab Frame := []
  /-- configuration bits turned by upsets, by die and frame address, as an exclusive-or mask over the stored frame [2,048 bits; 07_fabric.md R166, 20_errors.md R519; reset: none] -/
  upset : Tab Frame := []
  /-- capture in progress by die [07_fabric.md R185; reset: none] -/
  cap : Tab (Option CapRun) := []
  /-- readback in progress by die [07_fabric.md R187; reset: none] -/
  rb : Tab (Option RbRun) := []
  /-- level of the EVO lines by die, bit i for EVOi [16 bits a die; 07_fabric.md R190; reset 0] -/
  evo : Tab Nat := []
  /-- the static region of a die is released [1 bit a die; 07_fabric.md R176, 04_start.md R100; reset: held] -/
  staticOn : List Nat := []
  /-- clock networks at high level, by die and network [1 bit each; 07_fabric.md R171, R174; reset: all low] -/
  netHigh : List Nat := []
  /-- rising edges of a network since the release of an extent, counted to 4, by die, extent (partition, 64 static region) and network [3 bits each; 07_fabric.md R177; reset: none] -/
  relEdges : Tab Nat := []
  /-- launch registers of outgoing crossing wires, by die, side and group [256 bits each; 07_fabric.md R180, R181; reset 0, DESIGN CHOICE (log 8)] -/
  xgLaunch : Tab (BitVec 256) := []
  /-- values under way over a crossing group, taken one edge after their launch [256 bits each; 07_fabric.md R181; reset 0, DESIGN CHOICE (log 8)] -/
  xgMid : Tab (BitVec 256) := []
  /-- capture registers of incoming crossing wires, by die, side and group [256 bits each; 07_fabric.md R180, R181; reset 0, DESIGN CHOICE (log 8)] -/
  xgCap : Tab (BitVec 256) := []
  deriving DecidableEq, Repr

/-- One bank memory (R194 to R207). -/
structure Bank where
  /-- array content by physical row -/
  rows : Tab (BitVec 72) := []
  /-- output word and pipeline register of ports A and B -/
  doA : BitVec 72 := 0
  doB : BitVec 72 := 0
  preA : BitVec 72 := 0
  preB : BitVec 72 := 0
  /-- what SBE_x and DBE_x say with them: 0 clean, 1 corrected, 2 uncorrectable -/
  errA : Nat := 0
  errB : Nat := 0
  preErrA : Nat := 0
  preErrB : Nat := 0
  /-- FLAG_B[0] in token mode: the take of the last port-B edge was granted -/
  grant : Bool := false
  /-- queue entries in this stage, head first -/
  q : List (BitVec 72) := []
  /-- entries accepted that the read side does not see yet -/
  unseenW : Nat := 0
  /-- deliveries the write side does not see yet -/
  unseenR : Nat := 0
  /-- tokens in the pool -/
  tok : Nat := 0
  deriving DecidableEq, Repr

/-- A request on a deep memory's fabric port (R209). -/
structure DmReq where
  we : Bool
  addr : Nat
  data : BitVec 64
  be : BitVec 8
  deriving DecidableEq, Repr

/-- One deep memory (R208 to R212). -/
structure Deep where
  /-- 72-bit words: data in bits 63 to 0, check bits above -/
  words : Tab (BitVec 72) := []
  /-- fabric requests accepted and not answered, oldest first -/
  reqs : List DmReq := []
  /-- queue entries, head first, with check bits -/
  q : List (BitVec 72) := []
  unseenW : Nat := 0
  unseenR : Nat := 0
  /-- corrected words waiting for their write back -/
  wb : List (Nat × BitVec 72) := []
  /-- next word of the patrol -/
  patrol : Nat := 0
  /-- response on the fabric port: it is valid in this cycle, its data and error -/
  rspValid : Bool := false
  rspData : BitVec 64 := 0
  rspErr : Bool := false
  deriving DecidableEq, Repr

/-- A NoC access to a deep memory (R210, R211). -/
inductive DmOp where
  | access (we : Bool) (off len : Nat) (bytes : List (BitVec 8))
  | push (off : Nat) (bytes : List (BitVec 8))
  | pop (off len : Nat) (peek : Bool)
  deriving DecidableEq, Repr

/-- Hidden state of the fabric's memories. -/
structure MemState where
  /-- bank memories by die and number [73,728 bits and controller each; 08_memories.md R194 to R207; reset: zero array, empty queues] -/
  banks : Tab Bank := []
  /-- deep memories by die and number [131,072 × 72 bits and controller each; 08_memories.md R208 to R212; reset: zero array, empty queues] -/
  deeps : Tab Deep := []
  /-- NoC accesses to deep memories that stall until their band has woken, oldest first: die, memory and access [list; 01_package.md R31, 08_memories.md R213; reset: none] -/
  waits : List (Nat × Nat × DmOp) := []
  deriving DecidableEq, Repr

/-- One entry of the partition table (R217). -/
structure PartEntry where
  no : Nat
  die : Nat
  cFirst : Nat
  cLast : Nat
  client : Nat
  flags : Nat
  deriving DecidableEq, Repr

/-- A load of the ICP of one die (R225 to R231). -/
structure IcpLoad where
  /-- bytes received so far -/
  bytes : Nat := 0
  /-- IMAGE_LEN once the header is known; the word in progress carries ICP_LAST -/
  last : Bool := false
  hdr : Header := { }
  nodes : List (BitVec 256) := []
  trusted : List Nat := []
  /-- group index next to write -/
  group : Nat := 0
  prog : StreamProg := { }
  /-- stored bytes of the die stream received and not yet taken, in the group buffers -/
  buf : List Byte := []
  /-- segments met so far -/
  segs : List SegRun := []
  /-- groups a RELOAD has yet to read -/
  todo : List Nat := []
  /-- state the partition had before LOADING -/
  before : Nat := 0
  /-- the header checks passed and the partition is LOADING -/
  entered : Bool := false
  /-- a frame was written -/
  wrote : Bool := false
  deriving DecidableEq, Repr

/-- What regeneration uses of the partial image a SOURCE 1 partition was loaded from (R232): the user-area address of its copy,
its ROOT and GROUP_COUNT, and its segments. -/
structure PartImage where
  src : Nat := 0
  root : Nat := 0
  groups : Nat := 0
  segs : List SegRun := []
  deriving DecidableEq, Repr

/-- Hidden state of the partitions. -/
structure PartState where
  /-- partition table of the active image [up to 64 entries; 09_partitions.md R217; reset: empty] -/
  parts : List PartEntry := []
  /-- ICP_GCK bytes of the partition table, die 0 first [8 bits each; 09_partitions.md R217; reset: empty] -/
  icpGck : List Nat := []
  /-- load of the ICP by die [09_partitions.md R225; reset: none] -/
  icp : Tab (Option IcpLoad) := []
  /-- release in progress: partitions whose RELEASE has not completed [1 bit each; 09_partitions.md R224; reset: none] -/
  releasing : List Nat := []
  /-- partial image of each SOURCE 1 partition, by partition [see PartImage; 09_partitions.md R232; reset: none] -/
  image : Tab PartImage := []
  deriving DecidableEq, Repr

/-- Where a start came from (R257). -/
inductive StartSrc where
  | fabric | dispatcher | software
  deriving DecidableEq, Repr

/-- A queued or running start (R257). -/
structure LeStart where
  src : StartSrc
  vec : Nat
  arg : BitVec 24
  /-- dispatcher descriptor number, for its completion -/
  desc : Nat := 0
  deriving DecidableEq, Repr

/-- One stream beat (R261). -/
structure Beat where
  data : BitVec 96
  last : Bool
  deriving DecidableEq, Repr

/-- A NoC descriptor of an engine (R263). -/
structure LeDesc where
  localA : Nat := 0
  remLo : Word := 0
  remHi : Nat := 0
  count : Nat := 0
  dir : Bool := false
  busy : Bool := false
  done : Bool := false
  err : Bool := false
  /-- started by the run in progress with DIR = 1 -/
  ofRun : Bool := false
  /-- the access has ended at the bridge: its code and bytes -/
  resp : Option (Nat × List Byte) := none
  /-- the run was aborted with the request sent: the response is absorbed and the descriptor then clears (R260) -/
  dropped : Bool := false
  deriving DecidableEq, Repr

/-- What an interlock remembers of an issued instruction (R252): a load or pop into a data register, an M-slot write of an
accumulator, an extraction into a data register, a move into a register of the state map, a flag-setting operation. -/
inductive LeHazard where
  | load (r : Nat) | acc (i : Nat) | ext (r : Nat) | move (reg : Nat) | flags
  deriving DecidableEq, Repr

/-- State of an engine's sequencer (R256). -/
inductive LeMode where
  | off | idle | run | halt | exc | direct
  deriving DecidableEq, Repr

/-- How a run ended (R259). -/
inductive RunStatus where
  | ok | exc | aborted
  deriving DecidableEq, Repr

/-- One loop engine (R238). -/
structure Engine where
  mode : LeMode := .off
  /-- state before a halt, for resume -/
  before : LeMode := .idle
  a : Tab (BitVec 56) := []
  d : Tab (BitVec 24) := []
  p : Tab (BitVec 16) := []
  b : Tab (BitVec 16) := []
  l : Tab (BitVec 13) := []
  m : Tab (BitVec 16) := []
  lc : Tab (BitVec 16) := []
  ln : Tab (BitVec 16) := []
  lbeg : Tab (BitVec 11) := []
  lend : Tab (BitVec 11) := []
  ldepth : Nat := 0
  ix : Tab (BitVec 16) := []
  pc : BitVec 11 := 0
  flags : BitVec 16 := 0
  ctx : BitVec 8 := 0
  /-- bank words: data in bits 23 to 0, parity in bit 24 -/
  bankX : Tab (BitVec 25) := []
  bankY : Tab (BitVec 25) := []
  /-- IMEM words: data in bits 63 to 0, check bits above -/
  imem : Tab (BitVec 72) := []
  /-- low half held by the state map: word and value (R239) -/
  heldLow : Option (Nat × Word) := none
  descs : Tab LeDesc := []
  startq : List LeStart := []
  cur : Option LeStart := none
  si0 : List Beat := []
  si1 : List Beat := []
  so0 : List Beat := []
  so1 : List Beat := []
  /-- run that has issued its last instruction and has not completed -/
  ending : Option RunStatus := none
  /-- cause a run is stalled for, as LE_STAT.STALL -/
  stall : Nat := 0
  /-- ST_DONE pulses given and the ST_ERR level of the last -/
  stDone : Nat := 0
  stErr : Bool := false
  /-- DIR_Y and DIR_YV, and the extractions of the last four SCLK edges, latest first (R265) -/
  dirY : BitVec 96 := 0
  dirYv : Bool := false
  dirPipe : List (Option (BitVec 96)) := []
  /-- producers of R252 and the cycles since they issued -/
  haz : List (LeHazard × Nat) := []
  /-- the cycle that slots X and Y on one bank cost has passed (R253) -/
  bankPaid : Bool := false
  /-- address at which a breakpoint has halted the engine, its instruction not issued since (R289) -/
  bpPassed : Option (BitVec 11) := none
  /-- a data watch has matched in the instruction that issued last (R289) -/
  watchHit : Bool := false
  /-- the instruction that issues next is that of a STEP (22_debug.md R570) -/
  stepping : Bool := false
  deriving DecidableEq, Repr

/-- Hidden state of the loop engines. -/
structure LeState where
  /-- engines by die and number [registers, banks and IMEM of R238 each; 10_loop_engines.md R238, R256; reset: OFF, all zero (banks and IMEM: DESIGN CHOICE, log 6)] -/
  eng : Tab Engine := []
  /-- sets whose clock gate is requested and not closed yet, by die and set [1 bit each; 10_loop_engines.md R237; reset: none] -/
  gateReq : List Nat := []
  /-- sets whose clock gate is closed, by die and set [1 bit each; 10_loop_engines.md R237; reset: none] -/
  gated : List Nat := []
  /-- sets whose closed gate re-opens for a waiting start, by die and set [1 bit each; 10_loop_engines.md R237; reset: none] -/
  opening : List Nat := []
  deriving DecidableEq, Repr

/-- A non-posted request an initiator bridge has sent and whose response has not come (R306, R321). -/
structure Outst where
  ini : Nat
  tag : Nat
  target : Nat
  kind : Nat
  addr : Nat
  size : Nat
  /-- response flits reserved -/
  resv : Nat
  /-- number of the access it belongs to -/
  acc : Nat
  /-- the initiator has been answered already (0x7, or autotomy): the response is absorbed -/
  absorbed : Bool := false
  deriving DecidableEq, Repr

/-- An access whose packets have been injected, gathering its responses (R299). -/
structure Gather where
  /-- number of the access -/
  no : Nat
  ini : Nat
  /-- tag the initiator gave the access -/
  accTag : Nat
  kind : Nat
  addr : Nat
  size : Nat
  left : Nat
  /-- first non-zero code in address order, with its address -/
  code : Nat := 0
  codeAddr : Nat := 0
  bytes : List Host.Cell := []
  /-- response flits that have come and have not passed to the initiator yet (R306) -/
  resv : Nat := 0
  /-- what a system core makes it for (17_processors.md R448) -/
  use : CoreUse := .plain
  deriving DecidableEq, Repr

/-- A packet a bridge holds for injection, and the number of its access (R305, R317). -/
structure HeldPkt where
  pkt : Packet
  acc : Nat
  deriving DecidableEq, Repr

/-- A worm at a router input, its head waiting or granted (R309, R310). -/
structure HeadWait where
  node : Nat
  port : Nat
  pkt : Packet
  /-- flits that have come, and flits that have left, the head included -/
  came : Nat := 0
  sent : Nat := 0
  /-- the output granted to the head; the worm holds it until its last flit has passed -/
  out : Option Nat := none
  /-- the output's seam endpoint absorbs the worm (13_seams.md R347) -/
  gone : Bool := false
  deriving DecidableEq, Repr

/-- Fabric side of a NoC port (R326, R327). -/
structure NocPort where
  /-- beats of the request being accepted -/
  rq : List PortBeat := []
  /-- response beats to deliver, oldest first -/
  rs : List PortBeat := []
  /-- flits reserved for each response of `rs`, oldest first (R306) -/
  rsResv : List Nat := []
  /-- request beats to deliver, oldest first -/
  tq : List PortBeat := []
  /-- response beats being received -/
  tr : List PortBeat := []
  /-- last beats delivered on RS and TQ -/
  rsOut : Option PortBeat := none
  tqOut : Option PortBeat := none
  /-- next TQ_TAG -/
  nextTag : Nat := 0
  deriving DecidableEq, Repr

/-- A route update the loader is running (R315). -/
structure RouteRun where
  blocks : List RouteTab
  apply : Bool
  /-- tag of the MGMT DRAIN sent last -/
  tag : Nat := 0
  deriving DecidableEq, Repr

/-- Hidden state of the packet network. -/
structure NocState where
  /-- packets injected and not yet at their destination, oldest first [list; 12_noc.md R297, R301; reset: none] -/
  flight : List Packet := []
  /-- credits away from each initiator bridge and target: QUOTA less held, by initiator and node [6 bits each; 12_noc.md R305, R307; reset 0] -/
  away : Tab Nat := []
  /-- reach table entries: QUOTA + 64 × CHK, by initiator and node [9 bits each; 12_noc.md R313; reset: none] -/
  reach : Tab Nat := []
  /-- non-posted requests outstanding [list; 12_noc.md R306; reset: none] -/
  outst : List Outst := []
  /-- accesses gathering their responses [list; 12_noc.md R299; reset: none] -/
  gather : List Gather := []
  /-- packets held by bridges, in issue order [list; 12_noc.md R305, R317; reset: none] -/
  waiting : List HeldPkt := []
  /-- accesses that quenched bridges hold undecoded, in order of issue, with a failure of their user field [list; 12_noc.md R317; reset: none] -/
  held : List (Access × Bool) := []
  /-- number of the next access [the model's own; 12_noc.md R299; reset 0, DESIGN CHOICE (log 9)] -/
  nextAcc : Nat := 0
  /-- requests a target holds and has not answered or freed: node and packet [list; 12_noc.md R307; reset: none] -/
  slots : List (Nat × Packet) := []
  /-- stale tags: node, initiator and tag [list; 12_noc.md R320; reset: none] -/
  stale : List (Nat × Nat × Nat) := []
  /-- autotomy causes holding on the initiator half, by node, latest first [list; 12_noc.md R319; reset: none] -/
  causeI : Tab (List Nat) := []
  /-- autotomy causes holding on the target half, by node, latest first [list; 12_noc.md R319; reset: none] -/
  causeT : Tab (List Nat) := []
  /-- next TAG of each initiator bridge [12 bits; 12_noc.md R297; reset 0, DESIGN CHOICE (log 9)] -/
  nextTag : Tab Nat := []
  /-- completions given to each initiator, latest: code and bytes, by initiator [12_noc.md R299; reset: none] -/
  doneAcc : Tab (Option (Nat × Nat × List (BitVec 8))) := []
  /-- route tables in force by router node [128 bytes each; 12_noc.md R311, R312; reset: boot route set (none listed)] -/
  routes : Tab (Option RouteTab) := []
  /-- new table of a router that drains [128 bytes; 12_noc.md R315; reset: none] -/
  drainNew : Tab (Option RouteTab) := []
  /-- packets that were under way at the last route-table install: later ones may overtake them [list; 12_noc.md R301; reset: none] -/
  loose : List Packet := []
  /-- VC0 requests sent, space for their responses reserved: node of the sender, node of the target, tag [list; 12_noc.md R296; reset: none] -/
  vc0 : List (Nat × Nat × Nat) := []
  /-- worms at router inputs, oldest first [list; 12_noc.md R304, R309, R310; reset: none] -/
  heads : List HeadWait := []
  /-- winners of the last grant at each router output, for the rotating orders: channel and input port, by node × 8 + port [3 bits each; 12_noc.md R310; reset 0, DESIGN CHOICE (log 9)] -/
  lastWin : Tab (Nat × Nat) := []
  /-- hop credits away from each router output, by node, port and lane [8 bits each; 12_noc.md R304; reset 0] -/
  hopAway : Tab Nat := []
  /-- route loader run in progress [12_noc.md R315; reset: none] -/
  run : Option RouteRun := none
  /-- GO of a route set whose memory wakes or trains, with RT_CTRL.APPLY [optional bit; 01_package.md R31, 12_noc.md R315; reset: none] -/
  loadWait : Option Bool := none
  /-- by LOOP initiator: the engine whose request the bridge took last, and the number of that access [12_noc.md R302, 10_loop_engines.md R262; reset 0, DESIGN CHOICE (log 9)] -/
  lastEng : Tab (Nat × Nat) := []
  /-- fabric NoC ports by die and port [12_noc.md R326; reset: empty] -/
  ports : Tab NocPort := []
  deriving DecidableEq, Repr

/-- A sent DATA frame kept for replay (R339). -/
structure SentFrame where
  seq : Nat
  ch : Nat
  flit : BitVec 256
  deriving DecidableEq, Repr

/-- One link of a seam endpoint (R339, R340). -/
structure SeamLink where
  /-- next SEQ to send, and SEQ of the oldest unacknowledged frame -/
  txSeq : Nat := 0
  /-- unacknowledged frames, oldest first -/
  replay : List SentFrame := []
  /-- rewinds since ACK_SEQ last advanced (R342) -/
  rewinds : Nat := 0
  /-- next SEQ expected and the NAK to send -/
  rxSeq : Nat := 0
  nak : Bool := false
  /-- the frame after the last accepted one was discarded already -/
  nakSent : Bool := false
  /-- flits not yet sent for the first time, by channel, oldest first -/
  txq : List (Nat × BitVec 256) := []
  /-- channel of the last flit sent of those that take turns (R338) -/
  turn : Nat := 0
  /-- data flits of the worm being received that are still to come, by channel -/
  rxLeft : Tab Nat := []
  /-- by channel: credits away, frames queued, SCRED counter sent and seen, HCRED counter sent and seen -/
  away : Tab Nat := []
  queue : Tab (List (BitVec 256)) := []
  freed : Tab Nat := []
  freedSeen : Tab Nat := []
  hfreed : Tab Nat := []
  hfreedSeen : Tab Nat := []
  deriving DecidableEq, Repr

/-- Phase of a width step (R345). -/
inductive WidthStep where
  | none
  | widening          -- upper wires train in the background
  | sent              -- WIDTH sent, waiting for the reply
  | draining (half : Bool)  -- both requests known, waiting for the acknowledgements
  deriving DecidableEq, Repr

/-- One seam endpoint (R341). -/
structure SeamEp where
  links : Tab SeamLink := []
  step : WidthStep := .none
  /-- the far endpoint has recorded that the width requests differ (R343) -/
  noted : Bool := false
  /-- ledgers: request entries (SRC_NODE, SRC, TAG) and counts by (initiator node, target node) -/
  outReq : List (Nat × Nat × Nat) := []
  outCnt : Tab Nat := []
  inReq : List (Nat × Nat × Nat) := []
  inCnt : Tab Nat := []
  staleReq : List (Nat × Nat × Nat) := []
  staleCnt : Tab Nat := []
  deriving DecidableEq, Repr

/-- Hidden state of seams and die isolation. -/
structure SeamState where
  /-- seam endpoints by die and seam [sequence, credit and ledger state of R339, R340, R348; 13_seams.md R341; reset OFF, all counters 0] -/
  eps : Tab SeamEp := []
  /-- dies held in reset by isolation [1 bit each; 13_seams.md R351; reset: none] -/
  dieReset : List Nat := []
  /-- dies whose rejoin failed: AUTO_REJOIN starts no other [1 bit each; 13_seams.md R353; reset: none] -/
  rejoinFailed : List Nat := []
  deriving DecidableEq, Repr

/-- Hidden state of one lane (R357 to R376) beside its LQ_ window, whose registers hold the settings in effect. -/
structure Lane where
  /-- the present adaptation starts from scratch (R364, R366) -/
  scratch : Bool := false
  /-- the LFM has reached LFM_MIN in this adaptation (R364) -/
  reached : Bool := false
  /-- LFM of the last windows of this adaptation, latest first, at most 8 (R362) -/
  hist : List Nat := []
  /-- the lane has converged (R362) -/
  converged : Bool := false
  /-- windows in a row below LFM_MIN while UP (R372) -/
  low : Nat := 0
  /-- receiver settings held (R362) -/
  rcv : LaneSettings := { }
  /-- the seed registers were written since S6 restored them (R108) -/
  fresh : Bool := false
  /-- the checker has locked on data from outside since its counters were zeroed (R374) -/
  counted : Bool := false
  /-- bits still to be inverted by INJ_GO (R375) -/
  injected : Nat := 0
  /-- bits sent since the last that the rate mode inverted (R375) -/
  rate : Nat := 0
  /-- the lane is not OFF -/
  on : Bool := false
  /-- last 31 bits of the generator, 0 before its first (R373) -/
  gen : Nat := 0
  /-- last symbol sent, before inversion, and the level on the wires where the pattern generator drives them (R360) -/
  txP : Nat := 0
  tx : Option Nat := none
  /-- last symbol received, after inversion (R360) -/
  rxP : Nat := 0
  /-- last 31 bits of the checker's reference (R374) -/
  chk : Nat := 0
  deriving DecidableEq, Repr

/-- Hidden state of one bundle (R366) beside LB_BCFG and LB_BSTAT. -/
structure Bundle where
  /-- the next adaptation of every lane is from scratch -/
  scratch : Bool := false
  deriving DecidableEq, Repr

/-- Hidden state of the lane dies' lanes. -/
structure LaneState where
  /-- lanes by device lane number [see Lane; 14_lanes.md R361, R362, R375; reset: OFF, nothing adapted] -/
  lanes : Tab Lane := []
  /-- bundles by die and number [see Bundle; 14_lanes.md R366; reset OFF] -/
  bundles : Tab Bundle := []
  deriving DecidableEq, Repr

/-- A frame in a slice (R382, R396, R397). -/
structure EthFrame where
  /-- number the slice gave the frame -/
  id : Nat
  /-- ingress device port and its rate in 100 Mbit/s -/
  inPort : Nat
  inRate : Nat
  /-- bytes from the destination address through the FCS; of a stream, those received so far -/
  bytes : List (BitVec 8)
  egFlow : Nat
  egPort : Nat
  egQueue : Nat
  seqValid : Bool := false
  seq : Nat := 0
  /-- PTP header offset, 255 for none -/
  ptpOff : Nat := 255
  ts : Nat := 0
  tsValid : Bool := false
  /-- cut-through, and scheduled as admitted -/
  ct : Bool := false
  sched : Bool := false
  /-- tokens the frame holds, of its egress queue -/
  tokens : Nat
  /-- recovery has passed and the frame waits in its queue -/
  queued : Bool := false
  /-- transmission has begun; the stamp of its first bit -/
  started : Bool := false
  txTs : Nat := 0
  /-- ends with its FCS inverted (R384) -/
  stomp : Bool := false
  /-- arrives as a stream from this source bridge with this frame number -/
  stream : Option (Nat × Nat) := none
  complete : Bool := true
  tsReq : Bool := false
  noMacsec : Bool := false
  /-- it leaves under MACsec -/
  sec : Bool := false
  /-- what the ingress parser found beside the sequence number: bit 3 of the profile (a VLAN tag), and the R-TAG (R395) -/
  vlan : Bool := false
  rtag : Option Nat := none
  /-- its egress context adds, and removes, an R-TAG -/
  rtagAdd : Bool := false
  rtagDel : Bool := false
  deriving DecidableEq, Repr

/-- A frame that waits in its source slice until its stream has left: source bridge, frame number, the tokens it holds and
whether they are of FS_SCHED_RSV (R397). -/
structure OutStream where
  bridge : Nat
  no : Nat
  tokens : Nat
  sched : Bool
  deriving DecidableEq, Repr

/-- An entry of a TX timestamp queue (R407). -/
structure TxTs where
  seqId : Nat
  ts : Nat
  ok : Bool
  deriving DecidableEq, Repr

/-- Hidden state of one flow slice. -/
structure Slice where
  /-- table entries as words, by table × 2^22 + entry × 16 + word -/
  tbl : Tab Word := []
  /-- LAST of a context as far as its entry holds none: the time base when it was last set (R392) -/
  lastAt : BitVec 32 := 0
  /-- frames in the slice, oldest first -/
  frames : List EthFrame := []
  /-- frames on their way out as streams, oldest first -/
  outs : List OutStream := []
  /-- frame that each port sent last, as its MAC sent it but for MACsec: the FCS inverted of one that R384 ended -/
  sent : Tab (List (BitVec 8)) := []
  /-- free tokens (R398) -/
  free : Nat := 131072
  /-- number of the next frame -/
  nextId : Nat := 0
  /-- next stream frame number of bridges A and B (R404) -/
  streamA : Nat := 0
  streamB : Nat := 0
  /-- TX timestamp queues by port, oldest first -/
  txts : Tab (List TxTs) := []
  /-- time of the COMMIT a port's gate list waits for (R401) -/
  gclAt : Tab Nat := []
  /-- ICV failures in the window that runs, and the time of its first (R409) -/
  icvCount : Nat := 0
  icvStart : Option Nat := none
  deriving DecidableEq, Repr

/-- Hidden state of the flow slices. -/
structure FlowState where
  /-- slices by lane die 9 to 12 [tables of R417, frame buffer of R396, queues of R407; 15_flow_slices.md; reset: empty] -/
  slices : Tab Slice := []
  /-- output channels reserved by trunks: node, port and the trunk that holds them (slice × 16 + i) [15_flow_slices.md R411; reset: none] -/
  chans : List (Nat × Nat × Nat) := []
  /-- punted frames whose ring stands in memory that wakes or trains, oldest first: die and slot bytes [list; 01_package.md R31, 15_flow_slices.md R415; reset: none] -/
  puntWait : List (Nat × List (BitVec 8)) := []
  /-- VLAN bit and R-TAG that the ingress parser found for a stream, by source bridge × 2048 + frame number [15_flow_slices.md R395; reset: empty] -/
  parsed : Tab (Bool × Option Nat) := []
  deriving DecidableEq, Repr

/-- Facts of one line of a channel beside its plaintext (R434 to R437, R441). -/
structure DdrLine where
  /-- keys the stored line and its tag were made with: the number of a range's key set, 0 for a line stored as it is -/
  key : Nat := 0
  /-- metadata POISON -/
  poison : Bool := false
  /-- the tag line of this line is uncorrectable, or was when the line was last tagged -/
  tagBad : Bool := false
  deriving DecidableEq, Repr

/-- A speculative read whose tag result has not come (R440). -/
structure LateCheck where
  ch : Nat
  line : Nat
  range : Nat
  ini : Nat
  tagOk : Bool
  sub : Nat
  sym : Nat
  /-- data to write back once the tag has verified -/
  wb : Option (List (BitVec 8)) := none
  /-- engine of its group whose descriptor asked for the line, for a LOOP initiator -/
  eng : Option Nat := none
  deriving DecidableEq, Repr

/-- Hidden state of one channel. -/
structure DdrChan where
  /-- plaintext bytes of the channel by channel offset (what the keys in force decrypt to) -/
  data : List Host.Cell := []
  /-- facts of lines by line number, where they differ from `bulk` -/
  lines : Tab DdrLine := []
  /-- initialisations, latest first: first line, last line and key set; the lines they cover hold encrypted zeros (R433) -/
  bulk : List (Nat × Nat × Nat) := []
  /-- capacity at which the decode was formed (C_m), GiB; enabled since device reset; CAP_GIB set since enabled -/
  cm : Nat := 0
  enabled : Bool := false
  capSet : Bool := false
  /-- keys of each range by range × 3 + key: 256 bits -/
  keys : Tab (BitVec 256) := []
  /-- key set of each enabled range by range, a number no other enabling has had -/
  sets : Tab Nat := []
  nextSet : Nat := 1
  /-- corrected lines waiting for their write-back, oldest first: line, the key set its data is plaintext of, and its data as
  corrected -/
  wb : List (Nat × Nat × List (BitVec 8)) := []
  /-- density of the devices as step 1 of R422 found it: 1 for 32 Gbit -/
  dens : Nat := 0
  /-- next line of the patrol -/
  patrol : Nat := 0
  /-- tag-cache lines held: tag-line number and dirty -/
  cache : List (Nat × Bool) := []
  /-- ranges that initialise -/
  init : List Nat := []
  selfRefresh : Bool := false
  deriving DecidableEq, Repr

/-- Hidden state of external memory. -/
structure DdrState where
  /-- channels M0 to M3 [see DdrChan; 16_external_memory.md R421 to R441; reset: OFF, unwritten bytes read 0, DESIGN CHOICE (log 6)] -/
  chans : Tab DdrChan := []
  /-- the address decode is formed [1 bit; 16_external_memory.md R426; reset false] -/
  formed : Bool := false
  /-- speculative reads whose tag result is awaited, oldest first [list; 16_external_memory.md R440; reset: none] -/
  late : List LateCheck := []
  deriving DecidableEq, Repr

/-- One system core as the block sees it (R445 to R448). -/
structure Hart where
  /-- out of reset and running -/
  running : Bool := false
  /-- a write of EN = 0 waits for the outstanding accesses -/
  stopping : Bool := false
  wfi : Bool := false
  halted : Bool := false
  /-- released from reset, and no instruction executed since (22_debug.md R563) -/
  fresh : Bool := false
  /-- line of the load reservation -/
  resv : Option Nat := none
  /-- access fault taken last, by RISC-V cause code -/
  faultTaken : Nat := 0
  deriving DecidableEq, Repr

/-- A line of 64 bytes in the caches of the system cores (R446). -/
structure CacheLine where
  bytes : List Byte
  /-- written since it was read or written back -/
  dirty : Bool := false
  /-- core that wrote it last, or had it read -/
  owner : Nat := 0
  deriving DecidableEq, Repr

/-- One mailbox beside its stored registers (R454). -/
structure Mbox where
  full : Bool := false
  timeout : Bool := false
  sender : Nat := 0
  seq : Nat := 0
  taken : Nat := 0
  wdraw : Nat := 0
  deriving DecidableEq, Repr

/-- MSI-X state of one function (R457, R467). -/
structure Msix where
  enable : Bool := false
  funcMask : Bool := false
  /-- Mask bits of the vectors, all set after reset (PRESUMED, the PCIe Base Specification; log 18) -/
  mask : Nat := 0xFFFF
  pba : Nat := 0
  /-- messages sent, by vector: count -/
  sent : Tab Nat := []
  deriving DecidableEq, Repr

/-- A request a newt core has taken and not answered (R598). -/
structure NewtReq where
  mbox : Nat
  word0 : Word
  deriving DecidableEq, Repr

/-- A request a controller sends out (R468). -/
structure PcieReq where
  /-- a configuration request, of the bus, device, function and register; else a memory request to `addr` -/
  cfg : Bool := false
  wr : Bool := false
  addr : Nat := 0
  bus : Nat := 0
  dev : Nat := 0
  fn : Nat := 0
  reg : Nat := 0
  deriving DecidableEq, Repr

/-- A PCIe controller beside its PC_ page (R467 to R470). -/
structure Pcie where
  /-- in its boot configuration (R469) -/
  boot : Bool := false
  /-- the image's configuration waits for the next assertion and release of PERST# (R115) -/
  cfgWaits : Bool := false
  /-- configured by an S3 entry, or in its boot configuration: it owns its lanes (R109, 14_lanes.md R357) -/
  owned : Bool := false
  training : Bool := false
  fn0 : Msix := { }
  fn1 : Msix := { }
  /-- the request sent out last -/
  out : Option PcieReq := none
  deriving DecidableEq, Repr

/-- Hidden state of processors, time base, mailboxes, locks, events and host links. -/
structure HubState where
  /-- hub SRAM bytes by offset [8 MiB; 17_processors.md R449; reset: unwritten bytes read 0, DESIGN CHOICE (log 6)] -/
  sram : List Host.Cell := []
  /-- hub SRAM words that are uncorrectable [1 bit a word; 17_processors.md R449; reset: none] -/
  sramBad : List Nat := []
  /-- system cores 0 to 3 [see Hart; 17_processors.md R445, R447; reset: held in reset] -/
  harts : Tab Hart := []
  /-- lines in the caches, by address ÷ 64 [64 bytes, 1 dirty bit; 17_processors.md R446; reset: none] -/
  cache : Tab CacheLine := []
  /-- accesses of system cores that wait for a line, oldest first [list; 17_processors.md R446; reset: none] -/
  coreWait : List Access := []
  /-- CMO running: operation, first line and count [17_processors.md R465; reset: none] -/
  cmo : Option (Nat × Nat × Nat) := none
  /-- time base [64 bits and 32 bits of fraction; 17_processors.md R451; reset 0] -/
  now : Nat := 0
  frac : Nat := 0
  /-- TB_NOW_HI as latched [32 bits; 17_processors.md R451; reset 0] -/
  nowHi : Nat := 0
  /-- the time base runs: HPLL5 has locked in this start [1 bit; 17_processors.md R451; reset false] -/
  tbOn : Bool := false
  /-- mailboxes 0 to 63 general, 64 to 79 host of PCIe0, 80 to 95 of PCIe1 [see Mbox; 17_processors.md R452, R454; reset: empty] -/
  mbox : Tab Mbox := []
  /-- requests newt cores have taken, oldest first [list; 17_processors.md R598; reset: none] -/
  newt : List NewtReq := []
  /-- mailboxes whose newt core has last taken a request from them: it serves its two in turn [list of numbers; 17_processors.md R598; reset: none] -/
  newtLast : List Nat := []
  /-- lock holders [10 bits and held; 17_processors.md R459; reset: free] -/
  locks : Tab (Option Nat) := []
  /-- event routes: words 0 and 1 by source × 2 + word [64 bits a source; 17_processors.md R463; reset 0] -/
  routes : Tab Word := []
  /-- pending sources by core, source × 4 + core [1 bit each; 17_processors.md R463; reset 0] -/
  pending : List Nat := []
  /-- sources in service, source × 4 + core [1 bit each; 17_processors.md R463; reset 0] -/
  service : List Nat := []
  /-- levels of sources that are levels [1 bit each; 17_processors.md R462, R464; reset 0] -/
  levels : List Nat := []
  /-- events waiting on an EVI line, by die × 64 + line: those the next toggle carries [17_processors.md R463; reset 0] -/
  evi : Tab Nat := []
  /-- level of each EVI line [1 bit each; 17_processors.md R190, R463; reset 0] -/
  eviLevel : List Nat := []
  /-- EVT_OUT pins driven by a stretched pulse, with the ns it has left [8 pins, up to 100; 17_processors.md R463; reset: none] -/
  evtPulse : Tab Nat := []
  /-- PCIe0 and PCIe1 [see Pcie; 17_processors.md R467 to R470; reset: link down] -/
  pcie : Tab Pcie := []
  deriving DecidableEq, Repr

/-- A power domain beside its PD_ page (R471 to R478). -/
structure Domain where
  /-- 0 ON, 1 QUIESCING, 2 OFF, 3 WAKING -/
  state : Nat := 0
  /-- STATIC hold recorded by the loader -/
  staticHold : Bool := false
  deriving DecidableEq, Repr

/-- A dispatcher descriptor (R486). -/
structure Desc where
  w0 : Word := 0
  w1 : Word := 0
  w2 : Word := 0
  state : Nat := 0
  status : Nat := 0
  revoked : Bool := false
  throttled : Bool := false
  held : Nat := 0
  /-- order of issue, for R485 -/
  order : Nat := 0
  deriving DecidableEq, Repr

/-- Hidden state of power, governor and dispatcher. -/
structure PowState where
  /-- power domains by die and index [see Domain; 18_power.md R471, R476; reset ON] -/
  doms : Tab Domain := []
  /-- RTC count [48 bits; 18_power.md R490; reset 0 when VCC_AON becomes valid, DESIGN CHOICE (log 10)] -/
  rtc : Nat := 0
  /-- RTC cycles × 10⁹ gathered towards the next count, kept with the count [30 bits; 18_power.md R490; reset 0] -/
  rtcFrac : Nat := 0
  /-- low half of a PD_RTC write held until PD_RTC_HI [32 bits; 18_power.md R490; reset 0] -/
  rtcLo : Word := 0
  /-- the device is in torpor [1 bit; 18_power.md R480; reset false] -/
  torpor : Bool := false
  /-- torpor must end as soon as entry completes, with this LAST_EXIT [2 bits; 18_power.md R481; reset none] -/
  exitAtEntry : Option Nat := none
  /-- descriptors [128 bits each, 4,096; 18_power.md R486; reset FREE] -/
  desc : Tab Desc := []
  /-- ready queues by priority, head first [18_power.md R486; reset: empty] -/
  ready : Tab (List Nat) := []
  /-- queues in a refusal pause [1 bit each; 18_power.md R487; reset: none] -/
  paused : List Nat := []
  /-- queues whose head has waited more than RESERVE_US [1 bit each; 18_power.md R487; reset: none] -/
  reserve : List Nat := []
  /-- issue order counter [18_power.md R485; reset 0] -/
  order : Nat := 0
  /-- completion queue, message queues and partition-work queues, head first [4,096, 64 and 64 entries; 18_power.md R487, R488; reset: empty] -/
  cq : List (Nat × Nat) := []
  mq : Tab (List Nat) := []
  pq : Tab (List Nat) := []
  /-- governor quantities: POOL, FREE, DEBT, B, TARGET [11 bits each; 18_power.md R484; reset 0] -/
  pool : Nat := 0
  free : Nat := 0
  debt : Nat := 0
  bud : Nat := 0
  target : Nat := 0
  /-- sensor readings and validity by sensor [8 bits and 1 bit; 18_power.md R482; reset 0, invalid] -/
  sens : Tab (Option Int) := []
  /-- P [13 bits; 18_power.md R482; reset 0] -/
  pwr : Nat := 0
  deriving DecidableEq, Repr

/-- A signer slot of the life-cycle record (R496, R503). -/
structure Signer where
  hash : Nat := 0
  valid : Bool := false
  revoked : Bool := false
  deriving DecidableEq, Repr

/-- One copy of the life-cycle record, records unit 2 (R496). -/
structure LcRec where
  state : Nat := 0
  entryDone : Bool := true
  slots : List Signer := []
  /-- identity public key, none when no identity exists -/
  idPub : Option (List (BitVec 8)) := none
  /-- identity private key, wrapped under the identity wrap key; zeros once it has been overwritten (R496, R499) -/
  idKey : List (BitVec 8) := []
  tagOk : Bool := true
  deriving DecidableEq, Repr

/-- A copy of the identity certificate (R502). -/
structure CertRec where
  bytes : List (BitVec 8)
  tagOk : Bool := true
  deriving DecidableEq, Repr

/-- The self-test record, records unit 3 (R552). -/
structure TestRec where
  result : Nat
  variant : Nat
  die : Nat
  region : Nat
  index : Nat
  rtc : Nat
  duration : Nat
  root : Nat
  tagOk : Bool := true
  deriving DecidableEq, Repr

/-- The request that the security core runs: mailbox 40 to 47, or 127 for the test window, and its words (R505). -/
structure SecReq where
  at_ : Nat
  words : List Nat
  deriving DecidableEq, Repr

/-- Hidden state of the security core. -/
structure SecState where
  /-- device record key, derived in S2 [256 bits; 19_security.md R493; reset none] -/
  recKey : Option (BitVec 256) := none
  /-- identity wrap key, derived in S2 [256 bits; 19_security.md R493; reset none] -/
  wrapKey : Option (BitVec 256) := none
  /-- life-cycle record copies on K0 and K1 [4 KiB each; 19_security.md R496; reset none, DESIGN CHOICE (log 7)] -/
  rec0 : Option LcRec := none
  rec1 : Option LcRec := none
  /-- effective life-cycle state [3 bits; 19_security.md R495, R496; reset 0 BLANK, from record and counter] -/
  lc : Nat := 0
  /-- ENTRY_DONE of the record read in S2 [1 bit; 19_security.md R496, R499; reset false] -/
  entryDone : Bool := false
  /-- a record copy verified in S2 [1 bit; 19_security.md R509; reset false] -/
  recordOk : Bool := false
  /-- signer slots 0 to 3 as read in S2 or written since [258 bits each; 19_security.md R496, R503; reset: empty] -/
  slots : List Signer := []
  /-- identity public key as read in S2 or provisioned since [1,793 bytes; 19_security.md R502; reset none] -/
  idPub : Option (List (BitVec 8)) := none
  /-- identity private key as read in S2 or provisioned since, wrapped [about 2,305 bytes; 19_security.md R496; reset: empty] -/
  idKey : List (BitVec 8) := []
  /-- copies on K0 and K1 of the identity certificate in units 32 and 33 of the records area [up to 8 KiB each; 19_security.md R502, 06_keep.md R139; reset none, DESIGN CHOICE (log 7)] -/
  cert0 : Option CertRec := none
  cert1 : Option CertRec := none
  /-- nonce of the last RETURN_NONCE while it is valid [32 bytes; 19_security.md R500; reset none] -/
  nonce : Option (List (BitVec 8)) := none
  /-- security alarms latched since the start [32 bits, saturating; 19_security.md R507; reset 0] -/
  alarms : Nat := 0
  /-- ROOT of the image loaded was verified in this start and is the active image [1 bit; 19_security.md R504; reset false] -/
  active : Bool := false
  /-- the request that has been taken and runs [mailbox and 8 words of 32 bits; 19_security.md R505; reset none] -/
  run : Option SecReq := none
  /-- headers of Keep slots that were verified in this start, by slot 1 A, 2 B, 3 GOLDEN [headers; 19_security.md R507; reset: none] -/
  verified : Tab Sys2Proof.Header := []
  /-- self-test record as S2 read it [one unit; 19_security.md R507; reset none] -/
  testRead : Option TestRec := none
  deriving DecidableEq, Repr

/-- An error report (R510). -/
structure ErrRec where
  preempt : Bool := false
  cls : Nat
  die : Nat
  src : Nat
  code : Nat
  info : Nat
  time : Nat
  deriving DecidableEq, Repr

/-- A black-box entry (R529). -/
structure BbEntry where
  time : Nat
  seq : Nat := 0
  src : Nat
  cls : Nat
  die : Nat
  kind : Nat
  coast : Bool
  p0 : Nat
  p1 : Nat
  deriving DecidableEq, Repr

/-- A black-box copy in the Keep (R532). -/
structure BbCopy where
  seq : Nat
  reason : Nat
  head : Nat
  ringSeq : Nat
  time : Nat
  rtc : Nat
  sqStat : Word
  sqCause : Word
  first : Option ErrRec
  next : Option ErrRec
  ring : Tab BbEntry
  valid : Bool
  deriving DecidableEq, Repr

/-- The axolotl engine of one die beside its AX_ page (R517 to R524). -/
structure AxEngine where
  /-- three copies of AX_CTRL.EN -/
  en0 : Bool := true
  en1 : Bool := true
  en2 : Bool := true
  /-- 0 OFF, 1 SCAN, 2 REGEN, 3 STOPPED, 4 ISOLATED -/
  state : Nat := 0
  /-- frame being scrubbed -/
  pos : Nat := 0
  /-- frame as corrected where correctable, while its regeneration runs -/
  part : Frame := 0
  /-- heartbeat misses since the last completed scan -/
  misses : Nat := 0
  /-- totals since the start -/
  corr : Nat := 0
  regen : Nat := 0
  fail : Nat := 0
  deriving DecidableEq, Repr

/-- Hidden state of the error unit, the scrubbers and the black box. -/
structure ErrState where
  /-- FIRST record [160 bits; 20_errors.md R513; reset: none] -/
  first : Option ErrRec := none
  /-- NEXT record [160 bits; 20_errors.md R513; reset: none] -/
  next : Option ErrRec := none
  /-- HANDLING [1 bit; 20_errors.md R513; reset false] -/
  handling : Bool := false
  /-- FATAL sequence running or complete [1 bit; 20_errors.md R515, R534; reset false] -/
  fatal : Bool := false
  /-- black-box ring by index [4,096 entries of 32 bytes; 20_errors.md R529; reset: zero-filled] -/
  ring : Tab BbEntry := []
  /-- next entry written [12 bits; 20_errors.md R530, R536; reset 0, kept over device resets] -/
  head : Nat := 0
  /-- next SEQ [32 bits; 20_errors.md R530, R536; reset 0, kept over device resets] -/
  seq : Nat := 0
  /-- input queue of the recorder, oldest first [64 entries; 20_errors.md R530; reset: empty] -/
  queue : List BbEntry := []
  /-- entries lost since the last LOST marker [20_errors.md R530; reset 0] -/
  lostNow : Nat := 0
  /-- copy slots of the Keep's black-box area by number [4 copies; 20_errors.md R532; reset: none] -/
  copies : Tab (Option BbCopy) := []
  /-- axolotl engines by die [see AxEngine; 20_errors.md R517 to R524; reset OFF] -/
  ax : Tab AxEngine := []
  deriving DecidableEq, Repr

/-- A section of a snapshot (R544, R545). -/
structure SnapSec where
  part : Nat
  die : Nat
  mem : Bool
  incomplete : Bool
  cFirst : Nat
  cLast : Nat
  nb : Nat := 0
  nd : Nat := 0
  /-- CAPTURE frames by frame address -/
  ffs : Tab Frame := []
  /-- bank rows by bank number × 1,024 + row, RAM-mode banks -/
  banks : Tab (BitVec 72) := []
  /-- deep words by memory number × 131,072 + word, RAM-mode deep memories -/
  deeps : Tab (BitVec 72) := []
  deriving DecidableEq, Repr

/-- A brumation buffer: its header and contents (R545). -/
structure Snapshot where
  seq : Nat
  /-- 1 COMPLETE, 2 CONSUMED -/
  state : Nat
  reason : Nat
  root : Nat
  rtc : Nat
  time : Nat
  units : Nat
  secs : List SnapSec
  deriving DecidableEq, Repr

/-- The way down in progress (R537). -/
inductive Way where
  | none | lastGasp | orderly | torpor
  deriving DecidableEq, Repr

/-- Hidden state of the shut-down sequencer. -/
structure ShutState where
  /-- way down in progress or last completed without a start since [4 values; 21_shutdown.md R537; reset none] -/
  way : Way := .none
  /-- step of R538 reached, 0 none, 2 to 8; 9 phase 2 of R549 [4 bits; 21_shutdown.md R538, R549; reset 0] -/
  step : Nat := 0
  /-- snapshot taken by the way down in progress, being written: buffer and contents [21_shutdown.md R540, R544; reset none] -/
  snap : Option (Nat × Snapshot) := none
  /-- networks not yet captured by the sequencer's capture, by die [96 bits each; 21_shutdown.md R540; reset: none] -/
  capLeft : Tab (List Nat) := []
  /-- partitions marked INCOMPLETE in the capture in progress [64 bits; 21_shutdown.md R540; reset: none] -/
  incomplete : List Nat := []
  /-- no header is to be written: FATAL during last-gasp [1 bit; 21_shutdown.md R555; reset false] -/
  noHeader : Bool := false
  /-- brumation buffers 0 and 1 [96 MiB each; 21_shutdown.md R544, R545; reset: no valid header] -/
  buf0 : Option Snapshot := none
  buf1 : Option Snapshot := none
  /-- copies on K0 and K1 of the self-test record of records unit 3 [4 KiB each; 21_shutdown.md R552, 06_keep.md R139; reset: absent] -/
  test0 : Option TestRec := none
  test1 : Option TestRec := none
  /-- partitions that stay HELD because the snapshot failed its DIGEST [64 bits; 21_shutdown.md R548; reset: none] -/
  heldBySnap : List Nat := []
  /-- SHDN_DONE pin [1 bit; 21_shutdown.md R550; reset low] -/
  done : Bool := false
  /-- PFW_N has risen during last-gasp: a start follows [1 bit; 21_shutdown.md R541; reset false] -/
  restart : Bool := false
  deriving DecidableEq, Repr

/-- A trace entry (R571). -/
structure TraceEnt where
  time : Nat
  kind : Nat
  src : Nat
  data : Nat
  deriving DecidableEq, Repr

/-- Hidden state of debug and run control. -/
structure DbgState where
  /-- TAP instruction in force [8 bits; 22_debug.md R558; reset 0x02 IDCODE] -/
  ir : Nat := 2
  /-- value captured out of the instruction register by the last instruction loaded [8 bits; 22_debug.md R558; reset 0x01] -/
  irOut : BitVec 8 := 1
  /-- boundary-scan register, in BSDL order [22_debug.md R559; reset: empty, DESIGN CHOICE (log 8)] -/
  bsr : List Bool := []
  /-- pin levels captured by the last SAMPLE/PRELOAD, in BSDL order [22_debug.md R558; reset: empty, DESIGN CHOICE (log 8)] -/
  bsrOut : List Bool := []
  /-- last value captured out of a TAP data register [80 bits; 22_debug.md R558, R560, R562; reset 0] -/
  tdo : BitVec 80 := 0
  /-- access of the port in progress: address, write, NOPEEK, data [22_debug.md R560; reset none] -/
  acc : Option (Nat × Bool × Bool × Word) := none
  /-- RDATA and CODE of the last completed access, and LOST [32, 4 and 1 bits; 22_debug.md R560; reset 0] -/
  rdata : Word := 0
  code : Nat := 0
  lost : Bool := false
  /-- DBG_LOST and REASON [1 and 3 bits; 22_debug.md R562; reset set, REASON 4] -/
  dbgLost : Bool := true
  reason : Nat := 4
  /-- comparators that have fired since their core last resumed or they were written, core × 16 + comparator [1 bit each; 22_debug.md R568; reset: none] -/
  fired : List Nat := []
  /-- registers of the system cores by core × 65,536 + REG [64 bits each; 22_debug.md R566, 17_processors.md R445; reset 0, DESIGN CHOICE (log 8)] -/
  coreRegs : Tab (BitVec 64) := []
  /-- cores that execute one instruction of a STEP [1 bit each; 22_debug.md R566; reset: none] -/
  stepping : List Nat := []
  /-- halts asked of system cores and not yet taken: core and CAUSE [list; 22_debug.md R563; reset: none] -/
  haltReq : List (Nat × Nat) := []
  /-- engines halted through DB_LE or by a BREAK, by die × 512 + engine [1 bit each; 22_debug.md R565, R570; reset: none] -/
  leHeld : List Nat := []
  /-- trace buffer by index [65,536 entries of 16 bytes; 22_debug.md R571; reset: zero, DESIGN CHOICE (log 8)] -/
  trace : Tab TraceEnt := []
  /-- input queue of the trace, oldest first [256 entries; 22_debug.md R571; reset: empty] -/
  traceQ : List TraceEnt := []
  /-- trace entries lost since the last LOST entry [22_debug.md R571; reset 0] -/
  traceLost : Nat := 0
  /-- entries written since EN was set [17 bits; 22_debug.md R571; reset 0] -/
  traceCnt : Nat := 0
  /-- writing is stopped by STOP_HALT [1 bit; 22_debug.md R571; reset false] -/
  traceStop : Bool := false
  /-- ns gone of the present µs of watchdog c (0 to 3) and of the present ms of the sentinel (4) [20 bits each; 22_debug.md R572, R573; reset 0] -/
  wdNs : Tab Nat := []
  deriving DecidableEq, Repr

/-- A pin-safe record (R585). -/
structure PinRec where
  seq : Nat
  /-- IO_SAFE0 to IO_SAFE2 of banks IOB0 to IOB23, 72 words -/
  safe : List Word
  tagOk : Bool := true
  deriving DecidableEq, Repr

/-- Hidden state of pins and supplies. -/
structure PinState where
  /-- recognised levels of RESET_N, PFW_N and SHDN_REQ_N [1 bit each; 23_pins.md R576, R577; reset high (pulls)] -/
  resetN : Bool := true
  pfwN : Bool := true
  shdnN : Bool := true
  /-- steady level of SRC_SEL[1:0] [2 bits; 23_pins.md R576; reset 0 (pull-downs)] -/
  srcSel : Nat := 0
  /-- supplies are valid [1 bit; 23_pins.md R579, 04_start.md R89; reset true] -/
  supplies : Bool := true
  /-- rails that have left their range since the supplies were last valid, by number, 8: a VCCIO [23_pins.md R589, R594; reset:
  none] -/
  railsOut : List Nat := []
  /-- a thermal trip holds the device until RESET_N or a supply cycle [1 bit; 23_pins.md R593; reset false] -/
  tripHold : Bool := false
  /-- XSPI_RESET_N [1 bit; 23_pins.md R596; reset low] -/
  xspiResetN : Bool := false
  /-- pin-safe record copies on K0 and K1 [4 KiB each; 23_pins.md R585; reset none, DESIGN CHOICE (log 7)] -/
  rec0 : Option PinRec := none
  rec1 : Option PinRec := none
  /-- safe states latched in the pad ring by bank and word [32 bits each; 23_pins.md R584; reset 0 (weak pull-down)] -/
  latch : Tab Word := []
  deriving DecidableEq, Repr

/-- Why the block would stop with a fault. Nothing in the manual stops the block: every rejected access and every error is
a next state (02_register_pages.md R39, 20_errors.md R511), so no meaning raises one. -/
inductive Fault where
  /-- Raised by no meaning: the type stands for the interface. Safe. -/
  | none
  deriving DecidableEq, Repr

/-- Why a command has no meaning. -/
inductive Refusal where
  /-- Answered by an arm of `exec` whose command has no meaning yet. Safe. -/
  | notModelled (mnemonic : String)
  deriving DecidableEq, Repr

/-- The state of the block. -/
structure State where
  /-- register pages -/
  pg : PageState := { }
  /-- clocks -/
  clk : ClkState := { }
  /-- start sequencer -/
  start : StartState := { }
  /-- image loader -/
  load : LoadState := { }
  /-- Keep -/
  keep : KeepState := { }
  /-- fabric -/
  fab : FabState := { }
  /-- bank and deep memories -/
  mem : MemState := { }
  /-- partitions -/
  part : PartState := { }
  /-- loop engines -/
  le : LeState := { }
  /-- packet network -/
  noc : NocState := { }
  /-- seams and die isolation -/
  seam : SeamState := { }
  /-- lanes -/
  lane : LaneState := { }
  /-- flow slices -/
  flow : FlowState := { }
  /-- external memory -/
  ddr : DdrState := { }
  /-- processors and hub services -/
  hub : HubState := { }
  /-- power, governor, dispatcher -/
  pow : PowState := { }
  /-- security core -/
  sec : SecState := { }
  /-- errors, scrubbing, black box -/
  err : ErrState := { }
  /-- shut-down sequencer -/
  shut : ShutState := { }
  /-- debug -/
  dbg : DbgState := { }
  /-- pins and supplies -/
  pin : PinState := { }
  /-- response code and data the last access was answered with -/
  resp : Resp := { }
  /-- free values taken so far (the model's own; no statement rests on it) -/
  freeIdx : Nat := 0
  /-- commands that wait, first in, first out -/
  pending : List Instr := []
  deriving DecidableEq, Repr

/-- The state right after reset: every field at the value its comment names. -/
def State.reset : State := { }

end Sys2Proof.Machine
end

