-- ==== Sys2Proof/Machine/RegTypes.lean ====
section
/-! DEFINITION. The shape of a register map: field classes and access types (00_scope.md R9 to R14), registers and the
kinds of page. -/

namespace Sys2Proof.Machine

/-- Field classes (00_scope.md R10). -/
inductive Cls where
  | live | shadow | stopped | once
  deriving DecidableEq, Repr

/-- Access types (00_scope.md R11). -/
inductive Acc where
  | ro | rw | wo | w1c | w1s | rc | pop
  deriving DecidableEq, Repr

/-- One field of a register map: place, class, access, the marks /G and kept, the After reset value (for a /G field its
hardware default) and the range of values a write may give it (R13). -/
structure Fld where
  lsb : Nat
  wid : Nat
  cls : Cls
  acc : Acc
  g : Bool
  kept : Bool
  rst : Nat
  lo : Nat
  hi : Nat
  deriving DecidableEq, Repr

/-- A field named by offset, place and, for an indexed register, the stride of its index. -/
structure FieldRef where
  off : Nat
  lsb : Nat
  wid : Nat
  stride : Nat := 0
  deriving DecidableEq, Repr

/-- One register of a map, at `off` and at the further offsets that `dims` adds: (count, stride) for each index. -/
structure RegDef where
  off : Nat
  dims : List (Nat × Nat)
  flds : List Fld
  deriving DecidableEq, Repr

/-- The kinds of register page, by prefix; `dmgr` is the die manager page and `mbh` a host mailbox page. -/
inductive Page where
  | dmgr | sq | il | rt | qu | di | er | bb | sd | io
  | nr | sm | cu | hp | fp | cd | pd | su | cf | ax | ic | le | bg | dm
  | lq | lb | fs | fm | fe | mc | sc | cl | hd | mb | mbh | lk | ev | gv | ds | tb | pc
  | db | tr | wd | bk | kp | kd | st
  deriving DecidableEq, Repr

/-- The header a page kind has (02_register_pages.md R42): type code, event bits, retainable registers and the HAS_ bits. -/
structure PageInfo where
  type : Nat
  evts : Nat
  retain : Nat
  hasShadow : Bool := false
  hasFreeze : Bool := false
  hasSrst : Bool := false
  hasVote : Bool := false
  deriving DecidableEq, Repr

end Sys2Proof.Machine
end

