-- ==== Sys2Proof/Machine/RegMap1.lean ====
section
/-! DEFINITION. The register maps of the pages of chapters 2 to 10, register by register: offset, index counts and strides,
and the fields with class, access, After reset value and range. Bits no field names are reserved. -/

namespace Sys2Proof.Machine

/-- A LIVE field hardware writes. -/
def fRo (lsb wid rst : Nat) : Fld := ⟨lsb, wid, .live, .ro, false, false, rst, 0, 2 ^ wid - 1⟩
/-- A LIVE write-only field. -/
def fWo (lsb wid rst : Nat) : Fld := ⟨lsb, wid, .live, .wo, false, false, rst, 0, 2 ^ wid - 1⟩
/-- A LIVE read-clear field. -/
def fRc (lsb wid rst : Nat) : Fld := ⟨lsb, wid, .live, .rc, false, false, rst, 0, 2 ^ wid - 1⟩
/-- A LIVE write-one-to-clear field. -/
def fW1c (lsb wid rst : Nat) : Fld := ⟨lsb, wid, .live, .w1c, false, false, rst, 0, 2 ^ wid - 1⟩
/-- A LIVE write-one-to-set field. -/
def fW1s (lsb wid rst : Nat) : Fld := ⟨lsb, wid, .live, .w1s, false, false, rst, 0, 2 ^ wid - 1⟩
/-- A LIVE queue head. -/
def fPop (lsb wid rst : Nat) : Fld := ⟨lsb, wid, .live, .pop, false, false, rst, 0, 2 ^ wid - 1⟩
/-- A read-write field of each class, with (`G`) and without the /G mark, and with (`R`) a range narrower than its width. -/
def fLive (lsb wid rst : Nat) : Fld := ⟨lsb, wid, .live, .rw, false, false, rst, 0, 2 ^ wid - 1⟩
@[inherit_doc fLive] def fLiveG (lsb wid rst : Nat) : Fld := ⟨lsb, wid, .live, .rw, true, false, rst, 0, 2 ^ wid - 1⟩
@[inherit_doc fLive] def fLiveR (lsb wid rst lo hi : Nat) : Fld := ⟨lsb, wid, .live, .rw, false, false, rst, lo, hi⟩
@[inherit_doc fLive] def fLiveGR (lsb wid rst lo hi : Nat) : Fld := ⟨lsb, wid, .live, .rw, true, false, rst, lo, hi⟩
@[inherit_doc fLive] def fShadow (lsb wid rst : Nat) : Fld := ⟨lsb, wid, .shadow, .rw, false, false, rst, 0, 2 ^ wid - 1⟩
@[inherit_doc fLive] def fShadowG (lsb wid rst : Nat) : Fld := ⟨lsb, wid, .shadow, .rw, true, false, rst, 0, 2 ^ wid - 1⟩
@[inherit_doc fLive] def fShadowR (lsb wid rst lo hi : Nat) : Fld := ⟨lsb, wid, .shadow, .rw, false, false, rst, lo, hi⟩
@[inherit_doc fLive] def fShadowGR (lsb wid rst lo hi : Nat) : Fld := ⟨lsb, wid, .shadow, .rw, true, false, rst, lo, hi⟩
@[inherit_doc fLive] def fStopped (lsb wid rst : Nat) : Fld := ⟨lsb, wid, .stopped, .rw, false, false, rst, 0, 2 ^ wid - 1⟩
@[inherit_doc fLive] def fStoppedG (lsb wid rst : Nat) : Fld := ⟨lsb, wid, .stopped, .rw, true, false, rst, 0, 2 ^ wid - 1⟩
@[inherit_doc fLive] def fStoppedR (lsb wid rst lo hi : Nat) : Fld := ⟨lsb, wid, .stopped, .rw, false, false, rst, lo, hi⟩
@[inherit_doc fLive] def fStoppedGR (lsb wid rst lo hi : Nat) : Fld := ⟨lsb, wid, .stopped, .rw, true, false, rst, lo, hi⟩
@[inherit_doc fLive] def fOnce (lsb wid rst : Nat) : Fld := ⟨lsb, wid, .once, .rw, false, false, rst, 0, 2 ^ wid - 1⟩
@[inherit_doc fLive] def fOnceR (lsb wid rst lo hi : Nat) : Fld := ⟨lsb, wid, .once, .rw, false, false, rst, lo, hi⟩

/-- Registers of the page header (02_register_pages.md R43, R45, R46, R47, R48, R49, R53, R55). -/
def hdrMap : List RegDef := [
  -- PG_ID: LAYOUT_VER LEVEL INSTANCE TYPE
  ⟨0x000, [], [fRo 27 4 1, fRo 24 3 0, fRo 12 12 0, fRo 0 12 0]⟩,
  -- PG_CAPS: RETAIN_COUNT EVT_COUNT HAS_SOFT_RESET HAS_FREEZE HAS_SHADOW HAS_VOTE
  ⟨0x004, [], [fRo 16 6 0, fRo 8 6 0, fRo 3 1 0, fRo 2 1 0, fRo 1 1 0, fRo 0 1 0]⟩,
  -- PG_CTRL: SOFT_RESET FREEZE_SEL ENABLE
  ⟨0x008, [], [fW1s 4 1 0, fLiveR 1 3 0 0 6, fLive 0 1 0]⟩,
  -- PG_STAT: RETAIN_PEND SRST_BUSY FROZEN LOCKED SHADOW_PEND RETAIN_STALE DOMAIN_ON BUSY READY
  ⟨0x00C, [], [fRo 8 1 0, fRo 7 1 0, fRo 6 1 0, fRo 5 1 0, fRo 4 1 0, fRo 3 1 0, fRo 2 1 0, fRo 1 1 0, fRo 0 1 0]⟩,
  -- PG_EVT_RAW: RAW
  ⟨0x010, [], [fRo 0 32 0]⟩,
  -- PG_EVT_EN: EN
  ⟨0x014, [], [fLive 0 32 0]⟩,
  -- PG_EVT_PEND: PEND
  ⟨0x018, [], [fW1c 0 32 0]⟩,
  -- PG_EVT_FORCE: FORCE
  ⟨0x01C, [], [fWo 0 32 0]⟩,
  -- PG_FAULT: VALID CODE
  ⟨0x020, [], [fW1c 31 1 0, fRo 0 16 0]⟩,
  -- PG_FAULT_CNT: COUNT
  ⟨0x024, [], [fRc 0 16 0]⟩,
  -- PG_VOTE: VOTES
  ⟨0x028, [], [fLive 0 32 0]⟩,
  -- PG_LOCK: OWNER STICKY LOCK
  ⟨0x02C, [], [fRo 16 10 0, fLive 1 1 0, fLive 0 1 0]⟩,
  -- PG_COMMIT: DISCARD COMMIT
  ⟨0x030, [], [fWo 1 1 0, fWo 0 1 0]⟩,
  -- PG_RETAIN: SEL
  ⟨0x034, [], [fLiveG 0 32 0]⟩]

/-- Registers of CU_ (03_clocks.md R87). -/
def cuMap : List RegDef := [
  -- CU_OSC_STAT: RTC_FAIL RTC_OK ACTIVE_XO XO_B_FAIL XO_A_FAIL XO_B_OK XO_A_OK SWITCH_FORCED
  ⟨0x040, [], [⟨7, 1, .live, .w1c, false, true, 0, 0, 1⟩, ⟨6, 1, .live, .ro, false, true, 0, 0, 1⟩, fRo 5 1 0,
    fW1c 4 1 0, fW1c 3 1 0, fRo 2 1 0, fRo 1 1 0, fW1c 0 1 0]⟩,
  -- CU_OSC_CTRL: FAILBACK XO_PREF
  ⟨0x044, [], [fLiveG 1 1 0, fLiveG 0 1 0]⟩,
  -- CU_XO_MEAS: XO_B_RC XO_A_RC
  ⟨0x048, [], [fRo 16 16 0, fRo 0 16 0]⟩,
  -- CU_SPREAD: SPREAD
  ⟨0x04C, [], [fShadowGR 0 4 0 0 10]⟩,
  -- CU_SPINE_STAT: SPINE_B_ON SPINE_A_ON HPLL_LOCK
  ⟨0x050, [], [fRo 9 1 0, fRo 8 1 0, fRo 0 8 0]⟩]

/-- Registers of HP_ (03_clocks.md R87). -/
def hpMap : List RegDef := [
  -- CFG: REF_SRC REF_DIV FB_DIV
  ⟨0x040, [], [fRo 12 2 0, fStoppedR 8 4 1 1 8, fStoppedR 0 8 32 4 128]⟩,
  -- STAT: COAST REF_LOST LOCK
  ⟨0x044, [], [fRo 2 1 0, fW1c 1 1 0, fRo 0 1 0]⟩]

/-- Registers of FP_ (03_clocks.md R87). -/
def fpMap : List RegDef := [
  -- CFG: REF_SRC REF_DIV FB_DIV
  ⟨0x040, [], [fRo 12 2 0, fStoppedR 8 4 1 1 8, fStoppedR 0 8 32 4 128]⟩,
  -- STAT: COAST REF_LOST LOCK
  ⟨0x044, [], [fRo 2 1 0, fW1c 1 1 0, fRo 0 1 0]⟩,
  -- FP_OUT: EN DIV
  ⟨0x048, [(5, 0x4)], [fShadow 8 1 0, fShadowR 0 8 16 2 255]⟩]

/-- Registers of CD_ (03_clocks.md R87). -/
def cdMap : List RegDef := [
  -- CD_CFG: SRC DIV
  ⟨0x040, [], [fLiveGR 8 3 0 1 4, fLiveGR 0 8 1 1 255]⟩,
  -- CD_GATE: GATE_REQ
  ⟨0x044, [], [fLive 0 1 0]⟩,
  -- CD_STAT: GATE_DENIED SWITCH_FORCED SWITCHING QUIESCING GATED RUNNING
  ⟨0x048, [], [fW1c 5 1 0, fW1c 4 1 0, fRo 3 1 0, fRo 2 1 0, fRo 1 1 0, fRo 0 1 0]⟩,
  -- CD_FREQ: FREQ
  ⟨0x04C, [], [fRo 0 24 0]⟩]

/-- Registers of SQ_ (04_start.md R117). -/
def sqMap : List RegDef := [
  -- SQ_STAT: STAGE SOURCE SLOT PIN_REC SEEDS RESUMED QUICK_TEST FALLBACK TRIAL
  ⟨0x040, [], [fRo 16 4 0, fRo 14 2 0, fRo 12 2 0, fRo 5 1 0, fRo 4 1 0, fRo 3 1 0, fRo 2 1 0, fRo 1 1 0, fRo 0 1 0]⟩,
  -- SQ_CAUSE: FINAL_SLOT FINAL_CAUSE FIRST_SLOT FIRST_CAUSE
  ⟨0x044, [], [fRo 24 2 0, fRo 16 8 0, fRo 8 2 0, fRo 0 8 0]⟩,
  -- SQ_T: TIME_US
  ⟨0x048, [(9, 0x4)], [fRo 0 32 0]⟩,
  -- SQ_ENTRY: VALID INDEX
  ⟨0x06C, [], [fRo 31 1 0, fRo 0 12 0]⟩]

/-- Registers of IL_ (05_images.md R133). -/
def ilMap : List RegDef := [
  -- IL_STAT: STREAM DETAIL COMPRESSED FAIL
  ⟨0x040, [], [fRo 8 5 31, fRo 4 4 0, fRo 1 1 0, fRo 0 1 0]⟩,
  -- IL_FAIL_GROUP: GROUP
  ⟨0x044, [], [fRo 0 32 4294967295]⟩,
  -- IL_FAIL_FRAME: FRAME
  ⟨0x048, [], [fRo 0 32 4294967295]⟩,
  -- IL_ROOT: ROOT
  ⟨0x050, [(8, 0x4)], [fRo 0 32 0]⟩,
  -- IL_FRAMES: COUNT
  ⟨0x080, [(17, 0x4)], [fRo 0 32 0]⟩]

/-- Registers of KP_ (06_keep.md R152). -/
def kpMap : List RegDef := [
  -- KP_STAT: PENDING ACTIVE_SLOT XFER_BUSY FROZEN
  ⟨0x040, [], [fRo 16 11 0, fRo 2 2 0, fRo 1 1 0, fRo 0 1 0]⟩,
  -- KP_LIVE: PAGES
  ⟨0x044, [], [fRo 0 14 0]⟩,
  -- KP_RESTORE: BAD PAGES
  ⟨0x048, [], [fRo 16 16 0, fRo 0 16 0]⟩,
  -- KP_SEQ_LO: SEQ
  ⟨0x04C, [], [fRo 0 32 0]⟩,
  -- KP_SEQ_HI: SEQ
  ⟨0x050, [], [fRo 0 16 0]⟩,
  -- KP_BOOT: WRITE BUSY QUICK_ALWAYS TRIAL_LEFT TRIAL PRIMARY
  ⟨0x054, [], [fWo 31 1 0, fRo 30 1 0, fLive 8 1 0, fLive 4 4 0, fLiveR 2 2 0 0 2, fLiveR 0 2 1 1 2]⟩,
  -- KP_XFER_SRC_LO: ADDR
  ⟨0x058, [], [fLive 12 20 0]⟩,
  -- KP_XFER_SRC_HI: ADDR
  ⟨0x05C, [], [fLive 0 10 0]⟩,
  -- KP_XFER_OFF: UNIT
  ⟨0x060, [], [fLiveR 0 19 0 0 327679]⟩,
  -- KP_XFER_LEN: UNITS
  ⟨0x064, [], [fLiveR 0 19 1 1 327680]⟩,
  -- KP_XFER_CTRL: GO DIR SLOT
  ⟨0x068, [], [fWo 31 1 0, fLive 2 1 0, fLiveR 0 2 1 1 3]⟩,
  -- KP_XFER_STAT: RESULT DONE
  ⟨0x06C, [], [fRo 20 4 0, fRo 0 19 0]⟩,
  -- KP_CTR: VALUE
  ⟨0x080, [(16, 0x4)], [fLive 0 16 0]⟩]

/-- Registers of KD_ (06_keep.md R153). -/
def kdMap : List RegDef := [
  -- KD_FREE: FREE
  ⟨0x040, [], [fRo 0 18 259072]⟩,
  -- KD_RETIRED: RETIRED
  ⟨0x044, [], [fRo 0 18 0]⟩,
  -- KD_MAXWR: MAXWR
  ⟨0x048, [], [fRo 0 17 0]⟩,
  -- KD_CORR: CORR
  ⟨0x04C, [], [fRc 0 16 0]⟩]

/-- Registers of CF_ (07_fabric.md R193). -/
def cfMap : List RegDef := [
  -- CF_CAP_CTRL: GO TRIG_NET STOP TRIG DELAY
  ⟨0x040, [], [fWo 31 1 0, fStopped 19 5 0, fStopped 18 1 0, fStoppedR 16 2 0 0 2, fStopped 0 16 0]⟩,
  -- CF_CAP_NET0: GCK
  ⟨0x044, [], [fStopped 0 32 0]⟩,
  -- CF_CAP_NET1: BCK_LO
  ⟨0x048, [], [fStopped 0 32 0]⟩,
  -- CF_CAP_NET2: BCK_HI
  ⟨0x04C, [], [fStopped 0 32 0]⟩,
  -- CF_CAP_STAT: COUNT MISSED DONE BUSY
  ⟨0x050, [], [fRo 16 16 0, fW1c 2 1 0, fRo 1 1 0, fRo 0 1 0]⟩,
  -- CF_CAP_DONE: NET
  ⟨0x054, [(3, 0x4)], [fRo 0 32 0]⟩,
  -- CF_CAP_TIME_LO: TIME
  ⟨0x060, [], [fRo 0 32 0]⟩,
  -- CF_CAP_TIME_HI: TIME
  ⟨0x064, [], [fRo 0 32 0]⟩,
  -- CF_RB_ADDR: FRAME
  ⟨0x070, [], [fLiveR 0 19 0 0 428983]⟩,
  -- CF_RB_COUNT: COUNT
  ⟨0x074, [], [fLiveR 0 19 1 1 300000]⟩,
  -- CF_RB_DST_LO: ADDR
  ⟨0x078, [], [fLive 8 24 0]⟩,
  -- CF_RB_DST_HI: ADDR
  ⟨0x07C, [], [fLive 0 10 0]⟩,
  -- CF_RB_CTRL: GO
  ⟨0x080, [], [fWo 31 1 0]⟩,
  -- CF_RB_STAT: RESULT DONE
  ⟨0x084, [], [fRo 28 4 0, fRo 0 19 0]⟩,
  -- CF_CONT_CNT: COUNT
  ⟨0x090, [], [fRc 0 16 0]⟩,
  -- CF_CONT_FIRST: VALID FRAME FIELD
  ⟨0x094, [], [fW1c 31 1 0, fRo 10 19 0, fRo 0 9 0]⟩,
  -- CF_GCK_EN: EN
  ⟨0x0A0, [], [fLive 0 32 4294967295]⟩,
  -- CF_BCK_EN0: EN
  ⟨0x0A4, [], [fLive 0 32 4294967295]⟩,
  -- CF_BCK_EN1: EN
  ⟨0x0A8, [], [fLive 0 32 4294967295]⟩,
  -- CF_XG_STAT0: TRAINED
  ⟨0x0B0, [], [fRo 0 32 0]⟩,
  -- CF_XG_STAT1: TRAINED
  ⟨0x0B4, [], [fRo 0 32 0]⟩,
  -- CF_XG_STAT2: TRAINED
  ⟨0x0B8, [], [fRo 0 32 0]⟩,
  -- CF_XG_STAT3: TRAINED
  ⟨0x0BC, [], [fRo 0 32 0]⟩,
  -- CF_XG_FAILCNT: COUNT
  ⟨0x0C0, [], [fRc 0 16 0]⟩]

/-- Registers of BG_ (08_memories.md R215). -/
def bgMap : List RegDef := [
  -- BG_ERR_FIRST: VALID DBE PORT MEM ADDR
  ⟨0x040, [], [fW1c 31 1 0, fRo 30 1 0, fRo 29 1 0, fRo 24 5 0, fRo 0 10 0]⟩,
  -- BG_SBE_CNT: COUNT
  ⟨0x044, [], [fRc 0 16 0]⟩,
  -- BG_DBE_CNT: COUNT
  ⟨0x048, [], [fRc 0 16 0]⟩,
  -- BG_COLL_CNT: COUNT
  ⟨0x04C, [], [fRc 0 16 0]⟩,
  -- BG_WREJ_CNT: COUNT
  ⟨0x050, [], [fRc 0 16 0]⟩,
  -- BG_CASC_ERR: ERR
  ⟨0x054, [], [fRo 0 32 0]⟩,
  -- BG_DISC: COUNT
  ⟨0x058, [], [fRo 0 32 0]⟩,
  -- BG_QSTAT: FULL AFULL EMPTY AEMPTY OCC
  ⟨0x080, [(32, 0x4)], [fRo 31 1 0, fRo 30 1 0, fRo 29 1 0, fRo 28 1 0, fRo 0 22 0]⟩,
  -- BG_WACC: COUNT
  ⟨0x100, [(32, 0x4)], [fRo 0 32 0]⟩,
  -- BG_RDEL: COUNT
  ⟨0x180, [(32, 0x4)], [fRo 0 32 0]⟩]

/-- Registers of DM_ (08_memories.md R216). -/
def dmMap : List RegDef := [
  -- DM_CTRL: WB_EN PATROL_EN NOC_WR_EN NOC_RD_EN
  ⟨0x040, [], [fLiveG 3 1 1, fLiveG 2 1 0, fLiveG 1 1 1, fLiveG 0 1 1]⟩,
  -- DM_PATROL: PERIOD
  ⟨0x044, [], [fLiveGR 0 16 1000 1 65535]⟩,
  -- DM_ERR_FIRST: VALID DBE SRC WORD
  ⟨0x048, [], [fW1c 31 1 0, fRo 30 1 0, fRo 28 2 0, fRo 0 17 0]⟩,
  -- DM_SBE_CNT: COUNT
  ⟨0x04C, [], [fRc 0 16 0]⟩,
  -- DM_DBE_CNT: COUNT
  ⟨0x050, [], [fRc 0 16 0]⟩,
  -- DM_QSTAT: FLAGS OCC
  ⟨0x054, [], [fRo 28 4 0, fRo 0 18 0]⟩,
  -- DM_WACC: COUNT
  ⟨0x058, [], [fRo 0 32 0]⟩,
  -- DM_RDEL: COUNT
  ⟨0x05C, [], [fRo 0 32 0]⟩,
  -- DM_DISC: COUNT
  ⟨0x060, [], [fRo 0 32 0]⟩,
  -- DM_QREJ_CNT: COUNT
  ⟨0x064, [], [fRc 0 16 0]⟩,
  -- DM_SWEEPS: COUNT
  ⟨0x068, [], [fRo 0 16 0]⟩]

/-- Registers of IC_ (09_partitions.md R235). -/
def icMap : List RegDef := [
  -- IC_STAT: RESULT PART RELOAD SIGCHK BUSY
  ⟨0x040, [], [fRo 28 4 0, fRo 22 6 0, fRo 2 1 0, fRo 1 1 0, fRo 0 1 0]⟩,
  -- IC_PROGRESS: FRAMES
  ⟨0x044, [], [fRo 0 21 0]⟩,
  -- IC_FAIL: FRAME
  ⟨0x048, [], [fRo 0 21 2097151]⟩,
  -- IC_FAIL_GROUP: GROUP
  ⟨0x04C, [], [fRo 0 12 4095]⟩,
  -- IC_PCMD: GO OP PART
  ⟨0x050, [], [fWo 31 1 0, fLive 8 3 1, fLive 0 6 0]⟩,
  -- IC_TMO: MS
  ⟨0x054, [], [fLiveGR 0 10 10 1 1000]⟩,
  -- IC_PSRC_LO: ADDR
  ⟨0x058, [], [fLive 12 20 0]⟩,
  -- IC_PSRC_HI: ADDR
  ⟨0x05C, [], [fLive 0 10 0]⟩,
  -- IC_PSTAT: STATE RLOCK SOURCE CLIENT DESIGN_ID
  ⟨0x100, [(64, 0x4)], [fRo 29 3 0, fRo 28 1 0, fRo 27 1 0, fRo 16 5 0, fRo 0 16 0]⟩]

/-- Registers of LE_ (10_loop_engines.md R271). -/
def leMap : List RegDef := [
  -- LE_STAT: NOC_BUSY SET_GATED DIRECT QDEPTH STALL STATE
  ⟨0x040, [], [fRo 12 4 0, fRo 10 1 0, fRo 9 1 0, fRo 6 3 0, fRo 3 3 0, fRo 0 3 0]⟩,
  -- LE_PC: SRC PROG_ID PC
  ⟨0x044, [], [fRo 24 2 0, fRo 16 8 0, fRo 0 11 0]⟩,
  -- LE_EXC: VALID PC CODE
  ⟨0x048, [], [fRo 31 1 0, fRo 16 11 0, fRo 0 8 0]⟩,
  -- LE_CMD: START ABORT CLEAR VEC
  ⟨0x04C, [], [fWo 31 1 0, fWo 30 1 0, fWo 29 1 0, fWo 0 3 0]⟩,
  -- LE_ARG: ARG
  ⟨0x050, [], [fLive 0 24 0]⟩,
  -- LE_MODE: OSH PSH PACKED ESAT ASAT RND FRAC
  ⟨0x054, [], [fShadowGR 16 6 0 0 32, fShadowGR 8 5 0 0 16, fShadowG 5 1 0, fShadowG 4 1 1, fShadowG 3 1 1,
    fShadowGR 1 2 0 0 2, fShadowG 0 1 0]⟩,
  -- LE_CFG: STALL_TMO AUTOGATE SRC_EN
  ⟨0x058, [], [fLiveG 16 16 1000, fLiveG 3 1 1, fLiveG 0 3 7]⟩,
  -- LE_MADDR: INC ADDR
  ⟨0x060, [], [fLive 31 1 0, fLive 0 16 0]⟩,
  -- LE_MDATA: DATA
  ⟨0x064, [], [fLive 0 32 0]⟩,
  -- LE_FLAGS: WL SL N Z SS AV
  ⟨0x068, [], [fRo 11 2 0, fRo 10 1 0, fRo 9 1 0, fRo 8 1 0, fW1c 4 4 0, fW1c 0 4 0]⟩,
  -- LE_RUNS: COUNT
  ⟨0x06C, [], [fRo 0 32 0]⟩,
  -- LE_ISSUE: COUNT
  ⟨0x070, [], [fRo 0 32 0]⟩,
  -- LE_STALLS: COUNT
  ⟨0x074, [], [fRo 0 32 0]⟩,
  -- LE_ERR: PAR SBE
  ⟨0x078, [], [fRc 16 16 0, fRc 0 16 0]⟩,
  -- LE_BP: EN PC
  ⟨0x080, [(2, 0x4)], [fLive 31 1 0, fLive 0 11 0]⟩,
  -- LE_DW_ADDR: EN DIR VAL_EN ADDR
  ⟨0x088, [(2, 0x8)], [fLive 31 1 0, fLiveR 29 2 3 1 3, fLive 28 1 0, fLive 0 16 0]⟩,
  -- LE_DW_VAL: VALUE
  ⟨0x08C, [(2, 0x8)], [fLive 0 24 0]⟩,
  -- LE_DBG_CTX: EN PROG_ID
  ⟨0x098, [], [fLive 8 1 0, fLive 0 8 0]⟩,
  -- LE_GSUM0: PEND
  ⟨0x0A0, [], [fRo 0 32 0]⟩,
  -- LE_GSUM1: PEND
  ⟨0x0A4, [], [fRo 0 32 0]⟩,
  -- LE_GSUM2: PEND
  ⟨0x0A8, [], [fRo 0 8 0]⟩]

end Sys2Proof.Machine
end

