-- ==== Sys2Proof/Machine/RegMap2.lean ====
section
/-! DEFINITION. The register maps of the pages of chapters 12 to 16, register by register: offset, index counts and strides,
and the fields with class, access, After reset value and range. Bits no field names are reserved. -/

namespace Sys2Proof.Machine

/-- Registers of NR_ (12_noc.md R332, R333). -/
def nrMap : List RegDef := [
  -- NR_CFG: AGE
  ⟨0x040, [], [fLiveG 0 10 64]⟩,
  -- NR_STAT: EPOCH BOOT DRAINING ABANDONED
  ⟨0x044, [], [fRo 16 12 0, fRo 2 1 0, fRo 1 1 0, fW1c 0 1 0]⟩,
  -- NR_ERR: CHK CORR
  ⟨0x048, [], [fRc 16 16 0, fRc 0 16 0]⟩,
  -- NR_ERR_FIRST: VALID KIND VC PORT SRC
  ⟨0x04C, [], [fW1c 31 1 0, fRo 30 1 0, fRo 28 2 0, fRo 25 3 0, fRo 0 10 0]⟩,
  -- NR_WU_CTRL: EN PORT CMD CMD_EN VC VC_EN SRC_EN DST_EN ADDR_EN HALT EVT CNT
  ⟨0x080, [(2, 0x20)], [fLive 31 1 0, fLive 28 3 0, fLive 24 4 0, fLive 23 1 0, fLive 21 2 0, fLive 20 1 0,
    fLive 19 1 0, fLive 18 1 0, fLive 17 1 0, fLive 2 1 0, fLive 1 1 0, fLive 0 1 0]⟩,
  -- NR_WU_ID: SRC DST
  ⟨0x084, [(2, 0x20)], [fLive 16 10 0, fLive 0 12 0]⟩,
  -- NR_WU_LO_L: ADDR
  ⟨0x088, [(2, 0x20)], [fLive 0 32 0]⟩,
  -- NR_WU_HI_L: ADDR
  ⟨0x090, [(2, 0x20)], [fLive 0 32 0]⟩,
  -- NR_WU_LO_H: ADDR
  ⟨0x08C, [(2, 0x20)], [fLive 0 10 0]⟩,
  -- NR_WU_HI_H: ADDR
  ⟨0x094, [(2, 0x20)], [fLive 0 10 0]⟩,
  -- NR_WU_CNT: COUNT
  ⟨0x098, [(2, 0x20)], [fRc 0 32 0]⟩,
  -- NR_CRED_A: VC3S VC2 VC1 VC0
  ⟨0x100, [(8, 0x8)], [fRo 24 8 0, fRo 16 8 0, fRo 8 8 0, fRo 0 8 0]⟩,
  -- NR_CRED_B: VC3B
  ⟨0x104, [(8, 0x8)], [fRo 0 8 0]⟩,
  -- NR_BR_CTRL: ISOLATE STAT_CLR HIST_SHIFT URG_RSP URG_STRM URG_REQ
  ⟨0x400, [(8, 0x100)], [fLive 31 1 0, fWo 30 1 0, fLiveG 20 4 4, fLiveG 9 3 2, fLiveG 6 3 3, fLiveG 3 3 2]⟩,
  -- NR_BR_TMO: TGT_TMO RSP_TMO
  ⟨0x404, [(8, 0x100)], [fLiveG 16 16 1000, fLiveG 0 16 2000]⟩,
  -- NR_BR_STAT: ISO_CAUSE ISOLATED QUENCHED ID OUTST CLASS
  ⟨0x408, [(8, 0x100)], [fRo 28 4 0, fRo 27 1 0, fRo 26 1 0, fRo 16 10 0, fRo 8 8 0, fRo 0 3 0]⟩,
  -- NR_BR_BYTES_LO: BYTES
  ⟨0x40C, [(8, 0x100)], [fRo 0 32 0]⟩,
  -- NR_BR_BYTES_HI: BYTES
  ⟨0x410, [(8, 0x100)], [fRo 0 32 0]⟩,
  -- NR_BR_TXN: COUNT
  ⟨0x414, [(8, 0x100)], [fRo 0 32 0]⟩,
  -- NR_BR_MAXLAT: CYCLES
  ⟨0x418, [(8, 0x100)], [fRo 0 16 0]⟩,
  -- NR_BR_HIST: COUNT
  ⟨0x420, [(8, 0x100), (8, 0x4)], [fRo 0 32 0]⟩,
  -- NR_BR_CREDIT: QUOTA HELD
  ⟨0x440, [(8, 0x100)], [fRo 16 16 0, fRo 0 16 0]⟩,
  -- NR_BR_SLOTS: SIZE USED
  ⟨0x444, [(8, 0x100)], [fRo 16 16 0, fRo 0 16 0]⟩,
  -- NR_BR_DROP: COUNT
  ⟨0x448, [(8, 0x100)], [fRo 0 32 0]⟩,
  -- NR_BR_ERRRSP: COUNT
  ⟨0x44C, [(8, 0x100)], [fRc 0 16 0]⟩,
  -- NR_BR_CHK: COUNT
  ⟨0x450, [(8, 0x100)], [fRc 0 16 0]⟩,
  -- NR_BR_STALE: COUNT
  ⟨0x454, [(8, 0x100)], [fRo 0 8 0]⟩]

/-- Registers of RT_ (12_noc.md R334). -/
def rtMap : List RegDef := [
  -- RT_SRC_LO: ADDR
  ⟨0x040, [], [fLive 7 25 0]⟩,
  -- RT_SRC_HI: ADDR
  ⟨0x044, [], [fLive 0 10 0]⟩,
  -- RT_LEN: BYTES
  ⟨0x048, [], [fLiveR 0 15 16 16 27920]⟩,
  -- RT_CTRL: GO APPLY
  ⟨0x04C, [], [fWo 31 1 0, fLive 0 1 0]⟩,
  -- RT_STAT: RESULT DONE BUSY
  ⟨0x050, [], [fRo 28 4 0, fRo 8 8 0, fRo 0 1 0]⟩,
  -- RT_DRAIN_TMO: US
  ⟨0x054, [], [fLiveGR 0 16 100 1 65535]⟩,
  -- RT_FAIL: VALID DIE ROUTER PORT VC
  ⟨0x058, [], [fW1c 31 1 0, fRo 24 4 0, fRo 16 5 0, fRo 8 3 0, fRo 0 2 0]⟩]

/-- Registers of QU_ (12_noc.md R335). -/
def quMap : List RegDef := [
  -- QU_Q: Q
  ⟨0x040, [(32, 0x4)], [fLive 0 32 0]⟩]

/-- Registers of SM_ (13_seams.md R355). -/
def smMap : List RegDef := [
  -- SM_CTRL: RETRAIN VC_EN WIDTH_REQ
  ⟨0x040, [], [fWo 31 1 0, fLive 2 1 0, fLiveG 0 1 0]⟩,
  -- SM_STAT: STATE WIDTH FAR_REQ MISMATCH EPOCH
  ⟨0x044, [], [fRo 28 4 0, fRo 25 1 0, fRo 24 1 0, fW1c 23 1 0, fRo 0 16 0]⟩,
  -- SM_LEDGER: INBOUND OUTBOUND
  ⟨0x048, [], [fRo 16 13 0, fRo 0 13 0]⟩,
  -- SM_STALE: COUNT
  ⟨0x04C, [], [fRo 0 13 0]⟩,
  -- SM_REPLAY: COUNT UNACKED
  ⟨0x050, [], [fRc 16 16 0, fRo 0 7 0]⟩,
  -- SM_CRC: COUNT
  ⟨0x054, [], [fRc 0 16 0]⟩,
  -- SM_ABSORB: COUNT
  ⟨0x058, [], [fRo 0 32 0]⟩,
  -- SM_RECLAIM: COUNT
  ⟨0x05C, [], [fRo 0 32 0]⟩,
  -- SM_TTIME: US
  ⟨0x060, [], [fRo 0 16 0]⟩,
  -- SM_SCRED: HELD
  ⟨0x080, [(30, 0x4)], [fRo 0 7 0]⟩]

/-- Registers of DI_ (13_seams.md R356). -/
def diMap : List RegDef := [
  -- DI_CTRL: ISOLATE REJOIN DIE
  ⟨0x040, [], [fWo 31 1 0, fWo 30 1 0, fLive 0 4 0]⟩,
  -- DI_CFG: HB_TMO AUTO_REJOIN
  ⟨0x044, [], [fLiveGR 16 16 100 10 10000, fLiveG 0 15 0]⟩,
  -- DI_STAT: STATE CAUSE STEP REJOIN_FAIL EPOCH
  ⟨0x080, [(15, 0x4)], [fRo 28 4 0, fRo 24 4 0, fRo 20 4 0, fW1c 19 1 0, fRo 0 16 0]⟩,
  -- DI_ISO_CNT: COUNT
  ⟨0x0C0, [], [fRc 0 16 0]⟩]

/-- Registers of LQ_ (14_lanes.md R378). -/
def lqMap : List RegDef := [
  -- LQ_QSTAT: REF_PCIE SYN_LOCK
  ⟨0x040, [], [fRo 4 4 0, fRo 0 4 0]⟩,
  -- LQ_CFG: LOOPBACK SEED_AUTO RX_INV TX_INV PRE_RX PRE_TX RATE
  ⟨0x100, [(4, 0x80)], [fShadow 10 2 0, fLiveG 9 1 1, fShadowG 8 1 0, fShadowG 7 1 0, fShadowG 6 1 0, fShadowG 5 1 0,
    fShadowG 0 5 0]⟩,
  -- LQ_TXEQ: POST1 PRE1 PRE2
  ⟨0x104, [(4, 0x80)], [fShadowG 10 6 0, fShadowG 4 6 8, fShadowG 0 4 0]⟩,
  -- LQ_SEED0: VALID RATE LFM CTLE VGA PHASE
  ⟨0x108, [(4, 0x80)], [fLiveG 31 1 0, fLiveG 26 5 0, fLiveG 18 8 0, fLiveG 12 6 0, fLiveG 6 6 0, fLiveG 0 6 0]⟩,
  -- LQ_SEED1: DFE
  ⟨0x10C, [(4, 0x80)], [fLiveG 0 32 0]⟩,
  -- LQ_SEED2: PRE_RX_NEG PRE_TX_NEG FAR_TAPS
  ⟨0x110, [(4, 0x80)], [fLiveG 17 1 0, fLiveG 16 1 0, fLiveG 0 16 0]⟩,
  -- LQ_CTRL: SEED_CLR SEED_SAVE
  ⟨0x114, [(4, 0x80)], [fWo 1 1 0, fWo 0 1 0]⟩,
  -- LQ_STAT: LOGICAL LFM OWNER RATE SEED_REJ SEEDED POL_INV CDR_LOCK SIGDET STATE
  ⟨0x118, [(4, 0x80)], [fRo 24 4 0, fRo 16 8 0, fRo 13 2 0, fRo 8 5 0, fW1c 7 1 0, fRo 6 1 0, fRo 5 1 0, fRo 4 1 0,
    fRo 3 1 0, fRo 0 3 0]⟩,
  -- LQ_EYE: Q99 H2 H1 H0
  ⟨0x11C, [(4, 0x80)], [fRo 24 5 0, fRo 16 8 0, fRo 8 8 0, fRo 0 8 0]⟩,
  -- LQ_ADAPT: MS
  ⟨0x120, [(4, 0x80)], [fRo 0 16 0]⟩,
  -- LQ_PGEN: INJ_GO RATE_K BURST INJ INV PAT EN
  ⟨0x130, [(4, 0x80)], [fWo 31 1 0, fLiveR 16 6 20 4 40, fLiveR 8 8 1 1 255, fLive 6 2 0, fLive 5 1 0, fLive 1 4 0,
    fLive 0 1 0]⟩,
  -- LQ_PCHK: CLR LOCK INV PAT EN
  ⟨0x134, [(4, 0x80)], [fWo 7 1 0, fRo 6 1 0, fLive 5 1 0, fLive 1 4 0, fLive 0 1 0]⟩,
  -- LQ_PCHK_BITS_LO: BITS
  ⟨0x138, [(4, 0x80)], [fRo 0 32 0]⟩,
  -- LQ_PCHK_BITS_HI: BITS
  ⟨0x13C, [(4, 0x80)], [fRo 0 32 0]⟩,
  -- LQ_PCHK_ERR_LO: ERRORS
  ⟨0x140, [(4, 0x80)], [fRo 0 32 0]⟩,
  -- LQ_PCHK_ERR_HI: ERRORS
  ⟨0x144, [(4, 0x80)], [fRo 0 32 0]⟩,
  -- LQ_PCHK_SYM: ERRORS
  ⟨0x148, [(4, 0x80)], [fRo 0 32 0]⟩,
  -- LQ_PCHK_LOSS: COUNT
  ⟨0x14C, [(4, 0x80)], [fRc 0 16 0]⟩]

/-- Registers of LB_ (14_lanes.md R379). -/
def lbMap : List RegDef := [
  -- LB_CFG: IDLE_AWARE LFM_MIN
  ⟨0x040, [], [fLiveG 8 1 0, fLiveG 0 8 40]⟩,
  -- LB_DOWN_CNT: COUNT
  ⟨0x044, [], [fRc 0 16 0]⟩,
  -- LB_BCFG: RETRAIN IDLE TRAIN EN WIDTH FIRST
  ⟨0x080, [(16, 0x8)], [fWo 31 1 0, fLive 12 1 0, fLiveG 9 1 1, fLiveG 8 1 0, fLiveGR 5 3 0 0 5, fLiveG 0 5 0]⟩,
  -- LB_BSTAT: POL RX_IDLE SEEDED MISWIRE REVERSED STATE
  ⟨0x084, [(16, 0x8)], [fRo 16 16 0, fRo 6 1 0, fRo 5 1 0, fRo 4 1 0, fRo 3 1 0, fRo 0 3 0]⟩]

/-- Registers of FS_ (15_flow_slices.md R418). -/
def fsMap : List RegDef := [
  -- FS_CFG: CB_RESET_MS
  ⟨0x040, [], [fLiveGR 16 16 1000 1 65535]⟩,
  -- FS_SCHED_RSV: TOKENS
  ⟨0x044, [], [fLiveG 0 18 64]⟩,
  -- FS_TOK_FREE: COUNT
  ⟨0x048, [], [fRo 0 18 131072]⟩,
  -- FS_TOK_RSV: COUNT
  ⟨0x04C, [], [fRo 0 18 0]⟩,
  -- FS_TOK_HELD: COUNT
  ⟨0x050, [], [fRo 0 18 0]⟩,
  -- FS_TOK_SHARED: COUNT
  ⟨0x054, [], [fRo 0 18 131008]⟩,
  -- FS_TBL_CMD: GO OP TABLE INDEX
  ⟨0x060, [], [fWo 31 1 0, fLiveR 24 3 0 0 3, fLiveR 20 4 0 0 9, fLive 0 18 0]⟩,
  -- FS_TBL_STAT: BUSY RESULT
  ⟨0x064, [], [fRo 31 1 0, fRo 0 4 0]⟩,
  -- FS_TBL_DATA: DATA
  ⟨0x080, [(16, 0x4)], [fLive 0 32 0]⟩,
  -- FS_EM_CMD: GO OP CTX
  ⟨0x0C0, [], [fWo 31 1 0, fLiveR 28 2 0 0 2, fLive 0 16 0]⟩,
  -- FS_EM_STAT: BUSY RESULT MOVES
  ⟨0x0C4, [], [fRo 31 1 0, fRo 24 4 0, fRo 16 5 0]⟩,
  -- FS_EM_RES: ENTRY CTX
  ⟨0x0C8, [], [fRo 16 16 0, fRo 0 16 0]⟩,
  -- FS_EM_KEY: KEY
  ⟨0x0E0, [(8, 0x4)], [fLive 0 32 0]⟩,
  -- FS_ADM_CMD: GO OP CTX
  ⟨0x100, [], [fWo 31 1 0, fLive 28 1 0, fLive 0 16 0]⟩,
  -- FS_ADM_STAT: BUSY RESULT COUNT
  ⟨0x104, [], [fRo 31 1 0, fRo 24 4 0, fRo 0 17 0]⟩,
  -- FS_TRUNK: RESERVE RESERVED LOST BUSY RESULT SEAMS ROUTERS T
  ⟨0x140, [(16, 0x4)], [fLive 31 1 0, fRo 30 1 0, fW1c 29 1 0, fRo 28 1 0, fRo 24 4 0, fRo 18 4 0, fRo 12 6 0,
    fRo 0 12 0]⟩,
  -- FS_PUNT_LO: ADDR
  ⟨0x180, [], [fLive 12 20 0]⟩,
  -- FS_INJ_LO: ADDR
  ⟨0x1A0, [], [fLive 12 20 0]⟩,
  -- FS_PUNT_HI: ADDR
  ⟨0x184, [], [fLive 0 10 0]⟩,
  -- FS_INJ_HI: ADDR
  ⟨0x1A4, [], [fLive 0 10 0]⟩,
  -- FS_PUNT_CFG: SLOTS
  ⟨0x188, [], [fStoppedR 0 12 1 1 4095]⟩,
  -- FS_INJ_CFG: SLOTS
  ⟨0x1A8, [], [fStoppedR 0 12 1 1 4095]⟩,
  -- FS_PUNT_HEAD: INDEX
  ⟨0x18C, [], [fRo 0 12 0]⟩,
  -- FS_PUNT_TAIL: INDEX
  ⟨0x190, [], [fLive 0 12 0]⟩,
  -- FS_PUNT_DROP: INJ_SKIP PUNT
  ⟨0x194, [], [fRc 16 16 0, fRc 0 16 0]⟩,
  -- FS_INJ_HEAD: INDEX
  ⟨0x1AC, [], [fLive 0 12 0]⟩,
  -- FS_INJ_TAIL: INDEX
  ⟨0x1B0, [], [fRo 0 12 0]⟩]

/-- Registers of FM_ (15_flow_slices.md R419). -/
def fmMap : List RegDef := [
  -- FM_ALARM: FAIL_THR FAIL_WIN
  ⟨0x040, [], [fLiveGR 16 16 100 1 65535, fLiveGR 0 16 1000 1 65535]⟩,
  -- FM_REPLAY: WINDOW
  ⟨0x048, [], [fLiveG 0 32 0]⟩,
  -- FM_ICV_CNT: COUNT
  ⟨0x04C, [], [fRc 0 16 0]⟩,
  -- FM_PORT: TX_SC REPLAY_PROTECT CONF_OFFSET CONFIDENTIAL VALIDATE RX_EN TX_EN
  ⟨0x080, [(16, 0x4)], [fLiveG 16 7 0, fLiveG 7 1 1, fLiveGR 5 2 0 0 2, fLiveG 4 1 1, fLiveG 2 2 0, fLiveG 1 1 0,
    fLiveG 0 1 0]⟩,
  -- FM_DROP: NOTAG BADTAG
  ⟨0x0C0, [(16, 0x4)], [fRc 16 16 0, fRc 0 16 0]⟩]

/-- Registers of FE_ (15_flow_slices.md R420). -/
def feMap : List RegDef := [
  -- FE_MODE: CT_OUT MTU FEC25 MODE
  ⟨0x040, [], [fLiveG 22 1 1, fLiveGR 8 14 1522 64 9216, fStoppedG 4 1 1, fStoppedG 0 4 0]⟩,
  -- FE_MISS: MISS_EN START_STATE MISS_CTX
  ⟨0x044, [], [fLiveG 31 1 0, fLiveG 16 6 0, fLiveG 0 16 0]⟩,
  -- FE_TSCOR: TX_COR RX_COR
  ⟨0x048, [], [fLiveG 16 16 0, fLiveG 0 16 0]⟩,
  -- FE_STAT: RATE TS_INVALID MODE_ERR LINK
  ⟨0x04C, [], [fRo 16 14 0, fRo 2 1 0, fRo 1 1 0, fRo 0 1 0]⟩,
  -- FE_RXF: COUNT
  ⟨0x050, [], [fRo 0 32 0]⟩,
  -- FE_TXF: COUNT
  ⟨0x05C, [], [fRo 0 32 0]⟩,
  -- FE_RXB_LO: BYTES
  ⟨0x054, [], [fRo 0 32 0]⟩,
  -- FE_RXB_HI: BYTES
  ⟨0x058, [], [fRo 0 32 0]⟩,
  -- FE_TXB_LO: BYTES
  ⟨0x060, [], [fRo 0 32 0]⟩,
  -- FE_TXB_HI: BYTES
  ⟨0x064, [], [fRo 0 32 0]⟩,
  -- FE_ERR: STOMP FCS
  ⟨0x068, [], [fRc 16 16 0, fRc 0 16 0]⟩,
  -- FE_DROP: COUNT
  ⟨0x06C, [(4, 0x4)], [fRo 0 32 0]⟩,
  -- FE_PARSE_LIM: COUNT
  ⟨0x07C, [], [fRo 0 32 0]⟩,
  -- FE_QCFG: SCHED CT MAX_SDU
  ⟨0x080, [(8, 0x10)], [fLiveG 31 1 0, fLiveG 30 1 1, fLiveGR 16 14 2000 64 9216]⟩,
  -- FE_QMIN: TOKENS
  ⟨0x084, [(8, 0x10)], [fLiveG 0 18 0]⟩,
  -- FE_QMAX: TOKENS
  ⟨0x088, [(8, 0x10)], [fLiveG 0 18 131072]⟩,
  -- FE_QSTAT: DEMAND HELD
  ⟨0x08C, [(8, 0x10)], [fRo 18 12 0, fRo 0 18 0]⟩,
  -- FE_GCL_CTRL: EN LEN
  ⟨0x100, [], [fShadow 16 1 0, fShadowR 0 9 1 1 256]⟩,
  -- FE_GCL_CYCLE: NS
  ⟨0x104, [], [fShadowR 0 32 1000000 1000 1000000000]⟩,
  -- FE_GCL_BASE: NS
  ⟨0x108, [(2, 0x4)], [fShadow 0 32 0]⟩,
  -- FE_GCL_STAT: PENDING BANK OPEN ENTRY
  ⟨0x110, [], [fRo 31 1 0, fRo 24 1 0, fRo 16 8 255, fRo 0 8 0]⟩,
  -- FE_TXTS: VALID TS_OK SEQID
  ⟨0x120, [], [fPop 31 1 0, fPop 30 1 0, fPop 0 16 0]⟩,
  -- FE_TXTS_LO: NS
  ⟨0x124, [(2, 0x4)], [fRo 0 32 0]⟩,
  -- FE_TXTS_OVF: COUNT
  ⟨0x12C, [], [fRc 0 16 0]⟩]

/-- Registers of MC_ (16_external_memory.md R444). -/
def mcMap : List RegDef := [
  -- MC_CFG: ILV WB_EN PATROL_EN RATE
  ⟨0x040, [], [fStoppedG 4 2 2, fLiveG 3 1 1, fLiveG 2 1 0, fStoppedGR 0 2 2 0 2]⟩,
  -- MC_GEOM: SPD RANKS DENS
  ⟨0x044, [], [fStoppedG 8 1 1, fStoppedGR 4 2 1 1 3, fStoppedG 3 1 0]⟩,
  -- MC_PATROL: PERIOD
  ⟨0x048, [], [fLiveGR 0 16 3600 60 65535]⟩,
  -- MC_STAT: CAP_GIB TRAIN_MS CAUSE ILV_ERR STATE
  ⟨0x04C, [], [fRo 24 8 0, fRo 16 8 0, fRo 12 4 0, fRo 2 1 0, fRo 0 2 0]⟩,
  -- MC_ERR_FIRST: VALID KIND SUBCH SYMBOL SRC
  ⟨0x050, [], [fW1c 31 1 0, fRo 28 3 0, fRo 27 1 0, fRo 23 4 0, fRo 0 10 0]⟩,
  -- MC_ERR_LINE: LINE
  ⟨0x054, [], [fRo 0 31 0]⟩,
  -- MC_SBE_CNT: COUNT
  ⟨0x058, [], [fRc 0 16 0]⟩,
  -- MC_DBE_CNT: COUNT
  ⟨0x05C, [], [fRc 0 16 0]⟩,
  -- MC_TAG_CNT: LATE VERIFIED
  ⟨0x060, [], [fRc 16 16 0, fRc 0 16 0]⟩,
  -- MC_TC_HIT: COUNT
  ⟨0x064, [], [fRo 0 32 0]⟩,
  -- MC_TC_MISS: COUNT
  ⟨0x068, [], [fRo 0 32 0]⟩,
  -- MC_KEY_SEL: WORD KEY RANGE
  ⟨0x070, [], [fLive 6 3 0, fLiveR 4 2 0 0 2, fLive 0 4 0]⟩,
  -- MC_KEY_DATA: DATA
  ⟨0x074, [], [fWo 0 32 0]⟩,
  -- MC_RELEASE: GO ID
  ⟨0x078, [], [fWo 31 1 0, fLive 0 10 0]⟩,
  -- RNG_CTRL: EN INIT_DONE ACTION POLICY KEYS
  ⟨0x100, [(16, 0x20)], [fLive 31 1 0, fRo 30 1 0, fLive 6 2 0, fLive 5 1 0, fRo 0 3 0]⟩,
  -- RNG_BASE: PAGE
  ⟨0x104, [(16, 0x20)], [fLive 0 30 0]⟩,
  -- RNG_LIMIT: PAGE
  ⟨0x108, [(16, 0x20)], [fLive 0 30 0]⟩,
  -- RNG_TOFF: PAGE
  ⟨0x10C, [(16, 0x20)], [fLive 0 25 0]⟩,
  -- RNG_INIT: LINES
  ⟨0x110, [(16, 0x20)], [fRo 0 32 0]⟩,
  -- RNG_LATE: COUNT
  ⟨0x114, [(16, 0x20)], [fRc 0 16 0]⟩]

end Sys2Proof.Machine
end

