-- ==== Sys2Proof/Machine/RegMap3.lean ====
section
/-! DEFINITION. The register maps of the pages of chapters 17 to 23, register by register: offset, index counts and strides,
and the fields with class, access, After reset value and range. Bits no field names are reserved. -/

namespace Sys2Proof.Machine

/-- Registers of TB_ (17_processors.md R451). -/
def tbMap : List RegDef := [
  -- TB_CTRL: SET STEP CMP_EN
  ⟨0x040, [], [fWo 31 1 0, fWo 30 1 0, fLive 0 1 0]⟩,
  -- TB_NOW_LO: NS
  ⟨0x044, [], [fRo 0 32 0]⟩,
  -- TB_NOW_HI: NS
  ⟨0x048, [], [fRo 0 32 0]⟩,
  -- TB_SET_LO: NS
  ⟨0x04C, [], [fLive 0 32 0]⟩,
  -- TB_SET_HI: NS
  ⟨0x050, [], [fLive 0 32 0]⟩,
  -- TB_STEP_LO: NS
  ⟨0x054, [], [fLive 0 32 0]⟩,
  -- TB_STEP_HI: NS
  ⟨0x058, [], [fLive 0 32 0]⟩,
  -- TB_RATE: RATE
  ⟨0x05C, [], [fLive 0 32 0]⟩,
  -- TB_CMP_LO: NS
  ⟨0x060, [], [fLive 0 32 0]⟩,
  -- TB_CMP_HI: NS
  ⟨0x064, [], [fLive 0 32 0]⟩,
  -- TB_STAT: COAST
  ⟨0x068, [], [fRo 0 1 0]⟩]

/-- Registers of MB_ (17_processors.md R458). -/
def mbMap : List RegDef := [
  -- MB_DATA: DATA
  ⟨0x100, [(8, 0x40), (8, 0x4)], [fLive 0 32 0]⟩,
  -- MB_SEND: GO
  ⟨0x120, [(8, 0x40)], [fWo 0 1 0]⟩,
  -- MB_TAKE: VALID SENDER SEQ
  ⟨0x124, [(8, 0x40)], [fPop 31 1 0, fPop 16 10 0, fPop 0 16 0]⟩,
  -- MB_STAT: FULL TIMEOUT SENDER SEQ
  ⟨0x128, [(8, 0x40)], [fRo 31 1 0, fRo 30 1 0, fRo 16 10 0, fRo 0 16 0]⟩,
  -- MB_MEMB: M0_MODE M0_ID M1_MODE M1_ID
  ⟨0x12C, [(8, 0x40)], [fLiveG 30 2 2, fLiveG 16 10 0, fLiveG 14 2 0, fLiveG 0 10 0]⟩,
  -- MB_TMO: US
  ⟨0x130, [(8, 0x40)], [fLiveGR 0 20 1000 1 1000000]⟩,
  -- MB_CTRL: WITHDRAW
  ⟨0x134, [(8, 0x40)], [fWo 0 1 0]⟩,
  -- MB_CNT: WDRAW TAKEN
  ⟨0x138, [(8, 0x40)], [fRo 16 16 0, fRo 0 16 0]⟩]

/-- Registers of LK_ (17_processors.md R461). -/
def lkMap : List RegDef := [
  -- LK_FORCE: GO LOCK
  ⟨0x040, [], [fWo 31 1 0, fLive 0 8 0]⟩,
  -- LK_WORD: WORD
  ⟨0x100, [(256, 0x4)], [fLive 0 32 0]⟩,
  -- LK_STAT: HELD HALTED HOLDER
  ⟨0x500, [(256, 0x4)], [fRo 31 1 0, fRo 30 1 0, fRo 0 10 0]⟩]

/-- Registers of EV_ (17_processors.md R464). -/
def evMap : List RegDef := [
  -- EV_RSEL: SRC
  ⟨0x040, [], [fLiveR 0 10 0 0 639]⟩,
  -- EV_RDATA: ROUTE
  ⟨0x044, [(2, 0x4)], [fLive 0 32 0]⟩,
  -- EV_PINPOL: POL
  ⟨0x04C, [], [fLive 0 8 0]⟩,
  -- EV_MERGE: COUNT
  ⟨0x050, [], [fRc 0 16 0]⟩,
  -- EV_THRESH: LEVEL
  ⟨0x060, [(4, 0x4)], [fLive 0 4 0]⟩,
  -- EV_CLAIM: VALID SRC
  ⟨0x070, [(4, 0x4)], [fPop 31 1 0, fPop 0 10 0]⟩,
  -- EV_DONE: SRC
  ⟨0x080, [(4, 0x4)], [fWo 0 10 0]⟩,
  -- EV_LEVEL: LEVEL
  ⟨0x100, [(20, 0x4)], [fRo 0 32 0]⟩]

/-- Registers of CL_ (17_processors.md R465). -/
def clMap : List RegDef := [
  -- CL_HART: HALTED WFI EN
  ⟨0x040, [], [fRo 8 4 0, fRo 4 4 0, fLive 0 4 0]⟩,
  -- CL_RVEC_LO: ADDR
  ⟨0x044, [], [fLive 2 30 0]⟩,
  -- CL_RVEC_HI: ADDR
  ⟨0x048, [], [fLive 0 10 800]⟩,
  -- CL_CMO: GO BUSY OP
  ⟨0x04C, [], [fWo 31 1 0, fRo 30 1 0, fLiveR 0 2 0 0 2]⟩,
  -- CL_CMO_LO: ADDR
  ⟨0x050, [], [fLive 6 26 0]⟩,
  -- CL_CMO_HI: ADDR
  ⟨0x054, [], [fLive 0 10 0]⟩,
  -- CL_CMO_LEN: LINES
  ⟨0x058, [], [fLiveR 0 24 1 1 16777215]⟩,
  -- CL_BERR: VALID ASYNC OVF CODE
  ⟨0x060, [(4, 0x10)], [fW1c 31 1 0, fRo 30 1 0, fW1c 29 1 0, fRo 0 4 0]⟩,
  -- CL_BERRA_LO: ADDR
  ⟨0x064, [(4, 0x10)], [fRo 0 32 0]⟩,
  -- CL_BERRA_HI: ADDR
  ⟨0x068, [(4, 0x10)], [fRo 0 10 0]⟩]

/-- Registers of HD_ (17_processors.md R466). -/
def hdMap : List RegDef := [
  -- HD_SRC_LO: ADDR
  ⟨0x100, [(8, 0x20)], [fStopped 0 32 0]⟩,
  -- HD_SRC_HI: ADDR
  ⟨0x104, [(8, 0x20)], [fStopped 0 10 0]⟩,
  -- HD_DST_LO: ADDR
  ⟨0x108, [(8, 0x20)], [fStopped 0 32 0]⟩,
  -- HD_DST_HI: ADDR
  ⟨0x10C, [(8, 0x20)], [fStopped 0 10 0]⟩,
  -- HD_LEN: BYTES
  ⟨0x110, [(8, 0x20)], [fStoppedR 0 32 1 1 4294967295]⟩,
  -- HD_CTRL: GO ABORT
  ⟨0x114, [(8, 0x20)], [fWo 31 1 0, fWo 30 1 0]⟩,
  -- HD_STAT: RESULT
  ⟨0x118, [(8, 0x20)], [fRo 28 4 0]⟩,
  -- HD_DONE: BYTES
  ⟨0x11C, [(8, 0x20)], [fRo 0 32 0]⟩]

/-- Registers of PC_ (17_processors.md R470). -/
def pcMap : List RegDef := [
  -- PC_CFG: FUNC1 MAXGEN WIDTH MODE
  ⟨0x040, [], [fStopped 8 1 0, fStoppedR 4 3 6 4 6, fStoppedR 2 2 0 0 2, fStoppedR 0 2 1 0 2]⟩,
  -- PC_STAT: PERST RELEASED FLIT LINK_UP WIDTH GEN
  ⟨0x044, [], [fRo 12 1 0, fRo 11 1 0, fRo 10 1 0, fRo 9 1 0, fRo 4 5 0, fRo 0 4 0]⟩,
  -- PC_IDS: VENDOR DEVICE
  ⟨0x048, [], [fRo 16 16 0, fRo 0 16 0]⟩,
  -- PC_OUT_LO: ADDR
  ⟨0x050, [], [fLive 0 32 0]⟩,
  -- PC_OUT_HI: ADDR
  ⟨0x054, [], [fLive 0 32 0]⟩,
  -- PC_RIN_LO: ADDR
  ⟨0x058, [], [fStopped 0 32 0]⟩,
  -- PC_RIN_HI: ADDR
  ⟨0x05C, [], [fStopped 0 32 0]⟩,
  -- PC_BAR2_SZ: SZ
  ⟨0x060, [(2, 0x10)], [fStoppedR 0 6 24 20 36]⟩,
  -- PC_BAR2_TGT_LO: ADDR
  ⟨0x064, [(2, 0x10)], [fStopped 0 32 0]⟩,
  -- PC_BAR2_TGT_HI: ADDR
  ⟨0x068, [(2, 0x10)], [fStopped 0 10 0]⟩,
  -- PC_MSI_SEND: VEC
  ⟨0x080, [], [fWo 0 8 0]⟩,
  -- PC_MSI_SEND1: VEC
  ⟨0x084, [], [fWo 0 8 0]⟩,
  -- PC_DOORBELL: BITS
  ⟨0x088, [], [fW1c 0 32 0]⟩]

/-- Registers of PD_ (18_power.md R490). -/
def pdMap : List RegDef := [
  -- PD_STAT: HOLD DROP_DENIED STATE
  ⟨0x040, [], [fRo 8 4 1, fW1c 7 1 0, fRo 0 3 0]⟩,
  -- PD_CFG: LINGER_US
  ⟨0x044, [], [fLiveG 0 16 100]⟩,
  -- PD_INFO: WAKE_LIMIT INDEX KIND
  ⟨0x048, [], [fRo 16 16 0, fRo 8 8 0, fRo 0 8 0]⟩,
  -- PD_WAKES: COUNT
  ⟨0x04C, [], [fRo 0 32 0]⟩,
  -- PD_WAKE_US: US
  ⟨0x050, [], [fRo 0 16 0]⟩,
  -- PD_RTC_LO: COUNT
  ⟨0x060, [], [⟨0, 32, .live, .rw, false, true, 0, 0, 4294967295⟩]⟩,
  -- PD_RTC_HI: COUNT
  ⟨0x064, [], [⟨0, 16, .live, .rw, false, true, 0, 0, 65535⟩]⟩,
  -- PD_ALARM_LO: TIME
  ⟨0x068, [], [⟨0, 32, .live, .rw, false, true, 0, 0, 4294967295⟩]⟩,
  -- PD_ALARM_HI: TIME
  ⟨0x06C, [], [⟨0, 16, .live, .rw, false, true, 0, 0, 65535⟩]⟩,
  -- PD_ALARM_CTRL: ALARM_EN
  ⟨0x070, [], [⟨0, 1, .live, .rw, false, true, 0, 0, 1⟩]⟩,
  -- PD_TORPOR: FROM_TORPOR LAST_EXIT ENTERING ARM
  ⟨0x060, [], [⟨31, 1, .live, .ro, false, true, 0, 0, 1⟩, ⟨16, 2, .live, .ro, false, true, 0, 0, 3⟩, fRo 8 1 0,
    fLive 0 1 0]⟩]

/-- Registers of GV_ (18_power.md R491). -/
def gvMap : List RegDef := [
  -- GV_CFG: THR REVOKE_US
  ⟨0x040, [], [fLiveGR 16 3 3 1 7, fLiveGR 0 16 1000 10 65535]⟩,
  -- GV_TEMP: HOT TO TF
  ⟨0x044, [], [fRo 16 7 0, fRo 8 8 0, fRo 0 8 0]⟩,
  -- GV_PWR: P
  ⟨0x048, [], [fRo 0 13 0]⟩,
  -- GV_POOL: TARGET POOL
  ⟨0x04C, [], [fRo 16 11 0, fRo 0 11 0]⟩,
  -- GV_FREE: HELD FREE
  ⟨0x050, [], [fRo 16 11 0, fRo 0 11 0]⟩,
  -- GV_DEBT: B DEBT
  ⟨0x054, [], [fRo 16 11 0, fRo 0 11 0]⟩,
  -- GV_MINT: COUNT
  ⟨0x058, [(2, 0x4)], [fRo 0 32 0]⟩,
  -- GV_SFAIL: INVALID
  ⟨0x060, [(3, 0x4)], [fRo 0 32 0]⟩,
  -- GV_CRV: EN TEMP TOKENS
  ⟨0x080, [(16, 0x4)], [fShadowG 31 1 0, fShadowG 16 8 0, fShadowGR 0 11 0 0 2000]⟩,
  -- GV_SENS: VALID TEMP
  ⟨0x100, [(72, 0x4)], [fRo 8 1 0, fRo 0 8 0]⟩]

/-- Registers of DS_ (18_power.md R492). -/
def dsMap : List RegDef := [
  -- DS_DSEL: INDEX
  ⟨0x040, [], [fLive 0 12 0]⟩,
  -- DS_D: WORD
  ⟨0x044, [(4, 0x4)], [fLive 0 32 0]⟩,
  -- DS_SUBMIT: INDEX
  ⟨0x054, [], [fWo 0 12 0]⟩,
  -- DS_DONE: STATUS INDEX
  ⟨0x058, [], [⟨16, 2, .live, .wo, false, false, 0, 0, 2⟩, fWo 0 12 0]⟩,
  -- DS_REL: COUNT INDEX
  ⟨0x05C, [], [fWo 16 11 0, fWo 0 12 0]⟩,
  -- DS_CQ: VALID STATUS INDEX
  ⟨0x060, [], [fPop 31 1 0, fPop 16 2 0, fPop 0 12 0]⟩,
  -- DS_MQ: VALID INDEX
  ⟨0x070, [(4, 0x4)], [fPop 31 1 0, fPop 0 12 0]⟩,
  -- DS_PQ: VALID INDEX
  ⟨0x080, [(8, 0x4)], [fPop 31 1 0, fPop 0 12 0]⟩,
  -- DS_STAT: ISSUED READY
  ⟨0x0A0, [], [fRo 16 13 0, fRo 0 13 0]⟩,
  -- DS_CFG: RESERVE_US
  ⟨0x0A4, [], [fLiveGR 0 16 100 1 65535]⟩,
  -- DS_CQ_OVF: COUNT
  ⟨0x0A8, [], [fRc 0 16 0]⟩,
  -- DS_REFUSE: COUNT
  ⟨0x0AC, [], [fRo 0 32 0]⟩]

/-- Registers of SC_ (19_security.md R509). -/
def scMap : List RegDef := [
  -- SC_LC: ENTRY_DONE RECORD_OK STATE
  ⟨0x040, [], [fRo 5 1 0, fRo 4 1 0, fRo 0 3 0]⟩,
  -- SC_SIGNER: REVOKED VALID
  ⟨0x044, [], [fRo 4 4 0, fRo 0 4 0]⟩,
  -- SC_CMD_STAT: BUSY SOURCE STATUS CODE
  ⟨0x048, [], [fRo 23 1 0, fRo 16 7 0, fRo 8 4 0, fRo 0 8 0]⟩,
  -- SC_IDHASH: HASH
  ⟨0x050, [(8, 0x4)], [fRo 0 32 0]⟩,
  -- SC_ALARM: ALARM SRC
  ⟨0x070, [], [fRo 31 1 0, fW1c 0 6 0]⟩,
  -- SC_ALARM_CNT: COUNT
  ⟨0x074, [], [fRc 0 16 0]⟩,
  -- SC_ALARM_FIRST: VALID BIT DIE ID
  ⟨0x078, [], [fW1c 31 1 0, fRo 24 3 0, fRo 20 4 0, fRo 0 10 0]⟩,
  -- SC_REPORTS: COUNT
  ⟨0x07C, [], [fRo 0 32 0]⟩,
  -- SC_TCMD: DATA
  ⟨0x080, [(8, 0x4)], [fLive 0 32 0]⟩,
  -- SC_TGO: BUSY GO
  ⟨0x0A0, [], [fRo 31 1 0, fWo 0 1 0]⟩]

/-- Registers of ER_ (20_errors.md R534). -/
def erMap : List RegDef := [
  -- ER_CTRL: DONE FATAL_RESET
  ⟨0x040, [], [fWo 31 1 0, fLiveG 0 1 1]⟩,
  -- ER_CFG: SCRUB_TMO_MS FATAL_HOLD_MS
  ⟨0x044, [], [fLiveGR 16 16 120 70 1000, fLiveGR 0 16 10 1 65535]⟩,
  -- ER_STAT: HANDLING FATAL
  ⟨0x048, [], [fRo 31 1 0, fRo 30 1 0]⟩,
  -- ER_FIRST0: VALID PREEMPT CLASS DIE SRC
  ⟨0x050, [(2, 0x20)], [fRo 31 1 0, fRo 30 1 0, fRo 28 2 0, fRo 24 4 0, fRo 0 10 0]⟩,
  -- ER_FIRST1: CODE
  ⟨0x054, [(2, 0x20)], [fRo 0 16 0]⟩,
  -- ER_FIRST2: INFO
  ⟨0x058, [(2, 0x20)], [fRo 0 32 0]⟩,
  -- ER_FIRST3: TIME
  ⟨0x05C, [(2, 0x20)], [fRo 0 32 0]⟩,
  -- ER_FIRST4: TIME
  ⟨0x060, [(2, 0x20)], [fRo 0 32 0]⟩,
  -- ER_CNT: COUNT
  ⟨0x090, [(4, 0x4)], [fRc 0 16 0]⟩,
  -- ER_NEXT_LOST: COUNT
  ⟨0x0A0, [], [fRc 0 16 0]⟩,
  -- ER_AUDIT: COUNT
  ⟨0x0C0, [(8, 0x4)], [fRo 0 32 0]⟩]

/-- Registers of AX_ (20_errors.md R535). -/
def axMap : List RegDef := [
  -- AX_CTRL: EN
  ⟨0x040, [], [fLiveG 0 1 1]⟩,
  -- AX_STAT: LAST_MS STATE
  ⟨0x044, [], [fRo 16 16 0, fRo 0 3 0]⟩,
  -- AX_SCAN: COUNT
  ⟨0x048, [], [fRo 0 32 0]⟩,
  -- AX_CORR: COUNT
  ⟨0x04C, [(4, 0x4)], [fRc 0 16 0]⟩,
  -- AX_FIRST: VALID KIND FRAME
  ⟨0x05C, [], [fW1c 31 1 0, fRo 29 2 0, fRo 0 19 0]⟩,
  -- AX_POS: FRAME
  ⟨0x060, [], [fRo 0 19 0]⟩]

/-- Registers of BB_ (20_errors.md R536). -/
def bbMap : List RegDef := [
  -- BB_HEAD: INDEX
  ⟨0x040, [], [⟨0, 12, .live, .ro, false, true, 0, 0, 4095⟩]⟩,
  -- BB_SEQ: SEQ
  ⟨0x044, [], [⟨0, 32, .live, .ro, false, true, 0, 0, 4294967295⟩]⟩,
  -- BB_LOST: COUNT
  ⟨0x048, [], [fRc 0 16 0]⟩,
  -- BB_MARK: VALUE
  ⟨0x04C, [], [fWo 0 32 0]⟩,
  -- BB_COPY: AGE
  ⟨0x050, [], [fLive 0 2 0]⟩,
  -- BB_CINFO: VALID REASON HEAD
  ⟨0x054, [], [fRo 31 1 0, fRo 24 4 0, fRo 0 12 0]⟩,
  -- BB_CSEQ: SEQ
  ⟨0x058, [], [fRo 0 32 0]⟩,
  -- BB_CTIME_LO: TIME
  ⟨0x05C, [], [fRo 0 32 0]⟩,
  -- BB_CTIME_HI: TIME
  ⟨0x060, [], [fRo 0 32 0]⟩,
  -- BB_XFER_LO: ADDR
  ⟨0x064, [], [fLive 8 24 0]⟩,
  -- BB_XFER_HI: ADDR
  ⟨0x068, [], [fLive 0 10 0]⟩,
  -- BB_XFER_CTRL: GO
  ⟨0x06C, [], [fWo 31 1 0]⟩,
  -- BB_XFER_STAT: RESULT
  ⟨0x070, [], [fRo 28 4 0]⟩]

/-- Registers of SD_ (21_shutdown.md R556). -/
def sdMap : List RegDef := [
  -- SD_CTRL: SHDN ARM DISARM
  ⟨0x040, [], [fWo 31 1 0, fWo 30 1 0, fWo 29 1 0]⟩,
  -- SD_CFG: ARM_AUTO TEST HOLDUP_MS
  ⟨0x044, [], [fLiveG 31 1 0, fLiveGR 16 2 0 0 2, fLiveGR 0 16 20 20 1000]⟩,
  -- SD_BR_CFG: MAX_AGE_S
  ⟨0x048, [], [fLiveG 16 16 0]⟩,
  -- SD_BR_MEM_LO: MEM
  ⟨0x04C, [], [fLiveG 0 32 0]⟩,
  -- SD_BR_MEM_HI: MEM
  ⟨0x050, [], [fLiveG 0 32 0]⟩,
  -- SD_STAT: STATE ARM_RESULT ARMED
  ⟨0x054, [], [fRo 28 4 0, fRo 24 4 0, fRo 23 1 0]⟩,
  -- SD_BR_SIZE: LIMIT SIZE
  ⟨0x058, [], [fRo 16 16 0, fRo 0 16 0]⟩,
  -- SD_SNAP: VALID USED CAUSE BUF REASON PARTS
  ⟨0x05C, [], [fRo 31 1 0, fRo 30 1 0, fRo 26 4 0, fRo 25 1 0, fRo 23 2 0, fRo 16 7 0]⟩,
  -- SD_SNAP_SEQ: SEQ
  ⟨0x060, [], [fRo 0 32 0]⟩,
  -- SD_SNAP_RTC_LO: RTC
  ⟨0x064, [], [fRo 0 32 0]⟩,
  -- SD_SNAP_RTC_HI: RTC
  ⟨0x068, [], [fRo 0 16 0]⟩,
  -- SD_SNAP_TIME_LO: TIME
  ⟨0x06C, [], [fRo 0 32 0]⟩,
  -- SD_SNAP_TIME_HI: TIME
  ⟨0x070, [], [fRo 0 32 0]⟩,
  -- SD_RES_LO: RES
  ⟨0x074, [], [fRo 0 32 0]⟩,
  -- SD_RES_HI: RES
  ⟨0x078, [], [fRo 0 32 0]⟩,
  -- SD_REC0: PRESENT TAG_OK RESULT VARIANT DIE REGION
  ⟨0x080, [], [fRo 31 1 0, fRo 30 1 0, fRo 28 2 0, fRo 26 2 0, fRo 22 4 0, fRo 16 6 0]⟩,
  -- SD_REC1: INDEX
  ⟨0x084, [], [fRo 0 32 0]⟩,
  -- SD_REC2: RTC
  ⟨0x088, [], [fRo 0 32 0]⟩,
  -- SD_REC3: RTC
  ⟨0x08C, [], [fRo 0 16 0]⟩]

/-- Registers of ST_ (21_shutdown.md R557). -/
def stMap : List RegDef := [
  -- ST_CMD: GO SAVE ALGO REGION
  ⟨0x040, [], [fWo 31 1 0, fLive 30 1 1, fLiveR 16 2 0 0 2, fLive 0 6 0]⟩,
  -- ST_STAT: BUSY RESULT
  ⟨0x044, [], [fRo 31 1 0, fRo 28 3 0]⟩,
  -- ST_FAIL: VALID REGION INDEX
  ⟨0x048, [], [fW1c 31 1 0, fRo 24 6 0, fRo 0 24 0]⟩]

/-- Registers of DB_ (22_debug.md R574). -/
def dbMap : List RegDef := [
  -- DB_HALT: RESET_HALT STEP RESUME_REQ HALT_REQ
  ⟨0x040, [], [fLive 12 4 0, fWo 8 4 0, fWo 4 4 0, fWo 0 4 0]⟩,
  -- DB_CFG: STEPIE EBREAK LE_HALT NOC_HALT GROUP
  ⟨0x044, [], [fLive 15 1 0, fLive 12 3 0, fLive 8 4 0, fLive 4 4 0, fLive 0 4 0]⟩,
  -- DB_CSTAT: HALTED CAUSE HIT
  ⟨0x050, [(4, 0x4)], [fRo 31 1 0, fRo 24 3 0, fRo 0 16 0]⟩,
  -- DB_REGCMD: GO WRITE ERR BUSY CORE REG
  ⟨0x060, [], [fWo 31 1 0, fLive 30 1 0, fRo 29 1 0, fRo 28 1 0, fLive 16 2 0, fLive 0 16 0]⟩,
  -- DB_REGDATA_LO: DATA
  ⟨0x064, [], [fLive 0 32 0]⟩,
  -- DB_REGDATA_HI: DATA
  ⟨0x068, [], [fLive 0 32 0]⟩,
  -- DB_LE: GO OP DIE ENGINE
  ⟨0x070, [], [fWo 31 1 0, fLiveR 28 2 1 1 3, fLiveR 21 4 0 0 7, fLiveR 0 9 0 0 287]⟩]

/-- Registers of TR_ (22_debug.md R574). -/
def trMap : List RegDef := [
  -- TR_CFG: EN STOP_FULL STOP_HALT CORES NOC
  ⟨0x040, [], [fLive 31 1 0, fLive 30 1 0, fLive 29 1 0, fLive 4 4 0, fLive 3 1 0]⟩,
  -- TR_PTR: WRAPPED WR
  ⟨0x044, [], [fRo 16 1 0, fRo 0 16 0]⟩,
  -- TR_RIDX: INC IDX
  ⟨0x048, [], [fLive 31 1 0, fLive 0 16 0]⟩,
  -- TR_RDATA: DATA
  ⟨0x050, [(4, 0x4)], [fRo 0 32 0]⟩]

/-- Registers of WD_ (22_debug.md R574). -/
def wdMap : List RegDef := [
  -- WD_CFG: WDT_GRACE RESET_EN FREEZE
  ⟨0x040, [], [fLiveGR 16 16 1000 1 65535, fLiveG 4 4 0, fLiveG 0 4 15]⟩,
  -- WD_CTRL: EN LOAD_US
  ⟨0x050, [(4, 0x10)], [fLive 31 1 0, fLiveR 0 24 1000000 1 16777215]⟩,
  -- WD_KICK: KEY
  ⟨0x054, [(4, 0x10)], [⟨0, 8, .live, .wo, false, false, 0, 165, 165⟩]⟩,
  -- WD_CNT: US
  ⟨0x058, [(4, 0x10)], [fRo 0 24 0]⟩,
  -- WD_SENT_CTRL: EN SENT_FREEZE PERIOD_MS
  ⟨0x090, [], [fOnce 31 1 0, fLive 30 1 0, fOnceR 0 16 1000 1 65535]⟩,
  -- WD_SENT_KICK: KEY
  ⟨0x094, [], [⟨0, 8, .live, .wo, false, false, 0, 165, 165⟩]⟩,
  -- WD_SENT_CNT: MS
  ⟨0x098, [], [fRo 0 16 0]⟩,
  -- WD_STAT: SENT_BIT BITTEN
  ⟨0x09C, [], [⟨31, 1, .live, .w1c, false, true, 0, 0, 1⟩, fW1c 0 4 0]⟩]

/-- Registers of BK_ (22_debug.md R574). -/
def bkMap : List RegDef := [
  -- BK_CTRL: EN ACTION PRIV CX_EN RANGE DIR VAL_EN LINK_EN LINK_SEQ LINK_SRC
  ⟨0x100, [(16, 0x20)], [fLive 31 1 0, fLiveR 29 2 0 0 2, fLive 26 3 7, fLive 25 1 0, fLive 24 1 0, fLive 22 2 0,
    fLive 21 1 0, fLive 20 1 0, fLive 19 1 0, fLive 0 4 0]⟩,
  -- BK_CXID: CXID
  ⟨0x104, [(16, 0x20)], [fLive 0 16 0]⟩,
  -- BK_ADDR_LO: ADDR
  ⟨0x108, [(16, 0x20)], [fLive 0 32 0]⟩,
  -- BK_ADDR_HI: ADDR
  ⟨0x10C, [(16, 0x20)], [fLive 0 32 0]⟩,
  -- BK_VAL_LO: VAL
  ⟨0x110, [(16, 0x20)], [fLive 0 32 0]⟩,
  -- BK_VAL_HI: VAL
  ⟨0x114, [(16, 0x20)], [fLive 0 32 0]⟩,
  -- BK_MASK_LO: MASK
  ⟨0x118, [(16, 0x20)], [fLive 0 32 0]⟩,
  -- BK_MASK_HI: MASK
  ⟨0x11C, [(16, 0x20)], [fLive 0 32 0]⟩]

/-- Registers of IO_ (23_pins.md R586). -/
def ioMap : List RegDef := [
  -- IO_SAFE: SAFE
  ⟨0x040, [(3, 0x4)], [fLiveG 0 32 0]⟩,
  -- IO_ACT0: ACT
  ⟨0x050, [], [fRo 0 32 4294967295]⟩,
  -- IO_ACT1: ACT
  ⟨0x054, [], [fRo 0 16 65535]⟩,
  -- IO_STAT: MV VCCIO STD_ERR VCCIO_OK
  ⟨0x058, [], [fRo 16 16 0, fRo 8 3 0, fW1c 1 1 0, fRo 0 1 0]⟩]

/-- Registers of SU_ (23_pins.md R594). -/
def suMap : List RegDef := [
  -- SU_STAT: PF_SRC PF_RAIL RAIL_OK
  ⟨0x040, [], [⟨28, 4, .live, .ro, false, true, 0, 0, 15⟩, ⟨24, 4, .live, .ro, false, true, 15, 0, 15⟩, fRo 0 8 0]⟩,
  -- SU_CFG: TRIP_C
  ⟨0x044, [], [fLiveGR 0 8 125 110 125]⟩,
  -- SU_PF_CNT: COUNT
  ⟨0x048, [], [⟨0, 16, .live, .ro, false, true, 0, 0, 65535⟩]⟩,
  -- SU_RAIL: CURRENT MV
  ⟨0x080, [(8, 0x4)], [fRo 16 16 0, fRo 0 16 0]⟩]

end Sys2Proof.Machine
end

