-- ==== Sys2Proof/Machine/RegNames.lean ====
section
/-! DEFINITION. Names for register fields: the manual's register and field name, with offset, least significant bit, width
and the stride of the register's (innermost) index. -/

namespace Sys2Proof.Machine

def PG_ID_LAYOUT_VER : FieldRef := ⟨0x000, 27, 4, 0⟩
def PG_ID_LEVEL : FieldRef := ⟨0x000, 24, 3, 0⟩
def PG_ID_INSTANCE : FieldRef := ⟨0x000, 12, 12, 0⟩
def PG_ID_TYPE : FieldRef := ⟨0x000, 0, 12, 0⟩
def PG_CAPS_RETAIN_COUNT : FieldRef := ⟨0x004, 16, 6, 0⟩
def PG_CAPS_EVT_COUNT : FieldRef := ⟨0x004, 8, 6, 0⟩
def PG_CAPS_HAS_SOFT_RESET : FieldRef := ⟨0x004, 3, 1, 0⟩
def PG_CAPS_HAS_FREEZE : FieldRef := ⟨0x004, 2, 1, 0⟩
def PG_CAPS_HAS_SHADOW : FieldRef := ⟨0x004, 1, 1, 0⟩
def PG_CAPS_HAS_VOTE : FieldRef := ⟨0x004, 0, 1, 0⟩
def PG_CTRL_SOFT_RESET : FieldRef := ⟨0x008, 4, 1, 0⟩
def PG_CTRL_FREEZE_SEL : FieldRef := ⟨0x008, 1, 3, 0⟩
def PG_CTRL_ENABLE : FieldRef := ⟨0x008, 0, 1, 0⟩
def PG_STAT_RETAIN_PEND : FieldRef := ⟨0x00C, 8, 1, 0⟩
def PG_STAT_SRST_BUSY : FieldRef := ⟨0x00C, 7, 1, 0⟩
def PG_STAT_FROZEN : FieldRef := ⟨0x00C, 6, 1, 0⟩
def PG_STAT_LOCKED : FieldRef := ⟨0x00C, 5, 1, 0⟩
def PG_STAT_SHADOW_PEND : FieldRef := ⟨0x00C, 4, 1, 0⟩
def PG_STAT_RETAIN_STALE : FieldRef := ⟨0x00C, 3, 1, 0⟩
def PG_STAT_DOMAIN_ON : FieldRef := ⟨0x00C, 2, 1, 0⟩
def PG_STAT_BUSY : FieldRef := ⟨0x00C, 1, 1, 0⟩
def PG_STAT_READY : FieldRef := ⟨0x00C, 0, 1, 0⟩
def PG_EVT_RAW_RAW : FieldRef := ⟨0x010, 0, 32, 0⟩
def PG_EVT_EN_EN : FieldRef := ⟨0x014, 0, 32, 0⟩
def PG_EVT_PEND_PEND : FieldRef := ⟨0x018, 0, 32, 0⟩
def PG_EVT_FORCE_FORCE : FieldRef := ⟨0x01C, 0, 32, 0⟩
def PG_FAULT_VALID : FieldRef := ⟨0x020, 31, 1, 0⟩
def PG_FAULT_CODE : FieldRef := ⟨0x020, 0, 16, 0⟩
def PG_FAULT_CNT_COUNT : FieldRef := ⟨0x024, 0, 16, 0⟩
def PG_VOTE_VOTES : FieldRef := ⟨0x028, 0, 32, 0⟩
def PG_LOCK_OWNER : FieldRef := ⟨0x02C, 16, 10, 0⟩
def PG_LOCK_STICKY : FieldRef := ⟨0x02C, 1, 1, 0⟩
def PG_LOCK_LOCK : FieldRef := ⟨0x02C, 0, 1, 0⟩
def PG_COMMIT_DISCARD : FieldRef := ⟨0x030, 1, 1, 0⟩
def PG_COMMIT_COMMIT : FieldRef := ⟨0x030, 0, 1, 0⟩
def PG_RETAIN_SEL : FieldRef := ⟨0x034, 0, 32, 0⟩
def CU_OSC_STAT_RTC_FAIL : FieldRef := ⟨0x040, 7, 1, 0⟩
def CU_OSC_STAT_RTC_OK : FieldRef := ⟨0x040, 6, 1, 0⟩
def CU_OSC_STAT_ACTIVE_XO : FieldRef := ⟨0x040, 5, 1, 0⟩
def CU_OSC_STAT_XO_B_FAIL : FieldRef := ⟨0x040, 4, 1, 0⟩
def CU_OSC_STAT_XO_A_FAIL : FieldRef := ⟨0x040, 3, 1, 0⟩
def CU_OSC_STAT_XO_B_OK : FieldRef := ⟨0x040, 2, 1, 0⟩
def CU_OSC_STAT_XO_A_OK : FieldRef := ⟨0x040, 1, 1, 0⟩
def CU_OSC_STAT_SWITCH_FORCED : FieldRef := ⟨0x040, 0, 1, 0⟩
def CU_OSC_CTRL_FAILBACK : FieldRef := ⟨0x044, 1, 1, 0⟩
def CU_OSC_CTRL_XO_PREF : FieldRef := ⟨0x044, 0, 1, 0⟩
def CU_XO_MEAS_XO_B_RC : FieldRef := ⟨0x048, 16, 16, 0⟩
def CU_XO_MEAS_XO_A_RC : FieldRef := ⟨0x048, 0, 16, 0⟩
def CU_SPREAD_SPREAD : FieldRef := ⟨0x04C, 0, 4, 0⟩
def CU_SPINE_STAT_SPINE_B_ON : FieldRef := ⟨0x050, 9, 1, 0⟩
def CU_SPINE_STAT_SPINE_A_ON : FieldRef := ⟨0x050, 8, 1, 0⟩
def CU_SPINE_STAT_HPLL_LOCK : FieldRef := ⟨0x050, 0, 8, 0⟩
def PLL_CFG_REF_SRC : FieldRef := ⟨0x040, 12, 2, 0⟩
def PLL_CFG_REF_DIV : FieldRef := ⟨0x040, 8, 4, 0⟩
def PLL_CFG_FB_DIV : FieldRef := ⟨0x040, 0, 8, 0⟩
def PLL_STAT_COAST : FieldRef := ⟨0x044, 2, 1, 0⟩
def PLL_STAT_REF_LOST : FieldRef := ⟨0x044, 1, 1, 0⟩
def PLL_STAT_LOCK : FieldRef := ⟨0x044, 0, 1, 0⟩
def FP_OUT_EN : FieldRef := ⟨0x048, 8, 1, 0x4⟩
def FP_OUT_DIV : FieldRef := ⟨0x048, 0, 8, 0x4⟩
def CD_CFG_SRC : FieldRef := ⟨0x040, 8, 3, 0⟩
def CD_CFG_DIV : FieldRef := ⟨0x040, 0, 8, 0⟩
def CD_GATE_GATE_REQ : FieldRef := ⟨0x044, 0, 1, 0⟩
def CD_STAT_GATE_DENIED : FieldRef := ⟨0x048, 5, 1, 0⟩
def CD_STAT_SWITCH_FORCED : FieldRef := ⟨0x048, 4, 1, 0⟩
def CD_STAT_SWITCHING : FieldRef := ⟨0x048, 3, 1, 0⟩
def CD_STAT_QUIESCING : FieldRef := ⟨0x048, 2, 1, 0⟩
def CD_STAT_GATED : FieldRef := ⟨0x048, 1, 1, 0⟩
def CD_STAT_RUNNING : FieldRef := ⟨0x048, 0, 1, 0⟩
def CD_FREQ_FREQ : FieldRef := ⟨0x04C, 0, 24, 0⟩
def SQ_STAT_STAGE : FieldRef := ⟨0x040, 16, 4, 0⟩
def SQ_STAT_SOURCE : FieldRef := ⟨0x040, 14, 2, 0⟩
def SQ_STAT_SLOT : FieldRef := ⟨0x040, 12, 2, 0⟩
def SQ_STAT_PIN_REC : FieldRef := ⟨0x040, 5, 1, 0⟩
def SQ_STAT_SEEDS : FieldRef := ⟨0x040, 4, 1, 0⟩
def SQ_STAT_RESUMED : FieldRef := ⟨0x040, 3, 1, 0⟩
def SQ_STAT_QUICK_TEST : FieldRef := ⟨0x040, 2, 1, 0⟩
def SQ_STAT_FALLBACK : FieldRef := ⟨0x040, 1, 1, 0⟩
def SQ_STAT_TRIAL : FieldRef := ⟨0x040, 0, 1, 0⟩
def SQ_CAUSE_FINAL_SLOT : FieldRef := ⟨0x044, 24, 2, 0⟩
def SQ_CAUSE_FINAL_CAUSE : FieldRef := ⟨0x044, 16, 8, 0⟩
def SQ_CAUSE_FIRST_SLOT : FieldRef := ⟨0x044, 8, 2, 0⟩
def SQ_CAUSE_FIRST_CAUSE : FieldRef := ⟨0x044, 0, 8, 0⟩
def SQ_T_TIME_US : FieldRef := ⟨0x048, 0, 32, 0x4⟩
def SQ_ENTRY_VALID : FieldRef := ⟨0x06C, 31, 1, 0⟩
def SQ_ENTRY_INDEX : FieldRef := ⟨0x06C, 0, 12, 0⟩
def IL_STAT_STREAM : FieldRef := ⟨0x040, 8, 5, 0⟩
def IL_STAT_DETAIL : FieldRef := ⟨0x040, 4, 4, 0⟩
def IL_STAT_COMPRESSED : FieldRef := ⟨0x040, 1, 1, 0⟩
def IL_STAT_FAIL : FieldRef := ⟨0x040, 0, 1, 0⟩
def IL_FAIL_GROUP_GROUP : FieldRef := ⟨0x044, 0, 32, 0⟩
def IL_FAIL_FRAME_FRAME : FieldRef := ⟨0x048, 0, 32, 0⟩
def IL_ROOT_ROOT : FieldRef := ⟨0x050, 0, 32, 0x4⟩
def IL_FRAMES_COUNT : FieldRef := ⟨0x080, 0, 32, 0x4⟩
def KP_STAT_PENDING : FieldRef := ⟨0x040, 16, 11, 0⟩
def KP_STAT_ACTIVE_SLOT : FieldRef := ⟨0x040, 2, 2, 0⟩
def KP_STAT_XFER_BUSY : FieldRef := ⟨0x040, 1, 1, 0⟩
def KP_STAT_FROZEN : FieldRef := ⟨0x040, 0, 1, 0⟩
def KP_LIVE_PAGES : FieldRef := ⟨0x044, 0, 14, 0⟩
def KP_RESTORE_BAD : FieldRef := ⟨0x048, 16, 16, 0⟩
def KP_RESTORE_PAGES : FieldRef := ⟨0x048, 0, 16, 0⟩
def KP_SEQ_LO_SEQ : FieldRef := ⟨0x04C, 0, 32, 0⟩
def KP_SEQ_HI_SEQ : FieldRef := ⟨0x050, 0, 16, 0⟩
def KP_BOOT_WRITE : FieldRef := ⟨0x054, 31, 1, 0⟩
def KP_BOOT_BUSY : FieldRef := ⟨0x054, 30, 1, 0⟩
def KP_BOOT_QUICK_ALWAYS : FieldRef := ⟨0x054, 8, 1, 0⟩
def KP_BOOT_TRIAL_LEFT : FieldRef := ⟨0x054, 4, 4, 0⟩
def KP_BOOT_TRIAL : FieldRef := ⟨0x054, 2, 2, 0⟩
def KP_BOOT_PRIMARY : FieldRef := ⟨0x054, 0, 2, 0⟩
def KP_XFER_SRC_LO_ADDR : FieldRef := ⟨0x058, 12, 20, 0⟩
def KP_XFER_SRC_HI_ADDR : FieldRef := ⟨0x05C, 0, 10, 0⟩
def KP_XFER_OFF_UNIT : FieldRef := ⟨0x060, 0, 19, 0⟩
def KP_XFER_LEN_UNITS : FieldRef := ⟨0x064, 0, 19, 0⟩
def KP_XFER_CTRL_GO : FieldRef := ⟨0x068, 31, 1, 0⟩
def KP_XFER_CTRL_DIR : FieldRef := ⟨0x068, 2, 1, 0⟩
def KP_XFER_CTRL_SLOT : FieldRef := ⟨0x068, 0, 2, 0⟩
def KP_XFER_STAT_RESULT : FieldRef := ⟨0x06C, 20, 4, 0⟩
def KP_XFER_STAT_DONE : FieldRef := ⟨0x06C, 0, 19, 0⟩
def KP_CTR_VALUE : FieldRef := ⟨0x080, 0, 16, 0x4⟩
def KD_FREE_FREE : FieldRef := ⟨0x040, 0, 18, 0⟩
def KD_RETIRED_RETIRED : FieldRef := ⟨0x044, 0, 18, 0⟩
def KD_MAXWR_MAXWR : FieldRef := ⟨0x048, 0, 17, 0⟩
def KD_CORR_CORR : FieldRef := ⟨0x04C, 0, 16, 0⟩
def CF_CAP_CTRL_GO : FieldRef := ⟨0x040, 31, 1, 0⟩
def CF_CAP_CTRL_TRIG_NET : FieldRef := ⟨0x040, 19, 5, 0⟩
def CF_CAP_CTRL_STOP : FieldRef := ⟨0x040, 18, 1, 0⟩
def CF_CAP_CTRL_TRIG : FieldRef := ⟨0x040, 16, 2, 0⟩
def CF_CAP_CTRL_DELAY : FieldRef := ⟨0x040, 0, 16, 0⟩
def CF_CAP_NET0_GCK : FieldRef := ⟨0x044, 0, 32, 0⟩
def CF_CAP_NET1_BCK_LO : FieldRef := ⟨0x048, 0, 32, 0⟩
def CF_CAP_NET2_BCK_HI : FieldRef := ⟨0x04C, 0, 32, 0⟩
def CF_CAP_STAT_COUNT : FieldRef := ⟨0x050, 16, 16, 0⟩
def CF_CAP_STAT_MISSED : FieldRef := ⟨0x050, 2, 1, 0⟩
def CF_CAP_STAT_DONE : FieldRef := ⟨0x050, 1, 1, 0⟩
def CF_CAP_STAT_BUSY : FieldRef := ⟨0x050, 0, 1, 0⟩
def CF_CAP_DONE_NET : FieldRef := ⟨0x054, 0, 32, 0x4⟩
def CF_CAP_TIME_LO_TIME : FieldRef := ⟨0x060, 0, 32, 0⟩
def CF_CAP_TIME_HI_TIME : FieldRef := ⟨0x064, 0, 32, 0⟩
def CF_RB_ADDR_FRAME : FieldRef := ⟨0x070, 0, 19, 0⟩
def CF_RB_COUNT_COUNT : FieldRef := ⟨0x074, 0, 19, 0⟩
def CF_RB_DST_LO_ADDR : FieldRef := ⟨0x078, 8, 24, 0⟩
def CF_RB_DST_HI_ADDR : FieldRef := ⟨0x07C, 0, 10, 0⟩
def CF_RB_CTRL_GO : FieldRef := ⟨0x080, 31, 1, 0⟩
def CF_RB_STAT_RESULT : FieldRef := ⟨0x084, 28, 4, 0⟩
def CF_RB_STAT_DONE : FieldRef := ⟨0x084, 0, 19, 0⟩
def CF_CONT_CNT_COUNT : FieldRef := ⟨0x090, 0, 16, 0⟩
def CF_CONT_FIRST_VALID : FieldRef := ⟨0x094, 31, 1, 0⟩
def CF_CONT_FIRST_FRAME : FieldRef := ⟨0x094, 10, 19, 0⟩
def CF_CONT_FIRST_FIELD : FieldRef := ⟨0x094, 0, 9, 0⟩
def CF_GCK_EN_EN : FieldRef := ⟨0x0A0, 0, 32, 0⟩
def CF_BCK_EN0_EN : FieldRef := ⟨0x0A4, 0, 32, 0⟩
def CF_BCK_EN1_EN : FieldRef := ⟨0x0A8, 0, 32, 0⟩
def CF_XG_STAT0_TRAINED : FieldRef := ⟨0x0B0, 0, 32, 0⟩
def CF_XG_STAT1_TRAINED : FieldRef := ⟨0x0B4, 0, 32, 0⟩
def CF_XG_STAT2_TRAINED : FieldRef := ⟨0x0B8, 0, 32, 0⟩
def CF_XG_STAT3_TRAINED : FieldRef := ⟨0x0BC, 0, 32, 0⟩
def CF_XG_FAILCNT_COUNT : FieldRef := ⟨0x0C0, 0, 16, 0⟩
def BG_ERR_FIRST_VALID : FieldRef := ⟨0x040, 31, 1, 0⟩
def BG_ERR_FIRST_DBE : FieldRef := ⟨0x040, 30, 1, 0⟩
def BG_ERR_FIRST_PORT : FieldRef := ⟨0x040, 29, 1, 0⟩
def BG_ERR_FIRST_MEM : FieldRef := ⟨0x040, 24, 5, 0⟩
def BG_ERR_FIRST_ADDR : FieldRef := ⟨0x040, 0, 10, 0⟩
def BG_SBE_CNT_COUNT : FieldRef := ⟨0x044, 0, 16, 0⟩
def BG_DBE_CNT_COUNT : FieldRef := ⟨0x048, 0, 16, 0⟩
def BG_COLL_CNT_COUNT : FieldRef := ⟨0x04C, 0, 16, 0⟩
def BG_WREJ_CNT_COUNT : FieldRef := ⟨0x050, 0, 16, 0⟩
def BG_CASC_ERR_ERR : FieldRef := ⟨0x054, 0, 32, 0⟩
def BG_DISC_COUNT : FieldRef := ⟨0x058, 0, 32, 0⟩
def BG_QSTAT_FULL : FieldRef := ⟨0x080, 31, 1, 0x4⟩
def BG_QSTAT_AFULL : FieldRef := ⟨0x080, 30, 1, 0x4⟩
def BG_QSTAT_EMPTY : FieldRef := ⟨0x080, 29, 1, 0x4⟩
def BG_QSTAT_AEMPTY : FieldRef := ⟨0x080, 28, 1, 0x4⟩
def BG_QSTAT_OCC : FieldRef := ⟨0x080, 0, 22, 0x4⟩
def BG_WACC_COUNT : FieldRef := ⟨0x100, 0, 32, 0x4⟩
def BG_RDEL_COUNT : FieldRef := ⟨0x180, 0, 32, 0x4⟩
def DM_CTRL_WB_EN : FieldRef := ⟨0x040, 3, 1, 0⟩
def DM_CTRL_PATROL_EN : FieldRef := ⟨0x040, 2, 1, 0⟩
def DM_CTRL_NOC_WR_EN : FieldRef := ⟨0x040, 1, 1, 0⟩
def DM_CTRL_NOC_RD_EN : FieldRef := ⟨0x040, 0, 1, 0⟩
def DM_PATROL_PERIOD : FieldRef := ⟨0x044, 0, 16, 0⟩
def DM_ERR_FIRST_VALID : FieldRef := ⟨0x048, 31, 1, 0⟩
def DM_ERR_FIRST_DBE : FieldRef := ⟨0x048, 30, 1, 0⟩
def DM_ERR_FIRST_SRC : FieldRef := ⟨0x048, 28, 2, 0⟩
def DM_ERR_FIRST_WORD : FieldRef := ⟨0x048, 0, 17, 0⟩
def DM_SBE_CNT_COUNT : FieldRef := ⟨0x04C, 0, 16, 0⟩
def DM_DBE_CNT_COUNT : FieldRef := ⟨0x050, 0, 16, 0⟩
def DM_QSTAT_FLAGS : FieldRef := ⟨0x054, 28, 4, 0⟩
def DM_QSTAT_OCC : FieldRef := ⟨0x054, 0, 18, 0⟩
def DM_WACC_COUNT : FieldRef := ⟨0x058, 0, 32, 0⟩
def DM_RDEL_COUNT : FieldRef := ⟨0x05C, 0, 32, 0⟩
def DM_DISC_COUNT : FieldRef := ⟨0x060, 0, 32, 0⟩
def DM_QREJ_CNT_COUNT : FieldRef := ⟨0x064, 0, 16, 0⟩
def DM_SWEEPS_COUNT : FieldRef := ⟨0x068, 0, 16, 0⟩
def IC_STAT_RESULT : FieldRef := ⟨0x040, 28, 4, 0⟩
def IC_STAT_PART : FieldRef := ⟨0x040, 22, 6, 0⟩
def IC_STAT_RELOAD : FieldRef := ⟨0x040, 2, 1, 0⟩
def IC_STAT_SIGCHK : FieldRef := ⟨0x040, 1, 1, 0⟩
def IC_STAT_BUSY : FieldRef := ⟨0x040, 0, 1, 0⟩
def IC_PROGRESS_FRAMES : FieldRef := ⟨0x044, 0, 21, 0⟩
def IC_FAIL_FRAME : FieldRef := ⟨0x048, 0, 21, 0⟩
def IC_FAIL_GROUP_GROUP : FieldRef := ⟨0x04C, 0, 12, 0⟩
def IC_PCMD_GO : FieldRef := ⟨0x050, 31, 1, 0⟩
def IC_PCMD_OP : FieldRef := ⟨0x050, 8, 3, 0⟩
def IC_PCMD_PART : FieldRef := ⟨0x050, 0, 6, 0⟩
def IC_TMO_MS : FieldRef := ⟨0x054, 0, 10, 0⟩
def IC_PSRC_LO_ADDR : FieldRef := ⟨0x058, 12, 20, 0⟩
def IC_PSRC_HI_ADDR : FieldRef := ⟨0x05C, 0, 10, 0⟩
def IC_PSTAT_STATE : FieldRef := ⟨0x100, 29, 3, 0x4⟩
def IC_PSTAT_RLOCK : FieldRef := ⟨0x100, 28, 1, 0x4⟩
def IC_PSTAT_SOURCE : FieldRef := ⟨0x100, 27, 1, 0x4⟩
def IC_PSTAT_CLIENT : FieldRef := ⟨0x100, 16, 5, 0x4⟩
def IC_PSTAT_DESIGN_ID : FieldRef := ⟨0x100, 0, 16, 0x4⟩
def LE_STAT_NOC_BUSY : FieldRef := ⟨0x040, 12, 4, 0⟩
def LE_STAT_SET_GATED : FieldRef := ⟨0x040, 10, 1, 0⟩
def LE_STAT_DIRECT : FieldRef := ⟨0x040, 9, 1, 0⟩
def LE_STAT_QDEPTH : FieldRef := ⟨0x040, 6, 3, 0⟩
def LE_STAT_STALL : FieldRef := ⟨0x040, 3, 3, 0⟩
def LE_STAT_STATE : FieldRef := ⟨0x040, 0, 3, 0⟩
def LE_PC_SRC : FieldRef := ⟨0x044, 24, 2, 0⟩
def LE_PC_PROG_ID : FieldRef := ⟨0x044, 16, 8, 0⟩
def LE_PC_PC : FieldRef := ⟨0x044, 0, 11, 0⟩
def LE_EXC_VALID : FieldRef := ⟨0x048, 31, 1, 0⟩
def LE_EXC_PC : FieldRef := ⟨0x048, 16, 11, 0⟩
def LE_EXC_CODE : FieldRef := ⟨0x048, 0, 8, 0⟩
def LE_CMD_START : FieldRef := ⟨0x04C, 31, 1, 0⟩
def LE_CMD_ABORT : FieldRef := ⟨0x04C, 30, 1, 0⟩
def LE_CMD_CLEAR : FieldRef := ⟨0x04C, 29, 1, 0⟩
def LE_CMD_VEC : FieldRef := ⟨0x04C, 0, 3, 0⟩
def LE_ARG_ARG : FieldRef := ⟨0x050, 0, 24, 0⟩
def LE_MODE_OSH : FieldRef := ⟨0x054, 16, 6, 0⟩
def LE_MODE_PSH : FieldRef := ⟨0x054, 8, 5, 0⟩
def LE_MODE_PACKED : FieldRef := ⟨0x054, 5, 1, 0⟩
def LE_MODE_ESAT : FieldRef := ⟨0x054, 4, 1, 0⟩
def LE_MODE_ASAT : FieldRef := ⟨0x054, 3, 1, 0⟩
def LE_MODE_RND : FieldRef := ⟨0x054, 1, 2, 0⟩
def LE_MODE_FRAC : FieldRef := ⟨0x054, 0, 1, 0⟩
def LE_CFG_STALL_TMO : FieldRef := ⟨0x058, 16, 16, 0⟩
def LE_CFG_AUTOGATE : FieldRef := ⟨0x058, 3, 1, 0⟩
def LE_CFG_SRC_EN : FieldRef := ⟨0x058, 0, 3, 0⟩
def LE_MADDR_INC : FieldRef := ⟨0x060, 31, 1, 0⟩
def LE_MADDR_ADDR : FieldRef := ⟨0x060, 0, 16, 0⟩
def LE_MDATA_DATA : FieldRef := ⟨0x064, 0, 32, 0⟩
def LE_FLAGS_WL : FieldRef := ⟨0x068, 11, 2, 0⟩
def LE_FLAGS_SL : FieldRef := ⟨0x068, 10, 1, 0⟩
def LE_FLAGS_N : FieldRef := ⟨0x068, 9, 1, 0⟩
def LE_FLAGS_Z : FieldRef := ⟨0x068, 8, 1, 0⟩
def LE_FLAGS_SS : FieldRef := ⟨0x068, 4, 4, 0⟩
def LE_FLAGS_AV : FieldRef := ⟨0x068, 0, 4, 0⟩
def LE_RUNS_COUNT : FieldRef := ⟨0x06C, 0, 32, 0⟩
def LE_ISSUE_COUNT : FieldRef := ⟨0x070, 0, 32, 0⟩
def LE_STALLS_COUNT : FieldRef := ⟨0x074, 0, 32, 0⟩
def LE_ERR_PAR : FieldRef := ⟨0x078, 16, 16, 0⟩
def LE_ERR_SBE : FieldRef := ⟨0x078, 0, 16, 0⟩
def LE_BP_EN : FieldRef := ⟨0x080, 31, 1, 0x4⟩
def LE_BP_PC : FieldRef := ⟨0x080, 0, 11, 0x4⟩
def LE_DW_ADDR_EN : FieldRef := ⟨0x088, 31, 1, 0x8⟩
def LE_DW_ADDR_DIR : FieldRef := ⟨0x088, 29, 2, 0x8⟩
def LE_DW_ADDR_VAL_EN : FieldRef := ⟨0x088, 28, 1, 0x8⟩
def LE_DW_ADDR_ADDR : FieldRef := ⟨0x088, 0, 16, 0x8⟩
def LE_DW_VAL_VALUE : FieldRef := ⟨0x08C, 0, 24, 0x8⟩
def LE_DBG_CTX_EN : FieldRef := ⟨0x098, 8, 1, 0⟩
def LE_DBG_CTX_PROG_ID : FieldRef := ⟨0x098, 0, 8, 0⟩
def LE_GSUM0_PEND : FieldRef := ⟨0x0A0, 0, 32, 0⟩
def LE_GSUM1_PEND : FieldRef := ⟨0x0A4, 0, 32, 0⟩
def LE_GSUM2_PEND : FieldRef := ⟨0x0A8, 0, 8, 0⟩
def NR_CFG_AGE : FieldRef := ⟨0x040, 0, 10, 0⟩
def NR_STAT_EPOCH : FieldRef := ⟨0x044, 16, 12, 0⟩
def NR_STAT_BOOT : FieldRef := ⟨0x044, 2, 1, 0⟩
def NR_STAT_DRAINING : FieldRef := ⟨0x044, 1, 1, 0⟩
def NR_STAT_ABANDONED : FieldRef := ⟨0x044, 0, 1, 0⟩
def NR_ERR_CHK : FieldRef := ⟨0x048, 16, 16, 0⟩
def NR_ERR_CORR : FieldRef := ⟨0x048, 0, 16, 0⟩
def NR_ERR_FIRST_VALID : FieldRef := ⟨0x04C, 31, 1, 0⟩
def NR_ERR_FIRST_KIND : FieldRef := ⟨0x04C, 30, 1, 0⟩
def NR_ERR_FIRST_VC : FieldRef := ⟨0x04C, 28, 2, 0⟩
def NR_ERR_FIRST_PORT : FieldRef := ⟨0x04C, 25, 3, 0⟩
def NR_ERR_FIRST_SRC : FieldRef := ⟨0x04C, 0, 10, 0⟩
def NR_WU_CTRL_EN : FieldRef := ⟨0x080, 31, 1, 0x20⟩
def NR_WU_CTRL_PORT : FieldRef := ⟨0x080, 28, 3, 0x20⟩
def NR_WU_CTRL_CMD : FieldRef := ⟨0x080, 24, 4, 0x20⟩
def NR_WU_CTRL_CMD_EN : FieldRef := ⟨0x080, 23, 1, 0x20⟩
def NR_WU_CTRL_VC : FieldRef := ⟨0x080, 21, 2, 0x20⟩
def NR_WU_CTRL_VC_EN : FieldRef := ⟨0x080, 20, 1, 0x20⟩
def NR_WU_CTRL_SRC_EN : FieldRef := ⟨0x080, 19, 1, 0x20⟩
def NR_WU_CTRL_DST_EN : FieldRef := ⟨0x080, 18, 1, 0x20⟩
def NR_WU_CTRL_ADDR_EN : FieldRef := ⟨0x080, 17, 1, 0x20⟩
def NR_WU_CTRL_HALT : FieldRef := ⟨0x080, 2, 1, 0x20⟩
def NR_WU_CTRL_EVT : FieldRef := ⟨0x080, 1, 1, 0x20⟩
def NR_WU_CTRL_CNT : FieldRef := ⟨0x080, 0, 1, 0x20⟩
def NR_WU_ID_SRC : FieldRef := ⟨0x084, 16, 10, 0x20⟩
def NR_WU_ID_DST : FieldRef := ⟨0x084, 0, 12, 0x20⟩
def NR_WU_LO_L_ADDR : FieldRef := ⟨0x088, 0, 32, 0x20⟩
def NR_WU_HI_L_ADDR : FieldRef := ⟨0x090, 0, 32, 0x20⟩
def NR_WU_LO_H_ADDR : FieldRef := ⟨0x08C, 0, 10, 0x20⟩
def NR_WU_HI_H_ADDR : FieldRef := ⟨0x094, 0, 10, 0x20⟩
def NR_WU_CNT_COUNT : FieldRef := ⟨0x098, 0, 32, 0x20⟩
def NR_CRED_A_VC3S : FieldRef := ⟨0x100, 24, 8, 0x8⟩
def NR_CRED_A_VC2 : FieldRef := ⟨0x100, 16, 8, 0x8⟩
def NR_CRED_A_VC1 : FieldRef := ⟨0x100, 8, 8, 0x8⟩
def NR_CRED_A_VC0 : FieldRef := ⟨0x100, 0, 8, 0x8⟩
def NR_CRED_B_VC3B : FieldRef := ⟨0x104, 0, 8, 0x8⟩
def NR_BR_CTRL_ISOLATE : FieldRef := ⟨0x400, 31, 1, 0x100⟩
def NR_BR_CTRL_STAT_CLR : FieldRef := ⟨0x400, 30, 1, 0x100⟩
def NR_BR_CTRL_HIST_SHIFT : FieldRef := ⟨0x400, 20, 4, 0x100⟩
def NR_BR_CTRL_URG_RSP : FieldRef := ⟨0x400, 9, 3, 0x100⟩
def NR_BR_CTRL_URG_STRM : FieldRef := ⟨0x400, 6, 3, 0x100⟩
def NR_BR_CTRL_URG_REQ : FieldRef := ⟨0x400, 3, 3, 0x100⟩
def NR_BR_TMO_TGT_TMO : FieldRef := ⟨0x404, 16, 16, 0x100⟩
def NR_BR_TMO_RSP_TMO : FieldRef := ⟨0x404, 0, 16, 0x100⟩
def NR_BR_STAT_ISO_CAUSE : FieldRef := ⟨0x408, 28, 4, 0x100⟩
def NR_BR_STAT_ISOLATED : FieldRef := ⟨0x408, 27, 1, 0x100⟩
def NR_BR_STAT_QUENCHED : FieldRef := ⟨0x408, 26, 1, 0x100⟩
def NR_BR_STAT_ID : FieldRef := ⟨0x408, 16, 10, 0x100⟩
def NR_BR_STAT_OUTST : FieldRef := ⟨0x408, 8, 8, 0x100⟩
def NR_BR_STAT_CLASS : FieldRef := ⟨0x408, 0, 3, 0x100⟩
def NR_BR_BYTES_LO_BYTES : FieldRef := ⟨0x40C, 0, 32, 0x100⟩
def NR_BR_BYTES_HI_BYTES : FieldRef := ⟨0x410, 0, 32, 0x100⟩
def NR_BR_TXN_COUNT : FieldRef := ⟨0x414, 0, 32, 0x100⟩
def NR_BR_MAXLAT_CYCLES : FieldRef := ⟨0x418, 0, 16, 0x100⟩
def NR_BR_HIST_COUNT : FieldRef := ⟨0x420, 0, 32, 0x4⟩
def NR_BR_CREDIT_QUOTA : FieldRef := ⟨0x440, 16, 16, 0x100⟩
def NR_BR_CREDIT_HELD : FieldRef := ⟨0x440, 0, 16, 0x100⟩
def NR_BR_SLOTS_SIZE : FieldRef := ⟨0x444, 16, 16, 0x100⟩
def NR_BR_SLOTS_USED : FieldRef := ⟨0x444, 0, 16, 0x100⟩
def NR_BR_DROP_COUNT : FieldRef := ⟨0x448, 0, 32, 0x100⟩
def NR_BR_ERRRSP_COUNT : FieldRef := ⟨0x44C, 0, 16, 0x100⟩
def NR_BR_CHK_COUNT : FieldRef := ⟨0x450, 0, 16, 0x100⟩
def NR_BR_STALE_COUNT : FieldRef := ⟨0x454, 0, 8, 0x100⟩
def RT_SRC_LO_ADDR : FieldRef := ⟨0x040, 7, 25, 0⟩
def RT_SRC_HI_ADDR : FieldRef := ⟨0x044, 0, 10, 0⟩
def RT_LEN_BYTES : FieldRef := ⟨0x048, 0, 15, 0⟩
def RT_CTRL_GO : FieldRef := ⟨0x04C, 31, 1, 0⟩
def RT_CTRL_APPLY : FieldRef := ⟨0x04C, 0, 1, 0⟩
def RT_STAT_RESULT : FieldRef := ⟨0x050, 28, 4, 0⟩
def RT_STAT_DONE : FieldRef := ⟨0x050, 8, 8, 0⟩
def RT_STAT_BUSY : FieldRef := ⟨0x050, 0, 1, 0⟩
def RT_DRAIN_TMO_US : FieldRef := ⟨0x054, 0, 16, 0⟩
def RT_FAIL_VALID : FieldRef := ⟨0x058, 31, 1, 0⟩
def RT_FAIL_DIE : FieldRef := ⟨0x058, 24, 4, 0⟩
def RT_FAIL_ROUTER : FieldRef := ⟨0x058, 16, 5, 0⟩
def RT_FAIL_PORT : FieldRef := ⟨0x058, 8, 3, 0⟩
def RT_FAIL_VC : FieldRef := ⟨0x058, 0, 2, 0⟩
def QU_Q_Q : FieldRef := ⟨0x040, 0, 32, 0x4⟩
def SM_CTRL_RETRAIN : FieldRef := ⟨0x040, 31, 1, 0⟩
def SM_CTRL_VC_EN : FieldRef := ⟨0x040, 2, 1, 0⟩
def SM_CTRL_WIDTH_REQ : FieldRef := ⟨0x040, 0, 1, 0⟩
def SM_STAT_STATE : FieldRef := ⟨0x044, 28, 4, 0⟩
def SM_STAT_WIDTH : FieldRef := ⟨0x044, 25, 1, 0⟩
def SM_STAT_FAR_REQ : FieldRef := ⟨0x044, 24, 1, 0⟩
def SM_STAT_MISMATCH : FieldRef := ⟨0x044, 23, 1, 0⟩
def SM_STAT_EPOCH : FieldRef := ⟨0x044, 0, 16, 0⟩
def SM_LEDGER_INBOUND : FieldRef := ⟨0x048, 16, 13, 0⟩
def SM_LEDGER_OUTBOUND : FieldRef := ⟨0x048, 0, 13, 0⟩
def SM_STALE_COUNT : FieldRef := ⟨0x04C, 0, 13, 0⟩
def SM_REPLAY_COUNT : FieldRef := ⟨0x050, 16, 16, 0⟩
def SM_REPLAY_UNACKED : FieldRef := ⟨0x050, 0, 7, 0⟩
def SM_CRC_COUNT : FieldRef := ⟨0x054, 0, 16, 0⟩
def SM_ABSORB_COUNT : FieldRef := ⟨0x058, 0, 32, 0⟩
def SM_RECLAIM_COUNT : FieldRef := ⟨0x05C, 0, 32, 0⟩
def SM_TTIME_US : FieldRef := ⟨0x060, 0, 16, 0⟩
def SM_SCRED_HELD : FieldRef := ⟨0x080, 0, 7, 0x4⟩
def DI_CTRL_ISOLATE : FieldRef := ⟨0x040, 31, 1, 0⟩
def DI_CTRL_REJOIN : FieldRef := ⟨0x040, 30, 1, 0⟩
def DI_CTRL_DIE : FieldRef := ⟨0x040, 0, 4, 0⟩
def DI_CFG_HB_TMO : FieldRef := ⟨0x044, 16, 16, 0⟩
def DI_CFG_AUTO_REJOIN : FieldRef := ⟨0x044, 0, 15, 0⟩
def DI_STAT_STATE : FieldRef := ⟨0x080, 28, 4, 0x4⟩
def DI_STAT_CAUSE : FieldRef := ⟨0x080, 24, 4, 0x4⟩
def DI_STAT_STEP : FieldRef := ⟨0x080, 20, 4, 0x4⟩
def DI_STAT_REJOIN_FAIL : FieldRef := ⟨0x080, 19, 1, 0x4⟩
def DI_STAT_EPOCH : FieldRef := ⟨0x080, 0, 16, 0x4⟩
def DI_ISO_CNT_COUNT : FieldRef := ⟨0x0C0, 0, 16, 0⟩
def LQ_QSTAT_REF_PCIE : FieldRef := ⟨0x040, 4, 4, 0⟩
def LQ_QSTAT_SYN_LOCK : FieldRef := ⟨0x040, 0, 4, 0⟩
def LQ_CFG_LOOPBACK : FieldRef := ⟨0x100, 10, 2, 0x80⟩
def LQ_CFG_SEED_AUTO : FieldRef := ⟨0x100, 9, 1, 0x80⟩
def LQ_CFG_RX_INV : FieldRef := ⟨0x100, 8, 1, 0x80⟩
def LQ_CFG_TX_INV : FieldRef := ⟨0x100, 7, 1, 0x80⟩
def LQ_CFG_PRE_RX : FieldRef := ⟨0x100, 6, 1, 0x80⟩
def LQ_CFG_PRE_TX : FieldRef := ⟨0x100, 5, 1, 0x80⟩
def LQ_CFG_RATE : FieldRef := ⟨0x100, 0, 5, 0x80⟩
def LQ_TXEQ_POST1 : FieldRef := ⟨0x104, 10, 6, 0x80⟩
def LQ_TXEQ_PRE1 : FieldRef := ⟨0x104, 4, 6, 0x80⟩
def LQ_TXEQ_PRE2 : FieldRef := ⟨0x104, 0, 4, 0x80⟩
def LQ_SEED0_VALID : FieldRef := ⟨0x108, 31, 1, 0x80⟩
def LQ_SEED0_RATE : FieldRef := ⟨0x108, 26, 5, 0x80⟩
def LQ_SEED0_LFM : FieldRef := ⟨0x108, 18, 8, 0x80⟩
def LQ_SEED0_CTLE : FieldRef := ⟨0x108, 12, 6, 0x80⟩
def LQ_SEED0_VGA : FieldRef := ⟨0x108, 6, 6, 0x80⟩
def LQ_SEED0_PHASE : FieldRef := ⟨0x108, 0, 6, 0x80⟩
def LQ_SEED1_DFE : FieldRef := ⟨0x10C, 0, 32, 0x80⟩
def LQ_SEED2_PRE_RX_NEG : FieldRef := ⟨0x110, 17, 1, 0x80⟩
def LQ_SEED2_PRE_TX_NEG : FieldRef := ⟨0x110, 16, 1, 0x80⟩
def LQ_SEED2_FAR_TAPS : FieldRef := ⟨0x110, 0, 16, 0x80⟩
def LQ_CTRL_SEED_CLR : FieldRef := ⟨0x114, 1, 1, 0x80⟩
def LQ_CTRL_SEED_SAVE : FieldRef := ⟨0x114, 0, 1, 0x80⟩
def LQ_STAT_LOGICAL : FieldRef := ⟨0x118, 24, 4, 0x80⟩
def LQ_STAT_LFM : FieldRef := ⟨0x118, 16, 8, 0x80⟩
def LQ_STAT_OWNER : FieldRef := ⟨0x118, 13, 2, 0x80⟩
def LQ_STAT_RATE : FieldRef := ⟨0x118, 8, 5, 0x80⟩
def LQ_STAT_SEED_REJ : FieldRef := ⟨0x118, 7, 1, 0x80⟩
def LQ_STAT_SEEDED : FieldRef := ⟨0x118, 6, 1, 0x80⟩
def LQ_STAT_POL_INV : FieldRef := ⟨0x118, 5, 1, 0x80⟩
def LQ_STAT_CDR_LOCK : FieldRef := ⟨0x118, 4, 1, 0x80⟩
def LQ_STAT_SIGDET : FieldRef := ⟨0x118, 3, 1, 0x80⟩
def LQ_STAT_STATE : FieldRef := ⟨0x118, 0, 3, 0x80⟩
def LQ_EYE_Q99 : FieldRef := ⟨0x11C, 24, 5, 0x80⟩
def LQ_EYE_H2 : FieldRef := ⟨0x11C, 16, 8, 0x80⟩
def LQ_EYE_H1 : FieldRef := ⟨0x11C, 8, 8, 0x80⟩
def LQ_EYE_H0 : FieldRef := ⟨0x11C, 0, 8, 0x80⟩
def LQ_ADAPT_MS : FieldRef := ⟨0x120, 0, 16, 0x80⟩
def LQ_PGEN_INJ_GO : FieldRef := ⟨0x130, 31, 1, 0x80⟩
def LQ_PGEN_RATE_K : FieldRef := ⟨0x130, 16, 6, 0x80⟩
def LQ_PGEN_BURST : FieldRef := ⟨0x130, 8, 8, 0x80⟩
def LQ_PGEN_INJ : FieldRef := ⟨0x130, 6, 2, 0x80⟩
def LQ_PGEN_INV : FieldRef := ⟨0x130, 5, 1, 0x80⟩
def LQ_PGEN_PAT : FieldRef := ⟨0x130, 1, 4, 0x80⟩
def LQ_PGEN_EN : FieldRef := ⟨0x130, 0, 1, 0x80⟩
def LQ_PCHK_CLR : FieldRef := ⟨0x134, 7, 1, 0x80⟩
def LQ_PCHK_LOCK : FieldRef := ⟨0x134, 6, 1, 0x80⟩
def LQ_PCHK_INV : FieldRef := ⟨0x134, 5, 1, 0x80⟩
def LQ_PCHK_PAT : FieldRef := ⟨0x134, 1, 4, 0x80⟩
def LQ_PCHK_EN : FieldRef := ⟨0x134, 0, 1, 0x80⟩
def LQ_PCHK_BITS_LO_BITS : FieldRef := ⟨0x138, 0, 32, 0x80⟩
def LQ_PCHK_BITS_HI_BITS : FieldRef := ⟨0x13C, 0, 32, 0x80⟩
def LQ_PCHK_ERR_LO_ERRORS : FieldRef := ⟨0x140, 0, 32, 0x80⟩
def LQ_PCHK_ERR_HI_ERRORS : FieldRef := ⟨0x144, 0, 32, 0x80⟩
def LQ_PCHK_SYM_ERRORS : FieldRef := ⟨0x148, 0, 32, 0x80⟩
def LQ_PCHK_LOSS_COUNT : FieldRef := ⟨0x14C, 0, 16, 0x80⟩
def LB_CFG_IDLE_AWARE : FieldRef := ⟨0x040, 8, 1, 0⟩
def LB_CFG_LFM_MIN : FieldRef := ⟨0x040, 0, 8, 0⟩
def LB_DOWN_CNT_COUNT : FieldRef := ⟨0x044, 0, 16, 0⟩
def LB_BCFG_RETRAIN : FieldRef := ⟨0x080, 31, 1, 0x8⟩
def LB_BCFG_IDLE : FieldRef := ⟨0x080, 12, 1, 0x8⟩
def LB_BCFG_TRAIN : FieldRef := ⟨0x080, 9, 1, 0x8⟩
def LB_BCFG_EN : FieldRef := ⟨0x080, 8, 1, 0x8⟩
def LB_BCFG_WIDTH : FieldRef := ⟨0x080, 5, 3, 0x8⟩
def LB_BCFG_FIRST : FieldRef := ⟨0x080, 0, 5, 0x8⟩
def LB_BSTAT_POL : FieldRef := ⟨0x084, 16, 16, 0x8⟩
def LB_BSTAT_RX_IDLE : FieldRef := ⟨0x084, 6, 1, 0x8⟩
def LB_BSTAT_SEEDED : FieldRef := ⟨0x084, 5, 1, 0x8⟩
def LB_BSTAT_MISWIRE : FieldRef := ⟨0x084, 4, 1, 0x8⟩
def LB_BSTAT_REVERSED : FieldRef := ⟨0x084, 3, 1, 0x8⟩
def LB_BSTAT_STATE : FieldRef := ⟨0x084, 0, 3, 0x8⟩
def FS_CFG_CB_RESET_MS : FieldRef := ⟨0x040, 16, 16, 0⟩
def FS_SCHED_RSV_TOKENS : FieldRef := ⟨0x044, 0, 18, 0⟩
def FS_TOK_FREE_COUNT : FieldRef := ⟨0x048, 0, 18, 0⟩
def FS_TOK_RSV_COUNT : FieldRef := ⟨0x04C, 0, 18, 0⟩
def FS_TOK_HELD_COUNT : FieldRef := ⟨0x050, 0, 18, 0⟩
def FS_TOK_SHARED_COUNT : FieldRef := ⟨0x054, 0, 18, 0⟩
def FS_TBL_CMD_GO : FieldRef := ⟨0x060, 31, 1, 0⟩
def FS_TBL_CMD_OP : FieldRef := ⟨0x060, 24, 3, 0⟩
def FS_TBL_CMD_TABLE : FieldRef := ⟨0x060, 20, 4, 0⟩
def FS_TBL_CMD_INDEX : FieldRef := ⟨0x060, 0, 18, 0⟩
def FS_TBL_STAT_BUSY : FieldRef := ⟨0x064, 31, 1, 0⟩
def FS_TBL_STAT_RESULT : FieldRef := ⟨0x064, 0, 4, 0⟩
def FS_TBL_DATA_DATA : FieldRef := ⟨0x080, 0, 32, 0x4⟩
def FS_EM_CMD_GO : FieldRef := ⟨0x0C0, 31, 1, 0⟩
def FS_EM_CMD_OP : FieldRef := ⟨0x0C0, 28, 2, 0⟩
def FS_EM_CMD_CTX : FieldRef := ⟨0x0C0, 0, 16, 0⟩
def FS_EM_STAT_BUSY : FieldRef := ⟨0x0C4, 31, 1, 0⟩
def FS_EM_STAT_RESULT : FieldRef := ⟨0x0C4, 24, 4, 0⟩
def FS_EM_STAT_MOVES : FieldRef := ⟨0x0C4, 16, 5, 0⟩
def FS_EM_RES_ENTRY : FieldRef := ⟨0x0C8, 16, 16, 0⟩
def FS_EM_RES_CTX : FieldRef := ⟨0x0C8, 0, 16, 0⟩
def FS_EM_KEY_KEY : FieldRef := ⟨0x0E0, 0, 32, 0x4⟩
def FS_ADM_CMD_GO : FieldRef := ⟨0x100, 31, 1, 0⟩
def FS_ADM_CMD_OP : FieldRef := ⟨0x100, 28, 1, 0⟩
def FS_ADM_CMD_CTX : FieldRef := ⟨0x100, 0, 16, 0⟩
def FS_ADM_STAT_BUSY : FieldRef := ⟨0x104, 31, 1, 0⟩
def FS_ADM_STAT_RESULT : FieldRef := ⟨0x104, 24, 4, 0⟩
def FS_ADM_STAT_COUNT : FieldRef := ⟨0x104, 0, 17, 0⟩
def FS_TRUNK_RESERVE : FieldRef := ⟨0x140, 31, 1, 0x4⟩
def FS_TRUNK_RESERVED : FieldRef := ⟨0x140, 30, 1, 0x4⟩
def FS_TRUNK_LOST : FieldRef := ⟨0x140, 29, 1, 0x4⟩
def FS_TRUNK_BUSY : FieldRef := ⟨0x140, 28, 1, 0x4⟩
def FS_TRUNK_RESULT : FieldRef := ⟨0x140, 24, 4, 0x4⟩
def FS_TRUNK_SEAMS : FieldRef := ⟨0x140, 18, 4, 0x4⟩
def FS_TRUNK_ROUTERS : FieldRef := ⟨0x140, 12, 6, 0x4⟩
def FS_TRUNK_T : FieldRef := ⟨0x140, 0, 12, 0x4⟩
def FS_PUNT_LO_ADDR : FieldRef := ⟨0x180, 12, 20, 0⟩
def FS_INJ_LO_ADDR : FieldRef := ⟨0x1A0, 12, 20, 0⟩
def FS_PUNT_HI_ADDR : FieldRef := ⟨0x184, 0, 10, 0⟩
def FS_INJ_HI_ADDR : FieldRef := ⟨0x1A4, 0, 10, 0⟩
def FS_PUNT_CFG_SLOTS : FieldRef := ⟨0x188, 0, 12, 0⟩
def FS_INJ_CFG_SLOTS : FieldRef := ⟨0x1A8, 0, 12, 0⟩
def FS_PUNT_HEAD_INDEX : FieldRef := ⟨0x18C, 0, 12, 0⟩
def FS_PUNT_TAIL_INDEX : FieldRef := ⟨0x190, 0, 12, 0⟩
def FS_PUNT_DROP_INJ_SKIP : FieldRef := ⟨0x194, 16, 16, 0⟩
def FS_PUNT_DROP_PUNT : FieldRef := ⟨0x194, 0, 16, 0⟩
def FS_INJ_HEAD_INDEX : FieldRef := ⟨0x1AC, 0, 12, 0⟩
def FS_INJ_TAIL_INDEX : FieldRef := ⟨0x1B0, 0, 12, 0⟩
def FM_ALARM_FAIL_THR : FieldRef := ⟨0x040, 16, 16, 0⟩
def FM_ALARM_FAIL_WIN : FieldRef := ⟨0x040, 0, 16, 0⟩
def FM_REPLAY_WINDOW : FieldRef := ⟨0x048, 0, 32, 0⟩
def FM_ICV_CNT_COUNT : FieldRef := ⟨0x04C, 0, 16, 0⟩
def FM_PORT_TX_SC : FieldRef := ⟨0x080, 16, 7, 0x4⟩
def FM_PORT_REPLAY_PROTECT : FieldRef := ⟨0x080, 7, 1, 0x4⟩
def FM_PORT_CONF_OFFSET : FieldRef := ⟨0x080, 5, 2, 0x4⟩
def FM_PORT_CONFIDENTIAL : FieldRef := ⟨0x080, 4, 1, 0x4⟩
def FM_PORT_VALIDATE : FieldRef := ⟨0x080, 2, 2, 0x4⟩
def FM_PORT_RX_EN : FieldRef := ⟨0x080, 1, 1, 0x4⟩
def FM_PORT_TX_EN : FieldRef := ⟨0x080, 0, 1, 0x4⟩
def FM_DROP_NOTAG : FieldRef := ⟨0x0C0, 16, 16, 0x4⟩
def FM_DROP_BADTAG : FieldRef := ⟨0x0C0, 0, 16, 0x4⟩
def FE_MODE_CT_OUT : FieldRef := ⟨0x040, 22, 1, 0⟩
def FE_MODE_MTU : FieldRef := ⟨0x040, 8, 14, 0⟩
def FE_MODE_FEC25 : FieldRef := ⟨0x040, 4, 1, 0⟩
def FE_MODE_MODE : FieldRef := ⟨0x040, 0, 4, 0⟩
def FE_MISS_MISS_EN : FieldRef := ⟨0x044, 31, 1, 0⟩
def FE_MISS_START_STATE : FieldRef := ⟨0x044, 16, 6, 0⟩
def FE_MISS_MISS_CTX : FieldRef := ⟨0x044, 0, 16, 0⟩
def FE_TSCOR_TX_COR : FieldRef := ⟨0x048, 16, 16, 0⟩
def FE_TSCOR_RX_COR : FieldRef := ⟨0x048, 0, 16, 0⟩
def FE_STAT_RATE : FieldRef := ⟨0x04C, 16, 14, 0⟩
def FE_STAT_TS_INVALID : FieldRef := ⟨0x04C, 2, 1, 0⟩
def FE_STAT_MODE_ERR : FieldRef := ⟨0x04C, 1, 1, 0⟩
def FE_STAT_LINK : FieldRef := ⟨0x04C, 0, 1, 0⟩
def FE_RXF_COUNT : FieldRef := ⟨0x050, 0, 32, 0⟩
def FE_TXF_COUNT : FieldRef := ⟨0x05C, 0, 32, 0⟩
def FE_RXB_LO_BYTES : FieldRef := ⟨0x054, 0, 32, 0⟩
def FE_RXB_HI_BYTES : FieldRef := ⟨0x058, 0, 32, 0⟩
def FE_TXB_LO_BYTES : FieldRef := ⟨0x060, 0, 32, 0⟩
def FE_TXB_HI_BYTES : FieldRef := ⟨0x064, 0, 32, 0⟩
def FE_ERR_STOMP : FieldRef := ⟨0x068, 16, 16, 0⟩
def FE_ERR_FCS : FieldRef := ⟨0x068, 0, 16, 0⟩
def FE_DROP_COUNT : FieldRef := ⟨0x06C, 0, 32, 0x4⟩
def FE_PARSE_LIM_COUNT : FieldRef := ⟨0x07C, 0, 32, 0⟩
def FE_QCFG_SCHED : FieldRef := ⟨0x080, 31, 1, 0x10⟩
def FE_QCFG_CT : FieldRef := ⟨0x080, 30, 1, 0x10⟩
def FE_QCFG_MAX_SDU : FieldRef := ⟨0x080, 16, 14, 0x10⟩
def FE_QMIN_TOKENS : FieldRef := ⟨0x084, 0, 18, 0x10⟩
def FE_QMAX_TOKENS : FieldRef := ⟨0x088, 0, 18, 0x10⟩
def FE_QSTAT_DEMAND : FieldRef := ⟨0x08C, 18, 12, 0x10⟩
def FE_QSTAT_HELD : FieldRef := ⟨0x08C, 0, 18, 0x10⟩
def FE_GCL_CTRL_EN : FieldRef := ⟨0x100, 16, 1, 0⟩
def FE_GCL_CTRL_LEN : FieldRef := ⟨0x100, 0, 9, 0⟩
def FE_GCL_CYCLE_NS : FieldRef := ⟨0x104, 0, 32, 0⟩
def FE_GCL_BASE_NS : FieldRef := ⟨0x108, 0, 32, 0x4⟩
def FE_GCL_STAT_PENDING : FieldRef := ⟨0x110, 31, 1, 0⟩
def FE_GCL_STAT_BANK : FieldRef := ⟨0x110, 24, 1, 0⟩
def FE_GCL_STAT_OPEN : FieldRef := ⟨0x110, 16, 8, 0⟩
def FE_GCL_STAT_ENTRY : FieldRef := ⟨0x110, 0, 8, 0⟩
def FE_TXTS_VALID : FieldRef := ⟨0x120, 31, 1, 0⟩
def FE_TXTS_TS_OK : FieldRef := ⟨0x120, 30, 1, 0⟩
def FE_TXTS_SEQID : FieldRef := ⟨0x120, 0, 16, 0⟩
def FE_TXTS_LO_NS : FieldRef := ⟨0x124, 0, 32, 0x4⟩
def FE_TXTS_OVF_COUNT : FieldRef := ⟨0x12C, 0, 16, 0⟩
def MC_CFG_ILV : FieldRef := ⟨0x040, 4, 2, 0⟩
def MC_CFG_WB_EN : FieldRef := ⟨0x040, 3, 1, 0⟩
def MC_CFG_PATROL_EN : FieldRef := ⟨0x040, 2, 1, 0⟩
def MC_CFG_RATE : FieldRef := ⟨0x040, 0, 2, 0⟩
def MC_GEOM_SPD : FieldRef := ⟨0x044, 8, 1, 0⟩
def MC_GEOM_RANKS : FieldRef := ⟨0x044, 4, 2, 0⟩
def MC_GEOM_DENS : FieldRef := ⟨0x044, 3, 1, 0⟩
def MC_PATROL_PERIOD : FieldRef := ⟨0x048, 0, 16, 0⟩
def MC_STAT_CAP_GIB : FieldRef := ⟨0x04C, 24, 8, 0⟩
def MC_STAT_TRAIN_MS : FieldRef := ⟨0x04C, 16, 8, 0⟩
def MC_STAT_CAUSE : FieldRef := ⟨0x04C, 12, 4, 0⟩
def MC_STAT_ILV_ERR : FieldRef := ⟨0x04C, 2, 1, 0⟩
def MC_STAT_STATE : FieldRef := ⟨0x04C, 0, 2, 0⟩
def MC_ERR_FIRST_VALID : FieldRef := ⟨0x050, 31, 1, 0⟩
def MC_ERR_FIRST_KIND : FieldRef := ⟨0x050, 28, 3, 0⟩
def MC_ERR_FIRST_SUBCH : FieldRef := ⟨0x050, 27, 1, 0⟩
def MC_ERR_FIRST_SYMBOL : FieldRef := ⟨0x050, 23, 4, 0⟩
def MC_ERR_FIRST_SRC : FieldRef := ⟨0x050, 0, 10, 0⟩
def MC_ERR_LINE_LINE : FieldRef := ⟨0x054, 0, 31, 0⟩
def MC_SBE_CNT_COUNT : FieldRef := ⟨0x058, 0, 16, 0⟩
def MC_DBE_CNT_COUNT : FieldRef := ⟨0x05C, 0, 16, 0⟩
def MC_TAG_CNT_LATE : FieldRef := ⟨0x060, 16, 16, 0⟩
def MC_TAG_CNT_VERIFIED : FieldRef := ⟨0x060, 0, 16, 0⟩
def MC_TC_HIT_COUNT : FieldRef := ⟨0x064, 0, 32, 0⟩
def MC_TC_MISS_COUNT : FieldRef := ⟨0x068, 0, 32, 0⟩
def MC_KEY_SEL_WORD : FieldRef := ⟨0x070, 6, 3, 0⟩
def MC_KEY_SEL_KEY : FieldRef := ⟨0x070, 4, 2, 0⟩
def MC_KEY_SEL_RANGE : FieldRef := ⟨0x070, 0, 4, 0⟩
def MC_KEY_DATA_DATA : FieldRef := ⟨0x074, 0, 32, 0⟩
def MC_RELEASE_GO : FieldRef := ⟨0x078, 31, 1, 0⟩
def MC_RELEASE_ID : FieldRef := ⟨0x078, 0, 10, 0⟩
def RNG_CTRL_EN : FieldRef := ⟨0x100, 31, 1, 0x20⟩
def RNG_CTRL_INIT_DONE : FieldRef := ⟨0x100, 30, 1, 0x20⟩
def RNG_CTRL_ACTION : FieldRef := ⟨0x100, 6, 2, 0x20⟩
def RNG_CTRL_POLICY : FieldRef := ⟨0x100, 5, 1, 0x20⟩
def RNG_CTRL_KEYS : FieldRef := ⟨0x100, 0, 3, 0x20⟩
def RNG_BASE_PAGE : FieldRef := ⟨0x104, 0, 30, 0x20⟩
def RNG_LIMIT_PAGE : FieldRef := ⟨0x108, 0, 30, 0x20⟩
def RNG_TOFF_PAGE : FieldRef := ⟨0x10C, 0, 25, 0x20⟩
def RNG_INIT_LINES : FieldRef := ⟨0x110, 0, 32, 0x20⟩
def RNG_LATE_COUNT : FieldRef := ⟨0x114, 0, 16, 0x20⟩
def TB_CTRL_SET : FieldRef := ⟨0x040, 31, 1, 0⟩
def TB_CTRL_STEP : FieldRef := ⟨0x040, 30, 1, 0⟩
def TB_CTRL_CMP_EN : FieldRef := ⟨0x040, 0, 1, 0⟩
def TB_NOW_LO_NS : FieldRef := ⟨0x044, 0, 32, 0⟩
def TB_NOW_HI_NS : FieldRef := ⟨0x048, 0, 32, 0⟩
def TB_SET_LO_NS : FieldRef := ⟨0x04C, 0, 32, 0⟩
def TB_SET_HI_NS : FieldRef := ⟨0x050, 0, 32, 0⟩
def TB_STEP_LO_NS : FieldRef := ⟨0x054, 0, 32, 0⟩
def TB_STEP_HI_NS : FieldRef := ⟨0x058, 0, 32, 0⟩
def TB_RATE_RATE : FieldRef := ⟨0x05C, 0, 32, 0⟩
def TB_CMP_LO_NS : FieldRef := ⟨0x060, 0, 32, 0⟩
def TB_CMP_HI_NS : FieldRef := ⟨0x064, 0, 32, 0⟩
def TB_STAT_COAST : FieldRef := ⟨0x068, 0, 1, 0⟩
def MB_DATA_DATA : FieldRef := ⟨0x100, 0, 32, 0x4⟩
def MB_SEND_GO : FieldRef := ⟨0x120, 0, 1, 0x40⟩
def MB_TAKE_VALID : FieldRef := ⟨0x124, 31, 1, 0x40⟩
def MB_TAKE_SENDER : FieldRef := ⟨0x124, 16, 10, 0x40⟩
def MB_TAKE_SEQ : FieldRef := ⟨0x124, 0, 16, 0x40⟩
def MB_STAT_FULL : FieldRef := ⟨0x128, 31, 1, 0x40⟩
def MB_STAT_TIMEOUT : FieldRef := ⟨0x128, 30, 1, 0x40⟩
def MB_STAT_SENDER : FieldRef := ⟨0x128, 16, 10, 0x40⟩
def MB_STAT_SEQ : FieldRef := ⟨0x128, 0, 16, 0x40⟩
def MB_MEMB_M0_MODE : FieldRef := ⟨0x12C, 30, 2, 0x40⟩
def MB_MEMB_M0_ID : FieldRef := ⟨0x12C, 16, 10, 0x40⟩
def MB_MEMB_M1_MODE : FieldRef := ⟨0x12C, 14, 2, 0x40⟩
def MB_MEMB_M1_ID : FieldRef := ⟨0x12C, 0, 10, 0x40⟩
def MB_TMO_US : FieldRef := ⟨0x130, 0, 20, 0x40⟩
def MB_CTRL_WITHDRAW : FieldRef := ⟨0x134, 0, 1, 0x40⟩
def MB_CNT_WDRAW : FieldRef := ⟨0x138, 16, 16, 0x40⟩
def MB_CNT_TAKEN : FieldRef := ⟨0x138, 0, 16, 0x40⟩
def LK_FORCE_GO : FieldRef := ⟨0x040, 31, 1, 0⟩
def LK_FORCE_LOCK : FieldRef := ⟨0x040, 0, 8, 0⟩
def LK_WORD_WORD : FieldRef := ⟨0x100, 0, 32, 0x4⟩
def LK_STAT_HELD : FieldRef := ⟨0x500, 31, 1, 0x4⟩
def LK_STAT_HALTED : FieldRef := ⟨0x500, 30, 1, 0x4⟩
def LK_STAT_HOLDER : FieldRef := ⟨0x500, 0, 10, 0x4⟩
def EV_RSEL_SRC : FieldRef := ⟨0x040, 0, 10, 0⟩
def EV_RDATA_ROUTE : FieldRef := ⟨0x044, 0, 32, 0x4⟩
def EV_PINPOL_POL : FieldRef := ⟨0x04C, 0, 8, 0⟩
def EV_MERGE_COUNT : FieldRef := ⟨0x050, 0, 16, 0⟩
def EV_THRESH_LEVEL : FieldRef := ⟨0x060, 0, 4, 0x4⟩
def EV_CLAIM_VALID : FieldRef := ⟨0x070, 31, 1, 0x4⟩
def EV_CLAIM_SRC : FieldRef := ⟨0x070, 0, 10, 0x4⟩
def EV_DONE_SRC : FieldRef := ⟨0x080, 0, 10, 0x4⟩
def EV_LEVEL_LEVEL : FieldRef := ⟨0x100, 0, 32, 0x4⟩
def CL_HART_HALTED : FieldRef := ⟨0x040, 8, 4, 0⟩
def CL_HART_WFI : FieldRef := ⟨0x040, 4, 4, 0⟩
def CL_HART_EN : FieldRef := ⟨0x040, 0, 4, 0⟩
def CL_RVEC_LO_ADDR : FieldRef := ⟨0x044, 2, 30, 0⟩
def CL_RVEC_HI_ADDR : FieldRef := ⟨0x048, 0, 10, 0⟩
def CL_CMO_GO : FieldRef := ⟨0x04C, 31, 1, 0⟩
def CL_CMO_BUSY : FieldRef := ⟨0x04C, 30, 1, 0⟩
def CL_CMO_OP : FieldRef := ⟨0x04C, 0, 2, 0⟩
def CL_CMO_LO_ADDR : FieldRef := ⟨0x050, 6, 26, 0⟩
def CL_CMO_HI_ADDR : FieldRef := ⟨0x054, 0, 10, 0⟩
def CL_CMO_LEN_LINES : FieldRef := ⟨0x058, 0, 24, 0⟩
def CL_BERR_VALID : FieldRef := ⟨0x060, 31, 1, 0x10⟩
def CL_BERR_ASYNC : FieldRef := ⟨0x060, 30, 1, 0x10⟩
def CL_BERR_OVF : FieldRef := ⟨0x060, 29, 1, 0x10⟩
def CL_BERR_CODE : FieldRef := ⟨0x060, 0, 4, 0x10⟩
def CL_BERRA_LO_ADDR : FieldRef := ⟨0x064, 0, 32, 0x10⟩
def CL_BERRA_HI_ADDR : FieldRef := ⟨0x068, 0, 10, 0x10⟩
def HD_SRC_LO_ADDR : FieldRef := ⟨0x100, 0, 32, 0x20⟩
def HD_SRC_HI_ADDR : FieldRef := ⟨0x104, 0, 10, 0x20⟩
def HD_DST_LO_ADDR : FieldRef := ⟨0x108, 0, 32, 0x20⟩
def HD_DST_HI_ADDR : FieldRef := ⟨0x10C, 0, 10, 0x20⟩
def HD_LEN_BYTES : FieldRef := ⟨0x110, 0, 32, 0x20⟩
def HD_CTRL_GO : FieldRef := ⟨0x114, 31, 1, 0x20⟩
def HD_CTRL_ABORT : FieldRef := ⟨0x114, 30, 1, 0x20⟩
def HD_STAT_RESULT : FieldRef := ⟨0x118, 28, 4, 0x20⟩
def HD_DONE_BYTES : FieldRef := ⟨0x11C, 0, 32, 0x20⟩
def PC_CFG_FUNC1 : FieldRef := ⟨0x040, 8, 1, 0⟩
def PC_CFG_MAXGEN : FieldRef := ⟨0x040, 4, 3, 0⟩
def PC_CFG_WIDTH : FieldRef := ⟨0x040, 2, 2, 0⟩
def PC_CFG_MODE : FieldRef := ⟨0x040, 0, 2, 0⟩
def PC_STAT_PERST : FieldRef := ⟨0x044, 12, 1, 0⟩
def PC_STAT_RELEASED : FieldRef := ⟨0x044, 11, 1, 0⟩
def PC_STAT_FLIT : FieldRef := ⟨0x044, 10, 1, 0⟩
def PC_STAT_LINK_UP : FieldRef := ⟨0x044, 9, 1, 0⟩
def PC_STAT_WIDTH : FieldRef := ⟨0x044, 4, 5, 0⟩
def PC_STAT_GEN : FieldRef := ⟨0x044, 0, 4, 0⟩
def PC_IDS_VENDOR : FieldRef := ⟨0x048, 16, 16, 0⟩
def PC_IDS_DEVICE : FieldRef := ⟨0x048, 0, 16, 0⟩
def PC_OUT_LO_ADDR : FieldRef := ⟨0x050, 0, 32, 0⟩
def PC_OUT_HI_ADDR : FieldRef := ⟨0x054, 0, 32, 0⟩
def PC_RIN_LO_ADDR : FieldRef := ⟨0x058, 0, 32, 0⟩
def PC_RIN_HI_ADDR : FieldRef := ⟨0x05C, 0, 32, 0⟩
def PC_BAR2_SZ_SZ : FieldRef := ⟨0x060, 0, 6, 0x10⟩
def PC_BAR2_TGT_LO_ADDR : FieldRef := ⟨0x064, 0, 32, 0x10⟩
def PC_BAR2_TGT_HI_ADDR : FieldRef := ⟨0x068, 0, 10, 0x10⟩
def PC_MSI_SEND_VEC : FieldRef := ⟨0x080, 0, 8, 0⟩
def PC_MSI_SEND1_VEC : FieldRef := ⟨0x084, 0, 8, 0⟩
def PC_DOORBELL_BITS : FieldRef := ⟨0x088, 0, 32, 0⟩
def PD_STAT_HOLD : FieldRef := ⟨0x040, 8, 4, 0⟩
def PD_STAT_DROP_DENIED : FieldRef := ⟨0x040, 7, 1, 0⟩
def PD_STAT_STATE : FieldRef := ⟨0x040, 0, 3, 0⟩
def PD_CFG_LINGER_US : FieldRef := ⟨0x044, 0, 16, 0⟩
def PD_INFO_WAKE_LIMIT : FieldRef := ⟨0x048, 16, 16, 0⟩
def PD_INFO_INDEX : FieldRef := ⟨0x048, 8, 8, 0⟩
def PD_INFO_KIND : FieldRef := ⟨0x048, 0, 8, 0⟩
def PD_WAKES_COUNT : FieldRef := ⟨0x04C, 0, 32, 0⟩
def PD_WAKE_US_US : FieldRef := ⟨0x050, 0, 16, 0⟩
def PD_RTC_LO_COUNT : FieldRef := ⟨0x060, 0, 32, 0⟩
def PD_RTC_HI_COUNT : FieldRef := ⟨0x064, 0, 16, 0⟩
def PD_ALARM_LO_TIME : FieldRef := ⟨0x068, 0, 32, 0⟩
def PD_ALARM_HI_TIME : FieldRef := ⟨0x06C, 0, 16, 0⟩
def PD_ALARM_CTRL_ALARM_EN : FieldRef := ⟨0x070, 0, 1, 0⟩
def PD_TORPOR_FROM_TORPOR : FieldRef := ⟨0x060, 31, 1, 0⟩
def PD_TORPOR_LAST_EXIT : FieldRef := ⟨0x060, 16, 2, 0⟩
def PD_TORPOR_ENTERING : FieldRef := ⟨0x060, 8, 1, 0⟩
def PD_TORPOR_ARM : FieldRef := ⟨0x060, 0, 1, 0⟩
def GV_CFG_THR : FieldRef := ⟨0x040, 16, 3, 0⟩
def GV_CFG_REVOKE_US : FieldRef := ⟨0x040, 0, 16, 0⟩
def GV_TEMP_HOT : FieldRef := ⟨0x044, 16, 7, 0⟩
def GV_TEMP_TO : FieldRef := ⟨0x044, 8, 8, 0⟩
def GV_TEMP_TF : FieldRef := ⟨0x044, 0, 8, 0⟩
def GV_PWR_P : FieldRef := ⟨0x048, 0, 13, 0⟩
def GV_POOL_TARGET : FieldRef := ⟨0x04C, 16, 11, 0⟩
def GV_POOL_POOL : FieldRef := ⟨0x04C, 0, 11, 0⟩
def GV_FREE_HELD : FieldRef := ⟨0x050, 16, 11, 0⟩
def GV_FREE_FREE : FieldRef := ⟨0x050, 0, 11, 0⟩
def GV_DEBT_B : FieldRef := ⟨0x054, 16, 11, 0⟩
def GV_DEBT_DEBT : FieldRef := ⟨0x054, 0, 11, 0⟩
def GV_MINT_COUNT : FieldRef := ⟨0x058, 0, 32, 0x4⟩
def GV_SFAIL_INVALID : FieldRef := ⟨0x060, 0, 32, 0x4⟩
def GV_CRV_EN : FieldRef := ⟨0x080, 31, 1, 0x4⟩
def GV_CRV_TEMP : FieldRef := ⟨0x080, 16, 8, 0x4⟩
def GV_CRV_TOKENS : FieldRef := ⟨0x080, 0, 11, 0x4⟩
def GV_SENS_VALID : FieldRef := ⟨0x100, 8, 1, 0x4⟩
def GV_SENS_TEMP : FieldRef := ⟨0x100, 0, 8, 0x4⟩
def DS_DSEL_INDEX : FieldRef := ⟨0x040, 0, 12, 0⟩
def DS_D_WORD : FieldRef := ⟨0x044, 0, 32, 0x4⟩
def DS_SUBMIT_INDEX : FieldRef := ⟨0x054, 0, 12, 0⟩
def DS_DONE_STATUS : FieldRef := ⟨0x058, 16, 2, 0⟩
def DS_DONE_INDEX : FieldRef := ⟨0x058, 0, 12, 0⟩
def DS_REL_COUNT : FieldRef := ⟨0x05C, 16, 11, 0⟩
def DS_REL_INDEX : FieldRef := ⟨0x05C, 0, 12, 0⟩
def DS_CQ_VALID : FieldRef := ⟨0x060, 31, 1, 0⟩
def DS_CQ_STATUS : FieldRef := ⟨0x060, 16, 2, 0⟩
def DS_CQ_INDEX : FieldRef := ⟨0x060, 0, 12, 0⟩
def DS_MQ_VALID : FieldRef := ⟨0x070, 31, 1, 0x4⟩
def DS_MQ_INDEX : FieldRef := ⟨0x070, 0, 12, 0x4⟩
def DS_PQ_VALID : FieldRef := ⟨0x080, 31, 1, 0x4⟩
def DS_PQ_INDEX : FieldRef := ⟨0x080, 0, 12, 0x4⟩
def DS_STAT_ISSUED : FieldRef := ⟨0x0A0, 16, 13, 0⟩
def DS_STAT_READY : FieldRef := ⟨0x0A0, 0, 13, 0⟩
def DS_CFG_RESERVE_US : FieldRef := ⟨0x0A4, 0, 16, 0⟩
def DS_CQ_OVF_COUNT : FieldRef := ⟨0x0A8, 0, 16, 0⟩
def DS_REFUSE_COUNT : FieldRef := ⟨0x0AC, 0, 32, 0⟩
def SC_LC_ENTRY_DONE : FieldRef := ⟨0x040, 5, 1, 0⟩
def SC_LC_RECORD_OK : FieldRef := ⟨0x040, 4, 1, 0⟩
def SC_LC_STATE : FieldRef := ⟨0x040, 0, 3, 0⟩
def SC_SIGNER_REVOKED : FieldRef := ⟨0x044, 4, 4, 0⟩
def SC_SIGNER_VALID : FieldRef := ⟨0x044, 0, 4, 0⟩
def SC_CMD_STAT_BUSY : FieldRef := ⟨0x048, 23, 1, 0⟩
def SC_CMD_STAT_SOURCE : FieldRef := ⟨0x048, 16, 7, 0⟩
def SC_CMD_STAT_STATUS : FieldRef := ⟨0x048, 8, 4, 0⟩
def SC_CMD_STAT_CODE : FieldRef := ⟨0x048, 0, 8, 0⟩
def SC_IDHASH_HASH : FieldRef := ⟨0x050, 0, 32, 0x4⟩
def SC_ALARM_ALARM : FieldRef := ⟨0x070, 31, 1, 0⟩
def SC_ALARM_SRC : FieldRef := ⟨0x070, 0, 6, 0⟩
def SC_ALARM_CNT_COUNT : FieldRef := ⟨0x074, 0, 16, 0⟩
def SC_ALARM_FIRST_VALID : FieldRef := ⟨0x078, 31, 1, 0⟩
def SC_ALARM_FIRST_BIT : FieldRef := ⟨0x078, 24, 3, 0⟩
def SC_ALARM_FIRST_DIE : FieldRef := ⟨0x078, 20, 4, 0⟩
def SC_ALARM_FIRST_ID : FieldRef := ⟨0x078, 0, 10, 0⟩
def SC_REPORTS_COUNT : FieldRef := ⟨0x07C, 0, 32, 0⟩
def SC_TCMD_DATA : FieldRef := ⟨0x080, 0, 32, 0x4⟩
def SC_TGO_BUSY : FieldRef := ⟨0x0A0, 31, 1, 0⟩
def SC_TGO_GO : FieldRef := ⟨0x0A0, 0, 1, 0⟩
def ER_CTRL_DONE : FieldRef := ⟨0x040, 31, 1, 0⟩
def ER_CTRL_FATAL_RESET : FieldRef := ⟨0x040, 0, 1, 0⟩
def ER_CFG_SCRUB_TMO_MS : FieldRef := ⟨0x044, 16, 16, 0⟩
def ER_CFG_FATAL_HOLD_MS : FieldRef := ⟨0x044, 0, 16, 0⟩
def ER_STAT_HANDLING : FieldRef := ⟨0x048, 31, 1, 0⟩
def ER_STAT_FATAL : FieldRef := ⟨0x048, 30, 1, 0⟩
def ER_FIRST0_VALID : FieldRef := ⟨0x050, 31, 1, 0x20⟩
def ER_FIRST0_PREEMPT : FieldRef := ⟨0x050, 30, 1, 0x20⟩
def ER_FIRST0_CLASS : FieldRef := ⟨0x050, 28, 2, 0x20⟩
def ER_FIRST0_DIE : FieldRef := ⟨0x050, 24, 4, 0x20⟩
def ER_FIRST0_SRC : FieldRef := ⟨0x050, 0, 10, 0x20⟩
def ER_FIRST1_CODE : FieldRef := ⟨0x054, 0, 16, 0x20⟩
def ER_FIRST2_INFO : FieldRef := ⟨0x058, 0, 32, 0x20⟩
def ER_FIRST3_TIME : FieldRef := ⟨0x05C, 0, 32, 0x20⟩
def ER_FIRST4_TIME : FieldRef := ⟨0x060, 0, 32, 0x20⟩
def ER_CNT_COUNT : FieldRef := ⟨0x090, 0, 16, 0x4⟩
def ER_NEXT_LOST_COUNT : FieldRef := ⟨0x0A0, 0, 16, 0⟩
def ER_AUDIT_COUNT : FieldRef := ⟨0x0C0, 0, 32, 0x4⟩
def AX_CTRL_EN : FieldRef := ⟨0x040, 0, 1, 0⟩
def AX_STAT_LAST_MS : FieldRef := ⟨0x044, 16, 16, 0⟩
def AX_STAT_STATE : FieldRef := ⟨0x044, 0, 3, 0⟩
def AX_SCAN_COUNT : FieldRef := ⟨0x048, 0, 32, 0⟩
def AX_CORR_COUNT : FieldRef := ⟨0x04C, 0, 16, 0x4⟩
def AX_FIRST_VALID : FieldRef := ⟨0x05C, 31, 1, 0⟩
def AX_FIRST_KIND : FieldRef := ⟨0x05C, 29, 2, 0⟩
def AX_FIRST_FRAME : FieldRef := ⟨0x05C, 0, 19, 0⟩
def AX_POS_FRAME : FieldRef := ⟨0x060, 0, 19, 0⟩
def BB_HEAD_INDEX : FieldRef := ⟨0x040, 0, 12, 0⟩
def BB_SEQ_SEQ : FieldRef := ⟨0x044, 0, 32, 0⟩
def BB_LOST_COUNT : FieldRef := ⟨0x048, 0, 16, 0⟩
def BB_MARK_VALUE : FieldRef := ⟨0x04C, 0, 32, 0⟩
def BB_COPY_AGE : FieldRef := ⟨0x050, 0, 2, 0⟩
def BB_CINFO_VALID : FieldRef := ⟨0x054, 31, 1, 0⟩
def BB_CINFO_REASON : FieldRef := ⟨0x054, 24, 4, 0⟩
def BB_CINFO_HEAD : FieldRef := ⟨0x054, 0, 12, 0⟩
def BB_CSEQ_SEQ : FieldRef := ⟨0x058, 0, 32, 0⟩
def BB_CTIME_LO_TIME : FieldRef := ⟨0x05C, 0, 32, 0⟩
def BB_CTIME_HI_TIME : FieldRef := ⟨0x060, 0, 32, 0⟩
def BB_XFER_LO_ADDR : FieldRef := ⟨0x064, 8, 24, 0⟩
def BB_XFER_HI_ADDR : FieldRef := ⟨0x068, 0, 10, 0⟩
def BB_XFER_CTRL_GO : FieldRef := ⟨0x06C, 31, 1, 0⟩
def BB_XFER_STAT_RESULT : FieldRef := ⟨0x070, 28, 4, 0⟩
def SD_CTRL_SHDN : FieldRef := ⟨0x040, 31, 1, 0⟩
def SD_CTRL_ARM : FieldRef := ⟨0x040, 30, 1, 0⟩
def SD_CTRL_DISARM : FieldRef := ⟨0x040, 29, 1, 0⟩
def SD_CFG_ARM_AUTO : FieldRef := ⟨0x044, 31, 1, 0⟩
def SD_CFG_TEST : FieldRef := ⟨0x044, 16, 2, 0⟩
def SD_CFG_HOLDUP_MS : FieldRef := ⟨0x044, 0, 16, 0⟩
def SD_BR_CFG_MAX_AGE_S : FieldRef := ⟨0x048, 16, 16, 0⟩
def SD_BR_MEM_LO_MEM : FieldRef := ⟨0x04C, 0, 32, 0⟩
def SD_BR_MEM_HI_MEM : FieldRef := ⟨0x050, 0, 32, 0⟩
def SD_STAT_STATE : FieldRef := ⟨0x054, 28, 4, 0⟩
def SD_STAT_ARM_RESULT : FieldRef := ⟨0x054, 24, 4, 0⟩
def SD_STAT_ARMED : FieldRef := ⟨0x054, 23, 1, 0⟩
def SD_BR_SIZE_LIMIT : FieldRef := ⟨0x058, 16, 16, 0⟩
def SD_BR_SIZE_SIZE : FieldRef := ⟨0x058, 0, 16, 0⟩
def SD_SNAP_VALID : FieldRef := ⟨0x05C, 31, 1, 0⟩
def SD_SNAP_USED : FieldRef := ⟨0x05C, 30, 1, 0⟩
def SD_SNAP_CAUSE : FieldRef := ⟨0x05C, 26, 4, 0⟩
def SD_SNAP_BUF : FieldRef := ⟨0x05C, 25, 1, 0⟩
def SD_SNAP_REASON : FieldRef := ⟨0x05C, 23, 2, 0⟩
def SD_SNAP_PARTS : FieldRef := ⟨0x05C, 16, 7, 0⟩
def SD_SNAP_SEQ_SEQ : FieldRef := ⟨0x060, 0, 32, 0⟩
def SD_SNAP_RTC_LO_RTC : FieldRef := ⟨0x064, 0, 32, 0⟩
def SD_SNAP_RTC_HI_RTC : FieldRef := ⟨0x068, 0, 16, 0⟩
def SD_SNAP_TIME_LO_TIME : FieldRef := ⟨0x06C, 0, 32, 0⟩
def SD_SNAP_TIME_HI_TIME : FieldRef := ⟨0x070, 0, 32, 0⟩
def SD_RES_LO_RES : FieldRef := ⟨0x074, 0, 32, 0⟩
def SD_RES_HI_RES : FieldRef := ⟨0x078, 0, 32, 0⟩
def SD_REC0_PRESENT : FieldRef := ⟨0x080, 31, 1, 0⟩
def SD_REC0_TAG_OK : FieldRef := ⟨0x080, 30, 1, 0⟩
def SD_REC0_RESULT : FieldRef := ⟨0x080, 28, 2, 0⟩
def SD_REC0_VARIANT : FieldRef := ⟨0x080, 26, 2, 0⟩
def SD_REC0_DIE : FieldRef := ⟨0x080, 22, 4, 0⟩
def SD_REC0_REGION : FieldRef := ⟨0x080, 16, 6, 0⟩
def SD_REC1_INDEX : FieldRef := ⟨0x084, 0, 32, 0⟩
def SD_REC2_RTC : FieldRef := ⟨0x088, 0, 32, 0⟩
def SD_REC3_RTC : FieldRef := ⟨0x08C, 0, 16, 0⟩
def ST_CMD_GO : FieldRef := ⟨0x040, 31, 1, 0⟩
def ST_CMD_SAVE : FieldRef := ⟨0x040, 30, 1, 0⟩
def ST_CMD_ALGO : FieldRef := ⟨0x040, 16, 2, 0⟩
def ST_CMD_REGION : FieldRef := ⟨0x040, 0, 6, 0⟩
def ST_STAT_BUSY : FieldRef := ⟨0x044, 31, 1, 0⟩
def ST_STAT_RESULT : FieldRef := ⟨0x044, 28, 3, 0⟩
def ST_FAIL_VALID : FieldRef := ⟨0x048, 31, 1, 0⟩
def ST_FAIL_REGION : FieldRef := ⟨0x048, 24, 6, 0⟩
def ST_FAIL_INDEX : FieldRef := ⟨0x048, 0, 24, 0⟩
def DB_HALT_RESET_HALT : FieldRef := ⟨0x040, 12, 4, 0⟩
def DB_HALT_STEP : FieldRef := ⟨0x040, 8, 4, 0⟩
def DB_HALT_RESUME_REQ : FieldRef := ⟨0x040, 4, 4, 0⟩
def DB_HALT_HALT_REQ : FieldRef := ⟨0x040, 0, 4, 0⟩
def DB_CFG_STEPIE : FieldRef := ⟨0x044, 15, 1, 0⟩
def DB_CFG_EBREAK : FieldRef := ⟨0x044, 12, 3, 0⟩
def DB_CFG_LE_HALT : FieldRef := ⟨0x044, 8, 4, 0⟩
def DB_CFG_NOC_HALT : FieldRef := ⟨0x044, 4, 4, 0⟩
def DB_CFG_GROUP : FieldRef := ⟨0x044, 0, 4, 0⟩
def DB_CSTAT_HALTED : FieldRef := ⟨0x050, 31, 1, 0x4⟩
def DB_CSTAT_CAUSE : FieldRef := ⟨0x050, 24, 3, 0x4⟩
def DB_CSTAT_HIT : FieldRef := ⟨0x050, 0, 16, 0x4⟩
def DB_REGCMD_GO : FieldRef := ⟨0x060, 31, 1, 0⟩
def DB_REGCMD_WRITE : FieldRef := ⟨0x060, 30, 1, 0⟩
def DB_REGCMD_ERR : FieldRef := ⟨0x060, 29, 1, 0⟩
def DB_REGCMD_BUSY : FieldRef := ⟨0x060, 28, 1, 0⟩
def DB_REGCMD_CORE : FieldRef := ⟨0x060, 16, 2, 0⟩
def DB_REGCMD_REG : FieldRef := ⟨0x060, 0, 16, 0⟩
def DB_REGDATA_LO_DATA : FieldRef := ⟨0x064, 0, 32, 0⟩
def DB_REGDATA_HI_DATA : FieldRef := ⟨0x068, 0, 32, 0⟩
def DB_LE_GO : FieldRef := ⟨0x070, 31, 1, 0⟩
def DB_LE_OP : FieldRef := ⟨0x070, 28, 2, 0⟩
def DB_LE_DIE : FieldRef := ⟨0x070, 21, 4, 0⟩
def DB_LE_ENGINE : FieldRef := ⟨0x070, 0, 9, 0⟩
def TR_CFG_EN : FieldRef := ⟨0x040, 31, 1, 0⟩
def TR_CFG_STOP_FULL : FieldRef := ⟨0x040, 30, 1, 0⟩
def TR_CFG_STOP_HALT : FieldRef := ⟨0x040, 29, 1, 0⟩
def TR_CFG_CORES : FieldRef := ⟨0x040, 4, 4, 0⟩
def TR_CFG_NOC : FieldRef := ⟨0x040, 3, 1, 0⟩
def TR_PTR_WRAPPED : FieldRef := ⟨0x044, 16, 1, 0⟩
def TR_PTR_WR : FieldRef := ⟨0x044, 0, 16, 0⟩
def TR_RIDX_INC : FieldRef := ⟨0x048, 31, 1, 0⟩
def TR_RIDX_IDX : FieldRef := ⟨0x048, 0, 16, 0⟩
def TR_RDATA_DATA : FieldRef := ⟨0x050, 0, 32, 0x4⟩
def WD_CFG_WDT_GRACE : FieldRef := ⟨0x040, 16, 16, 0⟩
def WD_CFG_RESET_EN : FieldRef := ⟨0x040, 4, 4, 0⟩
def WD_CFG_FREEZE : FieldRef := ⟨0x040, 0, 4, 0⟩
def WD_CTRL_EN : FieldRef := ⟨0x050, 31, 1, 0x10⟩
def WD_CTRL_LOAD_US : FieldRef := ⟨0x050, 0, 24, 0x10⟩
def WD_KICK_KEY : FieldRef := ⟨0x054, 0, 8, 0x10⟩
def WD_CNT_US : FieldRef := ⟨0x058, 0, 24, 0x10⟩
def WD_SENT_CTRL_EN : FieldRef := ⟨0x090, 31, 1, 0⟩
def WD_SENT_CTRL_SENT_FREEZE : FieldRef := ⟨0x090, 30, 1, 0⟩
def WD_SENT_CTRL_PERIOD_MS : FieldRef := ⟨0x090, 0, 16, 0⟩
def WD_SENT_KICK_KEY : FieldRef := ⟨0x094, 0, 8, 0⟩
def WD_SENT_CNT_MS : FieldRef := ⟨0x098, 0, 16, 0⟩
def WD_STAT_SENT_BIT : FieldRef := ⟨0x09C, 31, 1, 0⟩
def WD_STAT_BITTEN : FieldRef := ⟨0x09C, 0, 4, 0⟩
def BK_CTRL_EN : FieldRef := ⟨0x100, 31, 1, 0x20⟩
def BK_CTRL_ACTION : FieldRef := ⟨0x100, 29, 2, 0x20⟩
def BK_CTRL_PRIV : FieldRef := ⟨0x100, 26, 3, 0x20⟩
def BK_CTRL_CX_EN : FieldRef := ⟨0x100, 25, 1, 0x20⟩
def BK_CTRL_RANGE : FieldRef := ⟨0x100, 24, 1, 0x20⟩
def BK_CTRL_DIR : FieldRef := ⟨0x100, 22, 2, 0x20⟩
def BK_CTRL_VAL_EN : FieldRef := ⟨0x100, 21, 1, 0x20⟩
def BK_CTRL_LINK_EN : FieldRef := ⟨0x100, 20, 1, 0x20⟩
def BK_CTRL_LINK_SEQ : FieldRef := ⟨0x100, 19, 1, 0x20⟩
def BK_CTRL_LINK_SRC : FieldRef := ⟨0x100, 0, 4, 0x20⟩
def BK_CXID_CXID : FieldRef := ⟨0x104, 0, 16, 0x20⟩
def BK_ADDR_LO_ADDR : FieldRef := ⟨0x108, 0, 32, 0x20⟩
def BK_ADDR_HI_ADDR : FieldRef := ⟨0x10C, 0, 32, 0x20⟩
def BK_VAL_LO_VAL : FieldRef := ⟨0x110, 0, 32, 0x20⟩
def BK_VAL_HI_VAL : FieldRef := ⟨0x114, 0, 32, 0x20⟩
def BK_MASK_LO_MASK : FieldRef := ⟨0x118, 0, 32, 0x20⟩
def BK_MASK_HI_MASK : FieldRef := ⟨0x11C, 0, 32, 0x20⟩
def IO_SAFE_SAFE : FieldRef := ⟨0x040, 0, 32, 0x4⟩
def IO_ACT0_ACT : FieldRef := ⟨0x050, 0, 32, 0⟩
def IO_ACT1_ACT : FieldRef := ⟨0x054, 0, 16, 0⟩
def IO_STAT_MV : FieldRef := ⟨0x058, 16, 16, 0⟩
def IO_STAT_VCCIO : FieldRef := ⟨0x058, 8, 3, 0⟩
def IO_STAT_STD_ERR : FieldRef := ⟨0x058, 1, 1, 0⟩
def IO_STAT_VCCIO_OK : FieldRef := ⟨0x058, 0, 1, 0⟩
def SU_STAT_PF_SRC : FieldRef := ⟨0x040, 28, 4, 0⟩
def SU_STAT_PF_RAIL : FieldRef := ⟨0x040, 24, 4, 0⟩
def SU_STAT_RAIL_OK : FieldRef := ⟨0x040, 0, 8, 0⟩
def SU_CFG_TRIP_C : FieldRef := ⟨0x044, 0, 8, 0⟩
def SU_PF_CNT_COUNT : FieldRef := ⟨0x048, 0, 16, 0⟩
def SU_RAIL_CURRENT : FieldRef := ⟨0x080, 16, 16, 0x4⟩
def SU_RAIL_MV : FieldRef := ⟨0x080, 0, 16, 0x4⟩

end Sys2Proof.Machine
end

