-- ==== Sys2Proof/Machine/Topology.lean ====
section
/-! DEFINITION. What stands where: dies, pages by die and block number, seams, routers, clock domains, power domains and
initiators. Every table here is one of the manual's. -/

namespace Sys2Proof.Machine

/-- Fabric dies 0 to 7, lane dies 9 to 12, keep dies 13 and 14 (01_package.md R16). -/
def isFabric (die : Nat) : Bool := die < 8
@[inherit_doc isFabric] def isLane (die : Nat) : Bool := 9 ≤ die && die ≤ 12
@[inherit_doc isFabric] def isKeep (die : Nat) : Bool := die = 13 || die = 14

/-- I/O banks of a fabric die (01_package.md R19): four on the corners, two on the edges. -/
def ioBanks (die : Nat) : Nat := if die % 2 = 0 then 4 else 2

/-- First IOB bank number of a fabric die (01_package.md R19). -/
def firstBank (die : Nat) : Nat := 6 * (die / 2) + (if die % 2 = 0 then 0 else 4)

/-- The two dies a seam joins (01_package.md R20). -/
def seamDies (seam : Nat) : Nat × Nat :=
  match seam with
  | 0 => (0, 1) | 1 => (1, 2) | 2 => (2, 3) | 3 => (3, 4) | 4 => (4, 5) | 5 => (5, 6) | 6 => (6, 7) | 7 => (7, 0)
  | 8 => (8, 1) | 9 => (8, 3) | 10 => (8, 5) | 11 => (8, 7) | 12 => (9, 0) | 13 => (10, 2) | 14 => (11, 4)
  | 15 => (12, 6) | 16 => (13, 1) | 17 => (14, 5) | _ => (15, 15)

/-- Seam `seam` ends on `die`. -/
def seamOn (die seam : Nat) : Bool := seam < 18 && ((seamDies seam).1 = die || (seamDies seam).2 = die)

/-- Seams that end on a die. -/
def dieSeams (die : Nat) : List Nat := (List.range 18).filter (seamOn die)

/-- The die at the other end of a seam. -/
def seamFar (die seam : Nat) : Nat := if (seamDies seam).1 = die then (seamDies seam).2 else (seamDies seam).1

/-- Routers of a die (12_noc.md R292). -/
def routerCount (die : Nat) : Nat :=
  if isFabric die then 24 else if die = 8 then 8 else if die < 15 then 3 else 0

/-- The die whose pages carry clock domain `k` (03_clocks.md R72). -/
def cdDie (k : Nat) : Nat :=
  if k < 8 then 8 else if k < 16 then k - 8 else if k < 24 then k - 16 else if k < 32 then k - 24
  else if k < 36 then k - 32 + 9 else if k < 40 then k - 36 + 9 else if k < 42 then 3 else if k < 44 then 7
  else if k < 46 then k - 44 + 13 else if k = 46 then 9 else if k = 47 then 11 else if k < 64 then 8 else 15

/-- Number of power domains of a die (01_package.md R33, 18_power.md R471). -/
def domCount (die : Nat) : Nat :=
  if isFabric die then (if die = 3 || die = 7 then 24 else 22) else if die = 8 then 6 else if isLane die then 10
  else if isKeep die then 1 else 0

/-- The kind of page at a block number, none where the block is reserved (01_package.md R33 and the page chapters). -/
def pageOf (die blk : Nat) : Option Page :=
  let inst := blk % 4096
  match blk / 4096 with
  | 0 =>
    if die < 15 && inst = 0 then some .dmgr
    else if die = 8 then
      match inst with
      | 1 => some .sq | 2 => some .il | 3 => some .rt | 4 => some .qu | 5 => some .di | 6 => some .er | 7 => some .bb
      | 8 => some .sd | _ => none
    else if isFabric die && 16 ≤ inst && inst < 16 + ioBanks die then some .io else none
  | 1 => if inst < routerCount die then some .nr else none
  | 2 => if seamOn die inst then some .sm else none
  | 3 =>
    if 256 ≤ inst then (if inst < 320 && cdDie (inst - 256) = die then some .cd else none)
    else if die = 8 then (if inst = 0 then some .cu else if inst < 9 then some .hp else none)
    else if isFabric die && inst < 4 then some .fp else none
  | 4 => if inst < domCount die then some .pd else if die = 8 && inst = 16 then some .su else none
  | 5 =>
    if isFabric die then (match inst with | 0 => some .cf | 1 => some .ax | 2 => some .ic | _ => none) else none
  | 6 => if isFabric die && inst < 288 then some .le else none
  | 7 =>
    if isFabric die then (if inst < 64 then some .bg else if 256 ≤ inst && inst < 288 then some .dm else none) else none
  | 8 => if isLane die then (if inst < 8 then some .lq else if inst = 256 then some .lb else none) else none
  | 9 =>
    if isLane die then
      (if inst = 0 then some .fs else if inst = 1 then some .fm
       else if 256 ≤ inst && inst < 272 then some .fe else none)
    else none
  | 10 => if (die = 3 || die = 7) && inst < 2 then some .mc else none
  | 11 => if die = 8 && inst = 0 then some .sc else none
  | 12 =>
    if die = 8 then
      (if inst = 0 then some .cl else if inst = 8 then some .hd else if 16 ≤ inst && inst < 24 then some .mb
       else if inst = 32 then some .lk else if inst = 48 then some .ev else if inst = 64 then some .gv
       else if inst = 80 then some .ds else if inst = 96 then some .tb else none)
    else if die = 9 || die = 11 then
      (if inst = 256 then some .pc else if inst = 257 || inst = 258 then some .mbh else none)
    else none
  | 13 =>
    if die = 8 then
      (if inst = 0 then some .db else if inst = 1 then some .tr else if inst = 2 then some .wd
       else if 16 ≤ inst && inst < 20 then some .bk else none)
    else none
  | 14 =>
    if die = 8 && inst = 0 then some .kp else if isKeep die && inst = 0 then some .kd else none
  | 15 => if die < 15 && inst = 0 then some .st else none
  | _ => none

/-- Level of a page kind in PG_ID (01_package.md R25, R33): dies' functions 4, the hub's device functions 5, blocks 3. No
chapter states the level of a page the table of levels does not name (IO_, LB_, HD_, LK_, CL_, PC_, HP_, SU_, KD_, TR_, WD_,
BK_, ST_ and the others): DESIGN CHOICE (log 76). -/
def pageLevel (p : Page) : Nat :=
  match p with
  | .dmgr | .fp | .cd | .pd | .cf | .ax | .ic | .st | .io | .kd | .di => 4
  | .sq | .il | .rt | .qu | .er | .bb | .sd | .cu | .hp | .su | .sc | .cl | .hd | .lk | .ev | .gv | .ds | .tb
  | .db | .tr | .wd | .bk | .kp => 5
  | _ => 3

/-- Endpoints of router `r` of `die` (12_noc.md R294). -/
def endpoints (die r : Nat) : List Nat :=
  if isFabric die then
    let x := r % 8
    let y := r / 8
    [0, 1] ++ (if x % 2 = 1 then (if y = 2 then [2, 3] else [2, 3, 4]) else [])
      ++ (if x % 2 = 0 && y = 1 then [5] else [])
      ++ (if x = 3 && y = 1 then [5, 6, 7] else [])
      ++ (if (die = 3 && x = 7 || die = 7 && x = 0) && (y = 0 || y = 2) then [5] else [])
  else if die = 8 then (if r = 4 then [0, 1] else if r < 7 then [0] else [])
  else if isLane die then
    (if r < 2 then [0] else if die = 9 || die = 11 then [0, 1] else [1])
  else if isKeep die then (if r = 0 then [] else [0])
  else []

/-- Header values of a page (the chapter of each page; the die manager page has none stated, log 11). -/
def pageInfo (p : Page) (die blk : Nat) : PageInfo :=
  let inst := blk % 4096
  match p with
  | .dmgr => ⟨0x000, 0, 0, false, false, false, false⟩
  | .sq => ⟨0x001, 3, 0, false, false, false, false⟩
  | .il => ⟨0x002, 1, 0, false, false, false, false⟩
  | .rt => ⟨0x003, 2, 1, false, false, false, false⟩
  | .qu => ⟨0x004, 0, 0, false, false, false, false⟩
  | .di => ⟨0x005, 3, 1, false, false, false, false⟩
  | .er => ⟨0x006, 4, 2, false, false, false, false⟩
  | .bb => ⟨0x007, 2, 0, false, false, false, false⟩
  | .sd => ⟨0x008, 3, 4, false, false, false, false⟩
  | .io => ⟨0x010, 1, 3, false, false, false, false⟩
  | .nr => ⟨0x100, 5, 1 + 2 * (endpoints die inst).length, false, false, false, false⟩
  | .sm => ⟨0x200, 5, 1, false, false, true, false⟩
  | .cu => ⟨0x300, 4, 2, true, false, false, false⟩
  | .hp => ⟨0x301, 3, 0, false, false, false, false⟩
  | .fp => ⟨0x302, 3, 0, true, false, false, false⟩
  | .cd => ⟨0x303, 4, if (312 ≤ inst && inst < 316) || inst = 319 then 1 else 0, false, false, false, false⟩
  | .pd => ⟨0x400, 4, 1, false, false, false, true⟩
  | .su => ⟨0x410, 0, 1, false, false, false, false⟩
  | .cf => ⟨0x500, 4, 0, false, false, false, false⟩
  | .ax => ⟨0x501, 5, 1, false, false, false, false⟩
  | .ic => ⟨0x502, 4, 1, false, false, false, false⟩
  | .le => ⟨0x600, 5, 2, true, true, true, false⟩
  | .bg => ⟨0x700, 4, 0, false, false, false, false⟩
  | .dm => ⟨0x701, 4, 2, false, false, false, false⟩
  | .lq => ⟨0x800, 16, 20, true, false, false, false⟩
  | .lb => ⟨0x801, 5, 17, false, false, false, false⟩
  | .fs => ⟨0x900, 5, 2, false, false, false, false⟩
  | .fm => ⟨0x901, 3, 18, false, false, false, false⟩
  | .fe => ⟨0x902, 4, 27, true, false, false, false⟩
  | .mc => ⟨0xA00, 6, 3, false, false, false, false⟩
  | .sc => ⟨0xB00, 2, 0, false, false, false, false⟩
  | .cl => ⟨0xC00, 4, 0, false, false, false, false⟩
  | .hd => ⟨0xC08, 8, 0, false, false, false, false⟩
  | .mb => ⟨0xC10, 24, if inst < 21 then 16 else 8, false, false, false, false⟩
  | .mbh => ⟨0xC11, 24, 16, false, false, false, false⟩
  | .lk => ⟨0xC20, 0, 0, false, false, false, false⟩
  | .ev => ⟨0xC30, 1, 0, false, false, false, false⟩
  | .pc => ⟨0xC40, 4, 0, false, false, false, false⟩
  | .gv => ⟨0xC50, 3, 17, true, false, false, false⟩
  | .ds => ⟨0xC60, 6, 1, false, false, false, false⟩
  | .tb => ⟨0xC70, 3, 0, false, false, false, false⟩
  | .db => ⟨0xD00, 2, 0, false, false, false, false⟩
  | .tr => ⟨0xD01, 1, 0, false, false, false, false⟩
  | .wd => ⟨0xD02, 4, 1, false, false, false, false⟩
  | .bk => ⟨0xD10, 1, 0, false, false, false, false⟩
  | .kp => ⟨0xE00, 5, 0, false, false, false, false⟩
  | .kd => ⟨0xE01, 1, 0, false, false, false, false⟩
  | .st => ⟨0xF00, 1, 0, false, false, false, false⟩

/-- The event source a page drives (17_processors.md R462 and the page chapters), none for a page without events. -/
def pageSrc (p : Page) (die blk : Nat) : Option Nat :=
  let inst := blk % 4096
  let fl := fun (f l h : Nat) => if isFabric die then some (256 + 48 * die + f)
    else if isLane die then some (128 + 32 * (die - 9) + l) else some h
  match p with
  | .sq => some 1 | .il => some 2 | .er => some 3 | .bb => some 4 | .sd => some 5
  | .st => fl 7 19 6
  | .cu => some 8 | .hp => some 9
  | .cd => fl 0 0 10
  | .fp => some (256 + 48 * die)
  | .db => some 11 | .kp => some 12
  | .kd => some (if die = 13 then 13 else 14)
  | .wd => some 15
  | .nr => if isKeep die then some 18 else fl 5 1 16
  | .rt => some 17
  | .sm => if isKeep die then some 20 else fl 6 2 19
  | .di => some 21
  | .pd => fl 4 18 22
  | .bk => some 23 | .cl => some 24 | .hd => some 25
  | .mb => some (26 + (inst - 16))
  | .tr => some 34 | .ev => some 35 | .gv => some 36 | .ds => some 37 | .sc => some 38 | .tb => some 39
  | .cf => some (256 + 48 * die + 1)
  | .ax => some (256 + 48 * die + 2)
  | .ic => some (256 + 48 * die + 3)
  | .le => some (256 + 48 * die + 12 + inst / 72)
  | .bg => some (256 + 48 * die + 8)
  | .dm => some (256 + 48 * die + 9)
  | .mc => some (256 + 48 * die + 10 + inst)
  | .io => some (256 + 48 * die + 16)
  | .lb => some (128 + 32 * (die - 9) + 3)
  | .lq => some (128 + 32 * (die - 9) + 4 + inst)
  | .fs => some (128 + 32 * (die - 9) + 12)
  | .fm => some (128 + 32 * (die - 9) + 13)
  | .fe => some (128 + 32 * (die - 9) + 14)
  | .pc => some (128 + 32 * (die - 9) + 15)
  | .mbh => some (128 + 32 * (die - 9) + 16 + (inst - 257))
  | .dmgr | .qu | .su | .lk => none

/-- Class codes of R302: 0 CPU, 1 FABRIC, 2 LOOP, 3 FLOW, 4 DMA, 5 DEBUG. -/
def iniClass (ini : Nat) : Nat :=
  if ini < 5 then 0 else if ini = 5 then 4 else if ini = 6 then 5 else if ini < 10 then 4 else if ini = 10 then 0
  else if ini < 16 then 0 else if ini < 24 then 0 else if ini < 32 then 4 else if ini < 64 then 2 else if ini < 72 then 3
  else if ini < 74 then 4 else 1

/-- An initiator ID that R302 assigns. -/
def iniAssigned (ini : Nat) : Bool := ini < 11 || (16 ≤ ini && ini < 74) || (128 ≤ ini && ini < 512)

/-- Data links of a seam (12_noc.md R293): three on a ring seam, two on a spoke, six on a lane seam, one on a keep seam. -/
def seamLinks (seam : Nat) : Nat := if seam < 8 then 3 else if seam < 12 then 2 else if seam < 16 then 6 else 1

/-- KIND of a power domain (18_power.md R471). -/
def domKind (die i : Nat) : Nat :=
  if isFabric die then (if i < 16 then 0x08 else if i < 20 then 0x09 else if i = 20 then 0x0A else if i = 21 then 0x0B else 0x0C)
  else if die = 8 then i
  else if isLane die then (if i = 0 then 0x10 else if i = 1 then 0x11 else 0x12)
  else 0x18

/-- Wake limit of a domain kind in µs, 0 for a fixed domain (18_power.md R471, R472). -/
def wakeLimit (kind : Nat) : Nat :=
  match kind with
  | 0x03 => 50 | 0x04 => 20 | 0x05 => 20 | 0x08 => 50 | 0x09 => 50 | 0x0C => 70 | 0x11 => 50 | 0x12 => 50 | _ => 0

end Sys2Proof.Machine
end

