-- ==== Sys2Proof/Machine/Ops.lean ====
section
/-! DEFINITION. The named operations over tables, memory cells, register bits and registers. -/

namespace Sys2Proof.Machine

/-! ### Tables -/

/-- The value listed for `k`. -/
def tabGet {α : Type} (t : Tab α) (k : Nat) : Option α :=
  match t with
  | [] => none
  | (i, v) :: r => if i = k then some v else tabGet r k

/-- `t` with `v` listed for `k`, numbers still ascending. -/
def tabPut {α : Type} (t : Tab α) (k : Nat) (v : α) : Tab α :=
  match t with
  | [] => [(k, v)]
  | (i, w) :: r => if i = k then (k, v) :: r else if k < i then (k, v) :: (i, w) :: r else (i, w) :: tabPut r k v

/-- `t` with nothing listed for `k`. -/
def tabDel {α : Type} (t : Tab α) (k : Nat) : Tab α := t.filter fun e => e.1 != k

/-- The value for `k`, `d` where nothing is listed. -/
def tabOr {α : Type} (d : α) (t : Tab α) (k : Nat) : α := (tabGet t k).getD d

/-- `t` with the value of `k` set to `v`, nothing listed where `v` is the default `d`. -/
def tabPutD {α : Type} [DecidableEq α] (d : α) (t : Tab α) (k : Nat) (v : α) : Tab α :=
  if v = d then tabDel t k else tabPut t k v

/-- The numbers of a table ascend strictly. -/
def tabSorted {α : Type} (t : Tab α) : Bool :=
  match t with
  | [] => true
  | [_] => true
  | (i, _) :: (j, w) :: r => decide (i < j) && tabSorted ((j, w) :: r)

/-- `l` with `k` in it once. -/
def setAdd (l : List Nat) (k : Nat) : List Nat := if l.contains k then l else l ++ [k]

/-- `l` without `k`. -/
def setDel (l : List Nat) (k : Nat) : List Nat := l.filter fun i => i != k

/-! ### Memory: bytes by address; a byte nothing has written reads 0 (log 6) -/

/-- The byte at `a`. -/
def memGet (m : List Host.Cell) (a : Nat) : Byte := tabOr 0 m a

/-- `m` with `b` at `a`; a zero is not listed. -/
def memPut (m : List Host.Cell) (a : Nat) (b : Byte) : List Host.Cell := tabPutD 0 m a b

/-- The `n` bytes from `a`. -/
def memRead (m : List Host.Cell) (a n : Nat) : List Byte :=
  match n with
  | 0 => []
  | k + 1 => memGet m a :: memRead m (a + 1) k

/-- `m` with the bytes `bs` from `a`. -/
def memWrite (m : List Host.Cell) (a : Nat) (bs : List Byte) : List Host.Cell :=
  match bs with
  | [] => m
  | b :: r => memWrite (memPut m a b) (a + 1) r

/-- The canonical form of a memory: addresses ascend strictly and no byte listed is 0. -/
def memWf (m : List Host.Cell) : Bool := tabSorted m && m.all fun c => c.2 != 0

/-- Bytes of a number, least significant first (00_scope.md R7). -/
def toBytes (n v : Nat) : List Byte :=
  match n with
  | 0 => []
  | k + 1 => BitVec.ofNat 8 v :: toBytes k (v / 256)

/-- The number little-endian bytes spell. -/
def ofBytes (bs : List Byte) : Nat :=
  match bs with
  | [] => 0
  | b :: r => b.toNat + 256 * ofBytes r

/-! ### Bits -/

/-- `wid` bits of a number from bit `lsb`. -/
def nGet (n lsb wid : Nat) : Nat := n / 2 ^ lsb % 2 ^ wid

/-- Bit `i` of a number. -/
def nBit (n i : Nat) : Bool := n / 2 ^ i % 2 == 1

/-- Number with bit `i` set to `b`. -/
def nSet (n i : Nat) (b : Bool) : Nat :=
  n - (if nBit n i then 2 ^ i else 0) + (if b then 2 ^ i else 0)

/-- The field of `wid` bits at `lsb` of a word. -/
def wGet (w : Word) (lsb wid : Nat) : Nat := nGet w.toNat lsb wid

/-- `w` with the field of `wid` bits at `lsb` set to `v`. -/
def wPut (w : Word) (lsb wid v : Nat) : Word :=
  BitVec.ofNat 32 (w.toNat / 2 ^ (lsb + wid) * 2 ^ (lsb + wid) + v % 2 ^ wid * 2 ^ lsb + w.toNat % 2 ^ lsb)

/-- The bits `lsb` to `lsb + wid - 1`. -/
def wMask (lsb wid : Nat) : Word := BitVec.ofNat 32 ((2 ^ wid - 1) * 2 ^ lsb)

/-- A number of bits. -/
def ofBool (b : Bool) : Nat := if b then 1 else 0

/-- Signed reading of the low `n` bits. -/
def signed (n v : Nat) : Int := if v % 2 ^ n < 2 ^ (n - 1) then (v % 2 ^ n : Nat) else (v % 2 ^ n : Nat) - (2 ^ n : Nat)

/-- The indexes at which `f` holds, below `n`. -/
def bitsOf (n v : Nat) : List Nat := (List.range n).filter (nBit v)

/-- The number whose bits are the indexes listed. -/
def ofBits (l : List Nat) : Nat := l.eraseDups.foldl (fun n i => n + 2 ^ i) 0

/-! ### Register addresses -/

/-- Base of the page of block `blk` on `die`, as an offset in register space (01_package.md R32). -/
def pg (die blk : Nat) : Nat := die * 268435456 + blk * 4096
/-- Die of a register offset. -/
def regDie (a : Nat) : Nat := a / 268435456
/-- Block of a register offset. -/
def regBlk (a : Nat) : Nat := a / 4096 % 65536
/-- Offset in its page of a register offset. -/
def regOff (a : Nat) : Nat := a % 4096

/-- The register `i` further on of an indexed register. -/
def FieldRef.nth (f : FieldRef) (i : Nat) : FieldRef := { f with off := f.off + f.stride * i }
/-- The same field `d` bytes further on. -/
def FieldRef.plus (f : FieldRef) (d : Nat) : FieldRef := { f with off := f.off + d }

/-- Offset `e` beyond a register's base is one its indexes reach. -/
def inDims (dims : List (Nat × Nat)) (e : Nat) : Bool :=
  match dims with
  | [] => e == 0
  | (c, st) :: r => decide (e / st < c) && inDims r (e % st)

/-- The map of a page kind. -/
def pageMap (p : Page) : List RegDef :=
  match p with
  | .dmgr => []
  | .sq => sqMap | .il => ilMap | .rt => rtMap | .qu => quMap | .di => diMap | .er => erMap | .bb => bbMap | .sd => sdMap
  | .io => ioMap | .nr => nrMap | .sm => smMap | .cu => cuMap | .hp => hpMap | .fp => fpMap | .cd => cdMap | .pd => pdMap
  | .su => suMap | .cf => cfMap | .ax => axMap | .ic => icMap | .le => leMap | .bg => bgMap | .dm => dmMap | .lq => lqMap
  | .lb => lbMap | .fs => fsMap | .fm => fmMap | .fe => feMap | .mc => mcMap | .sc => scMap | .cl => clMap | .hd => hdMap
  | .mb => mbMap | .mbh => mbMap | .lk => lkMap | .ev => evMap | .gv => gvMap | .ds => dsMap | .tb => tbMap | .pc => pcMap
  | .db => dbMap | .tr => trMap | .wd => wdMap | .bk => bkMap | .kp => kpMap | .kd => kdMap | .st => stMap

/-- A register of a map that this page does not have (its chapter's condition): PG_VOTE without HAS_VOTE (R42), FP_OUT4
outside FPLL3 (03 R71), windows of absent endpoints (12 R333), AON and CORE registers of other PD_ pages (18 R490),
credit registers of absent links (13 R355), value registers of instruction comparators (22 R574). -/
def regAbsent (p : Page) (die blk off : Nat) : Bool :=
  let inst := blk % 4096
  if off = 0x028 then !(pageInfo p die blk).hasVote
  else
    match p with
    | .fp => off = 0x058 && inst != 3
    | .nr => 0x400 ≤ off && !(endpoints die inst).contains ((off - 0x400) / 256)
    | .sm => 0x080 ≤ off && decide (5 * seamLinks inst ≤ (off - 0x080) / 4)
    | .pd => 0x060 ≤ off && !(die = 8 && (inst = 0 || (inst = 1 && off = 0x060)))
    | .bk => decide (0x100 ≤ off) && decide (off < 0x200) && decide (0x10 ≤ (off - 0x100) % 0x20)
    | _ => false

/-- The definition a page has for the register at `off`. -/
def regDef (p : Page) (die blk off : Nat) : Option RegDef :=
  if regAbsent p die blk off then none
  else
    let m := if off < 64 then hdrMap else pageMap p
    let c := m.filter fun d => decide (d.off ≤ off) && inDims d.dims (off - d.off)
    match c with
    | [] => none
    | [d] => some d
    | d :: e :: _ => if p = .pd && die = 8 && blk % 4096 = 1 then some e else some d

/-- REF_DIV and FB_DIV of a PLL after reset (03_clocks.md R69, R71). -/
def pllDivs (die blk : Nat) : Nat × Nat := if die = 8 && blk != 0x3006 then (1, 32) else (2, 5)

/-- Divider of a fixed clock domain (03_clocks.md R72). -/
def cdDivider (k : Nat) : Nat :=
  match k with
  | 1 => 2 | 2 => 4 | 3 => 8 | 4 => 2 | 5 => 4 | 6 => 16 | 7 => 32 | 46 => 2 | 47 => 2 | 62 => 4
  | _ => if (24 ≤ k && k < 32) then 4 else if 36 ≤ k && k < 40 then 2 else 1

/-- A domain whose source can be selected (03_clocks.md R84). -/
def cdSelectable (k : Nat) : Bool := (56 ≤ k && k < 60) || k = 63

/-- Points 0 to 2 of a governor curve after reset: EN, TEMP, TOKENS (18_power.md R491). -/
def curveRst (i : Nat) : Nat :=
  match i with
  | 0 => 2 ^ 31 + 216 * 65536 + 2000
  | 1 => 2 ^ 31 + 95 * 65536 + 2000
  | 2 => 2 ^ 31 + 105 * 65536 + 400
  | _ => 0

/-- After reset values of the registers whose value differs by instance. -/
def rstFix (p : Page) (die blk off : Nat) (d : Nat) : Nat :=
  let inst := blk % 4096
  let i := pageInfo p die blk
  match off with
  | 0x000 => 2 ^ 27 + pageLevel p * 2 ^ 24 + inst * 4096 + i.type
  | 0x004 => i.retain * 65536 + i.evts * 256 + ofBool i.hasSrst * 8 + ofBool i.hasFreeze * 4 + ofBool i.hasShadow * 2
      + ofBool i.hasVote
  | 0x034 => 2 ^ i.retain - 1
  | _ =>
    match p with
    | .hp | .fp =>
      if off = 0x040 then
        d / 4096 * 4096 + (pllDivs die blk).1 * 256 + (pllDivs die blk).2 + (if p = .fp then 8192 else if blk = 0x3006 then 4096 else 0)
      else if off = 0x058 then 256 + (if Config.grade2 then 4 else 5) else d
    | .cd =>
      if off = 0x040 then
        (if inst - 256 = 63 then 2 * 256 + 8 else if cdSelectable (inst - 256) then 256 + 8 else cdDivider (inst - 256))
      else d
    | .gv => if 0x080 ≤ off && off < 0x0C0 then curveRst ((off - 0x080) / 4 % 8) else d
    | .pc => if off = 0x048 then Config.vendorId.toNat * 65536 + 8 else d
    | .mb =>
      let m := 8 * (inst - 16) + (off - 0x100) / 64
      if 40 ≤ m && 0x100 ≤ off && (off - 0x100) % 64 = 0x2C then 2 ^ 31 + 2 ^ 14 + (if m < 48 then 4 else 16 + m % 8) else d
    | .mbh => if 0x100 ≤ off && (off - 0x100) % 64 = 0x2C then 2 ^ 30 + (if die = 9 then 7 else 8) * 65536 + 3 * 16384 else d
    | _ => d

/-- The After reset value of the register at offset `a` of register space. -/
def regRst (a : Nat) : Word :=
  match pageOf (regDie a) (regBlk a) with
  | none => 0
  | some p =>
    match regDef p (regDie a) (regBlk a) (regOff a) with
    | none => 0
    | some d =>
      BitVec.ofNat 32 (rstFix p (regDie a) (regBlk a) (regOff a)
        (d.flds.foldl (fun n f => n + f.rst % 2 ^ f.wid * 2 ^ f.lsb) 0))

/-- The stored value of the register at offset `a`. -/
def getReg (s : State) (a : Nat) : Word := (tabGet s.pg.regs a).getD (regRst a)

/-- `s` with the register at offset `a` holding `w`. -/
def setReg (s : State) (a : Nat) (w : Word) : State :=
  { s with pg := { s.pg with regs := tabPutD (regRst a) s.pg.regs a w } }

/-- Field `f` of the page at `page`. -/
def getF (s : State) (page : Nat) (f : FieldRef) : Nat := wGet (getReg s (page + f.off)) f.lsb f.wid

/-- `s` with field `f` of the page at `page` set to `v`. -/
def putF (s : State) (page : Nat) (f : FieldRef) (v : Nat) : State :=
  setReg s (page + f.off) (wPut (getReg s (page + f.off)) f.lsb f.wid v)

/-- A one-bit field as a truth value. -/
def flag (s : State) (page : Nat) (f : FieldRef) : Bool := getF s page f == 1

/-- `s` with a one-bit field set to `b`. -/
def putFlag (s : State) (page : Nat) (f : FieldRef) (b : Bool) : State := putF s page f (ofBool b)

/-- A counter that stops at its greatest value, `n` added. -/
def countUp (s : State) (page : Nat) (f : FieldRef) (n : Nat) : State :=
  putF s page f (min (getF s page f + n) (2 ^ f.wid - 1))

/-- A counter that wraps, 1 added. -/
def countWrap (s : State) (page : Nat) (f : FieldRef) : State := putF s page f ((getF s page f + 1) % 2 ^ f.wid)

/-- A free value of `n` bits (log 5), and the state that has taken it. -/
def freeVal (s : State) (n : Nat) : Nat × State :=
  ((Config.freeValue s.freeIdx).toNat % 2 ^ n, { s with freeIdx := s.freeIdx + 1 })

/-- `s` with the answer to the last access: code of 12_noc.md R300 and data. -/
def answer (s : State) (code data : Nat) : State := { s with resp := { code := code, data := data } }

/-- A page whose block is enabled: PG_CTRL.ENABLE (02_register_pages.md R42). -/
def enabled (s : State) (page : Nat) : Bool := flag s page PG_CTRL_ENABLE

/-- A fault of the page, `code` (02_register_pages.md R47). -/
def pageFault (s : State) (page code : Nat) : State :=
  let s1 := countUp s page PG_FAULT_CNT_COUNT 1
  if flag s1 page PG_FAULT_VALID then s1 else putFlag (putF s1 page PG_FAULT_CODE code) page PG_FAULT_VALID true

/-! ### Pages by number -/

abbrev CU : Nat := pg 8 0x3000
abbrev SQ : Nat := pg 8 0x0001
abbrev IL : Nat := pg 8 0x0002
abbrev RT : Nat := pg 8 0x0003
abbrev QU : Nat := pg 8 0x0004
abbrev DI : Nat := pg 8 0x0005
abbrev ER : Nat := pg 8 0x0006
abbrev BB : Nat := pg 8 0x0007
abbrev SD : Nat := pg 8 0x0008
abbrev KP : Nat := pg 8 0xE000
abbrev SC : Nat := pg 8 0xB000
abbrev CL : Nat := pg 8 0xC000
abbrev HD : Nat := pg 8 0xC008
abbrev LK : Nat := pg 8 0xC020
abbrev EV : Nat := pg 8 0xC030
abbrev GV : Nat := pg 8 0xC040
abbrev DS : Nat := pg 8 0xC050
abbrev TB : Nat := pg 8 0xC060
abbrev DB : Nat := pg 8 0xD000
abbrev TR : Nat := pg 8 0xD001
abbrev WD : Nat := pg 8 0xD002
abbrev SU : Nat := pg 8 0x4010
/-- Page of PLL `j` of `die`; die 8: the hub PLLs (03_clocks.md R86). -/
def pllPage (die j : Nat) : Nat := if die = 8 then pg 8 (0x3001 + j) else pg die (0x3000 + j)
/-- Page of clock domain `k` (03_clocks.md R72). -/
def cdPage (k : Nat) : Nat := pg (cdDie k) (0x3100 + k)
def cfPage (die : Nat) : Nat := pg die 0x5000
def axPage (die : Nat) : Nat := pg die 0x5001
def icPage (die : Nat) : Nat := pg die 0x5002
def lePage (die eng : Nat) : Nat := pg die (0x6000 + eng)
def bgPage (die g : Nat) : Nat := pg die (0x7000 + g)
def dmPage (die j : Nat) : Nat := pg die (0x7100 + j)
def nrPage (die r : Nat) : Nat := pg die (0x1000 + r)
def smPage (die seam : Nat) : Nat := pg die (0x2000 + seam)
def lqPage (die j : Nat) : Nat := pg die (0x8000 + j)
def lbPage (die : Nat) : Nat := pg die 0x8100
def fsPage (die : Nat) : Nat := pg die 0x9000
def fmPage (die : Nat) : Nat := pg die 0x9001
def fePage (die k : Nat) : Nat := pg die (0x9100 + k)
def pdPage (die i : Nat) : Nat := pg die (0x4000 + i)
def ioPage (die a : Nat) : Nat := pg die (0x0010 + a)
def stPage (die : Nat) : Nat := pg die 0xF000
def bkPage (c : Nat) : Nat := pg 8 (0xD010 + c)
/-- Page of DDR channel `ch` (16_external_memory.md R444). -/
def mcPage (ch : Nat) : Nat := pg (if ch < 2 then 3 else 7) (0xA000 + ch % 2)
/-- Page of PCIe controller `pc` (17_processors.md R470). -/
def pcPage (pc : Nat) : Nat := pg (if pc = 0 then 9 else 11) 0xC100
/-- Page of mailbox `m`: 0 to 63 general, 64 + 16 × controller + number host (17_processors.md R452). -/
def mbPage (m : Nat) : Nat :=
  if m < 64 then pg 8 (0xC010 + m / 8) else pg (if m < 80 then 9 else 11) (0xC101 + (m - 64) % 16 / 8)

end Sys2Proof.Machine
end

