-- ==== Sys2Proof/Machine/Events.lean ====
section
/-! DEFINITION. Page events (02_register_pages.md R46), the event hub (17_processors.md R462, R463), the black-box queue
(20_errors.md R529, R530), error records (R510 to R513) and the security alarm (19_security.md R508). -/

namespace Sys2Proof.Machine

/-- Die `d` is isolated (13_seams.md R350): DI_STAT of the die is not JOINED. -/
def isolated (s : State) (d : Nat) : Bool := getF s DI (DI_STAT_STATE.nth d) != 0

/-- The pages that drive one event source together with the given page (the page chapters). -/
def peers (p : Page) (die blk : Nat) : List Nat :=
  let pages := fun (d base n : Nat) => (List.range n).map fun i => pg d (base + i)
  let hubKeep := [8, 13, 14]
  match p with
  | .hp => pages 8 0x3001 8
  | .fp => pages die 0x3000 4 ++ ((List.range 64).filter (cdDie · = die)).map cdPage
  | .cd =>
    if isFabric die then pages die 0x3000 4 ++ ((List.range 64).filter (cdDie · = die)).map cdPage
    else if isLane die then ((List.range 64).filter (cdDie · = die)).map cdPage
    else ((List.range 64).filter fun k => hubKeep.contains (cdDie k)).map cdPage
  | .nr => if isKeep die then pages 13 0x1000 3 ++ pages 14 0x1000 3 else pages die 0x1000 (routerCount die)
  | .sm => if isKeep die then [smPage 13 16, smPage 14 17] else (dieSeams die).map (smPage die)
  | .pd =>
    if isFabric die || isLane die then pages die 0x4000 (domCount die)
    else hubKeep.flatMap fun d => pages d 0x4000 (domCount d)
  | .st => if isFabric die || isLane die then [stPage die] else hubKeep.map stPage
  | .bk => (List.range 4).map bkPage
  | .le => pages die (0x6000 + blk % 4096 / 72 * 72) 72
  | .bg => pages die 0x7000 64
  | .dm => pages die 0x7100 32
  | .io => pages die 0x0010 (ioBanks die)
  | .fe => pages die 0x9100 16
  | _ => [pg die blk]

/-- The die an event source belongs to (17_processors.md R462). -/
def srcDie (src : Nat) : Nat := if src < 128 then 8 else if src < 256 then 9 + (src - 128) / 32 else (src - 256) / 48

/-- The time base coasts (03_clocks.md R79). -/
def coasting (s : State) : Bool := flag s TB TB_STAT_COAST

/-- An entry enters the recorder's queue of 64, or is counted lost (20_errors.md R530). -/
def bbPush (s : State) (src cls die kind p0 p1 : Nat) : State :=
  if s.err.queue.length < 64 then
    let e : BbEntry :=
      { time := s.hub.now, src := src, cls := cls, die := die, kind := kind, coast := coasting s, p0 := p0, p1 := p1 }
    { s with err := { s.err with queue := s.err.queue ++ [e] } }
  else countUp { s with err := { s.err with lostNow := s.err.lostNow + 1 } } BB BB_LOST_COUNT 1

/-- A marker of the recorder (20_errors.md R529). -/
def bbMarker (s : State) (code value : Nat) : State := bbPush s 0 0 8 3 code value

/-- Route word of a source (17_processors.md R463). -/
def route (s : State) (src word : Nat) : Nat := (tabOr 0 s.hub.routes (2 * src + word)).toNat

/-! ### System cores that wait for an interrupt, and the domain they lie in (17_processors.md R463, 18_power.md R471, R477) -/

/-- Key of domain `i` of `die`. -/
def domKey (die i : Nat) : Nat := 64 * die + i
/-- Domain `i` of `die`. -/
def domOf (s : State) (die i : Nat) : Domain := tabOr { } s.pow.doms (domKey die i)
/-- `s` with a domain set. -/
def setDom (s : State) (die i : Nat) (d : Domain) : State :=
  { s with pow := { s.pow with doms := tabPutD { } s.pow.doms (domKey die i) d } }

/-- A vote, an access or a hold reaches a domain: a drop in progress ends, a dropped domain begins to wake (R477, R479).
Nothing wakes in torpor (R481). -/
def domTouch (s : State) (die i : Nat) : State :=
  if s.pow.torpor then s
  else
    let d := domOf s die i
    match d.state with
    | 1 => setDom s die i { d with state := 0 }
    | 2 => setDom s die i { d with state := 3 }
    | _ => s

/-- System core `c`. -/
def hartOf (s : State) (c : Nat) : Hart := tabOr { } s.hub.harts c
/-- `s` with a system core set. -/
def setHart (s : State) (c : Nat) (h : Hart) : State :=
  { s with hub := { s.hub with harts := tabPutD { } s.hub.harts c h } }

/-- Machine external interrupt of core `c` (17_processors.md R463). -/
def coreIrq (s : State) (c : Nat) : Bool :=
  s.hub.pending.any fun x => x % 4 = c && getF s EV (EV_THRESH_LEVEL.nth c) < nGet (route s (x / 4) 0) 4 4

/-- Cores in WFI whose interrupt is high run on, and their domain is held again. -/
def wfiFollow (s : State) : State :=
  (List.range 4).foldl (fun s c =>
    if (hartOf s c).wfi && coreIrq s c then domTouch (setHart s c { hartOf s c with wfi := false }) 8 3 else s) s

/-- Core `c`, which runs, waits for an interrupt (RISC-V WFI). -/
def wfiEnter (s : State) (c : Nat) : State :=
  let h := hartOf s c
  if h.running && !h.halted then wfiFollow (setHart s c { h with wfi := true }) else s

/-- A core has a pending source: a dropped CLUSTER wakes, and WFI may end. -/
def coreStir (s : State) : State := wfiFollow (if (domOf s 8 3).state = 2 then domTouch s 8 3 else s)

/-- An event of source `src` reaches the hub; `pend` is PG_EVT_PEND of the page, `pulse`: the source is a pulse
(17_processors.md R463). -/
def hubEvent (s : State) (src pend : Nat) (pulse : Bool) : State :=
  let r0 := route s src 0
  let r1 := route s src 1
  let cores := if nGet r0 4 4 = 0 then [] else bitsOf 4 r0
  let h := s.hub
  let h := { h with pending := cores.foldl (fun l c => setAdd l (4 * src + c)) h.pending }
  let h := if pulse then { h with evtPulse := (bitsOf 8 (nGet r0 8 8)).foldl (fun t k => tabPut t k 100) h.evtPulse } else h
  let line := fun d => 64 * d + nGet r1 8 6
  let evi := (bitsOf 8 r1).foldl (fun t d => tabPutD 0 t (line d) (tabOr 0 t (line d) + 1)) h.evi
  let h := { h with evi := evi }
  let s := { s with hub := h }
  let s := if cores = [] then s else coreStir s
  if nBit r0 16 then bbPush s src 0 (srcDie src) 0 pend 0 else s

/-- The level of source `src` becomes `b`; a rising edge is an event. Sources of an isolated die read 0 (R462). -/
def srcLevel (s : State) (src pend : Nat) (b : Bool) : State :=
  let b := b && !isolated s (srcDie src)
  if b then
    if s.hub.levels.contains src then s
    else hubEvent { s with hub := { s.hub with levels := setAdd s.hub.levels src } } src pend false
  else { s with hub := { s.hub with levels := setDel s.hub.levels src } }

/-- A pulse of source `src`. -/
def srcPulse (s : State) (src : Nat) : State := if isolated s (srcDie src) then s else hubEvent s src 0 true

/-- A page with a bit in both PG_EVT_PEND and PG_EVT_EN drives its event output (02_register_pages.md R46). -/
def pageDrives (s : State) (page : Nat) : Bool :=
  (getReg s (page + 0x018) &&& getReg s (page + 0x014)) != 0

/-- The event output of a page follows PG_EVT_PEND and PG_EVT_EN. -/
def pageOut (s : State) (page : Nat) : State :=
  let die := regDie page
  let blk := regBlk page
  match pageOf die blk with
  | none => s
  | some p =>
    match pageSrc p die blk with
    | none => s
    | some src =>
      srcLevel s src (getReg s (page + 0x018)).toNat (pageDrives s page || (peers p die blk).any (pageDrives s))

/-- PG_EVT_PEND bit `n` of a page sets. -/
def evtPend (s : State) (page n : Nat) : State :=
  pageOut (setReg s (page + 0x018) (wPut (getReg s (page + 0x018)) n 1 1)) page

/-- The condition of event bit `n` becomes `b`: RAW follows, and its rising edge sets PEND. -/
def evtLevel (s : State) (page n : Nat) (b : Bool) : State :=
  let old := wGet (getReg s (page + 0x010)) n 1 == 1
  let s1 := setReg s (page + 0x010) (wPut (getReg s (page + 0x010)) n 1 (ofBool b))
  if b && !old then evtPend s1 page n else s1

/-- Event bit `n` pulses: RAW rises for one clock and PEND sets, unless RAW stands at 1 already. -/
def evtPulse (s : State) (page n : Nat) : State :=
  if wGet (getReg s (page + 0x010)) n 1 == 1 then s else evtPend s page n

/-- Several event bits pulse. -/
def evtPulses (s : State) (page : Nat) (ns : List Nat) : State := ns.foldl (fun s n => evtPulse s page n) s

/-- A report as R510 lays it out. -/
def report (s : State) (cls die src code info : Nat) : ErrRec :=
  { cls := cls, die := die, src := src, code := code, info := info, time := s.hub.now }

/-- FIRST and NEXT after an accepted report (20_errors.md R513). -/
def errPlace (s : State) (r : ErrRec) : State :=
  match s.err.first with
  | none => { s with err := { s.err with first := some r, handling := true } }
  | some f =>
    if r.cls ≤ f.cls then
      match s.err.next with
      | none => { s with err := { s.err with next := some r } }
      | some _ => countUp s ER ER_NEXT_LOST_COUNT 1
    else
      let s1 := if s.err.next.isSome then countUp s ER ER_NEXT_LOST_COUNT 1 else s
      { s1 with err := { s1.err with first := some { r with preempt := true }, next := some f } }

/-- What the error unit does with any report: records it, counts it, raises its event and enters it in the black box
(20_errors.md R511, R513). -/
def errRecord (s : State) (cls die src code info : Nat) : State :=
  let s := errPlace s (report s cls die src code info)
  let s := countUp s ER (ER_CNT_COUNT.nth cls) 1
  let s := bbPush s src cls die 1 code info
  evtPulse s ER cls

/-- The security alarm latches source bit `b` (19_security.md R508). -/
def alarm (s : State) (b die ini : Nat) : State :=
  let s := putF s SC SC_ALARM_SRC (ofBits (b :: bitsOf 6 (getF s SC SC_ALARM_SRC)))
  let s := putFlag s SC SC_ALARM_ALARM true
  let s := countUp s SC SC_ALARM_CNT_COUNT 1
  let s := { s with sec := { s.sec with alarms := min (s.sec.alarms + 1) (2 ^ 32 - 1) } }
  let s := bbPush s 38 0 die 2 b ini
  let s := if flag s SC SC_ALARM_FIRST_VALID then s
    else putFlag (putF (putF (putF s SC SC_ALARM_FIRST_BIT b) SC SC_ALARM_FIRST_DIE die) SC SC_ALARM_FIRST_ID ini)
      SC SC_ALARM_FIRST_VALID true
  evtPulse s SC 0

/-- Level of the ALARM_N pin: low while a source bit is set (19_security.md R508). -/
def alarmN (s : State) : Bool := getF s SC SC_ALARM_SRC == 0

/-- Level of EVT_OUT[k] (17_processors.md R463). -/
def evtOut (s : State) (k : Nat) : Bool :=
  let lvl := s.hub.levels.any fun src => nBit (route s src 0) (8 + k)
  (lvl || (tabGet s.hub.evtPulse k).isSome) != nBit (getF s EV EV_PINPOL_POL) k

/-- A passing audit of ledger `k` (20_errors.md R528). -/
def auditPass (s : State) (k : Nat) : State := countWrap s ER (ER_AUDIT_COUNT.nth k)

end Sys2Proof.Machine
end

