-- ==== Sys2Proof/Machine/FabOps.lean ====
section
/-! DEFINITION. The fabric as its frames describe it (07_fabric.md R155 to R171, R184) and the code of every memory of the
device (08_memories.md R196). -/

namespace Sys2Proof.Machine

/-! ### The SEC-DED code (08_memories.md R196) -/

/-- Set bits of an eight-bit number. -/
def weight (n : Nat) : Nat := (bitsOf 8 n).length

/-- Columns of data bits 0 to 63. -/
def eccCols : List Nat :=
  (List.range 256).filter (weight · = 3) ++ ((List.range 256).filter (weight · = 5)).take 8

/-- Check bits of 64 data bits. -/
def eccCheck (d : Nat) : Nat := (bitsOf 64 d).foldl (fun c i => c ^^^ eccCols.getD i 0) 0

/-- What the code finds in a word. -/
inductive EccResult where
  | clean
  | corrected (data : Nat)
  | uncorrectable
  deriving DecidableEq, Repr

/-- Decoding of data and stored check bits by the syndrome. -/
def eccDecode (data check : Nat) : EccResult :=
  let syn := eccCheck data ^^^ check
  if syn = 0 then .clean
  else if weight syn = 1 then .corrected data
  else
    let i := eccCols.findIdx (· == syn)
    if i < 64 then .corrected (data ^^^ 2 ^ i) else .uncorrectable

/-- A 72-bit word with data in bits 63 to 0 and check bits above. -/
def eccWord (d : Nat) : BitVec 72 := BitVec.ofNat 72 (eccCheck d * 2 ^ 64 + d % 2 ^ 64)

/-- Data of such a word after correction, and whether it was clean, corrected (1) or uncorrectable (2). -/
def eccRead (w : BitVec 72) : Nat × Nat :=
  let d := w.toNat % 2 ^ 64
  match eccDecode d (w.toNat / 2 ^ 64) with
  | .clean => (d, 0)
  | .corrected x => (x, 1)
  | .uncorrectable => (d, 2)

/-! ### Columns and what stands beside them (R155, R156, R189) -/

/-- First logic column of band `k`. -/
def bandFirst (k : Nat) : Nat := if k < 15 then 47 * k else if k = 15 then 704 else 750
/-- Band of logic column `c`. -/
def bandOf (c : Nat) : Nat := if c < 658 then c / 47 else if c < 704 then 14 else 15
/-- The logic column just west of bank memory `b`. -/
def bankCol (b : Nat) : Nat := bandFirst (b / 128) + 10 * (b % 128 / 32) + 9
/-- The logic column just west of loop engine `e`. -/
def engCol (e : Nat) : Nat := bandFirst (4 * (e / 72) + e % 72 / 24 + 1) - 1
/-- The logic column just west of deep memory `j`. -/
def deepCol (j : Nat) : Nat := bandFirst (4 * (j / 8) + 4) - 1
/-- The logic column of fabric NoC port `p`. -/
def portCol (p : Nat) : Nat := bandFirst (p / 3)
/-- The tile row of fabric NoC port `p`. -/
def portRow (p : Nat) : Nat := 80 + 160 * (p % 3)

/-- First row and height of a bank memory, a loop engine and a deep memory (R156). -/
def bankRows (b : Nat) : Nat × Nat := (15 * (b % 32), 15)
@[inherit_doc bankRows] def engRows (e : Nat) : Nat × Nat := (20 * (e % 24), 20)
@[inherit_doc bankRows] def deepRows (j : Nat) : Nat × Nat := (60 * (j % 8), 60)

/-! ### Frames -/

/-- Key of the edges a network has had since the release of an extent: a partition, or 64 for the static region (R177). -/
def relKey (die ext net : Nat) : Nat := (128 * die + ext) * 128 + net

/-- The release of an extent begins: no network has had an edge since (R177). -/
def relBegin (s : State) (die ext : Nat) : State :=
  { s with fab := { s.fab with relEdges := s.fab.relEdges.filter fun e => e.1 / 128 != 128 * die + ext } }

/-- Key of frame `a` of `die`. -/
def cfgKey (die a : Nat) : Nat := die * 1048576 + a
/-- Stored content of a configuration frame of target 0x01. -/
def cfgGet (s : State) (die a : Nat) : Frame := tabOr 0 s.load.cfg (cfgKey die a)
/-- A frame as upsets leave it (R166). -/
def cfgSeen (s : State) (die a : Nat) : Frame := cfgGet s die a ^^^ tabOr 0 s.fab.upset (cfgKey die a)
/-- `s` with a configuration frame written; a write sets every bit, so upsets of the frame end (R172). -/
def cfgPut (s : State) (die a : Nat) (f : Frame) : State :=
  { s with load := { s.load with cfg := tabPutD 0 s.load.cfg (cfgKey die a) f },
           fab := { s.fab with upset := tabDel s.fab.upset (cfgKey die a) } }

/-- `wid` bits of a frame from bit `lsb`. -/
def frGet (f : Frame) (lsb wid : Nat) : Nat := (f >>> lsb).toNat % 2 ^ wid

/-- Bit `v` of the tile vector of tile (c, t) (R169). -/
def tileBit (s : State) (die c t v : Nat) : Bool := (cfgSeen s die (400 * c + v / 4)).getLsbD (4 * t + v % 4)

/-- `wid` bits of the tile vector from bit `v`. -/
def tileField (s : State) (die c t v wid : Nat) : Nat := ofBits ((List.range wid).filter fun i => tileBit s die c t (v + i))

/-- Clock select and enable of a fabric NoC port (R189). -/
def portClk (s : State) (die p : Nat) : Nat := frGet (cfgGet s die 0x53912) (8 * p) 8
/-- The port is enabled. -/
def portOn (s : State) (die p : Nat) : Bool := nBit (portClk s die p) 7

/-- Base of the field of flip-flop `f` in the tile vector (R158, R159). -/
def ffBase (f : Nat) : Nat := 512 + 32 * (f / 2) + (if f % 2 = 0 then 6 else 17)

/-- Clock network of CLKA (`b` false) or CLKB of a tile: 0 to 31 GCK, 32 + i BCKi, none (R169). -/
def netOfSel (band sel : Nat) : Option Nat :=
  if sel < 32 then some sel else if sel < 36 then some (32 + 4 * band + (sel - 32)) else none

/-- INIT bits of the CAPTURE frame 4c + m: bit 4t + i is INIT of flip-flop 4m + i of tile (c, t) (R158, R184). The bits
lie in two LOGIC frames for each flip-flop, at the same tile rows. -/
def initFrame (s : State) (die c m : Nat) : Frame :=
  (List.range 4).foldl (fun f i =>
    let v := ffBase (4 * m + i) + 2
    let src := cfgGet s die (400 * c + v / 4)
    (List.range 480).foldl (fun f t => if src.getLsbD (4 * t + v % 4) then f ||| (BitVec.ofNat 2048 1 <<< (4 * t + i)) else f) f) 0

/-- Key of CAPTURE frame `n` of `die`. -/
def capKey (die n : Nat) : Nat := die * 4096 + n
/-- Present flip-flop values of CAPTURE frame `n`. -/
def ffGet (s : State) (die n : Nat) : Frame := tabOr 0 s.fab.ff (capKey die n)
/-- `s` with the flip-flop values of CAPTURE frame `n` set. -/
def ffPut (s : State) (die n : Nat) (f : Frame) : State :=
  { s with fab := { s.fab with ff := tabPutD 0 s.fab.ff (capKey die n) f } }

/-- Initial-value load of columns `lo` to `hi` (R175): columns whose LOGIC frames and flip-flops are all zero keep zero. -/
def initLoad (s : State) (die lo hi : Nat) : State :=
  let cols := (List.range (hi + 1 - lo)).map (· + lo)
  let live := cols.filter fun c =>
    s.load.cfg.any (fun e => cfgKey die (400 * c) ≤ e.1 && decide (e.1 < cfgKey die (400 * c + 400))) ||
    s.fab.ff.any (fun e => capKey die (4 * c) ≤ e.1 && decide (e.1 < capKey die (4 * c + 4)))
  live.foldl (fun s c => (List.range 4).foldl (fun s m => ffPut s die (4 * c + m) (initFrame s die c m)) s) s

/-- Flip-flop values of every die take their initial values (04_start.md R105). -/
def initLoadAll (s : State) : State := (List.range 8).foldl (fun s d => initLoad s d 0 749) s

/-! ### Driver frames (R164, R165, R170) and contention (R129) -/

/-- The fields of a driver frame: width of a field, fields in the frame that name a wire, and the enable bits a field
has. -/
def driverShape (a : Nat) : Option (Nat × Nat × Nat) :=
  if 0x50000 ≤ a && a < 0x50B04 then some (4, 512, 4)
  else if 0x51000 ≤ a && a < 0x51AFC then some (4, 512, 4)
  else if a = 0x51AFC then some (4, 256, 4)
  else if 0x52000 ≤ a && a < 0x5203C then some (32, 64, 30)
  else if 0x52100 ≤ a && a < 0x5215D then some (32, 64, 30)
  else if a = 0x5215D then some (32, 48, 30)
  else none

/-- At most one bit of the low `n` bits of `v` is set. -/
def oneHot (n v : Nat) : Bool := (bitsOf n v).length ≤ 1

/-- The contention check of a driver frame (R129, R170): the first field that it rejects. -/
def contention (a : Nat) (f : Frame) : Option Nat :=
  match driverShape a with
  | none => none
  | some (w, n, en) =>
    (List.range (2048 / w)).find? fun i =>
      let v := frGet f (w * i) w
      !(oneHot w v) || en < w && v / 2 ^ en != 0 || n ≤ i && v != 0

/-- The driver a wire takes its value from: the enabled one of lowest index (R166), none at a keeper (R165). -/
def driverOf (n v : Nat) : Option Nat := (bitsOf n v).head?

/-! ### Cells (R157 to R162) -/

/-- FOUT and HOUT of a cell: mask, LUT_MODE and inputs I0 to I5 as bits of `i`. -/
def cellOut (mask mode i : Nat) : Bool × Bool :=
  let l := nBit mask (i % 32)
  let u := nBit mask (32 + i % 32)
  let six := if nBit i 5 then u else l
  match mode with
  | 1 => (u, l)
  | 2 => (six, l)
  | _ => (six, false)

/-- Carry out of a cell (R161). -/
def carryOut (mode : Nat) (fout hout ci : Bool) : Bool :=
  match mode with
  | 1 => hout || (fout && ci)
  | 2 => ci && fout
  | 3 => ci || fout
  | _ => ci

/-- The output of a cell that FOUT_SEL chooses: FOUT or S (R160, R161). -/
def cellFirst (fsel : Bool) (fout ci : Bool) : Bool := if fsel then fout != ci else fout

/-- D of a flip-flop: FOUT, HOUT, S or BYP (R158). -/
def ffData (sel : Nat) (fout hout ci byp : Bool) : Bool :=
  match sel with
  | 0 => fout
  | 1 => hout
  | 2 => fout != ci
  | _ => byp

/-- The line of a flip-flop's set/reset: bit of SR0 and SR1 in `sr` (R158). -/
def ffLine (w sr : Nat) : Bool := nBit sr (nGet w 6 1)

/-- Q that an asynchronous set/reset forces while its line is high (R159): field `w` of R158. -/
def ffAsync (w sr : Nat) (q : Bool) : Bool := if nGet w 3 2 = 2 && ffLine w sr then nBit w 5 else q

/-- Q of a flip-flop after an active edge (R159): field `w` of R158, the lines SR0, SR1 (bits 0, 1 of `sr`) and CE0 to CE3
(bits of `ce`), D and the present Q. -/
def ffEdge (w sr ce : Nat) (d q : Bool) : Bool :=
  let mode := nGet w 3 2
  let sel := nGet w 7 3
  let on := if 1 ≤ sel && sel ≤ 4 then nBit ce (sel - 1) else true
  if (mode = 1 || mode = 2) && ffLine w sr then nBit w 5 else if on then d else q

/-- Carry into cell 0 of a tile (R162). -/
def carryIn (src : Nat) (below byp0 : Bool) : Bool :=
  match src with
  | 0 => below
  | 1 => false
  | 2 => true
  | _ => byp0

end Sys2Proof.Machine
end

