-- ==== Sys2Proof/Machine/PartView.lean ====
section
/-! DEFINITION. Partitions as every chapter sees them: table entries, states, and who owns a column (09_partitions.md R217,
R218, R221). -/

namespace Sys2Proof.Machine

/-- Codes of R221. -/
abbrev pAbsent : Nat := 0
@[inherit_doc pAbsent] abbrev pOff : Nat := 1
@[inherit_doc pAbsent] abbrev pHeld : Nat := 2
@[inherit_doc pAbsent] abbrev pFenced : Nat := 3
@[inherit_doc pAbsent] abbrev pLive : Nat := 4
@[inherit_doc pAbsent] abbrev pLoading : Nat := 5

/-- Table entry of partition `n`. -/
def partEntry (s : State) (n : Nat) : Option PartEntry := s.part.parts.find? (·.no == n)
/-- Entries of a die. -/
def dieParts (s : State) (die : Nat) : List PartEntry := s.part.parts.filter (·.die == die)

/-- STATE of partition `n` as its die's page shows it. -/
def partStateOn (s : State) (die n : Nat) : Nat := getF s (icPage die) (IC_PSTAT_STATE.nth n)
/-- STATE of partition `n`. -/
def partState (s : State) (n : Nat) : Nat :=
  match partEntry s n with
  | none => pAbsent
  | some e => partStateOn s e.die n

/-- The partition of a die whose extent holds logic column `c`; none: the static region (R218). -/
def ownerAt (s : State) (die c : Nat) : Option PartEntry :=
  (dieParts s die).find? fun e => e.cFirst ≤ c && decide (c ≤ e.cLast)

/-- What stands at column `c` is released: its partition LIVE, or the static region on. -/
def releasedAt (s : State) (die c : Nat) : Bool :=
  match ownerAt s die c with
  | some e => partStateOn s die e.no = pLive
  | none => s.fab.staticOn.contains die

/-- What stands at column `c` is held in reset (R221, 07_fabric.md R176). -/
def heldAt (s : State) (die c : Nat) : Bool :=
  match ownerAt s die c with
  | some e => partStateOn s die e.no != pFenced && partStateOn s die e.no != pLive
  | none => !s.fab.staticOn.contains die

end Sys2Proof.Machine
end

