-- ==== Sys2Proof/Machine/PowerOps.lean ====
section
/-! DEFINITION. Power domains, votes, holders' tokens and descriptor completion (18_power.md R471 to R489) as operations
other chapters use. -/

namespace Sys2Proof.Machine

/-! ### Domains -/

/-- A domain exists and can be dropped (R472). -/
def droppable (die i : Nat) : Bool := i < domCount die && wakeLimit (domKind die i) != 0

/-- Bit `client` of PG_VOTE of a domain set or withdrawn (R49, R477). -/
def voteSet (s : State) (die i client : Nat) (b : Bool) : State :=
  if i < domCount die then
    let a := pdPage die i + 0x028
    let s := setReg s a (wPut (getReg s a) client 1 (ofBool b))
    if b && droppable die i then domTouch s die i else s
  else s

/-- The domain that holds the block registers of a page, where it can be dropped (R471, R599). -/
def pageDomain (p : Page) (die blk : Nat) : Option Nat :=
  let inst := blk % 4096
  match p with
  | .bg => some (inst / 4)
  | .dm => some (4 * ((inst - 256) / 8) + 3)
  | .le => some (16 + inst / 72)
  | .fs | .fm | .fe => some 1
  | .lq => some (2 + inst)
  | .hd => some 4
  | .db | .tr => some 5
  | .bk => some 3
  | _ => none

/-! ### Clock gates (03_clocks.md R82, R83) -/

/-- The gate of domain `k` opens, or its request ends, for an access that waits (R83). -/
def cdReopen (s : State) (k : Nat) : State :=
  let page := cdPage k
  if flag s page CD_GATE_GATE_REQ then
    let s := putFlag (putFlag (putFlag s page CD_GATE_GATE_REQ false) page CD_STAT_GATED false) page CD_STAT_QUIESCING false
    let s : State := { s with clk := { s.clk with gateWait := setDel s.clk.gateWait k } }
    let s := if flag s page CD_STAT_SWITCHING then s else { s with clk := { s.clk with cdEff := tabDel s.clk.cdEff k } }
    evtPulse s page 3
  else s

/-- The gate of domain `k` is closed: nothing its clock drives moves. -/
def gateShut (s : State) (k : Nat) : Bool := flag s (cdPage k) CD_STAT_GATED

/-- The domain that clocks the routers of a die re-opens for what passes them (R72): the NoC of a fabric die and of the hub,
the routers of a lane or keep die. -/
def nocClock (s : State) (die : Nat) : State :=
  if isFabric die then cdReopen s (8 + die) else if die = 8 then cdReopen s 4
  else if isLane die then cdReopen s (32 + die - 9) else cdReopen s (44 + die - 13)

/-! ### Halts and trace (22_debug.md R563, R571) -/

/-- A halt is asked of the system cores of `cores` with CAUSE `cause` (22_debug.md R563): of those that run. -/
def haltAsk (s : State) (cores cause : Nat) : State :=
  let ask := (bitsOf 4 cores).filter fun c =>
    let h := (tabOr { } s.hub.harts c : Hart)
    h.running && !h.halted && !s.dbg.haltReq.contains (c, cause)
  { s with dbg := { s.dbg with haltReq := s.dbg.haltReq ++ ask.map fun c => (c, cause) } }

/-- An entry enters the trace's input queue of 256, or is counted lost (22_debug.md R571). -/
def tracePush (s : State) (kind src data : Nat) : State :=
  if !flag s TR TR_CFG_EN || (domOf s 8 5).state != 0 then s
  else if s.dbg.traceQ.length < 256 then
    let e : TraceEnt := { time := s.hub.now % 2 ^ 48, kind := kind, src := src, data := data }
    { s with dbg := { s.dbg with traceQ := s.dbg.traceQ ++ [e] } }
  else { s with dbg := { s.dbg with traceLost := s.dbg.traceLost + 1 } }

/-- A HALT (5) or RESUME (6) entry of a traced core. -/
def traceCore (s : State) (c kind data : Nat) : State :=
  if nBit (getF s TR TR_CFG_CORES) c then tracePush s kind c data else s

/-! ### Tokens (R484) -/

/-- Descriptor `d`. -/
def descOf (s : State) (d : Nat) : Desc := tabOr { } s.pow.desc d
/-- `s` with descriptor `d` set. -/
def setDesc (s : State) (d : Nat) (x : Desc) : State :=
  { s with pow := { s.pow with desc := tabPutD { } s.pow.desc d x } }

/-- Fields of a descriptor (R486). -/
def Desc.kind (x : Desc) : Nat := wGet x.w0 0 2
@[inherit_doc Desc.kind] def Desc.prio (x : Desc) : Nat := wGet x.w0 2 6
@[inherit_doc Desc.kind] def Desc.cost (x : Desc) : Nat := wGet x.w0 8 11
@[inherit_doc Desc.kind] def Desc.target (x : Desc) : Nat := wGet x.w1 0 16
@[inherit_doc Desc.kind] def Desc.die (x : Desc) : Nat := if x.kind = 2 then 8 else x.target % 16
@[inherit_doc Desc.kind] def Desc.eng (x : Desc) : Nat := x.target / 16 % 512
@[inherit_doc Desc.kind] def Desc.vec (x : Desc) : Nat := x.target / 8192
@[inherit_doc Desc.kind] def Desc.arg (x : Desc) : Nat := wGet x.w2 0 24

/-- Tokens held over all ISSUED descriptors. -/
def heldSum (s : State) : Nat := s.pow.desc.foldl (fun n e => if e.2.state = 2 then n + e.2.held else n) 0

/-- Every revocation and throttle ends (R485: DEBT has reached 0). -/
def revokesEnd (s : State) : State :=
  let f := fun (e : Nat × Desc) => (e.1, { e.2 with revoked := false, throttled := false })
  { s with pow := { s.pow with desc := s.pow.desc.map f } }

/-- `n` tokens return: debt retires first, the remainder becomes FREE (R484). -/
def tokensBack (s : State) (n : Nat) : State :=
  let r := min n s.pow.debt
  let retire := GV_MINT_COUNT.plus 4
  let s := putF s GV retire ((getF s GV retire + r) % 2 ^ 32)
  let p := { s.pow with pool := s.pow.pool - r, debt := s.pow.debt - r, free := s.pow.free + (n - r) }
  let s : State := { s with pow := p }
  if s.pow.debt = 0 then revokesEnd s else s

/-! ### Completion (R486 to R488) -/

/-- Events CQ and MQ0 to MQ3 follow their queues (R492). -/
def dsEvents (s : State) : State :=
  let s := evtLevel s DS 0 (s.pow.cq != [])
  (List.range 4).foldl (fun s c => evtLevel s DS (c + 1) (tabOr [] s.pow.mq c != [])) s

/-- The domain the dispatcher votes on for a descriptor: die and index (R486). -/
def Desc.dom (x : Desc) : Option (Nat × Nat) :=
  match x.kind with
  | 0 => some (x.die, 16 + x.eng / 72)
  | 2 => some (8, 3)
  | _ => none

/-- Vote client 15 of a domain follows the ISSUED descriptors that need it. -/
def dispatcherVote (s : State) (dom : Option (Nat × Nat)) : State :=
  match dom with
  | none => s
  | some (die, i) => voteSet s die i 15 (s.pow.desc.any fun e => e.2.state = 2 && e.2.dom = some (die, i))

/-- An entry reaches the completion queue, or is counted where it is full (R488). -/
def cqPush (s : State) (d status : Nat) : State :=
  if s.pow.cq.length < 4096 then dsEvents { s with pow := { s.pow with cq := s.pow.cq ++ [(d, status)] } }
  else evtPulse (countUp s DS DS_CQ_OVF_COUNT 1) DS 5

/-- Descriptor `d` completes with `status` (R488). -/
def descDone (s : State) (d status : Nat) : State :=
  let x := descOf s d
  let s := setDesc s d { x with state := 3, status := status, held := 0, revoked := false, throttled := false }
  let s := tokensBack s x.held
  let s := dispatcherVote s x.dom
  cqPush s d status

end Sys2Proof.Machine
end

