-- ==== Sys2Proof/Machine/KeepOps.lean ====
section
/-! DEFINITION. Operations of the Keep controller that other chapters use: units and their wear (06_keep.md R134, R149,
R150), the settings journal (R143 to R148), the merge buffer of the user area (R151) and mirrored records (R136, R139). -/

namespace Sys2Proof.Machine

/-! ### Units -/

/-- Key of unit `u` of keep die `die` in the tables of the Keep. -/
def unitKey (die u : Nat) : Nat := die * 1048576 + u

/-- Die and unit on the die of unit `u` of a striped region whose per-die part starts at `mib` (R136, R137). -/
def striped (mib u : Nat) : Nat × Nat := (13 + u % 2, mib * 256 + u / 2)

/-- Per-die offsets of regions in MiB (R137). -/
def slotMib (slot : Nat) : Nat := 8 + 640 * (slot - 1)
@[inherit_doc slotMib] def bufMib (b : Nat) : Nat := 1928 + 48 * b

/-- A keep die can be reached: it is not isolated (13_seams.md R352), nor did its management path fail to train in this
start (03_clocks.md R67, 04_start.md R600). -/
def keepReach (s : State) (die : Nat) : Bool :=
  !isolated s die && !(if die = 13 then s.start.k0Lost else s.start.k1Lost)

/-- A records-area unit (R139): per-die offset 4 MiB. -/
def recUnit (u : Nat) : Nat := 1024 + u

/-- A unit at its limit with no spare to take its place: read-only (R150). -/
def unitReadOnly (s : State) (die u : Nat) : Bool :=
  tabOr 0 s.keep.wear (unitKey die u) = 100000 && getF s (pg die 0xE000) KD_FREE_FREE = 0

/-- A unit holds more bit errors than the internal code corrects (R135). -/
def unreadable (s : State) (die u : Nat) : Bool := 40 < tabOr 0 s.keep.bitErr (unitKey die u)

/-- A read of a unit that needs correction counts in KD_CORR (R135, R153). -/
def unitRead (s : State) (die u : Nat) : State :=
  let e := tabOr 0 s.keep.bitErr (unitKey die u)
  if e = 0 || 40 < e then s else countUp s (pg die 0xE000) KD_CORR_CORR 1

/-- Bit errors of units as (die, unit on the die, number), found from now on (R135). -/
def errsMark (s : State) (errs : List (Nat × Nat × Nat)) : State :=
  let mark := fun (t : Tab Nat) (x : Nat × Nat × Nat) =>
    if x.2.2 = 0 then tabDel t (unitKey x.1 x.2.1) else tabPut t (unitKey x.1 x.2.1) x.2.2
  { s with keep := { s.keep with bitErr := errs.foldl mark s.keep.bitErr } }

/-- The units of a Keep slot that hold `len` bytes at `off` of the image are read; false: one of them is unreadable (06_keep.md
R135; 04_start.md R600). A unit that needs correction counts with the bytes that begin it. -/
def slotRead (s : State) (off len : Nat) : State × Bool :=
  let us := (List.range ((off + len + 4095) / 4096 - off / 4096)).map (· + off / 4096)
  let place := striped (slotMib s.start.slot)
  let ok := us.all fun u => !unreadable s (place u).1 (place u).2 &&
    !(if (place u).1 = 13 then s.start.k0Lost else s.start.k1Lost)
  (us.foldl (fun s u => if off ≤ 4096 * u then unitRead s (place u).1 (place u).2 else s) s, ok)

/-- The highest write counter of any unit of a die in use (R153). -/
def maxWear (s : State) (die : Nat) : Nat :=
  (s.keep.wear.filter fun e => e.1 / 1048576 = die).foldl (fun m e => max m (min e.2 100000)) 0

/-- Entry `i` of the remap table of a die is programmed in the system area of both keep dies that can be reached, entries of
8 bytes in order (R137, R149; log 80). These units take at most 512 entries each, so none of them is ever retired. -/
def remapEntry (s : State) (die i : Nat) : State :=
  let u := 1 + (259072 * (die - 13) + i) / 512
  let one := fun (s : State) (d : Nat) =>
    if keepReach s d then
      let s := { s with keep := { s.keep with wear := tabPut s.keep.wear (unitKey d u) (tabOr 0 s.keep.wear (unitKey d u) + 1) } }
      putF s (pg d 0xE000) KD_MAXWR_MAXWR (maxWear s d)
    else s
  one (one s 13) 14

/-- The journal freezes (R150): open windows close without records and their pages set RETAIN_STALE. -/
def journalFreeze (s : State) : State :=
  if flag s KP KP_STAT_FROZEN then s
  else
    let s1 := s.keep.windows.foldl (fun s p => putFlag s p PG_STAT_RETAIN_STALE true) s
    let s2 := { s1 with keep := { s1.keep with windows := [] } }
    evtPulse (putFlag s2 KP KP_STAT_FROZEN true) KP 0

/-- One program of a unit: its write counter rises, and a counter that reaches 100,000 retires the unit to a spare where
one is free (R134, R149). -/
def programUnit (s : State) (die u : Nat) : State :=
  let page := pg die 0xE000
  let n := tabOr 0 s.keep.wear (unitKey die u) + 1
  let s := { s with keep := { s.keep with bitErr := tabDel s.keep.bitErr (unitKey die u) } }
  let s1 := putF s page KD_MAXWR_MAXWR (max (getF s page KD_MAXWR_MAXWR) (min n 100000))
  if n < 100000 then { s1 with keep := { s1.keep with wear := tabPut s1.keep.wear (unitKey die u) n } }
  else
    let free := getF s1 page KD_FREE_FREE
    if free = 0 then { s1 with keep := { s1.keep with wear := tabPut s1.keep.wear (unitKey die u) 100000 } }
    else
      let spare := 3084 * 256 + (259072 - free)
      let k := { s1.keep with
        wear := tabPut s1.keep.wear (unitKey die u) 1
        remap := tabPut s1.keep.remap (unitKey die u) spare }
      let s2 := remapEntry { s1 with keep := k } die (259072 - free)
      let s2 := putF (putF s2 page KD_MAXWR_MAXWR (maxWear s2 die)) page KD_FREE_FREE (free - 1)
      let s3 := evtPulse (countUp s2 page KD_RETIRED_RETIRED 1) page 0
      if free = 1 then journalFreeze s3 else s3

/-- Programs of the same unit of both keep dies, K0 first (R136); of the reachable one alone while the other is lost
(04_start.md R600). -/
def programMirrored (s : State) (u : Nat) : State :=
  let s := if keepReach s 13 then programUnit s 13 u else s
  if keepReach s 14 then programUnit s 14 u else s

/-- What a copy on a keep die holds after a mirrored write of `new`: its old value where the die cannot be reached. -/
def copyOn {α : Type} (s : State) (die : Nat) (new old : α) : α := if keepReach s die then new else old

/-! ### Retainable registers (02_register_pages.md R56) -/

/-- Offsets an indexed register stands at. -/
def expand (off : Nat) (dims : List (Nat × Nat)) : List Nat :=
  match dims with
  | [] => [off]
  | (c, st) :: r => (List.range c).flatMap fun i => expand (off + st * i) r

/-- `k` put into an ascending list. -/
def insNat (k : Nat) (l : List Nat) : List Nat :=
  match l with
  | [] => [k]
  | i :: r => if k ≤ i then k :: i :: r else i :: insNat k r

/-- Offsets of the retainable registers of a page, ascending. Fixed clock domains retain no CD_CFG (03_clocks.md R84),
and the pages of mailboxes 40 to 63 no MB_MEMB (17_processors.md R458). -/
def retainables (p : Page) (die blk : Nat) : List Nat :=
  let keepDef := fun (d : RegDef) => d.flds.any (·.g) &&
    (match p with
     | .cd => cdSelectable (blk % 4096 - 256)
     | .mb => !(d.off = 0x12C && 21 ≤ blk % 4096)
     | _ => true)
  let offs := ((pageMap p).filter keepDef).flatMap fun d => expand d.off d.dims
  (offs.filter fun o => !regAbsent p die blk o).foldl (fun l o => insNat o l) []

/-- The page's register at `off` is retainable register `i` and selected by PG_RETAIN. -/
def selected (s : State) (page off : Nat) : Bool :=
  match pageOf (regDie page) (regBlk page) with
  | none => false
  | some p =>
    let i := (retainables p (regDie page) (regBlk page)).findIdx (· == off)
    i < (pageInfo p (regDie page) (regBlk page)).retain && nBit (getReg s (page + 0x034)).toNat i

/-! ### The settings journal -/

/-- PAGE of a record for the page at register offset `page` (R143): die above the 16-bit block. -/
def pageNo (page : Nat) : Nat := page / 4096

/-- The newest committed record of every page: page number to (SEQ, unit). A tie leaves the lower unit (R147). -/
def newest (s : State) : Tab (Nat × Nat) :=
  s.keep.journal.foldl (fun t e =>
    match e.2 with
    | none => t
    | some r =>
      if r.committed && r.magicOk && r.tagOk && r.readable then
        match tabGet t r.page with
        | some (q, _) => if q < r.seq then tabPut t r.page (r.seq, e.1) else t
        | none => tabPut t r.page (r.seq, e.1)
      else t) []

/-- Next SEQ (R145, KP_SEQ). -/
def nextSeq (s : State) : Nat := getF s KP KP_SEQ_LO_SEQ + 2 ^ 32 * getF s KP KP_SEQ_HI_SEQ

/-- KP_SEQ set to `n`. -/
def putSeq (s : State) (n : Nat) : State := putF (putF s KP KP_SEQ_LO_SEQ n) KP KP_SEQ_HI_SEQ (n / 2 ^ 32)

/-- First unit at or after `j`, within `fuel` units, that is neither in `busy` nor under append (R145). -/
def freeUnit (busy : List Nat) (j fuel : Nat) : Nat :=
  match fuel with
  | 0 => j
  | f + 1 => if busy.contains j then freeUnit busy ((j + 1) % 16384) f else j

/-- The record of a page with the values now in effect (R143, R144). -/
def capture (s : State) (page : Nat) : JUnit :=
  let offs := match pageOf (regDie page) (regBlk page) with
    | none => []
    | some p => retainables p (regDie page) (regBlk page)
  let sel := getReg s (page + 0x034)
  let chosen := (offs.zipIdx.filter fun oi => nBit sel.toNat oi.2).map (·.1)
  { seq := nextSeq s, page := pageNo page, pageId := getReg s page, sel := sel,
    entries := chosen.map fun o => (o, getReg s (page + o)), committed := false }

/-- The window of a page ends: its record is captured and its append starts (R144, R145). A window that the freeze of R150
has closed captures nothing. -/
def windowClose (s : State) (page : Nat) : State :=
  if !s.keep.windows.contains page then s else
  let r := capture s page
  let busy := (newest s).map (·.2.2) ++ s.keep.appends.map (·.1)
  let j := freeUnit busy s.keep.head 16384
  let k := { s.keep with
    windows := setDel s.keep.windows page
    appends := s.keep.appends ++ [(j, r)]
    journal := tabPut s.keep.journal j (some r) }
  let u := striped 2024 j
  putSeq (programUnit { s with keep := k } u.1 u.2) (nextSeq s + 1)

/-- The pin-safe record in force: of the copies that can be read, the one with the higher SEQ (23_pins.md R585). -/
def pinBest (s : State) : Option PinRec :=
  let ok := fun (die : Nat) (r : Option PinRec) =>
    if keepReach s die && !unreadable s die (recUnit 1) then r.filter (·.tagOk) else none
  match ok 13 s.pin.rec0, ok 14 s.pin.rec1 with
  | some a, some b => if a.seq < b.seq then some b else some a
  | some a, none => some a
  | none, b => b

/-- IO_SAFE0 to IO_SAFE2 of all 24 banks as a pin-safe record holds them: those of record `r` where it is one of a bank's
page, the fields in effect elsewhere, and for a die that is isolated what the record before held (04_start.md R99, 23_pins.md
R585; log 81). -/
def safeCopy (s : State) (r : JUnit) (old : List Word) : List Word :=
  (List.range 8).flatMap fun d => (List.range (ioBanks d)).flatMap fun a => (List.range 3).map fun w =>
    let entry := if r.page * 4096 = ioPage d a then r.entries.find? fun (e : Nat × Word) => e.1 = 0x040 + 4 * w else none
    match entry with
    | some e => e.2
    | none => if isolated s d then old.getD (3 * (firstBank d + a) + w) 0 else getReg s (ioPage d a + 0x040 + 4 * w)

/-- A committed record that changes a bank's IO_SAFE values rewrites the pin-safe record (04_start.md R99, 23_pins.md
R585). -/
def pinSafeRewrite (s : State) (r : JUnit) : State :=
  let die := r.page / 65536
  if !(isFabric die && 16 ≤ r.page % 65536 && r.page % 65536 - 16 < ioBanks die) then s
  else
    let old := pinBest s
    let base := match old with | some x => x.safe | none => List.replicate 72 0
    let new := safeCopy s r base
    if new = base then s
    else
      let x : PinRec := { seq := (match old with | some y => y.seq + 1 | none => 1), safe := new }
      programMirrored { s with pin := { s.pin with rec0 := copyOn s 13 (some x) s.pin.rec0
                                                   rec1 := copyOn s 14 (some x) s.pin.rec1 } } (recUnit 1)

/-- COMMIT of the oldest append is programmed: the record is in force, the head moves past it, RETAIN_STALE of its page
clears and KP_LIVE counts the pages with records (R145, 02_register_pages.md PG_STAT). -/
def appendCommit (s : State) : State :=
  match s.keep.appends with
  | [] => s
  | (j, r) :: rest =>
    let k := { s.keep with
      appends := rest
      journal := tabPut s.keep.journal j (some { r with committed := true })
      head := (j + 1) % 16384 }
    let u := striped 2024 j
    let s1 := programUnit { s with keep := k } u.1 u.2
    let s2 := putFlag s1 (r.page * 4096) PG_STAT_RETAIN_STALE false
    pinSafeRewrite (putF s2 KP KP_LIVE_PAGES (newest s2).length) r

/-- The page has a record waiting: RETAIN_PEND (02_register_pages.md PG_STAT). -/
def retainPend (s : State) (page : Nat) : Bool :=
  s.keep.windows.contains page || s.keep.appends.any fun a => a.2.page == pageNo page

/-- A page requests a journal record (R144 to R146, R150; 13_seams.md R352 while a keep die is lost). -/
def journalRequest (s : State) (page : Nat) : State :=
  if flag s KP KP_STAT_FROZEN || s.keep.pfwClosed || !keepReach s 13 || !keepReach s 14 then putFlag s page PG_STAT_RETAIN_STALE true
  else if s.keep.windows.contains page then s
  else
    let live := newest s
    if (tabGet live (pageNo page)).isNone && 8192 ≤ live.length then
      evtPulse (putFlag s page PG_STAT_RETAIN_STALE true) KP 1
    else
      let s1 := if 1024 ≤ s.keep.windows.length then windowClose s (s.keep.windows.headD 0) else s
      if flag s1 KP KP_STAT_FROZEN then putFlag s1 page PG_STAT_RETAIN_STALE true
      else { s1 with keep := { s1.keep with windows := s1.keep.windows ++ [page] } }

/-- A write to a /G field of the register at `off` took effect (02_register_pages.md R56). -/
def retained (s : State) (page off : Nat) : State := if selected s page off then journalRequest s page else s

/-- Every append commits in turn. -/
def commitAll (s : State) (fuel : Nat) : State :=
  match fuel with
  | 0 => s
  | f + 1 => commitAll (appendCommit s) f

/-- Every open window closes and its record is appended and committed (R146, 20_errors.md R515 step 3). -/
def journalFlush (s : State) : State :=
  let s1 := s.keep.windows.foldl windowClose s
  let s2 := commitAll s1 s1.keep.appends.length
  { s2 with keep := { s2.keep with pfwClosed := true } }

/-! ### The user area -/

/-- Merge buffer of the die that holds user-area unit `u` (R136, R151). -/
def mergeOf (s : State) (u : Nat) : List MergeBuf := if u % 2 = 0 then s.keep.merge0 else s.keep.merge1

/-- The merge buffer of the die of unit `u` set to `l`. -/
def setMerge (s : State) (u : Nat) (l : List MergeBuf) : State :=
  if u % 2 = 0 then { s with keep := { s.keep with merge0 := l } } else { s with keep := { s.keep with merge1 := l } }

/-- Die and unit on it of user-area unit `u` (R137). -/
def userUnit (u : Nat) : Nat × Nat := striped 2060 u

/-- The buffered unit `u` is programmed: its bytes join the stored unit (R134, R151). -/
def userProgram (s : State) (u : Nat) : State :=
  match (mergeOf s u).find? (·.unit == u) with
  | none => s
  | some b =>
    let s1 := setMerge s u ((mergeOf s u).filter (·.unit != u))
    let d := userUnit u
    if unitReadOnly s1 d.1 d.2 then s1
    else
      let m := b.bytes.foldl (fun m c => memPut m (4096 * u + c.1) c.2) s1.keep.user
      programUnit { s1 with keep := { s1.keep with user := m } } d.1 d.2

/-- The bytes of one unit that a write carries enter the merge buffer; a full unit is programmed. Where 64 units are
buffered, the oldest is programmed first to make room (log 16). -/
def userMerge (s : State) (u off : Nat) (bytes : List Byte) : State :=
  let s1 := if (mergeOf s u).any (·.unit == u) || (mergeOf s u).length < 64 then s
    else userProgram s (((mergeOf s u).map (·.unit)).headD 0)
  let old := ((mergeOf s1 u).find? (·.unit == u)).map (·.bytes) |>.getD []
  let cells := bytes.zipIdx.foldl (fun m bi => tabPut m (off + bi.2) bi.1) old
  let l := if (mergeOf s1 u).any (·.unit == u)
    then (mergeOf s1 u).map fun b => if b.unit = u then { b with bytes := cells } else b
    else mergeOf s1 u ++ [{ unit := u, bytes := cells }]
  let s2 := setMerge s1 u l
  if cells.length = 4096 then userProgram s2 u else s2

/-- A write of bytes at offset `off` of the user area within one unit; the code it answers with (R135, R150, R151). -/
def userWrite (s : State) (off : Nat) (bytes : List Byte) : State × Nat :=
  let u := off / 4096
  let d := userUnit u
  if s.keep.pfwLow || unitReadOnly s d.1 d.2 then (s, 4) else (userMerge s u (off % 4096) bytes, 0)

/-- The byte at offset `a` of the user area: buffered data where it exists (R151). -/
def userByte (s : State) (a : Nat) : Byte :=
  match (mergeOf s (a / 4096)).find? (·.unit == a / 4096) with
  | none => memGet s.keep.user a
  | some b => (tabGet b.bytes (a % 4096)).getD (memGet s.keep.user a)

/-- A read of `n` bytes at offset `off` of the user area; an unreadable unit gives a bus error and a NOTE (R135). -/
def userRead (s : State) (off n : Nat) : State × Nat × List Byte :=
  let d := userUnit (off / 4096)
  if unreadable s d.1 d.2 then (errRecord s 0 d.1 12 0x0301 (off / 4096), 4, [])
  else (unitRead s d.1 d.2, 0, (List.range n).map fun i => userByte s (off + i))

/-- Every buffered unit is programmed (R146, R151). -/
def userFlush (s : State) : State :=
  let s1 := (s.keep.merge0.map (·.unit)).foldl userProgram s
  (s1.keep.merge1.map (·.unit)).foldl userProgram s1

/-! ### Counters and the boot record -/

/-- A copy of records unit `u` on a keep die can be read in this start (R135; 04_start.md R600). -/
def recReadable (s : State) (die u : Nat) : Bool :=
  !(if die = 13 then s.start.k0Lost else s.start.k1Lost) && !unreadable s die (recUnit u)

/-- Value of anti-rollback counter `k`: the higher of its verified copies, none when neither verifies (R141). -/
def ctrValue (s : State) (k : Nat) : Option Nat :=
  let copy := fun (die : Nat) (t : Tab (Option Nat)) => if recReadable s die (16 + k) then tabOr (some 0) t k else none
  match copy 13 s.keep.ctr0, copy 14 s.keep.ctr1 with
  | some a, some b => some (max a b)
  | some a, none => some a
  | none, b => b

/-- Counter `k` raised to `v`: both copies are programmed; 65,535 fires CTR_MAX (R141). -/
def ctrRaise (s : State) (k v : Nat) : State :=
  let kp := { s.keep with ctr0 := copyOn s 13 (tabPut s.keep.ctr0 k (some v)) s.keep.ctr0
                          ctr1 := copyOn s 14 (tabPut s.keep.ctr1 k (some v)) s.keep.ctr1 }
  let s1 := putF (programMirrored { s with keep := kp } (recUnit (16 + k))) KP (KP_CTR_VALUE.nth k) v
  if v = 65535 then evtPulse s1 KP 2 else s1

/-- Of the copies of the boot record that can be read and that `ok` accepts, the one with the higher SEQ; a tie takes K0's
(04_start.md R94, R95). -/
def bootPick (s : State) (ok : BootRec → Bool) : Option BootRec :=
  let copy := fun (die : Nat) (r : Option BootRec) => if recReadable s die 0 then r.filter ok else none
  match copy 13 s.keep.boot0, copy 14 s.keep.boot1 with
  | some a, some b => if a.seq < b.seq then some b else some a
  | some a, none => some a
  | none, b => b

/-- The copy whose tag verifies that has the highest SEQ (R140). -/
def bootBest (s : State) : Option BootRec := bootPick s (·.tagOk)

/-- KP_BOOT shows a record (R152). -/
def bootShow (s : State) (r : BootRec) : State :=
  let s := putF (putF s KP KP_BOOT_PRIMARY r.primary) KP KP_BOOT_TRIAL r.trial
  putF (putF s KP KP_BOOT_TRIAL_LEFT r.trialLeft) KP KP_BOOT_QUICK_ALWAYS r.flags

/-- Both copies of the boot record written, one higher in SEQ (R140). -/
def bootWrite (s : State) (r : BootRec) : State :=
  let r := { r with seq := (match bootBest s with | some b => b.seq + 1 | none => 1), tagOk := true }
  let k := { s.keep with boot0 := copyOn s 13 (some r) s.keep.boot0, boot1 := copyOn s 14 (some r) s.keep.boot1 }
  bootShow (programMirrored { s with keep := k } (recUnit 0)) r

end Sys2Proof.Machine
end

