-- ==== Sys2Proof/Machine/Shadow.lean ====
section
/-! DEFINITION. SHADOW fields: held and committed values and the commit point (02_register_pages.md R54, R55). -/

namespace Sys2Proof.Machine

/-- Bits of the fields of the register at `a` that `sel` selects. -/
def fieldMask (a : Nat) (sel : Fld → Bool) : Word :=
  match pageOf (regDie a) (regBlk a) with
  | none => 0
  | some p =>
    match regDef p (regDie a) (regBlk a) (regOff a) with
    | none => 0
    | some d => d.flds.foldl (fun m f => if sel f then m ||| wMask f.lsb f.wid else m) 0

/-- Bits of the SHADOW fields of a register. -/
def shadowMask (a : Nat) : Word := fieldMask a fun f => f.cls == .shadow && f.acc == .rw
/-- Bits of the /G fields of a register. -/
def gMask (a : Nat) : Word := fieldMask a (·.g)

/-- `w` with the bits of `m` taken from `v`. -/
def mix (w v m : Word) : Word := (w &&& ~~~m) ||| (v &&& m)

/-- Registers of page `page` in a table. -/
def ofPage (t : Tab Word) (page : Nat) : Tab Word := t.filter fun e => e.1 / 4096 == page / 4096
/-- A table without the registers of a page. -/
def notPage (t : Tab Word) (page : Nat) : Tab Word := t.filter fun e => e.1 / 4096 != page / 4096

/-- The value waiting on the SHADOW fields of the register at `a` is a sequence table's: it takes effect without a journal
record (04_start.md R97, 06_keep.md R144). -/
def tableMark (s : State) (a : Nat) (b : Bool) : State :=
  { s with pg := { s.pg with fromTable := if b then setAdd s.pg.fromTable a else setDel s.pg.fromTable a } }

/-- The commit point: committed values take effect together, and those of /G fields are journaled, but for a table's (R54,
R56). -/
def shadowApply (s : State) (page : Nat) : State :=
  let vals := ofPage s.pg.committed page
  let s : State := { s with pg := { s.pg with committed := notPage s.pg.committed page } }
  vals.foldl (fun s e =>
    let m := shadowMask e.1
    let s := setReg s e.1 (mix (getReg s e.1) e.2 m)
    if m &&& gMask e.1 = 0 then s
    else if s.pg.fromTable.contains e.1 then tableMark s e.1 false
    else retained s page (regOff e.1)) s

/-- COMMIT: held values become committed (R54). -/
def shadowCommit (s : State) (page : Nat) : State :=
  let vals := ofPage s.pg.held page
  { s with pg := { s.pg with
      held := notPage s.pg.held page
      committed := vals.foldl (fun t e => tabPut t e.1 e.2) s.pg.committed } }

/-- DISCARD: held values are dropped (R54). -/
def shadowDiscard (s : State) (page : Nat) : State :=
  { s with pg := { s.pg with held := notPage s.pg.held page } }

/-- Values of SHADOW fields wait on a page: PG_STAT.SHADOW_PEND. -/
def shadowPend (s : State) (page : Nat) : Bool :=
  s.pg.held.any (fun e => e.1 / 4096 == page / 4096) || s.pg.committed.any (fun e => e.1 / 4096 == page / 4096)

end Sys2Proof.Machine
end

