-- ==== Sys2Proof/Machine/EngineOps.lean ====
section
/-! DEFINITION. Loop engines as other chapters act on them: starts, completions and aborts (10_loop_engines.md R255 to
R260), and the work dispatcher's view of them. -/

namespace Sys2Proof.Machine

/-- Key of engine `e` of `die`. -/
def engKey (die e : Nat) : Nat := 512 * die + e
/-- Engine `e` of `die`. -/
def engOf (s : State) (die e : Nat) : Engine := tabOr { } s.le.eng (engKey die e)
/-- `s` with an engine set. -/
def setEng (s : State) (die e : Nat) (x : Engine) : State :=
  { s with le := { s.le with eng := tabPutD { } s.le.eng (engKey die e) x } }

/-- Word 0 of the engine's configuration frame (R266). -/
def engCfg (s : State) (die e : Nat) : Nat := frGet (cfgGet s die (0x54000 + 256 * e)) 0 32
/-- DIRECT of the configuration frame. -/
def engDirect (s : State) (die e : Nat) : Bool := nBit (engCfg s die e) 6
/-- Stream port `k` (0, 1: SI0, SI1; 2, 3: SO0, SO1) is enabled. -/
def portEn (s : State) (die e k : Nat) : Bool := nBit (engCfg s die e) (7 + k)

/-- Data, parity and instruction words. -/
def bankWord (d : BitVec 24) : BitVec 25 := BitVec.ofBool ((bitsOf 24 d.toNat).length % 2 == 1) ++ d
/-- A bank word keeps even parity over its 25 bits (R267). -/
def parityOk (w : BitVec 25) : Bool := (bitsOf 25 w.toNat).length % 2 == 0

/-- IMEM word `a` as stored; a word nothing has written holds zero data and check bits. -/
def imemWord (x : Engine) (a : Nat) : BitVec 72 := tabOr 0 x.imem a

/-- A start completes with `st`: its source is told (R259). Of a fenced or held partition ST_DONE does not reach the fabric
(R260; 09_partitions.md R219). -/
def startDone (s : State) (die e : Nat) (a : LeStart) (st : RunStatus) : State :=
  match a.src with
  | .fabric =>
    let x := engOf s die e
    if !releasedAt s die (engCol e) then s
    else setEng s die e { x with stDone := x.stDone + 1, stErr := decide (st ≠ .ok) }
  | .dispatcher => descDone s a.desc (match st with | .ok => 0 | .exc => 1 | .aborted => 2)
  | .software => s

/-- PG_STAT.BUSY of an LE_ page (R256). -/
def leBusy (x : Engine) : Bool :=
  x.mode = .run || x.mode = .halt || x.mode = .exc || x.mode = .direct || x.startq != []

/-- The halt that PG_CTRL.FREEZE_SEL of an engine names holds (22_debug.md R565). -/
def leFrozen (s : State) (die e : Nat) : Bool :=
  let halted := fun c => (tabOr { } s.hub.harts c : Hart).halted
  match getF s (lePage die e) PG_CTRL_FREEZE_SEL with
  | 0 => false
  | 5 => (List.range 4).any halted
  | 6 => getF s CL CL_HART_EN != 0 && (bitsOf 4 (getF s CL CL_HART_EN)).all halted
  | n => halted (n - 1)

/-- Committed values of an engine's SHADOW fields take effect once it does not run (02_register_pages.md R55). -/
def leSettle (s : State) (die e : Nat) : State :=
  if enabled s (lePage die e) || leBusy (engOf s die e) then s else shadowApply s (lePage die e)

/-- The descriptors are no longer those of a run in progress (R254). -/
def descsOld (x : Engine) : Engine := { x with descs := x.descs.map fun d => (d.1, { d.2 with ofRun := false }) }

/-- The run of an engine completes with `st` (R259): LE_RUNS and DONE on OK. -/
def runDone (s : State) (die e : Nat) (st : RunStatus) : State :=
  let x := engOf s die e
  let s := setEng s die e { descsOld x with cur := none, ending := none, stall := 0 }
  let s := match x.cur with
    | none => s
    | some a => startDone s die e a st
  leSettle (match st with
    | .ok => evtPulse (countWrap s (lePage die e) LE_RUNS_COUNT) (lePage die e) 0
    | _ => s) die e

/-- The state an engine enters for `m`: a frozen engine that would be IDLE halts (22_debug.md R565). -/
def idleMode (s : State) (die e : Nat) (m : LeMode) : LeMode := if m = .idle && leFrozen s die e then .halt else m

/-- Initiator ID of the group bridge of an engine (12_noc.md R302). -/
def leIni (die e : Nat) : Nat := 32 + 4 * die + e / 72
/-- Tag the bridge gives descriptor `k` of an engine. -/
def leTag (e k : Nat) : Nat := 4 * (e % 72) + k

/-- The access of descriptor `k` of an engine that the bridge still gathers. -/
def descAccess (s : State) (die e k : Nat) : Option Gather :=
  s.noc.gather.find? fun g => g.ini = leIni die e && g.accTag = leTag e k

/-- A packet of an access has been sent. -/
def accessSent (s : State) (g : Gather) : Bool := (s.noc.waiting.filter fun h => h.acc == g.no).length < g.left

/-- An access of which no packet has been sent is given up. -/
def accessDrop (s : State) (g : Gather) : State :=
  { s with noc := { s.noc with gather := s.noc.gather.filter (·.no != g.no), waiting := s.noc.waiting.filter (·.acc != g.no) } }

/-- Descriptors of an aborted run: one whose request has been sent waits for its response, which is absorbed, and clears then;
every other clears at once (R260, log 95). -/
def descsAbort (s : State) (die e : Nat) : State :=
  [0, 1, 2, 3].foldl (fun s k =>
    let x := engOf s die e
    let clear := fun (s : State) => setEng s die e { engOf s die e with descs := tabDel (engOf s die e).descs k }
    match descAccess s die e k with
    | none => clear s
    | some g =>
      if accessSent s g then setEng s die e { x with descs := tabPut x.descs k { tabOr { } x.descs k with dropped := true, ofRun := false } }
      else clear (accessDrop s g)) s

/-- The run in progress is aborted; queued starts too where `all`; the engine enters `m` (R260). -/
def engAbort (s : State) (die e : Nat) (all : Bool) (m : LeMode) : State :=
  let s := descsAbort s die e
  let x := engOf s die e
  let queued := if all then x.startq else []
  let x := { x with mode := idleMode s die e m, before := .idle, startq := if all then [] else x.startq }
  let s := setEng s die e x
  let s := if (engOf s die e).cur.isSome then runDone s die e .aborted else s
  leSettle (queued.foldl (fun s a => startDone s die e a .aborted) s) die e

/-- The architectural registers and FLAGS at 0; IMEM, banks and start queue kept, and the descriptors whose response is still to
be absorbed (R260, R268). -/
def engZero (x : Engine) : Engine :=
  { x with a := [], d := [], p := [], b := [], l := [], m := [], lc := [], ln := [], lbeg := [], lend := [], ldepth := 0,
           ix := [], pc := 0, flags := 0, ctx := 0, heldLow := none, descs := x.descs.filter (·.2.dropped), si0 := [], si1 := [], so0 := [], so1 := [],
           ending := none, stall := 0, bpPassed := none, watchHit := false, stepping := false, haz := [], bankPaid := false,
           dirPipe := [], dirYv := false }

/-- The engine is held: its run and queued starts complete ABORTED and it enters OFF (R260). -/
def engHold (s : State) (die e : Nat) : State := engAbort s die e true .off

/-- The engine leaves its hold: IDLE with registers and FLAGS at 0, or direct mode (R224, R260, R265); a frozen
engine halts. -/
def engRelease (s : State) (die e : Nat) : State :=
  let m := if engDirect s die e then .direct else if leFrozen s die e then .halt else .idle
  setEng s die e { engZero (engOf s die e) with mode := m, before := .idle }

/-- Why a start is not accepted: `some true` only the queue is full, `some false` another reason (R257). -/
def startRefused (s : State) (die e srcBit : Nat) : Option Bool :=
  let x := engOf s die e
  if !enabled s (lePage die e) || !nBit (getF s (lePage die e) LE_CFG_SRC_EN) srcBit || x.mode = .off || x.mode = .direct then
    some false
  else if 4 ≤ x.startq.length then some true
  else none

/-- Key of a set (R236). -/
def setKey (die set : Nat) : Nat := 72 * die + set

/-- The set of an engine is accessed: a requested gate does not close, a closed one re-opens; `wait`: a start waits for that
(R237). -/
def setOpen (s : State) (die e : Nat) (wait : Bool) : State :=
  let g := setKey die (e / 4)
  let shut := s.le.gated.contains g
  { s with le := { s.le with
      gated := setDel s.le.gated g, gateReq := setDel s.le.gateReq g
      opening := if wait && shut then setAdd s.le.opening g else if wait then s.le.opening else setDel s.le.opening g } }

/-- An accepted start enters the queue (R257); it re-opens a closed set gate (R237) and, as an access to
the engine, a gated clock domain (03_clocks.md R83). -/
def startPush (s : State) (die e : Nat) (a : LeStart) : State :=
  let x := engOf s die e
  let s := setOpen s die e true
  domTouch (cdReopen (setEng s die e { x with startq := x.startq ++ [a] }) (16 + die)) die (16 + e / 72)

/-- Engines of a die between two columns. -/
def engsIn (lo hi : Nat) : List Nat := (List.range 288).filter fun e => lo ≤ engCol e && decide (engCol e ≤ hi)

/-- An SCLK edge in direct mode: `y`, what the operation at this edge extracts, reaches DIR_Y four edges on, with DIR_YV high for
one cycle (R265). -/
def dirShift (x : Engine) (y : Option (BitVec 96)) : Engine :=
  let out := (x.dirPipe[3]?).join
  { x with dirPipe := y :: x.dirPipe.take 3, dirYv := out.isSome, dirY := out.getD x.dirY }

/-! ### Configuration frames (R266, R267) -/

/-- A write of frame `f` to frame `i` of engine `e` can take place: the contents, and a changed configuration, only while the
engine is OFF (R266). -/
def engFrameOpen (s : State) (die e i : Nat) (f : Frame) : Bool :=
  (engOf s die e).mode = .off || (1 ≤ i && i < 64) ||
    (i = 0 && f &&& BitVec.ofNat 2048 0x7FF = cfgGet s die (0x54000 + 256 * e))

/-- Frame `i` of engine `e` is written: frame 0 is its configuration, of which the bits that R266 gives no content stay 0,
frames 64 to 255 load initial contents with check and parity bits, and frames 1 to 63 hold nothing. -/
def engFrameWrite (s : State) (die e i : Nat) (f : Frame) : State :=
  let x := engOf s die e
  if !engFrameOpen s die e i f then s
  else if i = 0 then cfgPut s die (0x54000 + 256 * e) (f &&& BitVec.ofNat 2048 0x7FF)
  else if i < 64 then s
  else if i < 128 then
    setEng s die e { x with imem := (List.range 32).foldl (fun t k =>
      tabPutD 0 t (32 * (i - 64) + k) (eccWord (frGet f (64 * k) 64))) x.imem }
  else if i < 192 then
    setEng s die e { x with bankX := (List.range 64).foldl (fun t k =>
      tabPutD 0 t (64 * (i - 128) + k) (bankWord (BitVec.ofNat 24 (frGet f (32 * k) 24)))) x.bankX }
  else
    setEng s die e { x with bankY := (List.range 64).foldl (fun t k =>
      tabPutD 0 t (64 * (i - 192) + k) (bankWord (BitVec.ofNat 24 (frGet f (32 * k) 24)))) x.bankY }

/-- What a readback of frame `i` of engine `e` returns: the configuration as stored, present contents of IMEM and banks. -/
def engFrameRead (s : State) (die e i : Nat) : Frame :=
  let x := engOf s die e
  let pack := fun (n w : Nat) (g : Nat → Nat) => BitVec.ofNat 2048 ((List.range n).foldl (fun v k => v + g k * 2 ^ (w * k)) 0)
  if i = 0 then cfgGet s die (0x54000 + 256 * e)
  else if i < 64 then 0
  else if i < 128 then pack 32 64 fun k => (tabOr 0 x.imem (32 * (i - 64) + k)).toNat % 2 ^ 64
  else if i < 192 then pack 64 32 fun k => (tabOr 0 x.bankX (64 * (i - 128) + k)).toNat % 2 ^ 24
  else pack 64 32 fun k => (tabOr 0 x.bankY (64 * (i - 192) + k)).toNat % 2 ^ 24

end Sys2Proof.Machine
end

