-- ==== Sys2Proof/Machine/PartOps.lean ====
section
/-! DEFINITION. Partitions: votes and the transitions that other chapters cause (09_partitions.md R219 to R224), and the user
pins that follow them (23_pins.md R584). -/

namespace Sys2Proof.Machine

/-- Root of the image loaded (IL_ROOT0 to IL_ROOT7). -/
def ilRoot (s : State) : Nat :=
  (List.range 8).foldl (fun n i => n + (getReg s (IL + (IL_ROOT_ROOT.nth i).off)).toNat * 2 ^ (32 * i)) 0

/-! ### Pins -/

/-- Pin `p` of the die's bank `a` holds its safe state (23_pins.md R584). -/
def pinSafe (s : State) (die a p : Nat) : Bool :=
  isolated s die || !releasedAt s die (Config.pinColumn (256 * die + 48 * a + p))

/-- Key of IO_SAFE word `w` of the die's bank `a` in the pad ring. -/
def latchKey (die a w : Nat) : Nat := 4 * (firstBank die + a) + w

/-- Pins of a joined die that hold their safe state take it from IO_SAFE (R584). -/
def pinsLatch (s : State) (die : Nat) : State :=
  if isolated s die then s
  else (List.range (ioBanks die)).foldl (fun s a => (List.range 3).foldl (fun s w =>
    let reg := getReg s (ioPage die a + 0x040 + 4 * w)
    let old := tabOr 0 s.pin.latch (latchKey die a w)
    let new := (List.range 16).foldl (fun x j =>
      if pinSafe s die a (16 * w + j) then wPut x (2 * j) 2 (wGet reg (2 * j) 2) else x) old
    { s with pin := { s.pin with latch := tabPutD 0 s.pin.latch (latchKey die a w) new } }) s) s

/-- IO_ACT0 and IO_ACT1 of a bank (R586). -/
def ioAct (s : State) (die a : Nat) : Nat := ofBits ((List.range 48).filter (pinSafe s die a))

/-! ### Votes (R222, 18_power.md R473) -/

/-- Fabric bands and loop-engine groups a partition holds on: domain indexes of its die. -/
def partDoms (e : PartEntry) : List Nat :=
  let bands := (List.range 16).filter fun k => bandOf e.cFirst ≤ k && decide (k ≤ bandOf e.cLast)
  let groups := (List.range 4).filter fun q => (engsIn e.cFirst e.cLast).any fun x => x / 72 = q
  bands ++ groups.map (· + 16)

/-- Another partition of the same client that is not OFF holds domain `i` of the die. -/
def clientHeld (s : State) (e : PartEntry) (i : Nat) : Bool :=
  (dieParts s e.die).any fun x =>
    x.client = e.client && (partDoms x).contains i && partStateOn s e.die x.no != pOff && partStateOn s e.die x.no != pAbsent

/-- The hardware votes of a partition after its state has changed. -/
def partVotes (s : State) (e : PartEntry) : State :=
  (partDoms e).foldl (fun s i => voteSet s e.die i e.client (clientHeld s e i)) s

/-! ### Transitions -/

/-- STATE of partition `e` becomes `st`: votes and pins follow. -/
def partSet (s : State) (e : PartEntry) (st : Nat) : State :=
  let s := putF s (icPage e.die) (IC_PSTAT_STATE.nth e.no) st
  let s := if st = pLive then s else { s with part := { s.part with releasing := setDel s.part.releasing e.no } }
  pinsLatch (partVotes s e) e.die

/-- Loop engines of a partition. -/
def partEngs (e : PartEntry) : List Nat := engsIn e.cFirst e.cLast

/-- A partition is held in reset in state `st`: its engines abort and enter OFF (R221, 10_loop_engines.md R260). -/
def partHoldIn (s : State) (e : PartEntry) (st : Nat) : State :=
  (partEngs e).foldl (fun s x => engHold s e.die x) (partSet s e st)

/-- FENCE_ON: a fence engaged for a cause other than a command (R234). -/
def fenceOn (s : State) (e : PartEntry) : State :=
  evtPulse s (icPage e.die) 3

/-- A partition is taken to `st` for a cause other than a command, its fence engaging where it was LIVE. -/
def partForce (s : State) (e : PartEntry) (st : Nat) : State :=
  let live := partStateOn s e.die e.no == pLive
  let s := partHoldIn s e st
  if live then fenceOn s e else s

/-- Loop engines of the static region of a die. -/
def staticEngs (s : State) (die : Nat) : List Nat := (List.range 288).filter fun x => (ownerAt s die (engCol x)).isNone

/-- The static region of a die is held in reset. -/
def staticHoldDie (s : State) (die : Nat) : State :=
  if s.fab.staticOn.contains die then
    let s := { s with fab := { s.fab with staticOn := setDel s.fab.staticOn die } }
    let s := (staticEngs s die).foldl (fun s x => engHold s die x) s
    pinsLatch s die
  else s

/-- Result of a load that ends: LOAD_FAIL on any result but success (R230, R235). -/
def icpEnd (s : State) (die result : Nat) : State :=
  let s := { s with part := { s.part with icp := tabDel s.part.icp die } }
  let s := putFlag (putF s (icPage die) IC_STAT_RESULT result) (icPage die) IC_STAT_BUSY false
  let s := putFlag s (icPage die) IC_STAT_SIGCHK false
  if result = 0 then evtPulse s (icPage die) 0 else evtPulse s (icPage die) 1

/-- The load or RELOAD of a die in progress, if any. -/
def icpLoad (s : State) (die : Nat) : Option IcpLoad := (tabGet s.part.icp die).join

/-- A load or RELOAD fails: the partition is left as R230 and R231 say. -/
def icpFail (s : State) (die result : Nat) : State :=
  match icpLoad s die with
  | none => s
  | some l =>
    let n := getF s (icPage die) IC_STAT_PART
    let s := match partEntry s n with
      | none => s
      | some e =>
        if !l.entered || e.die != die then s
        else
          let reload := flag s (icPage die) IC_STAT_RELOAD
          let s := putFlag s (icPage die) (IC_PSTAT_RLOCK.nth n) false
          if reload || l.wrote || l.before = pOff then partSet s e pOff else partSet s e pHeld
    icpEnd s die result

/-- Every partition and the static region of a die are held in reset; a running load ends with 0xE (R233, 20_errors.md
R515 step 2). -/
def dieHold (s : State) (die : Nat) : State :=
  let s := icpFail s die 0xE
  let s := (dieParts s die).foldl (fun s e =>
    if partStateOn s die e.no = pLive || partStateOn s die e.no = pFenced then partForce s e pHeld else s) s
  staticHoldDie s die

/-- The STATIC hold that a non-zero frame outside every partition records (18_power.md R473). -/
def staticMark (s : State) (die target a : Nat) (f : Frame) : State :=
  let hold := fun i => setDom s die i { domOf s die i with staticHold := true }
  if target != 1 || f = 0 || !isFabric die then s
  else if a < 0x493E0 then (if (ownerAt s die (a / 400)).isNone then hold (bandOf (a / 400)) else s)
  else if 0x54000 ≤ a && a < 0x66000 then
    let e := (a - 0x54000) / 256
    let i := (a - 0x54000) % 256
    if (i = 0 || (64 ≤ i && i < 128)) && (ownerAt s die (engCol e)).isNone then hold (16 + e / 72) else s
  else s

end Sys2Proof.Machine
end

