-- ==== Sys2Proof/Machine/FabNet.lean ====
section
/-! DEFINITION. Clock networks of the fabric (07_fabric.md R171 to R174) and what runs on them. -/

namespace Sys2Proof.Machine

/-- Code of a network in CLK frame 0x53900 (R171): 0 to 31 GCK, 32 + b BCKb. -/
def netCode (s : State) (die net : Nat) : Nat := frGet (cfgGet s die 0x53900) (8 * net) 8

/-- Run-time enable of a network: CF_GCK_EN, CF_BCK_EN0 and CF_BCK_EN1 (R174). -/
def netEn (s : State) (die net : Nat) : Bool := wGet (getReg s (cfPage die + 0x0A0 + 4 * (net / 32))) (net % 32) 1 == 1

/-- A fabric PLL output runs: enabled, its PLL locked or coasting (03_clocks.md R76). -/
def fpOutRuns (s : State) (die j k : Nat) : Bool :=
  let p := pllPage die j
  enabled s p && flag s p (FP_OUT_EN.nth k) && (flag s p PLL_STAT_LOCK || flag s p PLL_STAT_COAST)

/-- A GCK toggles: enabled, with a source that runs (R171, R174). -/
def gckRuns (s : State) (die g : Nat) : Bool :=
  let c := netCode s die g
  netEn s die g &&
    (if 1 ≤ c && c ≤ 16 then
        fpOutRuns s die ((c - 1) / 4) ((c - 1) % 4)
      else if 0x11 ≤ c && c ≤ 0x14 then
        !flag s (cdPage (56 + (c - 0x11))) CD_STAT_GATED && flag s (cdPage (56 + (c - 0x11))) CD_STAT_RUNNING
      else c == 0x20)

/-- A network toggles; a BCK taken from a GCK stops with it (R174). -/
def netRuns (s : State) (die net : Nat) : Bool :=
  if net < 32 then gckRuns s die net
  else
    let c := netCode s die net
    netEn s die net && (if 1 ≤ c && c ≤ 32 then gckRuns s die (c - 1) else c == 0x21)

/-- The fabric side of a NoC port has edges: EN 1 and its GCK toggling (R189). -/
def portRuns (s : State) (die p : Nat) : Bool :=
  portOn s die p && gckRuns s die (portClk s die p % 32)

/-- A network's enable bit set or cleared. -/
def netSet (s : State) (die net : Nat) (b : Bool) : State :=
  let a := cfPage die + 0x0A0 + 4 * (net / 32)
  setReg s a (wPut (getReg s a) (net % 32) 1 (ofBool b))

/-- What stands at column `c` of a fabric die runs: not held, its die joined and its band not dropped (R176, 18_power.md
R476). -/
def runsAt (s : State) (die c : Nat) : Bool :=
  isFabric die && !isolated s die && !heldAt s die c && domStateOk
where
  domStateOk : Bool :=
    match (tabGet s.pow.doms (64 * die + bandOf c)) with
    | none => true
    | some d => d.state != 2 && d.state != 3

/-- A port at column `c` whose clock is selected by `sel` has edges (R169, R197). -/
def portClocked (s : State) (die c sel : Nat) : Bool :=
  runsAt s die c &&
    match netOfSel (bandOf c) sel with
    | none => false
    | some n => netRuns s die n

end Sys2Proof.Machine
end

