-- ==== Sys2Proof/Machine/Mail.lean ====
section
/-! DEFINITION. Mailboxes (17_processors.md R452 to R458, R598) and MSI-X (R457, R467) as operations other chapters use.
Mailbox numbers: 0 to 63 general, 64 + 16 × controller + number for host mailboxes. -/

namespace Sys2Proof.Machine

/-! ### MSI-X -/

/-- A PCIe controller. -/
def pcieOf (s : State) (pc : Nat) : Pcie := tabOr { } s.hub.pcie pc
/-- `s` with a PCIe controller set. -/
def setPcie (s : State) (pc : Nat) (c : Pcie) : State := { s with hub := { s.hub with pcie := tabPutD { } s.hub.pcie pc c } }

/-- MSI-X state of function `fn`. -/
def fnOf (c : Pcie) (fn : Nat) : Msix := if fn = 0 then c.fn0 else c.fn1
/-- `c` with the MSI-X state of function `fn` set. -/
def setFn (c : Pcie) (fn : Nat) (x : Msix) : Pcie := if fn = 0 then { c with fn0 := x } else { c with fn1 := x }

/-- The function exists (R467): function 1 needs FUNC1, and the boot configuration has function 0 alone (R469). -/
def fnExists (s : State) (pc fn : Nat) : Bool := fn = 0 || (flag s (pcPage pc) PC_CFG_FUNC1 && !(pcieOf s pc).boot)

/-- Vector `vec` of function `fn` is raised: sent at once, held in the PBA, or dropped (R457). -/
def msixRaise (s : State) (pc fn vec : Nat) : State :=
  let c := pcieOf s pc
  let x := fnOf c fn
  if !x.enable || !fnExists s pc fn || !flag s (pcPage pc) PC_STAT_LINK_UP || flag s (pcPage pc) PC_STAT_PERST then s
  else if x.funcMask || nBit x.mask vec then setPcie s pc (setFn c fn { x with pba := nSet x.pba vec true })
  else setPcie s pc (setFn c fn { x with sent := tabPut x.sent vec (tabOr 0 x.sent vec + 1) })

/-- Vectors of the PBA that are unmasked now are sent, one message each (R457). -/
def msixFlush (s : State) (pc fn : Nat) : State :=
  let x := fnOf (pcieOf s pc) fn
  if x.funcMask then s
  else (bitsOf 16 x.pba).foldl (fun s v =>
    let c := pcieOf s pc
    let x := fnOf c fn
    if nBit x.mask v then s
    else msixRaise (setPcie s pc (setFn c fn { x with pba := nSet x.pba v false })) pc fn v) s

/-! ### Mailboxes -/

/-- Mailbox `m`. -/
def mboxOf (s : State) (m : Nat) : Mbox := tabOr { } s.hub.mbox m
/-- `s` with mailbox `m` set. -/
def setMbox (s : State) (m : Nat) (b : Mbox) : State := { s with hub := { s.hub with mbox := tabPutD { } s.hub.mbox m b } }

/-- A host mailbox. -/
def mbHost (m : Nat) : Bool := 64 ≤ m
/-- Controller of a host mailbox. -/
def mbPc (m : Nat) : Nat := (m - 64) / 16
/-- Function of a host mailbox (R467). -/
def mbFn (m : Nat) : Nat := (m - 64) % 16 / 8

/-- MB_MEMB of mailbox `m`. -/
def mbMemb (s : State) (m : Nat) : Nat := (getReg s (mbPage m + 0x12C + 0x40 * (m % 8))).toNat

/-- Selector `mode`, `id` matches initiator `ini` (R453). -/
def selMatch (mode id ini : Nat) : Bool :=
  match mode with
  | 1 => ini = id
  | 2 => ini < 4
  | 3 => ini < 5
  | _ => false

/-- Initiator `ini` matches M0; on a host page only the host through BAR0 of an existing function does (R453). -/
def mbM0 (s : State) (m ini : Nat) (bar0 : Bool) : Bool :=
  if mbHost m then bar0 && ini = 7 + mbPc m && fnExists s (mbPc m) (mbFn m)
  else selMatch (nGet (mbMemb s m) 30 2) (nGet (mbMemb s m) 16 10) ini

/-- Initiator `ini` matches M1. -/
def mbM1 (s : State) (m ini : Nat) : Bool := selMatch (nGet (mbMemb s m) 14 2) (nGet (mbMemb s m) 0 10) ini

/-- Initiator `ini` is a member of mailbox `m` (R453). -/
def mbMember (s : State) (m ini : Nat) (bar0 : Bool) : Bool := mbM0 s m ini bar0 || mbM1 s m ini

/-- The sender of the message held came from the host of the page. -/
def mbFromHost (m sender : Nat) : Bool := mbHost m && sender = 7 + mbPc m

/-- WAIT_M0, WAIT_M1 and TIMEOUT of a mailbox follow FULL (R457). -/
def mbEvents (s : State) (m : Nat) : State :=
  let b := mboxOf s m
  let k := 3 * (m % 8)
  let s := evtLevel s (mbPage m) k (b.full && !mbM0 s m b.sender (mbFromHost m b.sender))
  let s := evtLevel s (mbPage m) (k + 1) (b.full && !mbM1 s m b.sender)
  evtLevel s (mbPage m) (k + 2) b.timeout

/-- A host mailbox raises its function's vector; mailboxes 8 to 15 need FUNC1 (R453, R457). -/
def mbVector (s : State) (m : Nat) : State := if mbHost m then msixRaise s (mbPc m) (mbFn m) (m % 8) else s

/-- The message of `sender` in mailbox `m` is sent (R454, R457). -/
def mbSend (s : State) (m sender : Nat) : State :=
  let b := mboxOf s m
  let s := setMbox s m { b with full := true, timeout := false, sender := sender, seq := (b.seq + 1) % 65536 }
  let s := mbEvents s m
  if mbFromHost m sender then s else mbVector s m

/-- The message held is taken (R454). -/
def mbTaken (s : State) (m : Nat) : State :=
  let b := mboxOf s m
  mbEvents (setMbox s m { b with full := false, timeout := false, taken := (b.taken + 1) % 65536 }) m

/-- The message held is withdrawn (R454). -/
def mbWithdrawn (s : State) (m : Nat) : State :=
  let b := mboxOf s m
  mbEvents (setMbox s m { b with full := false, timeout := false, wdraw := (b.wdraw + 1) % 65536 }) m

/-- Offset in register space of data word `i` of mailbox `m`. -/
def mbWord (m i : Nat) : Nat := mbPage m + 0x100 + 0x40 * (m % 8) + 4 * i

/-- Data words of mailbox `m` set from word 0. -/
def mbPutWords (s : State) (m : Nat) (ws : List Nat) : State :=
  ws.zipIdx.foldl (fun s wi => setReg s (mbWord m wi.2) (BitVec.ofNat 32 wi.1)) s

/-- A message of the device itself: words and send, where no message is held. -/
def mbPost (s : State) (m sender : Nat) (ws : List Nat) : State :=
  if (mboxOf s m).full then s else mbSend (mbPutWords s m ws) m sender

end Sys2Proof.Machine
end

