-- ==== Sys2Proof/Machine/Comparators.lean ====
section
/-! DEFINITION. The comparators of the system cores (22_debug.md R567 to R569) and what the trace takes of a core (R571). -/

namespace Sys2Proof.Machine

/-- Comparator `j` of core `c` is the upper end of a range, and takes no part of its own (R567). -/
def compUpper (s : State) (c j : Nat) : Bool := j % 2 = 1 && flag s (bkPage c) (BK_CTRL_RANGE.nth (j - 1))

/-- The link condition of comparator `j` when those of `hit` fire for one instruction: with LINK_SRC, or after it (R568). -/
def compLinked (s : State) (c hit j : Nat) : Bool :=
  let src := getF s (bkPage c) (BK_CTRL_LINK_SRC.nth j)
  !flag s (bkPage c) (BK_CTRL_LINK_EN.nth j) ||
    (if flag s (bkPage c) (BK_CTRL_LINK_SEQ.nth j) then s.dbg.fired.contains (16 * c + src) else nBit hit src)

/-- Comparators `hit` of core `c` can all fire for one instruction. -/
def hitsOk (s : State) (c hit : Nat) : Bool :=
  hit < 65536 && (bitsOf 16 hit).all fun j =>
    flag s (bkPage c) (BK_CTRL_EN.nth j) && !compUpper s c j && compLinked s c hit j

/-- Comparators of `hit` with ACTION `a`. -/
def hitActs (s : State) (c hit a : Nat) : List Nat := (bitsOf 16 hit).filter fun j => getF s (bkPage c) (BK_CTRL_ACTION.nth j) = a

/-- ADDR of comparator `j`. -/
def compAddr (s : State) (c j : Nat) : Nat :=
  getF s (bkPage c) (BK_ADDR_LO_ADDR.nth j) + getF s (bkPage c) (BK_ADDR_HI_ADDR.nth j) * 2 ^ 32

/-- An instruction at `pc` lies where comparator `j` watches (R567). -/
def compAt (s : State) (c pc j : Nat) : Bool :=
  compAddr s c j ≤ pc &&
    decide (pc ≤ if flag s (bkPage c) (BK_CTRL_RANGE.nth j) then compAddr s c (j + 1) else compAddr s c j)

/-- What comparators that fire do beside halting: they are remembered for links, those with ACTION trace enter the trace, and
HIT fires unless they only link (R568, R569). -/
def compsFire (s : State) (c hit : Nat) : State :=
  let s := { s with dbg := { s.dbg with fired := (bitsOf 16 hit).foldl (fun l j => setAdd l (16 * c + j)) s.dbg.fired } }
  let s := (hitActs s c hit 1).foldl (fun s j => tracePush s 3 c j) s
  if hitActs s c hit 0 = [] && hitActs s c hit 1 = [] then s else evtPulse s (bkPage c) 0

/-- Comparators of a running core fire on an instruction, none of which halts it. -/
def compsPass (s : State) (c hit : Nat) : State :=
  if hitsOk s c hit && hitActs s c hit 0 = [] then compsFire s c hit else s

/-- A trap of a traced core: its cause and the PC trapped (R571). -/
def traceTrap (s : State) (c cause pc : Nat) : State :=
  if nBit (getF s TR TR_CFG_CORES) c then tracePush s 2 (c + 4 * (cause % 64)) pc else s

end Sys2Proof.Machine
end

