-- ==== Sys2Proof/Machine/Caches.lean ====
section
/-! DEFINITION. The caches of the system cores (17_processors.md R446) and how an access of a core ends (R448). The lines are
one set for the four cores: the caches are coherent among them, and no other initiator sees them. -/

namespace Sys2Proof.Machine

/-! ### Regions (R446) -/

/-- DDR or hub SRAM: cached write-back, and the regions of LR, SC and AMO. -/
def writeBackArea (a : Nat) : Bool := a < 0x20000000000 || (0x31000000000 ≤ a && decide (a < 0x31000800000))
/-- The Keep user area: cached for reads, written through. -/
def keepArea (a : Nat) : Bool := 0x32000000000 ≤ a && decide (a < 0x32080000000)
/-- An address in a region the caches hold, from which alone instructions are fetched. -/
def fetchable (a : Nat) : Bool := writeBackArea a || keepArea a

/-- Register space. -/
def inRegs (a : Nat) : Bool := 0x3FF00000000 ≤ a && decide (a < 0x40000000000)

/-- The access is one a region forbids: a fetch, LR, SC or AMO outside the regions of R446. -/
def useForbidden (x : Access) : Bool :=
  let last := x.addr + x.size - 1
  match x.use with
  | .fetch => !(fetchable x.addr && fetchable last)
  | .lr | .sc | .amo _ => !(writeBackArea x.addr && writeBackArea last)
  | _ => false

/-! ### Lines -/

/-- The cached line of address ÷ 64 = `l`. -/
def lineAt (s : State) (l : Nat) : Option CacheLine := tabGet s.hub.cache l
/-- `s` with line `l` in the caches. -/
def setLine (s : State) (l : Nat) (x : CacheLine) : State := { s with hub := { s.hub with cache := tabPut s.hub.cache l x } }
/-- `s` without line `l` in the caches. -/
def delLine (s : State) (l : Nat) : State := { s with hub := { s.hub with cache := tabDel s.hub.cache l } }

/-- Lines the bytes of an access lie in. -/
def accLines (x : Access) : List Nat := (List.range ((x.addr + x.size + 63) / 64 - x.addr / 64)).map (· + x.addr / 64)

/-- The bytes of an access, all of whose lines are cached. -/
def cacheRead (s : State) (x : Access) : List Byte :=
  (List.range x.size).map fun i => ((lineAt s ((x.addr + i) / 64)).elim [] (·.bytes)).getD ((x.addr + i) % 64) 0

/-- Line `l` with the bytes of a store of core `c` at `a` in it. -/
def lineStored (x : CacheLine) (l a c : Nat) (bs : List Byte) (dirty : Bool) : CacheLine :=
  { bytes := (List.range 64).map fun i =>
      let k := 64 * l + i
      if a ≤ k && k < a + bs.length then bs.getD (k - a) 0 else x.bytes.getD i 0
    dirty := x.dirty || dirty, owner := if dirty then c else x.owner }

/-- A store of core `c` reaches the lines that are cached; reservations of the other cores on them end. -/
def cacheWrite (s : State) (x : Access) (bs : List Byte) (dirty : Bool) : State :=
  let s := (accLines x).foldl (fun s l => match lineAt s l with
    | some e => setLine s l (lineStored e l x.addr x.ini bs dirty)
    | none => s) s
  (List.range 4).foldl (fun s c =>
    if c != x.ini && (accLines x).any fun l => (hartOf s c).resv = some l then setHart s c { hartOf s c with resv := none }
    else s) s

/-- Dirty lines among those `f` names. -/
def dirtyLines (s : State) (f : Nat → Bool) : List Nat := (s.hub.cache.filter fun e => e.2.dirty && f e.1).map (·.1)

/-- What an AMO of `n` bytes stores, of what memory held and of the core's operand (RV64GC). -/
def amoRun (o : AmoOp) (n old v : Nat) : Nat :=
  let r := match o with
    | .swap => v
    | .add => old + v
    | .xor => old ^^^ v
    | .and => old &&& v
    | .or => old ||| v
    | .min => if signed (8 * n) old ≤ signed (8 * n) v then old else v
    | .max => if signed (8 * n) old ≤ signed (8 * n) v then v else old
    | .minu => min old v
    | .maxu => max old v
  r % 2 ^ (8 * n)

/-! ### How a core's access ends (R448) -/

/-- RISC-V cause of the access fault: instruction 1, load 5, store or AMO 7. -/
def faultCause (use : CoreUse) (kind : Nat) : Nat :=
  match use with
  | .fetch => 1
  | .lr => 5
  | .sc | .amo _ => 7
  | _ => if kind = 0 then 5 else 7

/-- The record of core `c`: latched while VALID is 0, else only OVF sets. -/
def berrNote (s : State) (c code addr : Nat) (async : Bool) : State :=
  if flag s CL (CL_BERR_VALID.nth c) then putFlag s CL (CL_BERR_OVF.nth c) true
  else
    let s := putF (putFlag s CL (CL_BERR_ASYNC.nth c) async) CL (CL_BERR_CODE.nth c) code
    let s := putF (putF s CL (CL_BERRA_LO_ADDR.nth c) (addr % 2 ^ 32)) CL (CL_BERRA_HI_ADDR.nth c) (addr / 2 ^ 32)
    putFlag s CL (CL_BERR_VALID.nth c) true

/-- An access of system core `c` has completed with a non-zero code: its record, and the fault taken or BERR. -/
def coreBerr (s : State) (c code addr cause : Nat) (async : Bool) : State :=
  if async then evtPulse (berrNote s c code addr true) CL c
  else
    let s := berrNote s c code addr false
    setHart s c { hartOf s c with faultTaken := cause }

/-- An access of `ini` to register space at offset `a` ends: a system core takes the access fault where it fails. -/
def regAnswer (s : State) (ini a : Nat) (wr : Bool) (code v : Nat) : State :=
  let s := answer s code v
  if ini < 4 && code != 0 then coreBerr s ini code (0x3FF00000000 + a) (if wr then 7 else 5) false else s

/-- A register access that does not fail ends with its word alone. -/
@[simp] theorem regAnswer_ok (s : State) (ini a v : Nat) (wr : Bool) : regAnswer s ini a wr 0 v = answer s 0 v := by
  simp [regAnswer]

/-- A store of a core outside register space completes without the core waiting for it. -/
def coreAsync (use : CoreUse) (kind addr : Nat) : Bool := use == .plain && kind != 0 && !inRegs addr

/-- An access of a system core ends in the core with a code and bytes. -/
def coreEnd (s : State) (x : Access) (code : Nat) (bytes : List Byte) : State :=
  let s := { s with noc := { s.noc with doneAcc := tabPut s.noc.doneAcc x.ini (some (code, x.tag, bytes)) } }
  let s := answer s code (ofBytes bytes)
  if code = 0 then s else coreBerr s x.ini code x.addr (faultCause x.use x.kind) (coreAsync x.use x.kind x.addr)

/-- An access of a core all of whose lines are cached is made in the caches. SC stores only while its core holds a reservation of
the line, and gives 0 where it has stored (RISC-V; R446). -/
def coreHit (s : State) (x : Access) : State :=
  let line := x.addr / 64
  match x.use with
  | .lr => coreEnd (setHart s x.ini { hartOf s x.ini with resv := some line }) x 0 (cacheRead s x)
  | .sc => coreEnd (cacheWrite (setHart s x.ini { hartOf s x.ini with resv := none }) x x.data true) x 0 [0]
  | .amo o =>
    let old := cacheRead s x
    coreEnd (cacheWrite s x (toBytes x.size (amoRun o x.size (ofBytes old) (ofBytes x.data))) true) x 0 old
  | _ =>
    if x.use == .fetch || x.kind = 0 then coreEnd s x 0 (cacheRead s x)
    else coreEnd (cacheWrite s x x.data true) x 0 []

/-- SC of a core without a reservation of the line stores nothing and gives 1. -/
def scFails (s : State) (x : Access) : Bool := x.use == .sc && (hartOf s x.ini).resv != some (x.addr / 64)

/-- SC fails: what reservation the core had is gone. -/
def scFailed (s : State) (x : Access) : State := coreEnd (setHart s x.ini { hartOf s x.ini with resv := none }) x 0 [1]

/-- The caches' read of line `l`, which core `c` waits for. -/
def fillAccess (c l : Nat) : Access := { ini := c, kind := 0, addr := 64 * l, size := 64, use := .fill }
/-- The caches' write-back of line `l`. -/
def wbackAccess (l : Nat) (x : CacheLine) : Access :=
  { ini := x.owner, kind := 1, addr := 64 * l, size := 64, data := x.bytes, use := .wback }

/-- A line has been read: it is in the caches where its bytes came, and the accesses that wait for it end with its code where
they did not. -/
def fillDone (s : State) (g : Gather) (bytes : List Byte) : State :=
  let l := g.addr / 64
  if g.code = 0 then (if (lineAt s l).isSome then s else setLine s l { bytes := bytes, owner := g.ini })
  else
    (s.hub.coreWait.filter fun x => (accLines x).contains l).foldl (fun s x => coreEnd s x g.code [])
      { s with hub := { s.hub with coreWait := s.hub.coreWait.filter fun x => !(accLines x).contains l } }

/-- The caches read line `l` already. -/
def filling (s : State) (l : Nat) : Bool :=
  (s.noc.gather.any fun g => g.use == .fill && g.addr = 64 * l) || s.noc.held.any fun x => x.1.use == .fill && x.1.addr = 64 * l

/-- A write-back of the caches is under way. -/
def writingBack (s : State) : Bool :=
  (s.noc.gather.any fun g => g.use == .wback) || s.noc.held.any fun x => x.1.use == .wback

end Sys2Proof.Machine
end

