-- ==== Sys2Proof/Machine/DdrMap.lean ====
section
/-! DEFINITION. The address interleave of external memory (16_external_memory.md R425, R426), which every initiator bridge
decodes with. -/

namespace Sys2Proof.Machine

/-- Channel `ch`. -/
def chanOf (s : State) (ch : Nat) : DdrChan := tabOr { } s.ddr.chans ch
/-- `s` with a channel set. -/
def setChan (s : State) (ch : Nat) (c : DdrChan) : State := { s with ddr := { s.ddr with chans := tabPutD { } s.ddr.chans ch c } }

/-- MC_CFG.ILV, the field of M0's page. -/
def ddrIlv (s : State) : Nat := getF s (mcPage 0) MC_CFG_ILV

/-- Capacity C_m of channel `m` in bytes. -/
def ddrCap (s : State) (m : Nat) : Nat := (chanOf s m).cm * 2 ^ 30

/-- The requirement of R425 on the capacities. -/
def ilvOk (s : State) : Bool :=
  let c := fun m => (chanOf s m).cm
  match ddrIlv s with
  | 0 => c 0 == c 1 && c 1 == c 2 && c 2 == c 3 && decide (0 < c 0)
  | 1 => c 0 == c 1 && c 2 == c 3
  | _ => true

/-- The decode is formed and its requirement holds (R426). -/
def ddrDecodes (s : State) : Bool := s.ddr.formed && ilvOk s

/-- End of the DDR range. -/
def ddrEnd (s : State) : Nat := if ddrDecodes s then ddrCap s 0 + ddrCap s 1 + ddrCap s 2 + ddrCap s 3 else 0

/-- First address of the region of channel `m` where ILV is 0b10, of its pair where ILV is 0b01. -/
def ddrBase (s : State) (m : Nat) : Nat :=
  match ddrIlv s with
  | 0 => 0
  | 1 => if m < 2 then 0 else ddrCap s 0 + ddrCap s 1
  | _ => ((List.range m).map (ddrCap s)).sum

/-- Channel and channel offset of a DDR address (R425). -/
def ddrMap (s : State) (a : Nat) : Option (Nat × Nat) :=
  if ddrEnd s ≤ a then none
  else
    match ddrIlv s with
    | 0 => some (a / 256 % 4, a / 1024 * 256 + a % 256)
    | 1 =>
      let hi := ddrCap s 0 + ddrCap s 1 ≤ a
      let b := if hi then a - (ddrCap s 0 + ddrCap s 1) else a
      some ((if hi then 2 else 0) + b / 256 % 2, b / 512 * 256 + b % 256)
    | _ =>
      ((List.range 4).find? fun m => ddrBase s m ≤ a && decide (a < ddrBase s m + ddrCap s m)).map
        fun m => (m, a - ddrBase s m)

/-- Address of offset `o` of channel `m`: the inverse of R425. -/
def ddrAddr (s : State) (m o : Nat) : Nat :=
  match ddrIlv s with
  | 0 => o / 256 * 1024 + m * 256 + o % 256
  | 1 => ddrBase s m + o / 256 * 512 + m % 2 * 256 + o % 256
  | _ => ddrBase s m + o

/-- Bytes from a DDR address to the next boundary between channels (R299). -/
def ddrStride (s : State) (a : Nat) : Nat :=
  match ddrIlv s with
  | 0 => 256 - a % 256
  | 1 => 256 - a % 256
  | _ => match ddrMap s a with | some (m, o) => ddrCap s m - o | none => 1

end Sys2Proof.Machine
end

