-- ==== Sys2Proof/Machine/FlowTab.lean ====
section
/-! DEFINITION. The tables of a flow slice and how images load them (15_flow_slices.md R417). -/

namespace Sys2Proof.Machine

/-- One byte into the reflected CRC-32C register. -/
def crc32cStep (crc : Nat) (b : Byte) : Nat :=
  (List.range 8).foldl (fun c _ => if c % 2 = 1 then c / 2 ^^^ 0x82F63B78 else c / 2) (crc ^^^ b.toNat)

/-- CRC-32C of bytes from an initial value. -/
def crc32cFrom (init : Nat) (bs : List Byte) : Nat := bs.foldl crc32cStep init ^^^ 0xFFFFFFFF

/-- CRC-32C of bytes (05_images.md R123). -/
def crc32c (bs : List Byte) : Nat := crc32cFrom 0xFFFFFFFF bs

/-- Slice of lane die `die`. -/
def sliceOf (s : State) (die : Nat) : Slice := tabOr { } s.flow.slices die
/-- `s` with a slice set. -/
def setSlice (s : State) (die : Nat) (x : Slice) : State :=
  { s with flow := { s.flow with slices := tabPutD { } s.flow.slices die x } }
/-- A slice changed by `f`. -/
def updSlice (s : State) (die : Nat) (f : Slice → Slice) : State := setSlice s die (f (sliceOf s die))

/-- Streams of a source slice that `f` names are on their way no longer: their tokens return at once (R382, R397). -/
def outsEnd (s : State) (die : Nat) (f : OutStream → Bool) : State :=
  updSlice s die fun x =>
    { x with outs := x.outs.filter fun o => !f o, free := x.free + ((x.outs.filter f).map (·.tokens)).sum }

/-- Entries of a table and 32-bit words of an entry (R417); none of a table that does not exist. -/
def tblShape (table : Nat) : Nat × Nat :=
  match table with
  | 0 => (65536, 16) | 1 => (256, 4) | 2 => (4096, 16) | 3 => (65536, 16) | 4 => (4096, 2) | 5 => (4096, 4)
  | 6 => (256, 16) | 7 => (8192, 1) | 8 => (128, 16) | 9 => (512, 16) | _ => (0, 1)

/-- Key of word `w` of entry `e`. -/
def tblKey (table e w : Nat) : Nat := table * 4194304 + e * 16 + w
/-- What word `w` of a table counts from: LAST (word 10 of a context) counts from the last setting of the time base, which
every context took (R392). -/
def tblBase (x : Slice) (table w : Nat) : Word := if table = 0 ∧ w = 10 then x.lastAt else 0
/-- Word `w` of entry `e` of a table. -/
def tblGet (x : Slice) (table e w : Nat) : Word := tabOr 0 x.tbl (tblKey table e w) + tblBase x table w
/-- The slice with word `w` of entry `e` set. -/
def tblPut (x : Slice) (table e w : Nat) (v : Word) : Slice :=
  { x with tbl := tabPutD 0 x.tbl (tblKey table e w) (v - tblBase x table w) }
/-- The words of an entry. -/
def tblEntry (x : Slice) (table e : Nat) : List Word := (List.range (tblShape table).2).map (tblGet x table e)

/-- Bits of word `w` of an entry that the tables name; a write leaves the others 0. -/
def tblMask (table w : Nat) : Nat :=
  match table with
  | 0 => [0x3F7, 0x3FFFF, 0x0FFF03FF, 0x3FFFFF0F, 0xFFFFF, 0xFFFFF, 0x07FFFFFF, 0xFFFFFF, 0xFFFFFFFF, 0xFFFFFFFF, 0xFFFFFFFF,
      0x00FFFFFF, 0xFFFFFFFF, 0xFFFFFFFF, 0xFFFFFFFF, 0xFFFFFFFF].getD w 0
  | 1 => [0xFFFFFFFF, 0xFF3FFFFF, 0xFFFFFF3F, 0].getD w 0
  | 2 => 0xFFFFFFFF
  | 3 => if w < 8 then 0xFFFFFFFF else if w = 8 then 0x1FFFF else 0
  | 4 => if w = 0 then 0x3FFFF else 0xFFFF
  | 5 => 0x8003FFFF
  | 6 => if w = 0 then 0x1F else if w < 4 then 0xFFFFFFFF else 0xFFFFFF01
  | 7 => 0xFFFFFFFF
  | 8 => if w = 0 then 0x3FF else if w < 3 then 0xFFFFFFFF else if w = 3 then 0xF else if 8 ≤ w && w < 12 then 0xFFFFFFFF else 0
  | _ => if w < 14 then 0xFFFFFFFF else if w = 14 then 1 else 0

/-- A word written from outside: bits that the tables do not name stay 0, and ADMITTED is admission's to write (R389). -/
def tblStore (x : Slice) (table e w : Nat) (v : Word) : Slice :=
  let kept := if table = 0 ∧ w = 0 then tblGet x 0 e 0 &&& 8 else 0
  tblPut x table e w ((v &&& BitVec.ofNat 32 (tblMask table w)) ||| kept)

/-- Frames of a table that an image may load; table 9 has none (R417). -/
def tblFrames (table : Nat) : Nat := if table = 9 then 0 else (tblShape table).1 * (tblShape table).2 * 4 / 256

/-- A target 0x04 frame at address `a` is written (R417). -/
def laneFrameWrite (s : State) (die a : Nat) (f : Frame) : State :=
  let table := a / 262144
  let i := a % 262144
  let wpe := (tblShape table).2
  setSlice s die ((List.range 64).foldl (fun x k =>
    tblStore x table ((64 * i + k) / wpe) ((64 * i + k) % wpe) (BitVec.ofNat 32 (frGet32 f k))) (sliceOf s die))
where
  /-- Word `k` of a frame. -/
  frGet32 (f : Frame) (k : Nat) : Nat := (f >>> (32 * k)).toNat % 2 ^ 32

end Sys2Proof.Machine
end

