-- ==== Sys2Proof/Machine/NocOps.lean ====
section
/-! DEFINITION. The packet network as every chapter uses it: nodes and addresses (12_noc.md R294, R303), credits (R305 to
R307), injection and completion of accesses (R299, R306), quench and autotomy (R317 to R320). -/

namespace Sys2Proof.Machine

/-! ### Nodes (R294) -/

/-- Node ID: die, router and endpoint. -/
def mkNode (d r e : Nat) : Nat := 256 * d + 8 * r + e
/-- Die of a node. -/
def nodeDie (n : Nat) : Nat := n / 256
/-- Router of a node. -/
def nodeRtr (n : Nat) : Nat := n / 8 % 32
/-- Endpoint of a node. -/
def nodeEp (n : Nat) : Nat := n % 8
/-- An endpoint that exists. -/
def nodeOk (n : Nat) : Bool := (endpoints (nodeDie n) (nodeRtr n)).contains (nodeEp n)

/-- What an endpoint is. -/
inductive EpKind where
  | fport (p : Nat) | deep (j : Nat) | group (q : Nat) | regs | newt | cfgEng | ddr (ch : Nat)
  | cluster | sram | secCore | hubDma | mgmtUnit | debug | keepCtl | slice (b : Nat) | pcie (c : Nat) | store | none
  deriving DecidableEq, Repr

/-- The endpoint at a node (R294). -/
def epKind (n : Nat) : EpKind :=
  let d := nodeDie n
  let r := nodeRtr n
  let e := nodeEp n
  if !nodeOk n then .none
  else if isFabric d then
    let x := r % 8
    let y := r / 8
    if e = 0 then .fport (6 * x + y)
    else if e = 1 then .fport (6 * x + 3 + y)
    else if x % 2 = 1 && 2 ≤ e && e ≤ 4 then .deep (8 * (x / 2) + 3 * y + (e - 2))
    else if x = 3 && y = 1 then (if e = 5 then .regs else if e = 6 then .newt else .cfgEng)
    else if x % 2 = 0 && y = 1 then .group (x / 2)
    else .ddr (if d = 3 then (if y = 0 then 0 else 1) else (if y = 2 then 2 else 3))
  else if d = 8 then
    match r, e with
    | 0, _ => .cluster | 1, _ => .sram | 2, _ => .regs | 3, _ => .secCore | 4, 0 => .hubDma | 4, _ => .mgmtUnit
    | 5, _ => .debug | 6, _ => .keepCtl | _, _ => .none
  else if isLane d then (if r < 2 then .slice r else if e = 0 then .pcie ((d - 9) / 2) else .regs)
  else if r = 1 then .store else .regs

/-- Register target of a die. -/
def regNode (d : Nat) : Nat :=
  if isFabric d then mkNode d 11 5 else if d = 8 then mkNode 8 2 0
  else if isLane d then mkNode d 2 1 else mkNode d 2 0

/-- Node of fabric NoC port `p` of die `n` (R303). -/
def portNode (n p : Nat) : Nat := mkNode n (8 * (p % 3) + p / 6) (if p % 6 < 3 then 0 else 1)
/-- Node of deep memory `j` of die `n`. -/
def deepNode (n j : Nat) : Nat :=
  let r := j % 8
  let y := r / 3
  mkNode n (8 * y + 2 * (j / 8) + 1) (2 + r - 3 * y)
/-- Node of DDR channel `ch`. -/
def ddrNode (ch : Nat) : Nat :=
  match ch with
  | 0 => mkNode 3 7 5 | 1 => mkNode 3 23 5 | 2 => mkNode 7 16 5 | _ => mkNode 7 0 5

/-- Node of the bridge of an initiator (R294, R302). -/
def iniNode (ini : Nat) : Nat :=
  if ini < 4 then mkNode 8 0 0 else if ini = 4 then mkNode 8 3 0 else if ini = 5 then mkNode 8 4 0
  else if ini = 6 then mkNode 8 5 0 else if ini = 7 then mkNode 9 2 0 else if ini = 8 then mkNode 11 2 0
  else if ini = 9 then mkNode 8 6 0 else if ini = 10 then mkNode 8 4 1
  else if ini < 24 then mkNode (ini - 16) 11 6 else if ini < 32 then mkNode (ini - 24) 11 7
  else if ini < 64 then mkNode ((ini - 32) / 4) (8 + 2 * ((ini - 32) % 4)) 5
  else if ini < 72 then mkNode (9 + (ini - 64) / 2) ((ini - 64) % 2) 0
  else if ini < 74 then mkNode (13 + (ini - 72)) 1 0
  else portNode ((ini - 128) / 48) ((ini - 128) % 48)

/-- The first initiator ID of a node, none for a target-only endpoint. -/
def nodeIni (n : Nat) : Option Nat :=
  let d := nodeDie n
  match epKind n with
  | .fport p => some (128 + 48 * d + p)
  | .group q => some (32 + 4 * d + q)
  | .newt => some (16 + d)
  | .cfgEng => some (24 + d)
  | .cluster => some 0 | .secCore => some 4 | .hubDma => some 5 | .mgmtUnit => some 10 | .debug => some 6
  | .keepCtl => some 9
  | .slice b => some (64 + 2 * (d - 9) + b)
  | .pcie c => some (7 + c)
  | .store => some (72 + (d - 13))
  | _ => none

/-- Bridge window field of a node: page, and field moved to the endpoint's window (R333). -/
def brF (f : FieldRef) (n : Nat) : FieldRef := f.plus (256 * nodeEp n)
/-- NR_ page of a node's router. -/
def nodePage (n : Nat) : Nat := nrPage (nodeDie n) (nodeRtr n)
/-- A bridge field of a node. -/
def brGet (s : State) (n : Nat) (f : FieldRef) : Nat := getF s (nodePage n) (brF f n)
/-- A saturating bridge counter, `k` added. -/
def brUp (s : State) (n : Nat) (f : FieldRef) (k : Nat) : State := countUp s (nodePage n) (brF f n) k

/-! ### Addresses (R26 to R29, R303) -/

/-- Node and end of the region of an address, none where it is unmapped. -/
def destOf (s : State) (a : Nat) : Option (Nat × Nat) :=
  if a < 0x20000000000 then (ddrMap s a).map fun c => (ddrNode c.1, ddrEnd s)
  else if a < 0x30000000000 then
    let n := (a - 0x20000000000) / 0x2000000000
    let p := a / 0x80000000 % 64
    if p < 48 then some (portNode n p, (a / 0x80000000 + 1) * 0x80000000) else none
  else if a < 0x30010000000 then
    let k := (a - 0x30000000000) / 0x100000
    some (deepNode (k / 32) (k % 32), (a / 0x100000 + 1) * 0x100000)
  else if 0x31000000000 ≤ a && a < 0x31000800000 then some (mkNode 8 1 0, 0x31000800000)
  else if 0x32000000000 ≤ a && a < 0x32080000000 then
    some (mkNode (if a / 4096 % 2 = 0 then 13 else 14) 1 0, 0x32080000000)
  else if 0x33000000000 ≤ a && a < 0x34000000000 then some (mkNode 9 2 0, 0x34000000000)
  else if 0x34000000000 ≤ a && a < 0x35000000000 then some (mkNode 11 2 0, 0x35000000000)
  else if 0x3FF00000000 ≤ a && a < 0x40000000000 then
    let d := regDie (a % 0x100000000)
    if d = 15 then some (mkNode 8 2 0, (a / 4096 + 1) * 4096)
    else if (pageOf d (regBlk (a % 0x100000000))).isSome then some (regNode d, (a / 4096 + 1) * 4096) else none
  else none

/-- The whole access lies in one region of the map (R29), and is no read of die 15 (R17). -/
def accessOk (s : State) (a n : Nat) (write : Bool) : Bool :=
  match destOf s a with
  | none => false
  | some (_, e) => decide (0 < n) && decide (a + n ≤ e) && (write || !inRegs a || regDie (a % 0x100000000) != 15)

/-- Packets of an access: address and size of each (R299). -/
def splitAccess (s : State) (a n fuel : Nat) : List (Nat × Nat) :=
  match fuel with
  | 0 => []
  | f + 1 =>
    if n = 0 then []
    else
      let k := min n (256 - a % 32)
      let k := if a < 0x20000000000 then min k (ddrStride s a) else k
      let k := if 0x32000000000 ≤ a && a < 0x32080000000 then min k (4096 - a % 4096) else k
      (a, k) :: splitAccess s (a + k) (n - k) f

/-! ### Flits -/

/-- Data flits of `n` bytes from address `a` (R299). -/
def flitCount (a n : Nat) : Nat := (a % 32 + n + 31) / 32

/-- Data flits of bytes that start at address `a`, each byte in its lane. -/
def flitsOf (a : Nat) (bs : List Byte) : List (BitVec 256) :=
  let all := List.replicate (a % 32) 0 ++ bs
  (List.range (flitCount a bs.length)).map fun i => BitVec.ofNat 256 (ofBytes ((all.drop (32 * i)).take 32))

/-- The bytes of an access of `n` bytes at `a` from its data flits. -/
def bytesOf (a n : Nat) (fs : List (BitVec 256)) : List Byte :=
  ((fs.flatMap fun f => toBytes 32 f.toNat).drop (a % 32)).take n

/-- VC of a command (R298). -/
def cmdVc (cmd : Nat) : Nat := if cmd = 3 then 3 else if cmd < 3 then 1 else if cmd < 6 then 2 else 0
/-- Channel of a packet: 0 VC0, 1 VC1, 2 VC2, 3 VC3 scheduled, 4 VC3 bulk (R337). -/
def packetChan (p : Packet) : Nat := if cmdVc p.cmd = 3 then (if p.sched then 3 else 4) else cmdVc p.cmd

/-- The header flit (R297). -/
def packetHeader (p : Packet) : BitVec 256 :=
  BitVec.ofNat 256 (p.cmd % 16 + 2 ^ 4 * cmdVc p.cmd + 2 ^ 6 * ofBool p.sched + 2 ^ 7 * (p.urg % 8) + 2 ^ 10 * (p.len % 16)
    + 2 ^ 14 * (p.src % 1024) + 2 ^ 24 * (p.srcNode % 4096) + 2 ^ 36 * (p.dst % 4096) + 2 ^ 48 * (p.tag % 4096)
    + 2 ^ 60 * (p.addr % 2 ^ 42) + 2 ^ 102 * (p.size % 512) + 2 ^ 111 * (p.code % 16) + 2 ^ 115 * (p.chk % 8)
    + 2 ^ 118 * ofBool p.poison + 2 ^ 119 * (p.cls % 8) + 2 ^ 122 * ofBool p.peek + 2 ^ 124 * (p.flow % 2 ^ 18)
    + 2 ^ 142 * (p.arg0 % 256) + 2 ^ 150 * (p.arg1 % 2 ^ 106))

/-- The user check field of a data flit (R324): 8 parity bits, or four SEC-DED check bytes. -/
def userChk (mode : Nat) (f : BitVec 256) : Nat :=
  if mode = 4 || mode = 5 then
    ofBits ((List.range 8).filter fun j => (bitsOf 32 (nGet f.toNat (32 * j) 32)).length % 2 == 1)
  else if mode = 6 || mode = 7 then
    (List.range 4).foldl (fun n j => n + eccCheck (nGet f.toNat (64 * j) 64) * 2 ^ (8 * j)) 0
  else 0

/-- What the receiver makes of a data flit and its field: the flit as corrected, and whether the field fails (R324). -/
def chkFlit (mode : Nat) (f : BitVec 256) (chk : Nat) : BitVec 256 × Bool :=
  if mode = 4 || mode = 5 then (f, chk % 256 != userChk mode f)
  else if mode = 6 || mode = 7 then
    (List.range 4).foldl (fun (r : BitVec 256 × Bool) j =>
      match eccDecode (nGet f.toNat (64 * j) 64) (nGet chk (8 * j) 8) with
      | .clean => r
      | .corrected d => (r.1 ^^^ (BitVec.ofNat 256 (d ^^^ nGet f.toNat (64 * j) 64) <<< (64 * j)), r.2)
      | .uncorrectable => (r.1, true)) (f, false)
  else (f, false)

/-! ### Credits (R305, R307) -/

/-- Request slots of a target (R305), 0 for an endpoint that is no target of VC1 and VC3. -/
def targetSlots (n : Nat) : Nat :=
  match epKind n with
  | .ddr _ => 256
  | .sram => 128 | .pcie _ => 128 | .slice _ => 128
  | .regs => 64 | .deep _ => 64 | .fport _ => 64 | .store => 64
  | _ => 0

/-- A general initiator (R302). -/
def iniGeneral (ini : Nat) : Bool := ini < 11 || (16 ≤ ini && ini < 32)
/-- Quota of a general initiator. -/
def genQuota (ini : Nat) : Nat := if ini < 4 || ini = 5 then 4 else if 7 ≤ ini && ini < 10 then 2 else 1
/-- The ID that stands for the bridge: system cores share one. -/
def bridgeId (ini : Nat) : Nat := if ini < 4 then 0 else ini

/-- Key of a pair of initiator bridge and target. -/
def pairKey (ini node : Nat) : Nat := 4096 * bridgeId ini + node

/-- Reach entry of a pair: QUOTA and CHK. -/
def reachOf (s : State) (ini node : Nat) : Nat := tabOr 0 s.noc.reach (pairKey ini node)

/-- QUOTA(i, t): 0 where the bridge has no counter for the target. -/
def quotaOf (s : State) (ini node : Nat) : Nat :=
  if targetSlots node = 0 then 0
  else if iniGeneral ini then genQuota ini
  else reachOf s ini node % 64

/-- CHK of a pair. -/
def chkOf (s : State) (ini node : Nat) : Nat := if iniGeneral ini then 0 else reachOf s ini node / 64 % 8

/-- Credits held. -/
def creditsHeld (s : State) (ini node : Nat) : Nat := quotaOf s ini node - tabOr 0 s.noc.away (pairKey ini node)

/-- `n` credits spent. -/
def creditTake (s : State) (ini node n : Nat) : State :=
  { s with noc := { s.noc with away := tabPutD 0 s.noc.away (pairKey ini node) (tabOr 0 s.noc.away (pairKey ini node) + n) } }
/-- `n` credits back. -/
def creditBack (s : State) (ini node n : Nat) : State :=
  { s with noc := { s.noc with away := tabPutD 0 s.noc.away (pairKey ini node) (tabOr 0 s.noc.away (pairKey ini node) - n) } }

/-! ### Quench and autotomy as conditions (R317 to R319) -/

/-- QU_Qk bit of an initiator. -/
def quBit (s : State) (ini : Nat) : Bool := nBit (getReg s (QU + 0x040 + 4 * (ini / 32))).toNat (ini % 32)

/-- Autotomy causes of the initiator half and of the target half. -/
def causesI (s : State) (n : Nat) : List Nat := tabOr [] s.noc.causeI n
@[inherit_doc causesI] def causesT (s : State) (n : Nat) : List Nat := tabOr [] s.noc.causeT n

/-- Cause 3 of a fabric NoC port: initiator half and target half (R319). -/
def portCause (s : State) (die p : Nat) : Bool × Bool :=
  if !portOn s die p then (true, true)
  else
    match ownerAt s die (portCol p) with
    | none => (!s.fab.staticOn.contains die, !s.fab.staticOn.contains die)
    | some e =>
      let st := partStateOn s die e.no
      (st != pLive && st != pFenced, st != pLive)

/-- A fabric port's target half is in autotomy of cause 3 whether or not its entry has been taken yet (R319): from reset on a
port is disabled. -/
def portShut (s : State) (n : Nat) : Bool :=
  match epKind n with
  | .fport p => (portCause s (nodeDie n) p).2
  | _ => false

/-- A bridge is quenched for a reason of its own (R318). -/
def bridgeQuenched (s : State) (n : Nat) : Bool :=
  causesI s n != [] || portShut s n

/-- An initiator injects nothing. -/
def quenched (s : State) (ini : Nat) : Bool := quBit s ini || bridgeQuenched s (iniNode ini)

/-! ### System cores (17_processors.md R447, R448) -/

/-- System core `c` has an access outstanding. -/
def coreBusy (s : State) (c : Nat) : Bool :=
  (s.noc.outst.any fun o => o.ini == c && !o.absorbed) || (s.noc.waiting.any fun h => h.pkt.src == c)
    || s.hub.coreWait.any fun x => x.ini == c

/-- Cores whose EN was written with 0 are held in reset once no access of theirs is outstanding (17_processors.md R447). -/
def hartsSettle (s : State) : State :=
  (List.range 4).foldl (fun s c => if (hartOf s c).stopping && !coreBusy s c then setHart s c { } else s) s

/-! ### Completion of accesses (R299, R328) -/

/-- Fabric side of port `p` of `die`. -/
def nocPort (s : State) (die p : Nat) : NocPort := tabOr { } s.noc.ports (64 * die + p)
/-- `s` with the fabric side of a port set. -/
def setNocPort (s : State) (die p : Nat) (x : NocPort) : State :=
  { s with noc := { s.noc with ports := tabPutD { } s.noc.ports (64 * die + p) x } }

/-- Beats of a packet's data on a fabric port; a packet without data is one beat. -/
def beatsOf (b : PortBeat) (mode a : Nat) (bs : List Byte) : List PortBeat :=
  let fs := flitsOf a bs
  if fs = [] then [{ b with last := true }]
  else fs.zipIdx.map fun fi =>
    { b with data := fi.1, chk := BitVec.ofNat 32 (userChk mode fi.1), last := decide (fi.2 + 1 = fs.length) }

/-- The access of descriptor `k` of an engine has ended: the descriptor has its code and bytes, and one that an abort dropped
clears (10_loop_engines.md R260, R264). -/
def descResp (s : State) (die e k code : Nat) (bytes : List Byte) : State :=
  let x := engOf s die e
  let d := tabOr { } x.descs k
  if !d.busy then s
  else if d.dropped then setEng s die e { x with descs := tabDel x.descs k }
  else setEng s die e { x with descs := tabPut x.descs k { d with resp := some (code, bytes) } }

/-- An access ends: it is counted, and its initiator gets the code and the bytes. `net`: it entered the network. -/
def accessDone (s : State) (g : Gather) (net : Bool) : State :=
  let n := iniNode g.ini
  let s := if g.code = 0 then s else brUp s n NR_BR_ERRRSP_COUNT 1
  let s :=
    if !net then s
    else
      let s := brUp s n NR_BR_TXN_COUNT 1
      let lo := brGet s n NR_BR_BYTES_LO_BYTES
      let hi := brGet s n NR_BR_BYTES_HI_BYTES
      let tot := min (hi * 2 ^ 32 + lo + g.size) (2 ^ 64 - 1)
      putF (putF s (nodePage n) (brF NR_BR_BYTES_LO_BYTES n) (tot % 2 ^ 32)) (nodePage n) (brF NR_BR_BYTES_HI_BYTES n)
        (tot / 2 ^ 32)
  let bytes := if g.kind = 0 && g.code = 0 then memRead g.bytes g.addr g.size else []
  let s := match g.use with
    | .fill => fillDone s g bytes
    | .wback => if g.code = 0 then s else coreBerr s g.ini g.code g.addr 7 true
    | _ =>
      let s := { s with noc := { s.noc with doneAcc := tabPut s.noc.doneAcc g.ini (some (g.code, g.accTag, bytes)) } }
      let s := answer s g.code (ofBytes bytes)
      if g.ini < 4 && g.code != 0 then
        coreBerr s g.ini g.code g.addr (faultCause g.use g.kind) (coreAsync g.use g.kind g.addr)
      else s
  match epKind n with
  | .fport p =>
    if 2 ≤ g.kind then s
    else
      let x := nocPort s (nodeDie n) p
      let mode := (destOf s g.addr).elim 0 fun d => chkOf s g.ini d.1
      setNocPort s (nodeDie n) p
        { x with rs := x.rs ++ beatsOf { kind := g.kind, tag := g.accTag, code := g.code } mode g.addr bytes
                 rsResv := x.rsResv ++ [g.resv] }
  | .group q => descResp s (nodeDie n) (72 * q + g.accTag / 4) (g.accTag % 4) g.code bytes
  | _ => s

/-- Access `no`, where it is still gathering. -/
def gatherOf (s : State) (no : Nat) : Option Gather := s.noc.gather.find? (·.no == no)

/-- A packet of access `no` at `a` has ended with `code` and `bytes`; the last one completes the access with the first
non-zero code in address order. -/
def packetDone (s : State) (no a code : Nat) (bytes : List Byte) : State :=
  match gatherOf s no with
  | none => s
  | some g =>
    let g := if code != 0 && (g.code = 0 || a < g.codeAddr) then { g with code := code, codeAddr := a } else g
    let g := { g with left := g.left - 1, bytes := memWrite g.bytes a bytes }
    if g.left = 0 then accessDone { s with noc := { s.noc with gather := s.noc.gather.filter (·.no != no) } } g true
    else { s with noc := { s.noc with gather := s.noc.gather.map fun x => if x.no = no then g else x } }

/-! ### Injection (R299 to R306) -/

/-- Response flits a request reserves (R306). -/
def respFlits (p : Packet) : Nat := if p.cmd = 0 then flitCount p.addr p.size + 1 else if p.cmd = 1 then 1 else 0

/-- Response flits reserved in the bridge of node `n`: of requests outstanding, of responses that wait for the rest of their
access, and of those that have not passed to a fabric port's design yet (R306). -/
def reserved (s : State) (n : Nat) : Nat :=
  ((s.noc.outst.filter fun o => iniNode o.ini = n).map (·.resv)).sum +
    ((s.noc.gather.filter fun g => iniNode g.ini = n).map (·.resv)).sum +
    match epKind n with
    | .fport p => (nocPort s (nodeDie n) p).rsResv.sum
    | _ => 0

/-- A register-space request of initiator `ini` is outstanding, its response not yet come (R301, R321). -/
def regOutst (s : State) (ini : Nat) : Bool := s.noc.outst.any fun o => o.ini = ini && inRegs o.addr

/-- A held packet can be injected. -/
def canInject (s : State) (h : HeldPkt) : Bool :=
  let p := h.pkt
  !quenched s p.src && decide (0 < creditsHeld s p.src p.dst)
    && decide (reserved s (iniNode p.src) + respFlits p ≤ Config.rspBuf (iniNode p.src))
    && !(inRegs p.addr && regOutst s p.src)

/-- A packet of a slice's stream. -/
def ofStream (p : Packet) : Bool := p.cmd = 3 && 64 ≤ p.src && p.src < 72

/-- The last packet of a stream has left its source slice, whose tokens return (15_flow_slices.md R382, R397). -/
def streamLeft (s : State) (p : Packet) : State :=
  if ofStream p && 2048 ≤ p.tag then
    outsEnd s (9 + (p.src - 64) / 2) fun o => o.bridge == p.src && o.no == p.tag % 2048
  else s

/-- A packet enters the network: its tag, its credit, its reservation. A slice's stream packets carry their frame's tag
(15_flow_slices.md R404). -/
def inject (s : State) (h : HeldPkt) : State :=
  let n := iniNode h.pkt.src
  let stream := ofStream h.pkt
  let t := if stream then h.pkt.tag else tabOr 0 s.noc.nextTag n
  let p := { h.pkt with tag := t }
  let s := creditTake s p.src p.dst 1
  let o : Outst :=
    { ini := p.src, tag := t, target := p.dst, kind := p.cmd, addr := p.addr, size := p.size, resv := respFlits p,
      acc := h.acc }
  let s := { s with noc := { s.noc with
      flight := s.noc.flight ++ [p], nextTag := if stream then s.noc.nextTag else tabPutD 0 s.noc.nextTag n ((t + 1) % 4096)
      outst := if p.cmd < 2 then s.noc.outst ++ [o] else s.noc.outst } }
  if p.cmd < 2 then s else packetDone (streamLeft s p) h.acc p.addr 0 []

/-- Held packet `k` keeps the later packet `h` back: both are of one initiator, and where both are of streams, also of one
lane and one destination, since packets of different frames may interleave (15_flow_slices.md R404). -/
def holdsBack (k h : HeldPkt) : Bool :=
  k.pkt.src = h.pkt.src &&
    !(ofStream k.pkt && ofStream h.pkt && (k.pkt.sched != h.pkt.sched || k.pkt.dst != h.pkt.dst))

/-- Held packets are injected in issue order; one that cannot go holds later ones back. -/
def pumpList (s : State) (hs : List HeldPkt) (kept : List HeldPkt) : State × List HeldPkt :=
  match hs with
  | [] => (s, kept)
  | h :: r =>
    if !(kept.any fun k => holdsBack k h) && canInject s h then pumpList (inject s h) r kept
    else pumpList s r (kept ++ [h])

/-- Initiator ID of a loop-engine group (R302). -/
def iniLoop (ini : Nat) : Bool := 32 ≤ ini && decide (ini < 64)

/-- Engine of its group that a held packet of a LOOP bridge is of. -/
def heldEng (s : State) (h : HeldPkt) : Nat := ((gatherOf s h.acc).elim 0 (·.accTag)) / 4

/-- The next packet of a LOOP bridge: of the request it has begun, else of the next engine in turn that has one
(10_loop_engines.md R262). -/
def loopNext (s : State) (ini : Nat) : Option HeldPkt :=
  let hs := s.noc.waiting.filter (·.pkt.src == ini)
  let last := tabOr (71, 0) s.noc.lastEng ini
  let begun := hs.find? fun h => h.acc = last.2 && (gatherOf s h.acc).any (accessSent s)
  begun.or (hs.foldl (fun b h =>
    let turn := fun (h : HeldPkt) => (heldEng s h + 143 - last.1) % 72
    match b with
    | none => some h
    | some x => if turn h < turn x then some h else b) none)

/-- A LOOP bridge injects what it can, one request of an engine after the other. -/
def loopPump (s : State) (ini fuel : Nat) : State :=
  match fuel with
  | 0 => s
  | f + 1 =>
    match loopNext s ini with
    | none => s
    | some h =>
      if !canInject s h then s
      else
        let s : State := { s with noc := { s.noc with
          waiting := s.noc.waiting.erase h, lastEng := tabPut s.noc.lastEng ini (heldEng s h, h.acc) } }
        loopPump (inject s h) ini f

/-- Every bridge injects what it can. -/
def injectAll (s : State) : State :=
  let loops := s.noc.waiting.filter fun h => iniLoop h.pkt.src
  let r := pumpList s (s.noc.waiting.filter fun h => !iniLoop h.pkt.src) []
  let s : State := { r.1 with noc := { r.1.noc with waiting := r.2 ++ loops } }
  ((loops.map (·.pkt.src)).eraseDups).foldl (fun s i => loopPump s i loops.length) s

/-- URG an initiator bridge stamps (R309). -/
def urgOf (s : State) (ini kind : Nat) (sched : Bool) : Nat :=
  if sched then 7
  else if kind = 3 then brGet s (iniNode ini) NR_BR_CTRL_URG_STRM else brGet s (iniNode ini) NR_BR_CTRL_URG_REQ

/-- What an initiator bridge gathers of an access. -/
def gatherNew (a : Access) (kind no left : Nat) : Gather :=
  { no := no, ini := a.ini, accTag := a.tag, kind := kind, addr := a.addr, size := a.size, left := left, use := a.use }

/-- An initiator bridge decodes an access (R299): code 0x1 where it does not decode, 0x3 where the bridge has no counter for
a target, otherwise its packets wait for injection. -/
def accessPut (s : State) (a : Access) (bad : Bool) : State :=
  let kind := if inRegs a.addr && 2 ≤ a.kind then 1 else a.kind
  let parts := splitAccess s a.addr a.size a.size
  let node := fun x => (destOf s x).elim 0 (·.1)
  let g := gatherNew a kind s.noc.nextAcc parts.length
  let s := { s with noc := { s.noc with nextAcc := s.noc.nextAcc + 1 } }
  if !accessOk s a.addr a.size (kind != 0) then accessDone s { g with code := 1 } false
  else if parts.any fun p => quotaOf s a.ini (node p.1) = 0 then accessDone s { g with code := 3 } false
  else
    let sched := a.sched && (64 ≤ a.ini && a.ini < 72) && kind = 3
    let mk := fun (p : Nat × Nat) =>
      let pkt : Packet := { cmd := kind, sched := sched, urg := urgOf s a.ini kind sched
                            len := if kind = 0 then 0 else flitCount p.1 p.2
                            src := a.ini, srcNode := iniNode a.ini, dst := node p.1, addr := p.1, size := p.2
                            chk := chkOf s a.ini (node p.1), cls := iniClass a.ini, peek := a.peek, chkBad := bad
                            data := if kind = 0 then [] else (a.data.drop (p.1 - a.addr)).take p.2 }
      ({ pkt := pkt, acc := g.no } : HeldPkt)
    { s with noc := { s.noc with gather := s.noc.gather ++ [g], waiting := s.noc.waiting ++ parts.map mk } }

/-- Accesses that a quench held are decoded once it has ended, in order of issue (R317). -/
def heldTake (s : State) : State :=
  (s.noc.held.filter fun x => !quenched s x.1.ini).foldl (fun s x => accessPut s x.1 x.2)
    { s with noc := { s.noc with held := s.noc.held.filter fun x => quenched s x.1.ini } }

/-- An access comes to its bridge: a quenched bridge holds it without completing it (R317). -/
def bridgeTake (s : State) (a : Access) (bad : Bool) : State :=
  if quenched s a.ini then { s with noc := { s.noc with held := s.noc.held ++ [(a, bad)] } } else accessPut s a bad

/-- The caches of the system cores take a core's access of a region they hold: it is made there, or waits for the first of its
lines that is not (17_processors.md R446). A store to the Keep user area goes on to the bridge. -/
def coreTry (s : State) (a : Access) : State :=
  if scFails s a then scFailed s a
  else if a.kind != 0 && a.use == .plain && keepArea a.addr then bridgeTake (cacheWrite s a a.data false) a false
  else
    match (accLines a).find? fun l => (lineAt s l).isNone with
    | none => coreHit s a
    | some l =>
      let s := { s with hub := { s.hub with coreWait := s.hub.coreWait ++ [a] } }
      if filling s l then s else bridgeTake s (fillAccess a.ini l) false

/-- The accesses of cores that wait for lines are tried again, oldest first. -/
def coreRetry (s : State) : State := s.hub.coreWait.foldl coreTry { s with hub := { s.hub with coreWait := [] } }

/-- Every bridge goes on: the caches with the lines that have come, the bridges with the accesses a quench held and with what
they can inject. -/
def pump (s : State) : State := injectAll (heldTake (coreRetry s))

/-- An initiator issues an access. -/
def accessTake (s : State) (a : Access) (bad : Bool) : State :=
  if quenched s a.ini then bridgeTake s a bad else pump (accessPut s a bad)

/-- Lines `ls` that are dirty are written back, and stay in the caches clean (17_processors.md R446). -/
def linesClean (s : State) (ls : List Nat) : State :=
  ls.foldl (fun s l => match lineAt s l with
    | some x => if x.dirty then bridgeTake (setLine s l { x with dirty := false }) (wbackAccess l x) false else s
    | none => s) s

/-- The lines `f` names leave the caches as they are. -/
def linesDrop (s : State) (f : Nat → Bool) : State :=
  { s with hub := { s.hub with cache := s.hub.cache.filter fun e => !f e.1 } }

/-- A system core makes an access (17_processors.md R446, R448): one its region forbids is not made and faults with code 0x1. -/
def coreTake (s : State) (a : Access) : State :=
  if useForbidden a then coreEnd s a 1 []
  else
    match a.use with
    | .wfi => wfiEnter s a.ini
    | .branch t => traceCore s a.ini 1 t
    | .trap cause pc => traceTrap s a.ini cause pc
    | .fires hit => compsPass s a.ini hit
    | .evict => pump (delLine (linesClean s [a.addr / 64]) (a.addr / 64))
    | _ => if fetchable a.addr && fetchable (a.addr + a.size - 1) then pump (coreTry s a) else accessTake s a false

/-! ### Responses -/

/-- The same packet, whatever urgency and poison it has gained on its way. -/
def samePkt (a b : Packet) : Bool :=
  a.cmd = b.cmd && a.src = b.src && a.srcNode = b.srcNode && a.dst = b.dst && a.tag = b.tag && a.addr = b.addr
    && a.arg0 = b.arg0 && a.size = b.size

/-- A packet leaves the network. -/
def flightDel (s : State) (p : Packet) : State :=
  { s with noc := { s.noc with flight := s.noc.flight.eraseP (samePkt p), loose := s.noc.loose.eraseP (samePkt p) } }

/-- A packet enters the network. -/
def flightAdd (s : State) (p : Packet) : State := { s with noc := { s.noc with flight := s.noc.flight ++ [p] } }

/-- A VC0 request is sent, with URG 7 and the next tag of its sender, space for its response reserved (R296, R309). -/
def vc0Send (s : State) (p : Packet) : State :=
  let t := tabOr 0 s.noc.nextTag p.srcNode
  flightAdd { s with noc := { s.noc with
    nextTag := tabPutD 0 s.noc.nextTag p.srcNode ((t + 1) % 4096), vc0 := s.noc.vc0 ++ [(p.srcNode, p.dst, t)] } }
    { p with urg := 7, tag := t }

/-- The answer of a VC0 request (R298). -/
def mrspPkt (p : Packet) (code : Nat) : Packet :=
  { cmd := 10, urg := 7, src := p.src, srcNode := p.dst, dst := p.srcNode, tag := p.tag, code := code }

/-- The response to request `p` of target `n` (R306, R307): RSP with data for a RD or WR, which returns the credit. -/
def rspPkt (s : State) (n : Nat) (p : Packet) (code : Nat) (bytes : List Byte) (poison : Bool) : Packet :=
  let d := if p.cmd = 0 && code = 0 then bytes else []
  { cmd := 4, urg := brGet s n NR_BR_CTRL_URG_RSP, len := if d = [] then 0 else flitCount p.addr d.length
    src := p.src, srcNode := n, dst := p.srcNode, tag := p.tag, addr := p.addr, size := p.size, code := code, chk := p.chk
    poison := poison, cls := p.cls, data := d }

/-- A CRD of `k` credits of target `n` to the bridge of request `p`. -/
def crdPkt (s : State) (n : Nat) (p : Packet) (k : Nat) : Packet :=
  { cmd := 5, urg := brGet s n NR_BR_CTRL_URG_RSP, src := p.src, srcNode := n, dst := p.srcNode, cls := p.cls, arg0 := k }

/-- Request `p` of target `n` is answered: its slot frees and its credit returns (R307). -/
def targetAnswer (s : State) (n : Nat) (p : Packet) (code : Nat) (bytes : List Byte) (poison : Bool) : State :=
  let s := { s with noc := { s.noc with slots := s.noc.slots.eraseP fun x => x.1 = n && samePkt p { x.2 with arg0 := p.arg0 } } }
  flightAdd s (if p.cmd < 2 then rspPkt s n p code bytes poison else crdPkt s n p 1)

/-- The code of a broadcast from two of its copies: rejected, then isolated, before any other (02_register_pages.md R59). -/
def bcastCode (a b : Nat) : Nat := if a = 4 || b = 4 then 4 else if a = 2 || b = 2 then 2 else max a b

/-- A copy of broadcast `no` that stalled has ended with `code`; after the last the broadcast is answered (R58). -/
def bcastCopy (s : State) (no code : Nat) : State :=
  match s.pg.bcasts.find? (·.no == no) with
  | none => s
  | some b =>
    let c := bcastCode b.code code
    if 1 < b.left then
      { s with pg := { s.pg with bcasts := s.pg.bcasts.map fun x =>
          if x.no = no then { x with left := x.left - 1, code := c } else x } }
    else
      let s : State := { s with pg := { s.pg with bcasts := s.pg.bcasts.filter (·.no != no) } }
      match b.pkt with
      | none => regAnswer s b.ini b.reg true c 0
      | some (n, p) => targetAnswer s n p c [] false

/-- An access that stalled ends with a code and a word. -/
def stallEnd (s : State) (x : Stall) (code data : Nat) : State :=
  match x.bcast with
  | none => regAnswer s x.ini x.reg x.wr code data
  | some no => bcastCopy s no code

/-- The accesses that stall on pages of a die end with `code`, none of them made. -/
def stallsFail (s : State) (die code : Nat) : State :=
  (s.pg.stalled.filter fun x => regDie x.reg == die).foldl (fun s x => stallEnd s x code 0)
    { s with pg := { s.pg with stalled := s.pg.stalled.filter fun x => regDie x.reg != die } }

/-- Every request the target of node `n` holds is answered with `code`. -/
def slotsFail (s : State) (n code : Nat) : State :=
  (s.noc.slots.filter (·.1 == n)).foldl (fun s x => targetAnswer s n x.2 code [] false) s

/-- A response absorbed or taken frees its reservation, its tag and its credit. -/
def outstDel (s : State) (o : Outst) : State :=
  creditBack { s with noc := { s.noc with outst := s.noc.outst.eraseP (· == o) } } o.ini o.target 1

/-! ### Autotomy (R319, R320, R322) -/

/-- The target half of node `n` begins autotomy: what the target holds is answered with 0x2 or discarded and counted. -/
def targetCut (s : State) (n : Nat) : State :=
  let mine := s.noc.slots.filter (·.1 == n)
  let s := mine.foldl (fun s x =>
    let p := x.2
    -- a request that another target holds has not passed to it (log 102)
    let passed := match epKind n with
      | .fport i => !((nocPort s (nodeDie n) i).tq.filter (·.tag == p.arg0)).length == max 1 p.len
      | _ => false
    let s := if p.cmd < 2 then s else
      { s with pg := (setReg s (nodePage n + 0x448 + 256 * nodeEp n)
          (getReg s (nodePage n + 0x448 + 256 * nodeEp n) + 1)).pg }
    let s := targetAnswer s n p 2 [] false
    if p.cmd < 2 && passed then { s with noc := { s.noc with stale := s.noc.stale ++ [(n, p.src, p.arg0)] } } else s) s
  match epKind n with
  | .fport i => setNocPort s (nodeDie n) i { nocPort s (nodeDie n) i with tq := [] }
  | _ => s

/-- The initiator half of node `n` begins autotomy: its accesses complete with 0x2, the responses to come are absorbed. -/
def initiatorCut (s : State) (n : Nat) : State :=
  let inis := fun i => iniNode i == n
  let held := s.noc.held.filter fun x => inis x.1.ini
  let s := if (nodeIni n).any fun i => 64 ≤ i && i < 72 then outsEnd s (nodeDie n) fun o => inis o.bridge else s
  let s := { s with noc := { s.noc with
      waiting := s.noc.waiting.filter fun (h : HeldPkt) => !inis h.pkt.src
      held := s.noc.held.filter fun x => !inis x.1.ini
      outst := s.noc.outst.map fun (o : Outst) => if inis o.ini then { o with absorbed := true } else o } }
  let gs := (s.noc.gather.filter fun (g : Gather) => inis g.ini) ++
    held.map fun x => gatherNew x.1 x.1.kind s.noc.nextAcc 0
  let s := { s with noc := { s.noc with gather := s.noc.gather.filter fun (g : Gather) => !inis g.ini } }
  gs.foldl (fun s g => accessDone s { g with code := 2 } true) s

/-- NR_BR_STAT.ISO_CAUSE and ISOLATED show the cause that holds latest. -/
def isoShow (s : State) (n : Nat) : State :=
  let c := (causesT s n ++ causesI s n).head?.getD 0
  let s := putF s (nodePage n) (brF NR_BR_STAT_ISO_CAUSE n) c
  putFlag s (nodePage n) (brF NR_BR_STAT_ISOLATED n) (c != 0)

/-- Cause `c` begins on the halves named: an entry into autotomy fires ISOLATE of the router page (R332). -/
def isoEnter (s : State) (n c : Nat) (ini tgt : Bool) : State :=
  let i0 := causesI s n
  let t0 := causesT s n
  let ini := ini && (nodeIni n).isSome && !i0.contains c
  let tgt := tgt && targetSlots n != 0 && !t0.contains c
  if !ini && !tgt then s
  else
    let s := if ini then { s with noc := { s.noc with causeI := tabPut s.noc.causeI n (c :: i0) } } else s
    let s := if tgt then { s with noc := { s.noc with causeT := tabPut s.noc.causeT n (c :: t0) } } else s
    let s := if ini && i0 = [] then initiatorCut s n else s
    let s := if tgt && t0 = [] then targetCut s n else s
    let s := isoShow s n
    if i0 = [] && t0 = [] then evtPulse s (nodePage n) 3 else s

/-- Cause `c` ends on the halves named. -/
def isoLeave (s : State) (n c : Nat) (ini tgt : Bool) : State :=
  let f := fun (l : List Nat) (b : Bool) => if b then l.filter (· != c) else l
  let s := { s with noc := { s.noc with causeI := tabPutD [] s.noc.causeI n (f (causesI s n) ini),
                                        causeT := tabPutD [] s.noc.causeT n (f (causesT s n) tgt) } }
  pump (isoShow s n)

/-- Cause 3 of one fabric port follows its partition and its enable (R319). -/
def portFollow (s : State) (die p : Nat) : State :=
  let n := portNode die p
  let c := portCause s die p
  let s := isoEnter s n 3 c.1 c.2
  -- a port that is held in reset or disabled has reset its target: stale tags free and cause 2 ends (R322)
  let s := if c.1 then isoLeave { s with noc := { s.noc with stale := s.noc.stale.filter (·.1 != n) } } n 2 false true else s
  let di := !c.1 && (causesI s n).contains 3
  let dt := !c.2 && (causesT s n).contains 3
  if di || dt then isoLeave s n 3 di dt else s

/-- Cause 3 of every fabric port of a die follows. -/
def portsFollow (s : State) (die : Nat) : State := (List.range 48).foldl (fun s p => portFollow s die p) s

end Sys2Proof.Machine
end

