-- ==== Sys2Proof/Machine/Regions.lean ====
section
/-! DEFINITION. Memories of the fabric by die and number, and what becomes of the regions of the self-test whose contents are
not kept (21_shutdown.md R551, R554, R555). -/

namespace Sys2Proof.Machine

/-- Key of bank memory `b` of `die`. -/
def bankKey (die b : Nat) : Nat := 2048 * die + b
/-- Bank memory `b`. -/
def bankMem (s : State) (die b : Nat) : Bank := tabOr { } s.mem.banks (bankKey die b)
/-- `s` with a bank memory set. -/
def setBank (s : State) (die b : Nat) (x : Bank) : State :=
  { s with mem := { s.mem with banks := tabPutD { } s.mem.banks (bankKey die b) x } }

/-- Key of deep memory `j` of `die`. -/
def deepKey (die j : Nat) : Nat := 32 * die + j
/-- Deep memory `j`. -/
def deepMem (s : State) (die j : Nat) : Deep := tabOr { } s.mem.deeps (deepKey die j)
/-- `s` with a deep memory set. -/
def setDeep (s : State) (die j : Nat) (x : Deep) : State :=
  { s with mem := { s.mem with deeps := tabPutD { } s.mem.deeps (deepKey die j) x } }

/-! ### Regions of the self-test -/

/-- `n` free values of `w` bits, and the state that has taken them (log 5). -/
def freeVals (s : State) (n w : Nat) : List (Nat × Nat) × State :=
  ((List.range n).map fun k => (k, (Config.freeValue (s.freeIdx + k)).toNat % 2 ^ w), { s with freeIdx := s.freeIdx + n })

/-- A table of free entries, `n` of `w` bits. -/
def freeTab (s : State) (n w : Nat) : Tab (BitVec w) × State :=
  let r := freeVals s n w
  (r.1.foldl (fun t x => tabPutD 0 t x.1 (BitVec.ofNat w x.2)) [], r.2)

/-- The words of table `t` of a slice become free. -/
def tblFree (s : State) (die t : Nat) : State :=
  let n := (tblShape t).1 * (tblShape t).2
  let r := freeVals s n 32
  updSlice r.2 die fun x => r.1.foldl (fun x v =>
    tblStore x t (v.1 / (tblShape t).2) (v.1 % (tblShape t).2) (BitVec.ofNat 32 v.2)) x

/-- Contents of a region that a test left undefined: free values where the model holds them (R554). -/
def regionFree (s : State) (die r : Nat) : State :=
  match r with
  | 0x01 =>
    let x := freeVals s 8388608 8
    { x.2 with hub := { x.2.hub with sram := x.1.foldl (fun m v => memPut m v.1 (BitVec.ofNat 8 v.2)) [] } }
  | 0x02 =>
    let x := freeVals s (64 * s.hub.cache.length) 8
    { x.2 with hub := { x.2.hub with cache := x.2.hub.cache.zipIdx.map fun (e : (Nat × CacheLine) × Nat) =>
      (e.1.1, { e.1.2 with bytes := ((x.1.drop (64 * e.2)).take 64).map fun v => BitVec.ofNat 8 v.2 }) } }
  | 0x10 =>
    let x := freeTab s 0x66000 2048
    { x.2 with fab := { x.2.fab with upset := x.1.foldl (fun t v => tabPutD 0 t (1048576 * die + v.1) v.2) x.2.fab.upset } }
  | 0x11 => (List.range 2048).foldl (fun s b =>
      let x := freeTab s 1024 72
      setBank x.2 die b { bankMem s die b with rows := x.1 }) s
  | 0x12 => (List.range 32).foldl (fun s j =>
      let x := freeTab s 131072 72
      setDeep x.2 die j { deepMem s die j with words := x.1 }) s
  | 0x13 => (List.range 288).foldl (fun s e =>
      let x := freeTab s 4096 25
      let y := freeTab x.2 4096 25
      let m := freeTab y.2 2048 72
      setEng m.2 die e { engOf s die e with bankX := x.1, bankY := y.1, imem := m.1 }) s
  | 0x21 => (List.range 10).foldl (fun s t => tblFree s die t) s
  | _ => s

/-- The keys of a channel's ranges zeroed. -/
def chanKeysZero (c : DdrChan) : DdrChan :=
  { c with keys := [], sets := c.sets.map (fun (x : Nat × Nat) => (x.1, c.nextSet + x.1)), nextSet := c.nextSet + 16 }

/-- Write-only key storage of a region is zeroed by its test: keys, salts and SSCIs of MACsec, and the keys of DDR ranges
(R551). -/
def keysZero (s : State) (die r : Nat) : State :=
  if r = 0x22 then
    updSlice s die fun x => { x with tbl := x.tbl.filter fun e => !(tblKey 9 0 0 ≤ e.1 && decide (e.1 < tblKey 10 0 0) && decide (e.1 % 16 < 12)) }
  else if r = 0x14 then
    let zero := fun (e : Nat × DdrChan) => (if die = (if e.1 < 2 then 3 else 7) then (e.1, chanKeysZero e.2) else e)
    { s with ddr := { s.ddr with chans := s.ddr.chans.map zero } }
  else s

/-- A shut-down self-test runs, or a direct test of region `r` of the die. -/
def testOn (s : State) (die r : Nat) : Bool :=
  (s.shut.way = .orderly && s.shut.step = 9) ||
    (flag s (stPage die) ST_STAT_BUSY && getF s (stPage die) ST_CMD_REGION = r)

/-- A test that is cut short leaves its region as it stands (R555). -/
def testCut (s : State) (die r : Nat) : State := if testOn s die r then regionFree s die r else s

/-- Tests that are cut short leave their regions as they stand; of the shut-down test no one can tell which it had reached. -/
def testsCut (s : State) : State :=
  let s := [0x01, 0x02].foldl (fun s r => testCut s 8 r) s
  let s := (List.range 8).foldl (fun s d => [0x10, 0x11, 0x12, 0x13].foldl (fun s r => testCut s d r) s) s
  [9, 10, 11, 12].foldl (fun s d => testCut s d 0x21) s

end Sys2Proof.Machine
end

