-- ==== Sys2Proof/Machine/SecOps.lean ====
section
/-! DEFINITION. The life-cycle record, its transitions, and the command that the security core runs (19_security.md R496 to
R499, R505, R506). -/

namespace Sys2Proof.Machine

/-! ### The life-cycle record (R496 to R499) -/

/-- The record as it would be written now. -/
def lcRecNow (s : State) (state : Nat) (done : Bool) : LcRec :=
  { state := state, entryDone := done, slots := s.sec.slots, idPub := s.sec.idPub, idKey := s.sec.idKey }

/-- Records unit `u` can be programmed on both keep dies (06_keep.md R150, 13_seams.md R352). -/
def recWritable (s : State) (u : Nat) : Bool :=
  keepReach s 13 && keepReach s 14 && !unitReadOnly s 13 (recUnit u) && !unitReadOnly s 14 (recUnit u)

/-- The copy of the record on a keep die is written, where the die can be reached. -/
def lcCopy (s : State) (die : Nat) (r : LcRec) : State :=
  if !keepReach s die then s
  else
    let sec := if die = 13 then { s.sec with rec0 := some r } else { s.sec with rec1 := some r }
    programUnit { s with sec := sec } die (recUnit 2)

/-- The record is written, K0 then K1 (R498). -/
def lcWrite (s : State) (r : LcRec) : State :=
  lcCopy (lcCopy { s with sec := { s.sec with entryDone := r.entryDone } } 13 r) 14 r

/-- Units `lo` to `hi` - 1 of a keep die are filled with zeros, each in one program (06_keep.md R134). -/
def zeroFill (s : State) (die lo hi : Nat) : State :=
  if keepReach s die then ((List.range (hi - lo)).map (· + lo)).foldl (fun s u => programUnit s die u) s else s

/-- The Keep forgets: the journal, both brumation buffers, the black-box area and the user area lie one after the other on each
keep die and are zero-filled, 2,312 MiB in all; no page selects a register for retention any more (R499, 06_keep.md R137). -/
def keepForget (s : State) : State :=
  let s := { s with
    keep := { s.keep with journal := [], windows := [], appends := [], user := [], merge0 := [], merge1 := [] }
    shut := { s.shut with buf0 := none, buf1 := none }
    err := { s.err with copies := [] }
    pg := { s.pg with regs := s.pg.regs.filter fun e => regOff e.1 != 0x034 } }
  let s := zeroFill (zeroFill s 13 (1928 * 256) (3084 * 256)) 14 (1928 * 256) (3084 * 256)
  putF s KP KP_LIVE_PAGES 0

/-- Entry actions of state `new` (R499). -/
def lcEntry (s : State) (new : Nat) : State :=
  if new = 4 then keepForget s
  else if new = 5 then { s with sec := { s.sec with slots := [], idKey := s.sec.idKey.map fun _ => 0 } }
  else s

/-- Counter 15 is raised to the code of state `new`; SENT_FREEZE clears with it on leaving DEVELOP (R498, R499). -/
def lcCount (s : State) (old new : Nat) : State :=
  let s := ctrRaise s 15 new
  if old = 2 && new != 2 then putFlag s WD WD_SENT_CTRL_SENT_FREEZE false else s

/-- Step `k` of a transition from `old` to `new`, in the order of R498. -/
def lcStep (old new : Nat) (s : State) (k : Nat) : State :=
  match k with
  | 0 =>
    let s : State := { s with sec := { s.sec with lc := new, entryDone := false } }
    lcCopy s 13 (lcRecNow s new false)
  | 1 => lcCopy s 14 (lcRecNow s new false)
  | 2 => lcCount s old new
  | 3 => lcEntry s new
  | 4 => lcCopy s 13 (lcRecNow s new true)
  | _ => evtPulse (lcCopy { s with sec := { s.sec with entryDone := true } } 14 (lcRecNow s new true)) SC 1

/-- The first `n` steps of a transition to `new`; an interruption leaves them done (R498). -/
def lcSteps (s : State) (new n : Nat) : State := (List.range n).foldl (lcStep s.sec.lc new) s

/-- A whole transition (R498). -/
def lcTransition (s : State) (new : Nat) : State := lcSteps s new 6

/-! ### Requests (R505, R506) -/

/-- A request waits at `m`: a mailbox of 40 to 47, or 127 for the test window. -/
def reqWaits (s : State) (m : Nat) : Bool :=
  if m = 127 then flag s SC SC_TGO_BUSY
  else 40 ≤ m && m < 48 && (mboxOf s m).full && (mboxOf s m).sender != 4

/-- Words of the request that waits at `m`. -/
def reqHeld (s : State) (m : Nat) : List Nat :=
  (List.range 8).map fun i => (getReg s (if m = 127 then SC + 0x080 + 4 * i else mbWord m i)).toNat

/-- Word `i` of the request that runs. -/
def reqWord (s : State) (i : Nat) : Nat := ((s.sec.run.map (·.words)).getD []).getD i 0

/-- The certificate of the copies that can be read and whose tag verifies, K0's first (06_keep.md R139; log 84). -/
def certBest (s : State) : Option CertRec :=
  let copy := fun (die : Nat) (r : Option CertRec) =>
    if recReadable s die 32 && recReadable s die 33 then r.filter (·.tagOk) else none
  (copy 13 s.sec.cert0).orElse fun _ => copy 14 s.sec.cert1

/-- Signer slot `i`. -/
def signerOf (s : State) (i : Nat) : Signer := s.sec.slots.getD i { }

/-- The transition from the present state to `new` is listed and its condition holds, for a request at `m`; the token is
judged apart (R497). -/
def lcPermits (s : State) (m new : Nat) : Bool :=
  match s.sec.lc, new with
  | 0, 1 => m = 127
  | 1, 2 => s.sec.idPub.isSome && (certBest s).isSome && (signerOf s 0).valid
  | 2, 3 => s.sec.slots.any fun x => x.valid && !x.revoked
  | 2, 4 => true
  | 3, 4 => true
  | o, 5 => o != 5
  | _, _ => false

/-- LC_ADVANCE is the command that runs, and its transition may be under way. -/
def lcRuns (s : State) (q : SecReq) : Bool :=
  let new := q.words.getD 1 0
  q.words.getD 0 0 = 7 && lcPermits s q.at_ new && (new != 4 || s.sec.nonce.isSome) && recWritable s 2 && recWritable s 31

/-- The command that runs stops without a reply (R506). A transition stands as it was left: how far it had come is free (R498;
log 5), and any other command had written nothing (log 111). -/
def secStop (s : State) : State :=
  match s.sec.run with
  | none => s
  | some q =>
    let on := lcRuns s q
    let s := putFlag { s with sec := { s.sec with run := none } } SC SC_CMD_STAT_BUSY false
    let s := if q.at_ = 127 then putFlag s SC SC_TGO_BUSY false else s
    if on then
      let (n, s) := freeVal s 3
      lcSteps s (q.words.getD 1 0) (n % 7)
    else s

end Sys2Proof.Machine
end

