-- ==== Sys2Proof/Machine/Control.lean ====
section
/-! DEFINITION. What acts on the whole device: the recorder and its copies (20_errors.md R530 to R532), the safe state
(04_start.md R104), the FATAL sequence (20_errors.md R515, R516), device reset and the start triggers (04_start.md R89). -/

namespace Sys2Proof.Machine

/-- Event source of a page, 0 for a page without one. -/
def pageSource (page : Nat) : Nat :=
  match pageOf (regDie page) (regBlk page) with
  | none => 0
  | some p => (pageSrc p (regDie page) (regBlk page)).getD 0

/-! ### The recorder -/

/-- An entry is written to the ring at BB_HEAD (R530). -/
def ringWrite (s : State) (e : BbEntry) : State :=
  { s with err := { s.err with
      ring := tabPut s.err.ring s.err.head { e with seq := s.err.seq }
      head := (s.err.head + 1) % 4096
      seq := (s.err.seq + 1) % 2 ^ 32 } }

/-- The recorder writes the next queued entry, after a LOST marker where entries were lost (R530). -/
def bbWriteOne (s : State) : State :=
  match s.err.queue with
  | [] => s
  | e :: rest =>
    let n := s.err.lostNow
    let s : State := { s with err := { s.err with queue := rest, lostNow := 0 } }
    let s :=
      if n = 0 then s
      else
        let m : BbEntry :=
          { time := s.hub.now, src := 0, cls := 0, die := 8, kind := 3, coast := coasting s, p0 := 7, p1 := n % 2 ^ 32 }
        evtPulse (ringWrite s m) BB 1
    ringWrite s e

/-- The recorder's queue empties, `fuel` entries at most. -/
def bbDrain (s : State) (fuel : Nat) : State :=
  match fuel with
  | 0 => s
  | f + 1 => bbDrain (bbWriteOne s) f

/-- The newest valid copy and its slot (R532). -/
def copyNewest (s : State) : Option (Nat × BbCopy) :=
  s.err.copies.foldl (fun b e =>
    match e.2 with
    | none => b
    | some c =>
      if !c.valid then b
      else match b with
        | some (_, x) => if x.seq < c.seq then some (e.1, c) else b
        | none => some (e.1, c)) none

/-- Unit `u` of copy slot `k` on its die (R137, R532). -/
def bbUnit (k u : Nat) : Nat × Nat := striped 2056 (512 * k + u)

/-- Every unit of copy slot `k` can be programmed. -/
def bbProgrammable (s : State) (k : Nat) : Bool :=
  (List.range 33).all fun u => !unitReadOnly s (bbUnit k u).1 (bbUnit k u).2

/-- The ring and its header are copied to the slot after the newest valid copy, and COPY_DONE follows (R532). A copy one
of whose units cannot be programmed is skipped, and so is one while the Keep is unreachable (R516). -/
def bbCopyWrite (s : State) (reason : Nat) (ok : Bool) : State :=
  let s := bbDrain s 64
  let k := match copyNewest s with | some (k, _) => (k + 1) % 4 | none => 0
  let seq := match copyNewest s with | some (_, c) => c.seq + 1 | none => 1
  if !ok || !keepReach s 13 || !keepReach s 14 || !bbProgrammable s k then s
  else
    let c : BbCopy :=
      { seq := seq, reason := reason, head := s.err.head, ringSeq := s.err.seq, time := s.hub.now, rtc := s.pow.rtc,
        sqStat := getReg s (SQ + 0x040), sqCause := getReg s (SQ + 0x044), first := s.err.first, next := s.err.next,
        ring := s.err.ring, valid := true }
    let s := ((List.range 32).map (· + 1) ++ [0]).foldl (fun s u => programUnit s (bbUnit k u).1 (bbUnit k u).2) s
    let s := { s with err := { s.err with copies := tabPut s.err.copies k (some c) } }
    evtPulse (bbMarker s 6 seq) BB 0

/-! ### The safe state -/

/-- Quench lines of every assigned initiator (12_noc.md R317). -/
def quenchAll (s : State) : State :=
  (List.range 32).foldl (fun s k =>
    setReg s (QU + 0x040 + 4 * k) (BitVec.ofNat 32 (ofBits ((List.range 32).filter fun b => iniAssigned (32 * k + b))))) s

/-- Scans end: engines in SCAN go OFF, all of them where `all` is set (R517, R522). -/
def scrubStop (s : State) (all : Bool) : State :=
  { s with err := { s.err with ax := s.err.ax.map fun (e : Nat × AxEngine) =>
    (e.1, if e.2.state = 1 || all then { e.2 with state := 0 } else e.2) } }

/-- The sequence of R515 runs: it has begun, and a device reset is still to end it. -/
def fatalRuns (s : State) : Bool := s.err.fatal && flag s ER ER_CTRL_FATAL_RESET

/-- Contents of configuration memory clear on every die: no partition has valid contents (04_start.md R103). -/
def configClear (s : State) : State :=
  let s := scrubStop ((List.range 8).foldl dieHold s) true
  let s := s.part.parts.foldl (fun s e => partSet s e pOff) s
  let flow := { s.flow with slices := s.flow.slices.map fun (e : Nat × Slice) => (e.1, { e.2 with tbl := [], lastAt := 0 }) }
  let s : State := { s with load := { s.load with cfg := [], bankInit := [] }, fab := { s.fab with upset := [] },
                            flow := flow, le := { s.le with eng := [] } }
  (List.range 8).foldl (fun s d => if isolated s d then s else portsFollow s d) s

/-- The boot configuration of a PCIe controller (17_processors.md R469). -/
def pcieBoot (s : State) (pc : Nat) : State :=
  let s := setReg s (pcPage pc + 0x040) (BitVec.ofNat 32 (6 * 16 + 1))
  setPcie s pc { pcieOf s pc with boot := true, owned := true, training := true }

/-- STAGE of SQ_STAT. -/
def setStage (s : State) (n : Nat) : State := putF s SQ SQ_STAT_STAGE n

/-- The device enters the safe state (R104). -/
def safeEnter (s : State) : State :=
  let s := setStage (configClear s) 0xF
  let s := { s with start := { s.start with phase := .safe, ready := false, failLow := true } }
  let s := pcieBoot (pcieBoot s 0) 1
  let words := [(getReg s (SQ + 0x040)).toNat, (getReg s (SQ + 0x044)).toNat, (getReg s (SQ + 0x06C)).toNat]
  mbPost (mbPost s 64 4 words) 80 4 words

/-- A cause that ends a start: FINAL_CAUSE and FINAL_SLOT, and FIRST where this is the first cause of the start (R118). -/
def finalCause (s : State) (cause slot : Nat) : State :=
  let s := if getF s SQ SQ_CAUSE_FIRST_CAUSE = 0 then
      putF (putF s SQ SQ_CAUSE_FIRST_CAUSE cause) SQ SQ_CAUSE_FIRST_SLOT slot else s
  putF (putF s SQ SQ_CAUSE_FINAL_CAUSE cause) SQ SQ_CAUSE_FINAL_SLOT slot

/-! ### System cores and hub DMA -/

/-- System cores are held in reset and running DMA channels stop (R515 step 5, 21_shutdown.md R539). -/
def coresStop (s : State) : State :=
  let s := (List.range 4).foldl (fun s c => setHart s c { }) s
  let s := putF s CL CL_HART_EN 0
  (List.range 8).foldl (fun s c =>
    if getF s HD (HD_STAT_RESULT.nth c) = 0xF then putF s HD (HD_STAT_RESULT.nth c) 0xE else s) s

/-- PFW_N falls: every running DMA channel stops after its present access, as by ABORT (17_processors.md R450). -/
def dmaStopping (s : State) : State :=
  (List.range 8).foldl (fun s c =>
    if getF s HD (HD_STAT_RESULT.nth c) = 0xF then putF s HD (HD_CTRL_ABORT.nth c) 1 else s) s

/-! ### FATAL -/

/-- Steps 1 to 5 of R515. -/
def fatalRun (s : State) : State :=
  let s := testsCut s
  let s := quenchAll (bbMarker { s with err := { s.err with fatal := true } } 2 0)
  let s := { s with start := { s.start with ready := false, failLow := true } }
  let s := (List.range 8).foldl dieHold s
  let reach := keepReach s 13 && keepReach s 14
  let s := if reach then journalFlush s else s
  let s := bbCopyWrite s 1 reach
  let s := coresStop s
  let s := putF s SQ SQ_CAUSE_FINAL_CAUSE 0x13
  let s := if getF s SQ SQ_CAUSE_FIRST_CAUSE = 0 then putF s SQ SQ_CAUSE_FIRST_CAUSE 0x13 else s
  safeEnter (putF { s with shut := { s.shut with way := .none, step := 0, snap := none } } SD SD_STAT_STATE 0)

/-- A FATAL report acts: not again while its sequence runs (R516); last-gasp and torpor entry complete without the
snapshot's header (21_shutdown.md R555, log 17). -/
def fatal (s : State) : State :=
  if s.err.fatal then s
  else if s.shut.way = .lastGasp || s.shut.way = .torpor then { s with shut := { s.shut with noHeader := true } }
  else fatalRun s

/-- A report reaches the error unit (R511). -/
def raise (s : State) (cls die src code info : Nat) : State :=
  let s := errRecord s cls die src code info
  if cls = 3 then fatal s else s

/-- A report of the block whose page is `page`. -/
def raiseFrom (s : State) (page cls code info : Nat) : State := raise s cls (regDie page) (pageSource page) code info

/-- An audit of ledger `k`: a passing audit counts, a mismatch is FATAL (R528). -/
def audit (s : State) (k page info : Nat) (ok : Bool) : State :=
  if ok then auditPass s k else raiseFrom s page 3 (0x0F01 + k) info

/-! ### Device reset and start triggers -/

/-- Bits of the register at `a` that a device reset keeps: kept fields without /G (00_scope.md R14). -/
def keptMask (a : Nat) : Word :=
  match pageOf (regDie a) (regBlk a) with
  | none => 0
  | some p =>
    match regDef p (regDie a) (regBlk a) (regOff a) with
    | none => 0
    | some d => d.flds.foldl (fun m f => if f.kept && !f.g then m ||| wMask f.lsb f.wid else m) 0

/-- Registers that show the Keep's own state, which a device reset does not change (06_keep.md R152, R153). -/
def keepView (a : Nat) : Bool :=
  (regBlk a = 0xE000 && isKeep (regDie a) && 0x040 ≤ regOff a && decide (regOff a ≤ 0x048)) ||
  (KP + 0x080 ≤ a && decide (a < KP + 0x0C0))

/-- Registers after a device reset: After reset values, but for kept fields. -/
def regsReset (t : Tab Word) : Tab Word :=
  t.filterMap fun e =>
    if keepView e.1 then some e
    else
      let m := keptMask e.1
      let w := (e.2 &&& m) ||| (regRst e.1 &&& ~~~m)
      if w = regRst e.1 then none else some (e.1, w)

/-- Where a start stands at its trigger: the control pins may hold it before S0 (23_pins.md R579). -/
def startHeld (s : State) : StartPhase :=
  if !s.pin.supplies then .off else if !s.pin.resetN then .resetHeld else if !s.pin.pfwN then .pfwHeld else .s0

/-- Engine `k` (die × 512 + number) leaves a halt of the debugger. -/
def leUnhalt (s : State) (k : Nat) : State :=
  let x := engOf s (k / 512) (k % 512)
  if x.mode = .halt then setEng s (k / 512) (k % 512) { x with mode := x.before } else s

/-- DBG_LOST sets; REASON keeps the first cause since it was last cleared. The run-control state, the trace and every halt
are discarded (22_debug.md R562). -/
def dbgDrop (s : State) (reason : Nat) : State :=
  let s := s.dbg.leHeld.foldl leUnhalt s
  { s with dbg := { s.dbg with
      dbgLost := true, reason := if s.dbg.dbgLost then s.dbg.reason else reason, fired := [], stepping := [], haltReq := []
      leHeld := []
      trace := [], traceQ := [], traceLost := 0, traceCnt := 0, traceStop := false } }

/-- A device reset: every part of the state takes its value at reset but for what the chapters keep, and the start of R89
begins. `torpor`: the reset ends a torpor, so the recorder's ring is zero-filled (20_errors.md R531). -/
def deviceReset (s : State) (torpor : Bool) : State :=
  let s := testCut (secStop s) 8 0x01
  let dbg : DbgState := {
    ir := s.dbg.ir, bsr := s.dbg.bsr, bsrOut := s.dbg.bsrOut, tdo := s.dbg.tdo, rdata := s.dbg.rdata, code := s.dbg.code,
    lost := s.dbg.acc.isSome || s.dbg.lost, dbgLost := true,
    reason := if s.dbg.dbgLost then s.dbg.reason else 1, coreRegs := s.dbg.coreRegs }
  let keep := { s.keep with windows := [], appends := [], pfwClosed := false, pfwLow := false, xfer := none, bootWr := none }
  let err : ErrState :=
    if torpor then { copies := s.err.copies }
    else { copies := s.err.copies, ring := s.err.ring, head := s.err.head, seq := s.err.seq }
  let shut : ShutState := {
    buf0 := s.shut.buf0, buf1 := s.shut.buf1, test0 := s.shut.test0, test1 := s.shut.test1
    done := s.shut.done && startHeld s != .s0 }
  let sec : SecState := { rec0 := s.sec.rec0, rec1 := s.sec.rec1, cert0 := s.sec.cert0, cert1 := s.sec.cert1 }
  let hub : HubState := { sram := s.hub.sram, sramBad := s.hub.sramBad }
  let pow : PowState := { rtc := s.pow.rtc, rtcFrac := s.pow.rtcFrac, rtcLo := s.pow.rtcLo }
  let clk : ClkState := { rtc := s.clk.rtc }
  let pin := { s.pin with xspiResetN := false, latch := [] }
  let start : StartState := { phase := startHeld s, failLow := s.start.failLow && s.start.phase != .s1Hold && startHeld s != .s0 }
  { pg := { regs := regsReset s.pg.regs }, clk := clk, start := start, keep := keep, hub := hub,
    pow := pow, sec := sec, err := err, shut := shut, dbg := dbg, pin := pin, resp := s.resp, freeIdx := s.freeIdx,
    pending := s.pending }

/-- A start trigger of R89 that does not end a torpor: FROM_TORPOR clears (18_power.md R490). -/
def startTrigger (s : State) : State :=
  putFlag (deviceReset s false) (pdPage 8 1) PD_TORPOR_FROM_TORPOR false

/-- The start that ends a torpor, with LAST_EXIT (18_power.md R481). -/
def torporExit (s : State) (why : Nat) : State :=
  let s := putF (deviceReset s true) (pdPage 8 1) PD_TORPOR_LAST_EXIT why
  putFlag s (pdPage 8 1) PD_TORPOR_FROM_TORPOR true

end Sys2Proof.Machine
end

