-- ==== Sys2Proof/Machine/NetMap.lean ====
section
/-! DEFINITION. The links between routers: mesh ports of 12_noc.md R292, link ports at seams of R293, and the edges of the
fabric dies (07_fabric.md R178, 01_package.md R19). -/

namespace Sys2Proof.Machine

/-- Edge of a fabric die by port number: 0 north, 1 east, 2 south, 3 west. Side 0 of die n (R178). -/
def edgeSide0 (n : Nat) : Nat :=
  match n with
  | 0 => 1 | 1 => 1 | 2 => 2 | 3 => 2 | 4 => 3 | 5 => 3 | 6 => 0 | _ => 0
/-- Edge of side 1 of die n. -/
def edgeSide1 (n : Nat) : Nat :=
  match n with
  | 0 => 2 | 1 => 3 | 2 => 3 | 3 => 0 | 4 => 0 | 5 => 1 | 6 => 1 | _ => 2
/-- Crossing side of a fabric die that a ring seam joins. -/
def ringSide (die seam : Nat) : Nat := if seam = die then 0 else 1
/-- Edge of a fabric die that faces the hub (01_package.md R19: the hub is the centre of the ring). -/
def edgeHub (n : Nat) : Nat := match n with | 1 => 2 | 3 => 3 | 5 => 0 | _ => 1

/-- Router and port of link `k` of a seam on a die (R293). -/
def seamPort (die seam k : Nat) : Nat × Nat :=
  if isFabric die then
    if seam < 8 then
      let e := if ringSide die seam = 0 then edgeSide0 die else edgeSide1 die
      match e with
      | 0 => (16 + 3 * k + 1, 0) | 1 => (8 * k + 7, 1) | 2 => (3 * k + 1, 2) | _ => (8 * k, 3)
    else if seam < 12 then
      match edgeHub die with
      | 0 => (16 + 3 + k, 0) | 1 => (8 * (2 * k) + 7, 1) | 2 => (3 + k, 2) | _ => (8 * (2 * k), 3)
    else if seam < 16 then (if die = 0 || die = 2 then (16 + k + 1, 0) else (k + 1, 2))
    else (if die = 1 then (16 + 4, 0) else (4, 2))
  else if die = 8 then (2 * (seam - 8) + k, 2)
  else if isLane die then (k / 2, 2 + k % 2)
  else (0, 2)

/-- The seam and link at a router port, if it faces a seam. -/
def seamAt (die r port : Nat) : Option (Nat × Nat) :=
  ((dieSeams die).flatMap fun m => (List.range (seamLinks m)).map fun k => (m, k)).find? fun x =>
    seamPort die x.1 x.2 == (r, port)

/-- The router and input port at the other end of a mesh port, none where the die has no such link (R292). -/
def meshPeer (die r port : Nat) : Option (Nat × Nat) :=
  if isFabric die then
    let x := r % 8
    let y := r / 8
    match port with
    | 0 => if y < 2 then some (r + 8, 2) else none
    | 1 => if x < 7 then some (r + 1, 3) else none
    | 2 => if 0 < y then some (r - 8, 0) else none
    | 3 => if 0 < x then some (r - 1, 1) else none
    | _ => none
  else if die = 8 then
    match port with
    | 0 => some ((r + 1) % 8, 1) | 1 => some ((r + 7) % 8, 0) | _ => none
  else
    match port with
    | 0 => if r < 2 then some (r + 1, 1) else none
    | 1 => if 0 < r then some (r - 1, 0) else none
    | _ => none

/-- What an output link port of a router leads to: die, router and input port. -/
def linkPeer (die r port : Nat) : Option (Nat × Nat × Nat) :=
  match seamAt die r port with
  | some (m, k) => some (seamFar die m, seamPort (seamFar die m) m k)
  | none => (meshPeer die r port).map fun x => (die, x)

/-- The router has a link at the port. -/
def isLink (die r port : Nat) : Bool := (linkPeer die r port).isSome

/-- Input buffer in flits: channels 0 VC0, 1 VC1, 2 VC2, 3 VC3 scheduled, 4 VC3 bulk; `seam`: the input faces a seam
(R295). -/
def bufDepth (seam : Bool) (c : Nat) : Nat :=
  match c with
  | 0 => if seam then 8 else 4
  | 3 => 18
  | _ => if seam then 48 else 16

/-- Depth of the buffer a router port sends into. -/
def portDepth (die r port c : Nat) : Nat := if isLink die r port then bufDepth (seamAt die r port).isSome c else 0

/-- Key of a router output channel. -/
def outKey (node port c : Nat) : Nat := 64 * node + 8 * port + c

/-- Hop credits held at an output (R304). -/
def hopHeld (s : State) (node port c : Nat) : Nat :=
  portDepth (nodeDie node) (nodeRtr node) port c - tabOr 0 s.noc.hopAway (outKey node port c)
/-- `n` hop credits spent. -/
def hopTake (s : State) (node port c n : Nat) : State :=
  { s with noc := { s.noc with
      hopAway := tabPutD 0 s.noc.hopAway (outKey node port c) (tabOr 0 s.noc.hopAway (outKey node port c) + n) } }
/-- `n` hop credits back. -/
def hopBack (s : State) (node port c n : Nat) : State :=
  { s with noc := { s.noc with
      hopAway := tabPutD 0 s.noc.hopAway (outKey node port c) (tabOr 0 s.noc.hopAway (outKey node port c) - n) } }

/-- Local port that serves endpoint `e` of a router (R294). -/
def localPort (die r e : Nat) : Nat :=
  if isFabric die then (if e = 0 then 4 else if e = 1 then 5 else if e < 5 && r % 2 = 1 then 6 else 7)
  else 4 + e

/-- The routers have their boot route set: the management domains have been up since S2 began (04_start.md R101). -/
def routersUp (s : State) : Bool :=
  match s.start.phase with
  | .off | .resetHeld | .pfwHeld | .s0 | .s1 | .s1Hold => false
  | _ => true

/-- Every existing router, as a node with endpoint 0. -/
def allRouters : List Nat := (List.range 15).flatMap fun d => (List.range (routerCount d)).map fun r => mkNode d r 0

end Sys2Proof.Machine
end

