-- ==== Sys2Proof/Machine/SeamOps.lean ====
section
/-! DEFINITION. Seam endpoints (13_seams.md R336 to R349): frames, sequence spaces, credits, ledgers, states and
absorption. The state of an endpoint is SM_STAT.STATE of its page. -/

namespace Sys2Proof.Machine

/-- Key of the endpoint of `seam` on `die`. -/
def seamKey (die seam : Nat) : Nat := 32 * die + seam
/-- Endpoint of `seam` on `die`. -/
def epOf (s : State) (die seam : Nat) : SeamEp := tabOr { } s.seam.eps (seamKey die seam)
/-- `s` with an endpoint set. -/
def setEp (s : State) (die seam : Nat) (x : SeamEp) : State :=
  { s with seam := { s.seam with eps := tabPutD { } s.seam.eps (seamKey die seam) x } }
/-- Link `k` of an endpoint. -/
def epLink (x : SeamEp) (k : Nat) : SeamLink := tabOr { } x.links k
/-- `x` with link `k` set. -/
def setLink (x : SeamEp) (k : Nat) (l : SeamLink) : SeamEp := { x with links := tabPutD { } x.links k l }

/-- STATE of R341: 0 OFF, 1 RESET, 2 PHASE, 3 DESKEW, 4 WIDTH, 5 CREDIT, 6 MGMT, 7 ACTIVE, 8 ISOLATED. -/
def seamState (s : State) (die seam : Nat) : Nat := getF s (smPage die seam) SM_STAT_STATE

/-- The endpoint is in MGMT or ACTIVE: PG_STAT.READY (R341). -/
def seamReady (s : State) (die seam : Nat) : Bool := seamState s die seam = 6 || seamState s die seam = 7

/-- SQ of a channel (R340). -/
def seamSq (c : Nat) : Nat := if c = 0 then 16 else 64

/-! ### The CRC of a frame (R337) -/

/-- One bit into CRC-16, polynomial 0x8BB7. -/
def crcBit (crc : Nat) (b : Bool) : Nat :=
  let top := nBit crc 15 != b
  let sh := crc * 2 % 65536
  if top then sh ^^^ 0x8BB7 else sh
/-- One byte, most significant bit first. -/
def crcByte (crc : Nat) (b : Byte) : Nat := (List.range 8).foldl (fun c i => crcBit c (b.getLsbD (7 - i))) crc
/-- CRC over bytes, from 0. -/
def crc16 (bs : List Byte) : Nat := bs.foldl crcByte 0
/-- The CRC of a frame: header bits [7:0], [15:8], then the payload bytes. -/
def frameCrc (header : Nat) (payload : BitVec 256) : Nat := crc16 (toBytes 2 header ++ toBytes 32 payload.toNat)

/-! ### Packets as flits -/

/-- The header fields of a header flit that the ledgers use. -/
def headerOf (f : BitVec 256) : Packet :=
  let g := fun l w => nGet f.toNat l w
  { cmd := g 0 4, sched := g 6 1 = 1, urg := g 7 3, len := g 10 4, src := g 14 10, srcNode := g 24 12, dst := g 36 12,
    tag := g 48 12, addr := g 60 42, size := g 102 9, code := g 111 4, chk := g 115 3, poison := g 118 1 = 1,
    cls := g 119 3, peek := g 122 1 = 1, flow := g 124 18, arg0 := g 142 8, arg1 := g 150 106 }

/-! ### Ledgers (R348) -/

/-- Key of a pair in the counts of a ledger. -/
def ledKey (ini tgt : Nat) : Nat := 4096 * ini + tgt

/-- A count lowered by `n`. -/
def cntDown (t : Tab Nat) (k n : Nat) : Tab Nat := tabPutD 0 t k (tabOr 0 t k - n)
/-- A count raised by 1. -/
def cntUp (t : Tab Nat) (k : Nat) : Tab Nat := tabPutD 0 t k (tabOr 0 t k + 1)

/-- A new entry of the packet finds its ledger of 4,096 entries full. -/
def ledgerFull (reqs : List (Nat × Nat × Nat)) (cnt : Tab Nat) (p : Packet) : Bool :=
  decide (4096 ≤ reqs.length + cnt.length) &&
  (p.cmd < 2 || ((p.cmd = 2 || p.cmd = 3) && (tabGet cnt (ledKey p.srcNode p.dst)).isNone))

/-- The endpoint sends a packet across. -/
def ledgerSend (x : SeamEp) (p : Packet) : SeamEp :=
  match p.cmd with
  | 0 => { x with outReq := x.outReq ++ [(p.srcNode, p.src, p.tag)] }
  | 1 => { x with outReq := x.outReq ++ [(p.srcNode, p.src, p.tag)] }
  | 2 => { x with outCnt := cntUp x.outCnt (ledKey p.srcNode p.dst) }
  | 3 => { x with outCnt := cntUp x.outCnt (ledKey p.srcNode p.dst) }
  | 4 => { x with inReq := x.inReq.erase (p.dst, p.src, p.tag) }
  | 5 => { x with inCnt := cntDown x.inCnt (ledKey p.dst p.srcNode) p.arg0 }
  | _ => x

/-- A packet arrives from the seam. -/
def ledgerRecv (x : SeamEp) (p : Packet) : SeamEp :=
  match p.cmd with
  | 0 => { x with inReq := x.inReq ++ [(p.srcNode, p.src, p.tag)] }
  | 1 => { x with inReq := x.inReq ++ [(p.srcNode, p.src, p.tag)] }
  | 2 => { x with inCnt := cntUp x.inCnt (ledKey p.srcNode p.dst) }
  | 3 => { x with inCnt := cntUp x.inCnt (ledKey p.srcNode p.dst) }
  | 4 => { x with outReq := x.outReq.erase (p.dst, p.src, p.tag) }
  | 5 => { x with outCnt := cntDown x.outCnt (ledKey p.dst p.srcNode) p.arg0 }
  | _ => x

/-- A response answers a request that has become stale at the endpoint. -/
def staleHit (x : SeamEp) (p : Packet) : Bool :=
  (p.cmd = 4 && x.staleReq.contains (p.dst, p.src, p.tag)) ||
  (p.cmd = 5 && (tabGet x.staleCnt (ledKey p.dst p.srcNode)).isSome)

/-- Its entry retires. -/
def staleRetire (x : SeamEp) (p : Packet) : SeamEp :=
  if p.cmd = 4 then { x with staleReq := x.staleReq.erase (p.dst, p.src, p.tag) }
  else { x with staleCnt := cntDown x.staleCnt (ledKey p.dst p.srcNode) p.arg0 }

/-- Credits in parts of at most 63. -/
def parts63 (n fuel : Nat) : List Nat :=
  match fuel with
  | 0 => []
  | f + 1 => if n = 0 then [] else min n 63 :: parts63 (n - min n 63) f

/-- The outbound ledger is reclaimed and the inbound one becomes stale (R348). -/
def reclaim (s : State) (die seam : Nat) : State :=
  let x := epOf s die seam
  let rs := x.outReq.map fun e => ({ cmd := 4, src := e.2.1, srcNode := e.1, dst := e.1, tag := e.2.2, code := 2 } : Packet)
  let cs := x.outCnt.flatMap fun e =>
    (parts63 e.2 (e.2 + 1)).map fun n => ({ cmd := 5, srcNode := e.1 % 4096, dst := e.1 / 4096, arg0 := n } : Packet)
  let s := (rs ++ cs).foldl flightAdd s
  let s := putF s (smPage die seam) SM_RECLAIM_COUNT
    ((getF s (smPage die seam) SM_RECLAIM_COUNT + rs.length + cs.length) % 2 ^ 32)
  let add := fun (t : Tab Nat) (e : Nat × Nat) => tabPut t e.1 (tabOr 0 t e.1 + e.2)
  setEp s die seam { x with outReq := [], outCnt := [], inReq := [], inCnt := []
                            staleReq := x.staleReq ++ x.inReq, staleCnt := x.inCnt.foldl add x.staleCnt }

/-! ### Absorption (R347) -/

/-- A packet the endpoint absorbs. -/
def seamAbsorb (s : State) (die seam : Nat) (p : Packet) : State :=
  let s := countWrap (flightDel s p) (smPage die seam) SM_ABSORB_COUNT
  if p.cmd < 2 then
    flightAdd s { cmd := 4, src := p.src, srcNode := p.dst, dst := p.srcNode, tag := p.tag, addr := p.addr, size := p.size
                  code := 2 }
  else if p.cmd < 4 then flightAdd s { cmd := 5, src := p.src, srcNode := p.dst, dst := p.srcNode, arg0 := 1 }
  else if p.cmd = 8 || p.cmd = 9 then flightAdd s { cmd := 10, src := p.src, srcNode := p.dst, dst := p.srcNode, tag := p.tag, code := 2 }
  else if staleHit (epOf s die seam) p then setEp s die seam (staleRetire (epOf s die seam) p)
  else s

/-- The endpoint takes the packet itself: its state carries no such channel, or the packet answers a stale request. -/
def absorbs (s : State) (die seam : Nat) (p : Packet) : Bool :=
  let st := seamState s die seam
  staleHit (epOf s die seam) p || (if cmdVc p.cmd = 0 then st != 6 && st != 7 else st != 7)

/-! ### Sending (R338 to R340) -/

/-- The first flit that may go: VC0, then VC3 scheduled, then the other channels in round robin. -/
def nextFlit (l : SeamLink) : Option (Nat × BitVec 256) :=
  let ok := fun (e : Nat × BitVec 256) =>
    decide (tabOr 0 l.away e.1 < seamSq e.1) && decide (l.replay.length < (if e.1 = 0 then 64 else 56))
  -- a flit waits behind the earlier flits of its channel
  let first := fun c => (l.txq.find? (·.1 == c)).filter ok
  let turn := match l.turn with | 1 => [2, 4, 1] | 2 => [4, 1, 2] | _ => [1, 2, 4]
  (first 0).or ((first 3).or (turn.findSome? first))

/-- Flits are transmitted for the first time while credits and the replay buffer allow. -/
def linkSend (l : SeamLink) (fuel : Nat) : SeamLink :=
  match fuel with
  | 0 => l
  | f + 1 =>
    match nextFlit l with
    | none => l
    | some e =>
      linkSend { l with
        txq := l.txq.erase e
        replay := l.replay ++ [{ seq := l.txSeq, ch := e.1, flit := e.2 }]
        txSeq := (l.txSeq + 1) % 128
        turn := if e.1 = 0 || e.1 = 3 then l.turn else e.1
        away := tabPutD 0 l.away e.1 (tabOr 0 l.away e.1 + 1) } f

/-- A link of the endpoint sends what it can; a width step holds new frames back (R345). -/
def linkPump (s : State) (die seam k : Nat) : State :=
  let x := epOf s die seam
  match x.step with
  | .draining _ => s
  | _ =>
    let l := epLink x k
    let l := linkSend l l.txq.length
    setEp s die seam (setLink x k l)

/-- Flit `i` of a packet's worm goes out over link `k`; the ledger takes the packet with its head (R339, R348). -/
def seamSend (s : State) (die seam k : Nat) (p : Packet) (i : Nat) : State :=
  let x := if i = 0 then ledgerSend (epOf s die seam) p else epOf s die seam
  let l := epLink x k
  let f := (packetHeader p :: flitsOf p.addr p.data).getD i 0
  linkPump (setEp s die seam (setLink x k { l with txq := l.txq ++ [(packetChan p, f)] })) die seam k

end Sys2Proof.Machine
end

