-- ==== Sys2Proof/Machine/Fabric.lean ====
section
/-! DEFINITION. The fabric at work (07_fabric.md R164 to R193): contention, crossing groups, network enables, capture, readback
ranges and the event outputs. -/

namespace Sys2Proof.Machine

/-! ### Crossing groups (R178 to R183) -/

/-- Ring seam and facing die of side `side` of fabric die `die` (R178). -/
def xgSeam (die side : Nat) : Nat := if side = 0 then die else (die + 7) % 8
@[inherit_doc xgSeam] def xgPeer (die side : Nat) : Nat := if side = 0 then (die + 1) % 8 else (die + 7) % 8

/-- Field of group `g` of side `side` in CLK frame 0x53901 (R180). -/
def xgField (s : State) (die side g : Nat) : Nat := frGet (cfgGet s die 0x53901) (8 * (64 * side + g)) 8

/-- A die's end of a group is enabled and its clock runs. -/
def xgEnd (s : State) (die side g : Nat) : Bool := nBit (xgField s die side g) 7 && gckRuns s die (xgField s die side g % 32)

/-- The conditions under which a group trains (R182). -/
def xgCan (s : State) (die side g : Nat) : Bool :=
  isFabric die && side < 2 && g < 64 && !isolated s die && !isolated s (xgPeer die side) &&
    xgEnd s die side g && xgEnd s (xgPeer die side) (1 - side) g &&
    seamReady s die (xgSeam die side) && seamReady s (xgPeer die side) (xgSeam die side)

/-- Register of a group in CF_XG_STAT. -/
def xgReg (die side g : Nat) : Nat := cfPage die + 0x0B0 + 8 * side + 4 * (g / 32)

/-- A group is trained on this die. -/
def xgUp (s : State) (die side g : Nat) : Bool := wGet (getReg s (xgReg die side g)) (g % 32) 1 == 1

/-- A group's bit set or cleared. -/
def xgPut (s : State) (die side g : Nat) (b : Bool) : State :=
  setReg s (xgReg die side g) (wPut (getReg s (xgReg die side g)) (g % 32) 1 (ofBool b))

/-- A group leaves the trained state at both ends (R182). -/
def xgDrop (s : State) (die side g : Nat) : State :=
  if xgUp s die side g || xgUp s (xgPeer die side) (1 - side) g then
    xgPut (xgPut s die side g false) (xgPeer die side) (1 - side) g false
  else s

/-- Groups clocked by GCK `k` of a die leave the trained state at both ends: their clock stopped or restarted (R182). -/
def xgStop (s : State) (die k : Nat) : State :=
  [0, 1].foldl (fun s side => (List.range 64).foldl (fun s g =>
    if nBit (xgField s die side g) 7 && xgField s die side g % 32 = k then xgDrop s die side g else s) s) s

/-- Trained groups whose conditions no longer hold leave the trained state: a clock has stopped at its source (R182). -/
def xgFollow (s : State) : State :=
  (List.range 8).foldl (fun s die => [0, 1].foldl (fun s side =>
    if getReg s (xgReg die side 0) = 0 && getReg s (xgReg die side 32) = 0 then s
    else (List.range 64).foldl (fun s g => if xgUp s die side g && !xgCan s die side g then xgDrop s die side g else s) s) s) s

/-! ### Crossing wires (R178, R179, R183) -/

/-- Edge of a side: 0 north, 1 east, 2 south, 3 west (R178). -/
def xgEdge (die side : Nat) : Nat := if side = 0 then edgeSide0 die else edgeSide1 die

/-- Positions along an edge: rows of an east or west edge, columns of a north or south edge (R178). -/
def xgLen (die side : Nat) : Nat := if xgEdge die side % 2 = 1 then 480 else 750

/-- First and last edge position of a group (R179). -/
def xgSpan (die side g : Nat) : Nat × Nat :=
  (g * xgLen die side / 64, (g + 1) * xgLen die side / 64 - 1)

/-- The edge tile that seam wire `i` of a side attaches to, outgoing and incoming alike (R178, R179). -/
def xgTile (die side i : Nat) : Nat × Nat :=
  let p := xgSpan die side (i / 256)
  let pos := p.1 + i % 256 % (p.2 - p.1 + 1)
  match xgEdge die side with
  | 0 => (pos, 479)
  | 1 => (749, pos)
  | 2 => (pos, 0)
  | _ => (0, pos)

/-- Value of incoming crossing wire `w` that the fabric sees while it is clamped (R183). -/
def clampValue (s : State) (die side w : Nat) : Bool := (cfgGet s die (0x53902 + 8 * side + w / 2048)).getLsbD (w % 2048)

/-- What drives seam wire `i` on a die is a partition that is fenced (09_partitions.md R219, R221). -/
def xgFenced (s : State) (die side i : Nat) : Bool :=
  match ownerAt s die (xgTile die side i).1 with
  | some e => partStateOn s die e.no != pLive
  | none => false

/-- Incoming wire `i` is held at its clamp value (R183; 09_partitions.md R219): its group or its seam untrained, the far die
isolated, what uses the wire not released, or what drives it on the far die fenced. -/
def xgClamped (s : State) (die side i : Nat) : Bool :=
  let far := xgPeer die side
  !xgUp s die side (i / 256) || !seamReady s die (xgSeam die side) || isolated s far
    || !releasedAt s die (xgTile die side i).1 || xgFenced s far (1 - side) i

/-- Key of a group's registers. -/
def xgKey (die side g : Nat) : Nat := (2 * die + side) * 64 + g

/-- What the fabric sees on incoming wire `i`: its clamp value, or the capture register (R181, R183). -/
def xgIn (s : State) (die side i : Nat) : Bool :=
  if xgClamped s die side i then clampValue s die side i
  else (tabOr 0 s.fab.xgCap (xgKey die side (i / 256))).getLsbD (i % 256)

/-! ### Network enables (R174) -/

/-- A network's enable bit changes; groups it clocks retrain. -/
def netEnable (s : State) (die net : Nat) (b : Bool) : State :=
  if netEn s die net = b then s
  else
    let s := netSet s die net b
    if net < 32 then xgStop s die net else s

/-- The enables of a die have been written: `old` holds register `reg` before (R174). -/
def netWritten (s : State) (die reg : Nat) (old : Word) : State :=
  if reg != 0 then s
  else
    let new : Word := getReg s (cfPage die + 0x0A0)
    ((List.range 32).filter fun k => wGet old k 1 != wGet new k 1).foldl (fun s k => xgStop s die k) s

/-! ### Capture (R184 to R186) -/

/-- Clock network of flip-flop `f` of tile (c, t). -/
def ffNet (s : State) (die c t f : Nat) : Option Nat :=
  netOfSel (bandOf c) (tileField s die c t (if tileBit s die c t (ffBase f + 10) then 774 else 768) 6)

/-- Bits of CAPTURE frame `n` whose flip-flops network `net` clocks. -/
def netMask (s : State) (die n net : Nat) : Frame :=
  (List.range 480).foldl (fun m t => (List.range 4).foldl (fun m i =>
    if ffNet s die (n / 4) t (4 * (n % 4) + i) = some net then m ||| (BitVec.ofNat 2048 1 <<< (4 * t + i)) else m) m) 0

/-- The flip-flops of network `net` of a die are latched into their shadow latches (R184, R185). -/
def capLatch (s : State) (die net : Nat) : State :=
  let mine := fun (t : Tab Frame) => (t.filter fun (e : Nat × Frame) => e.1 / 4096 == die).map fun (e : Nat × Frame) => e.1 % 4096
  let ns := (mine s.fab.ff ++ mine s.fab.shadow).eraseDups.filter (· < 3000)
  ns.foldl (fun s n =>
    let m := netMask s die n net
    let sh := (tabOr 0 s.fab.shadow (capKey die n) &&& ~~~m) ||| (ffGet s die n &&& m)
    { s with fab := { s.fab with shadow := tabPutD 0 s.fab.shadow (capKey die n) sh } }) s

/-- A readback that waited for the capture runs (R186). -/
def rbWake (s : State) (die : Nat) : State :=
  match (tabGet s.fab.rb die).join with
  | some r => { s with fab := { s.fab with rb := tabPut s.fab.rb die (some { r with waiting := false }) } }
  | none => s

/-- A capture of a die ends once no network is left (R185). -/
def capSettle (s : State) (die : Nat) : State :=
  match (tabGet s.fab.cap die).join with
  | some { left := [], .. } =>
    let p := cfPage die
    let s : State := { s with fab := { s.fab with cap := tabDel s.fab.cap die } }
    let s := countUp (putFlag (putFlag s p CF_CAP_STAT_BUSY false) p CF_CAP_STAT_DONE true) p CF_CAP_STAT_COUNT 1
    rbWake (evtPulse s p 0) die
  | _ => s

/-- Networks a capture selects: CF_CAP_NET0 to CF_CAP_NET2. -/
def capNets (s : State) (die : Nat) : List Nat :=
  (List.range 96).filter fun n => wGet (getReg s (cfPage die + 0x044 + 4 * (n / 32))) (n % 32) 1 = 1

/-- A capture of a die starts (R185). -/
def capStart (s : State) (die : Nat) : State :=
  let p := cfPage die
  let s := putFlag (putFlag s p CF_CAP_STAT_BUSY true) p CF_CAP_STAT_DONE false
  let s := (List.range 3).foldl (fun s i => putF s p (CF_CAP_DONE_NET.nth i) 0) s
  let s := putF (putF s p CF_CAP_TIME_LO_TIME s.hub.now) p CF_CAP_TIME_HI_TIME (s.hub.now / 2 ^ 32)
  let run : CapRun := { left := capNets s die, stop := flag s p CF_CAP_CTRL_STOP }
  capSettle { s with fab := { s.fab with cap := tabPut s.fab.cap die (some run) } } die

/-- A FABRIC (`trig` 1) or HALT (2) trigger: it acts while armed and no capture runs, and disarms (R185, R186). -/
def capTrigger (s : State) (die trig : Nat) : State :=
  let p := cfPage die
  if !isFabric die || isolated s die || getF s p CF_CAP_CTRL_TRIG != trig || !enabled s p || flag s p CF_CAP_STAT_BUSY then s
  else capStart (putFlag s p PG_CTRL_ENABLE false) die

/-- Network `net` leaves the running capture of a die: captured, or abandoned (R185). -/
def capNetDone (s : State) (die net : Nat) (captured : Bool) : State :=
  match (tabGet s.fab.cap die).join with
  | none => s
  | some r =>
    if !r.left.contains net then s
    else
      let p := cfPage die
      let s : State := { s with fab := { s.fab with cap := tabPut s.fab.cap die (some { r with left := setDel r.left net }) } }
      let s :=
        if !captured then putFlag s p CF_CAP_STAT_MISSED true
        else
          let s := capLatch s die net
          let s := setReg s (p + 0x054 + 4 * (net / 32)) (wPut (getReg s (p + 0x054 + 4 * (net / 32))) (net % 32) 1 1)
          if r.stop then netEnable s die net false else s
      capSettle s die

/-- A running capture of a die is abandoned as a whole (R186). -/
def capAbandonAll (s : State) (die : Nat) : State :=
  match (tabGet s.fab.cap die).join with
  | none => s
  | some r => r.left.foldl (fun s n => capNetDone s die n false) s

/-- A write of CAPTURE frame `n` sets the flip-flops it covers where their extent is held, and is refused with fault 0x0104
where it is not (R184). -/
def capFrameWrite (s : State) (die n : Nat) (f : Frame) : State :=
  if heldAt s die (n / 4) then ffPut s die n (f &&& BitVec.ofNat 2048 (2 ^ 1920 - 1)) else pageFault s (cfPage die) 0x0104

/-! ### Sections and readback ranges (R168, R187) -/

/-- Section of the frame space that a frame address lies in: first and last address; none in a hole (R168). -/
def sectionAt (die a : Nat) : Option (Nat × Nat) :=
  ([(0x00000, 0x493DF), (0x50000, 0x50B03), (0x51000, 0x51AFC), (0x52000, 0x5203B), (0x52100, 0x5215D), (0x53000, 0x537FF),
    (0x53800, 0x5381F), (0x53900, 0x53912), (0x53940, 0x53940 + 16 * ioBanks die - 1), (0x54000, 0x65FFF),
    (0x68000, 0x68BB7)] : List (Nat × Nat)).find? fun r => r.1 ≤ a && decide (a ≤ r.2)

/-- A range of frames lies within one section. -/
def rangeInSection (die a n : Nat) : Bool :=
  match sectionAt die a with
  | none => false
  | some r => 1 ≤ n && decide (a + n - 1 ≤ r.2)

/-- A readback of the CAPTURE section is on its way. -/
def rbCapture (s : State) (die : Nat) : Bool :=
  match (tabGet s.fab.rb die).join with
  | some r => 0x68000 ≤ r.frame && !r.waiting
  | none => false

/-- The block fault of a write to the CF_ page (R186, R188, R192). -/
def cfFault (s : State) (die off : Nat) (val : Word) : Option Nat :=
  let p := cfPage die
  if off = 0x040 && wGet val 31 1 = 1 then
    if flag s p CF_CAP_STAT_BUSY then some 0x0103 else if rbCapture s die then some 0x0100 else none
  else if off = 0x080 && wGet val 31 1 = 1 then
    if (tabGet s.fab.rb die).join.isSome then some 0x0101
    else if !rangeInSection die (getF s p CF_RB_ADDR_FRAME) (getF s p CF_RB_COUNT_COUNT) then some 0x0102
    else none
  else none

/-- A readback starts, or waits for a running capture (R186, R187). -/
def rbStart (s : State) (die : Nat) : State :=
  let p := cfPage die
  let a := getF s p CF_RB_ADDR_FRAME
  let dst := getF s p CF_RB_DST_HI_ADDR * 2 ^ 32 + getF s p CF_RB_DST_LO_ADDR * 256
  let r : RbRun :=
    { frame := a, left := getF s p CF_RB_COUNT_COUNT, dst := dst
      waiting := decide (0x68000 ≤ a) && flag s p CF_CAP_STAT_BUSY }
  let s := putF (putF s p CF_RB_STAT_RESULT 0xF) p CF_RB_STAT_DONE 0
  { s with fab := { s.fab with rb := tabPut s.fab.rb die (some r) } }

/-- What an accepted write to the CF_ page does beside its fields. -/
def cfWritten (s : State) (die off : Nat) (old val : Word) : State :=
  if off = 0x040 then (if wGet val 31 1 = 1 then capStart s die else s)
  else if off = 0x080 then (if wGet val 31 1 = 1 then rbStart s die else s)
  else if 0x0A0 ≤ off && off ≤ 0x0A8 then netWritten s die ((off - 0x0A0) / 4) old
  else s

/-! ### Commands -/

/-- CONTENTION_DETECTED: the upset turns the bit and leaves two drivers enabled on one wire (R166). -/
def execContentionDetected (die addr bit : Nat) (s : State) : Host.Outcome State Fault Refusal :=
  .next <|
    match driverShape addr with
    | none => s
    | some (w, n, en) =>
      let seen := cfgSeen s die addr ^^^ (BitVec.ofNat 2048 1 <<< bit)
      let i := bit / w
      if !isFabric die || isolated s die || 2048 ≤ bit || n ≤ i || en ≤ bit % w || oneHot en (frGet seen (w * i) en) then s
      else
        let p := cfPage die
        let s : State := { s with fab := { s.fab with
          upset := tabPutD 0 s.fab.upset (cfgKey die addr) (cfgGet s die addr ^^^ seen) } }
        let s := countUp s p CF_CONT_CNT_COUNT 1
        let s := if flag s p CF_CONT_FIRST_VALID then s
          else putF (putF (putFlag s p CF_CONT_FIRST_VALID true) p CF_CONT_FIRST_FRAME addr) p CF_CONT_FIRST_FIELD i
        raiseFrom (evtPulse s p 2) p 1 0x0401 addr

/-- XG_TRAINED (R182). -/
def execXgTrained (die side g : Nat) (s : State) : Host.Outcome State Fault Refusal :=
  .next (if xgCan s die side g then xgPut s die side g true else s)

/-- XG_TRAIN_TIMEOUT (R182). -/
def execXgTrainTimeout (die side g : Nat) (s : State) : Host.Outcome State Fault Refusal :=
  .next <|
    if !xgCan s die side g || xgUp s die side g then s
    else
      let p := cfPage die
      raiseFrom (evtPulse (countUp s p CF_XG_FAILCNT_COUNT 1) p 3) p 0 0x0402 (64 * side + g)

/-- CAP_TRIG (R185). -/
def execCapTrig (die : Nat) (s : State) : Host.Outcome State Fault Refusal :=
  .next (if netRuns s die (getF s (cfPage die) CF_CAP_CTRL_TRIG_NET) then capTrigger s die 1 else s)

/-- HALT_TRIGGER (R185). -/
def execHaltTrigger (die : Nat) (s : State) : Host.Outcome State Fault Refusal := .next (capTrigger s die 2)

/-- CAPTURE_ABANDON (R185). -/
def execCaptureAbandon (die net : Nat) (s : State) : Host.Outcome State Fault Refusal := .next (capNetDone s die net false)

/-- EVO_TOGGLE: one event of source 256 + 48n + 32 + i (R190). The output stands at column 375. -/
def execEvoToggle (die i : Nat) (s : State) : Host.Outcome State Fault Refusal :=
  .next <|
    if !isFabric die || 16 ≤ i || !releasedAt s die 375 || isolated s die then s
    else
      let v := tabOr 0 s.fab.evo die
      let s : State := { s with fab := { s.fab with evo := tabPutD 0 s.fab.evo die (nSet v i (!nBit v i)) } }
      srcPulse s (256 + 48 * die + 32 + i)

end Sys2Proof.Machine
end

