-- ==== Sys2Proof/Machine/LaneMap.lean ====
section
/-! DEFINITION. Names, rates and owners of lanes and bundles (14_lanes.md R357, R358, R365). A lane is named by its device
lane number 32n + l. -/

namespace Sys2Proof.Machine

/-! ### Names (R357) -/

/-- Lane die of a device lane. -/
def laneDie (lane : Nat) : Nat := 9 + lane / 32
/-- Quad page of a lane. -/
def laneQuad (lane : Nat) : Nat := lqPage (laneDie lane) (lane % 32 / 4)
/-- Lane in its quad. -/
def laneK (lane : Nat) : Nat := lane % 4
/-- Device lane of local lane `l` of a die. -/
def laneNo (die l : Nat) : Nat := 32 * (die - 9) + l
/-- A field of a lane's window. -/
def lf (f : FieldRef) (lane : Nat) : FieldRef := f.nth (laneK lane)

/-- Hidden state of a lane. -/
def laneOf (s : State) (lane : Nat) : Lane := tabOr { } s.lane.lanes lane
/-- `s` with a lane set. -/
def setLane (s : State) (lane : Nat) (x : Lane) : State :=
  { s with lane := { s.lane with lanes := tabPutD { } s.lane.lanes lane x } }
/-- Hidden state of bundle `k` of a die. -/
def bundleOf (s : State) (die k : Nat) : Bundle := tabOr { } s.lane.bundles (32 * die + k)
/-- `s` with a bundle set. -/
def setBundle (s : State) (die k : Nat) (x : Bundle) : State :=
  { s with lane := { s.lane with bundles := tabPutD { } s.lane.bundles (32 * die + k) x } }

/-- STATE of a lane in LQ_STAT: 0 OFF, 1 WAIT, 2 ADAPT, 3 TRACK, 4 IDLE, 5 TEST. -/
def laneState (s : State) (lane : Nat) : Nat := getF s (laneQuad lane) (lf LQ_STAT_STATE lane)
/-- RATE in effect of a lane. -/
def laneRate (s : State) (lane : Nat) : Nat := getF s (laneQuad lane) (lf LQ_CFG_RATE lane)
/-- A rate with PAM4 modulation (R358). -/
def pam4 (rate : Nat) : Bool := 0x0A ≤ rate && rate ≤ 0x0D

/-- Lanes of a WIDTH code. -/
def widthOf (code : Nat) : Nat := if code = 0 || 5 < code then 0 else 2 ^ (code - 1)
/-- First lane and lanes of bundle `k`. -/
def bundleFirst (s : State) (die k : Nat) : Nat := getF s (lbPage die) (LB_BCFG_FIRST.nth k)
@[inherit_doc bundleFirst] def bundleWidth (s : State) (die k : Nat) : Nat := widthOf (getF s (lbPage die) (LB_BCFG_WIDTH.nth k))
/-- Device lanes of a bundle. -/
def bundleLanes (s : State) (die k : Nat) : List Nat :=
  (List.range (bundleWidth s die k)).map fun i => laneNo die (bundleFirst s die k + i)
/-- EN of a bundle. -/
def bundleEn (s : State) (die k : Nat) : Bool := flag s (lbPage die) (LB_BCFG_EN.nth k)
/-- STATE of a bundle. -/
def bundleState (s : State) (die k : Nat) : Nat := getF s (lbPage die) (LB_BSTAT_STATE.nth k)

/-! ### Owners (R357) -/

/-- Lanes of a PCIe controller (R357): its width, once it is configured; 16 in its boot configuration (17_processors.md R469). -/
def pcieLanes (s : State) (pc : Nat) : Nat :=
  let p := pcPage pc
  if (pcieOf s pc).boot then 16
  else if !(pcieOf s pc).owned || getF s p PC_CFG_MODE = 0 then 0
  else match getF s p PC_CFG_WIDTH with
    | 0 => 16 | 1 => 8 | _ => 4

/-- The lane is PCIe's. -/
def pcieOwns (s : State) (lane : Nat) : Bool :=
  (laneDie lane = 9 && lane % 32 < pcieLanes s 0) || (laneDie lane = 11 && lane % 32 < pcieLanes s 1)

/-- The enabled bundle that owns a lane. -/
def bundleOn (s : State) (lane : Nat) : Option Nat :=
  (List.range 16).find? fun k => bundleEn s (laneDie lane) k && (bundleLanes s (laneDie lane) k).contains lane

/-- The value a register of the lane would take at its commit point. -/
def committedReg (s : State) (a : Nat) : Word := (tabGet s.pg.committed a).getD (getReg s a)

/-- A test function asks for the lane; a committed LOOPBACK asks as well as one in effect, which only a lane that has left OFF
can have (R357, R378; log 105). -/
def testAsked (s : State) (lane : Nat) : Bool :=
  let q := laneQuad lane
  enabled s q && (flag s q (lf LQ_PGEN_EN lane) || flag s q (lf LQ_PCHK_EN lane)
    || wGet (committedReg s (q + (lf LQ_CFG_LOOPBACK lane).off)) 10 2 != 0)

/-- Owner of a lane, as LQ_STAT.OWNER. -/
def laneOwner (s : State) (lane : Nat) : Nat :=
  if pcieOwns s lane then 2 else if (bundleOn s lane).isSome then 1 else if testAsked s lane then 3 else 0

/-- STATE that LQ_STAT shows: a lane of PCIe runs while its controller does, and TRACK is shown for it (R357; log 105). -/
def laneShown (s : State) (lane : Nat) : Nat := if pcieOwns s lane then 3 else laneState s lane

/-- Rate code of a PCIe generation (R358). -/
def pcieRate (gen : Nat) : Nat :=
  match gen with
  | 1 => 0x02 | 2 => 0x03 | 3 => 0x04 | 4 => 0x06 | 5 => 0x08 | 6 => 0x0B | _ => 0

/-- RATE in effect that LQ_STAT shows of a PCIe lane (R369). -/
def pcieLaneRate (s : State) (lane : Nat) : Nat := pcieRate (getF s (pcPage (if laneDie lane = 9 then 0 else 1)) PC_STAT_GEN)

end Sys2Proof.Machine
end

