-- ==== Sys2Proof/Machine/RouteOps.lean ====
section
/-! DEFINITION. Route tables: their form (12_noc.md R311, R312), the cycle check of R314 and the run-time update (R315,
R316). -/

namespace Sys2Proof.Machine

/-- Entry of a table of the router `r` (a node) for destination router `d` (a node) and VC `v`: VALID and port (R311). -/
def routeEntry (t : RouteTab) (r d v : Nat) : Nat :=
  if nodeDie d = nodeDie r then t.loc.getD (4 * nodeRtr d + v) 0 else t.die.getD (4 * nodeDie d + v) 0

/-- Table in force at a router, none while its boot route set stands (R101). -/
def routeTab (s : State) (node : Nat) : Option RouteTab := (tabGet s.noc.routes node).join

/-! ### The boot route set (04_start.md R101)

The manual calls it fixed and cycle-free, with up and down routes rooted at the hub, and gives no table: the tree below is the
model's (log 98). Its links hold those of the start's management path (03_clocks.md R67). -/

/-- The die above `d` in the tree rooted at the hub. -/
def bootParent (d : Nat) : Nat :=
  if d = 8 then 8 else if d = 13 then 1 else if d = 14 then 5 else if isLane d then 2 * (d - 9)
  else if d % 2 = 1 then 8 else d + 1

/-- The seam from die `d` to the die above it. -/
def bootSeam (d : Nat) : Nat :=
  if d = 13 then 16 else if d = 14 then 17 else if isLane d then 12 + (d - 9) else if d % 2 = 1 then 8 + d / 2 else d

/-- The seam that the route from die `d` to die `t` takes first: down where `d` stands above `t`, else up. -/
def bootHop (d t : Nat) : Nat :=
  match [t, bootParent t, bootParent (bootParent t)].find? fun c => c != 8 && bootParent c = d with
  | some c => bootSeam c
  | none => bootSeam d

/-- The port from router `r` toward router `to'` of the same die: along the row first, and never round the hub's ring. -/
def bootLocal (die r to' : Nat) : Nat :=
  if isFabric die then
    if r % 8 < to' % 8 then 1 else if to' % 8 < r % 8 then 3 else if r < to' then 0 else 2
  else if r < to' then 0 else 1

/-- Output of a VC0 head under the boot route set. -/
def bootPort (node dst : Nat) : Nat :=
  let d := nodeDie node
  let r := nodeRtr node
  if nodeDie dst = d then bootLocal d r (nodeRtr dst)
  else
    let p := seamPort d (bootHop d (nodeDie dst)) 0
    if r = p.1 then p.2 else bootLocal d r p.1

/-! ### Tables -/

/-- An entry names a link of the router. -/
def entryOk (r e : Nat) : Bool := nBit e 3 && decide (e < 16) && isLink (nodeDie r) (nodeRtr r) (e % 8)

/-- First entry of a table that breaks R312: VC and port. -/
def badEntry (t : RouteTab) : Option (Nat × Nat) :=
  let r := t.node
  let dies := (List.range 16).flatMap fun d => (List.range 4).map fun v => (4 * d + v, d < 15 && d != nodeDie r, v)
  let locs := (List.range 32).flatMap fun j =>
    (List.range 4).map fun v => (4 * j + v, j < routerCount (nodeDie r) && j != nodeRtr r, v)
  let bad := fun (l : List Nat) (x : Nat × Bool × Nat) =>
    let e := l.getD x.1 0
    if x.2.1 then !entryOk r e else e != 0
  ((dies.find? (bad t.die)).map fun x => (x.2.2, t.die.getD x.1 0 % 8)).or
    ((locs.find? (bad t.loc)).map fun x => (x.2.2, t.loc.getD x.1 0 % 8))

/-- A channel: router, output port, VC. -/
abbrev Chan := Nat × Nat × Nat

/-- The tables each router can hold while the update proceeds: `old` in force and those of the update. -/
def tablesOf (old new : List RouteTab) (r : Nat) : List RouteTab := (old ++ new).filter (·.node == r)

/-- Dependencies between channels (R314). -/
def chanEdges (old new : List RouteTab) : List (Chan × Chan) :=
  (List.range 4).flatMap fun v => allRouters.flatMap fun d => allRouters.flatMap fun r =>
    if r = d then []
    else (tablesOf old new r).flatMap fun t =>
      let o := routeEntry t r d v % 8
      match linkPeer (nodeDie r) (nodeRtr r) o with
      | none => []
      | some (pd, pr, _) =>
        let p := mkNode pd pr 0
        if p = d then [] else (tablesOf old new p).map fun u => ((r, o, v), (p, routeEntry u p d v % 8, v))

/-- Channels that no dependency enters or none leaves are taken out, `fuel` rounds. -/
def trimEdges (es : List (Chan × Chan)) (fuel : Nat) : List (Chan × Chan) :=
  match fuel with
  | 0 => es
  | f + 1 =>
    let es' := es.filter fun e => (es.any fun x => x.2 = e.1) && (es.any fun x => x.1 = e.2)
    if es'.length = es.length then es else trimEdges es' f

/-- A channel on a cycle, if there is one. -/
def routeCycle (old new : List RouteTab) : Option Chan :=
  let es := chanEdges old new
  (trimEdges es es.length).head?.map (·.1)

/-- What the check of R314 finds: 0 pass, 1 format, 2 bad entry, 3 cycle, and the channel. -/
def routeVerdict (old new : List RouteTab) : Nat × Option Chan :=
  match new.find? fun t => (badEntry t).isSome with
  | some t => match badEntry t with | some (v, p) => (2, some (t.node, p, v)) | none => (2, none)
  | none => match routeCycle old new with | some c => (3, some c) | none => (0, none)

/-- RT_FAIL names a channel (R334). -/
def routeFailPut (s : State) (c : Option Chan) : State :=
  match c with
  | none => s
  | some (r, o, v) =>
    putFlag (putF (putF (putF (putF s RT RT_FAIL_DIE (nodeDie r)) RT RT_FAIL_ROUTER (nodeRtr r)) RT RT_FAIL_PORT o)
      RT RT_FAIL_VC v) RT RT_FAIL_VALID true

/-- Tables in force. -/
def tablesNow (s : State) : List RouteTab := s.noc.routes.filterMap (·.2)

/-- The staged set has the form of R315: header, lengths and blocks. -/
def stagedForm (s : State) (magic routers reaches rsv : Nat) (blocks : List RouteTab) : Bool :=
  magic = 0x52544231 && 1 ≤ routers && routers ≤ 218 && reaches = 0 && rsv = 0 && blocks.length = routers
    && getF s RT RT_LEN_BYTES = 16 + 128 * routers
    && blocks.all fun t => allRouters.contains t.node && t.rsv = 0 && t.rest = 0 && t.die.length = 64 && t.loc.length = 128

/-- The loader stops with `result`. -/
def routeStop (s : State) (result evt : Nat) : State :=
  let s := putFlag (putF s RT RT_STAT_RESULT result) RT RT_STAT_BUSY false
  evtPulse { s with noc := { s.noc with run := none } } RT evt

/-- The MGMT DRAIN of the loader to a router (R315 step 1). -/
def drainPkt (node tag : Nat) : Packet :=
  { cmd := 9, urg := 7, src := 10, srcNode := iniNode 10, dst := node, tag := tag, cls := iniClass 10
    arg0 := Config.drainOp % 256 }

/-- The loader sends the DRAIN of the next block, or is done (R315). -/
def drainSend (s : State) (r : RouteRun) : State :=
  match r.blocks with
  | [] => routeStop s 0 0
  | t :: _ =>
    let tag := tabOr 0 s.noc.nextTag (iniNode 10)
    vc0Send { s with noc := { s.noc with run := some { r with tag := tag } } } (drainPkt t.node tag)

/-- RT_CTRL.GO accepted: the check, and with `apply` the start of the installs (R315). -/
def routeGo (s : State) (magic routers reaches rsv : Nat) (blocks : List RouteTab) (apply : Bool) : State :=
  let s := putF s RT RT_STAT_DONE 0
  if !stagedForm s magic routers reaches rsv blocks then routeStop s 1 0
  else
    let r := routeVerdict (tablesNow s) blocks
    if r.1 != 0 then routeStop (routeFailPut s r.2) r.1 0
    else if apply then
      let s := putFlag (putF s RT RT_STAT_RESULT 0xF) RT RT_STAT_BUSY true
      drainSend s { blocks := blocks, apply := true }
    else routeStop s 0 0

end Sys2Proof.Machine
end

