-- ==== Sys2Proof/Machine/FlowOps.lean ====
section
/-! DEFINITION. Flow slices (15_flow_slices.md): ports, tokens, gate lists, tables, exact matches, trunks and admission, as
register writes and other chapters act on them. -/

namespace Sys2Proof.Machine

/-! ### Frames and tokens (R396 to R398) -/

/-- Cells of a frame of `n` bytes. -/
def cellsOf (n : Nat) : Nat := (n + 32 + 255) / 256

/-- MIN and MAX of a queue. -/
def qMin (s : State) (die port q : Nat) : Nat := getF s (fePage die port) (FE_QMIN_TOKENS.nth q)
@[inherit_doc qMin] def qMax (s : State) (die port q : Nat) : Nat := getF s (fePage die port) (FE_QMAX_TOKENS.nth q)

/-- Tokens a queue holds. -/
def qHeld (x : Slice) (port q : Nat) : Nat :=
  ((x.frames.filter fun f => f.egPort = port && f.egQueue = q).map (·.tokens)).sum

/-- Size of the shared pool: 131,072 less the reserve and every MIN. -/
def poolSize (s : State) (die : Nat) : Int :=
  131072 - getF s (fsPage die) FS_SCHED_RSV_TOKENS -
    (((List.range 128).map fun k => qMin s die (k / 8) (k % 8)).sum : Nat)

/-- Tokens that outgoing streams hold: of FS_SCHED_RSV, or of the shared pool (R397). -/
def outsHeld (x : Slice) (sched : Bool) : Nat := ((x.outs.filter (·.sched == sched)).map (·.tokens)).sum

/-- Tokens of the shared pool that are free: what queues hold beyond their MIN is drawn from it, and so is what bulk frames on
their way to other slices hold. -/
def sharedFree (s : State) (die : Nat) : Int :=
  let x := sliceOf s die
  poolSize s die - outsHeld x false -
    (((List.range 128).map fun k => qHeld x (k / 8) (k % 8) - qMin s die (k / 8) (k % 8)).sum : Nat)

/-- A frame for another slice can draw `n` tokens at its source (R397). -/
def canDrawOut (s : State) (die n : Nat) (sched : Bool) : Bool :=
  if sched then outsHeld (sliceOf s die) true + n ≤ getF s (fsPage die) FS_SCHED_RSV_TOKENS
  else decide ((n : Int) ≤ sharedFree s die)

/-- A queue can draw `n` tokens (R397). -/
def canDraw (s : State) (die port q n : Nat) : Bool :=
  let h := qHeld (sliceOf s die) port q
  let m := qMin s die port q
  let fromPool := (h + n - m) - (h - m)
  (fromPool = 0 || h + n ≤ qMax s die port q) && decide ((fromPool : Int) ≤ sharedFree s die)

/-- A frame leaves its slice, its tokens returned at once (R382). -/
def frameDel (s : State) (die id : Nat) : State :=
  updSlice s die fun x =>
    let back := ((x.frames.filter (·.id == id)).map (·.tokens)).sum
    { x with frames := x.frames.filter (·.id != id), free := x.free + back }

/-- A frame of a slice changed by `f`. -/
def frameUpd (s : State) (die id : Nat) (f : EthFrame → EthFrame) : State :=
  updSlice s die fun x => { x with frames := x.frames.map fun e => if e.id = id then f e else e }

/-- A wrapping port counter of R420, `n` added. -/
def portCount (s : State) (die port : Nat) (f : FieldRef) (n : Nat) : State :=
  putF s (fePage die port) f ((getF s (fePage die port) f + n) % 2 ^ 32)

/-- Drop counters: 0 BUF, 1 MISS, 2 LEN, 3 OTHER. -/
def dropCount (s : State) (die port c : Nat) : State := portCount s die port (FE_DROP_COUNT.nth c) 1

/-- The queued frames of a port are discarded (R398). -/
def portFlush (s : State) (die port : Nat) : State :=
  ((sliceOf s die).frames.filter fun f => f.egPort = port && f.queued).foldl
    (fun s f => dropCount (frameDel s die f.id) die port 3) s

/-! ### Ports (R380) -/

/-- WIDTH code of the bundle, RATE code and port rate in 100 Mbit/s of a mode. -/
def portMode (mode : Nat) : Nat × Nat × Nat :=
  match mode with
  | 1 => (1, 0x05, 100) | 2 => (1, 0x07, 250) | 3 => (1, 0x0A, 500) | 4 => (1, 0x0C, 1000) | 5 => (2, 0x0C, 2000)
  | 6 => (3, 0x0C, 4000) | 7 => (4, 0x0A, 4000) | 8 => (4, 0x0C, 8000) | 9 => (5, 0x0A, 8000) | _ => (0, 0, 0)

/-- MODE of a port. -/
def feMode (s : State) (die port : Nat) : Nat := getF s (fePage die port) FE_MODE_MODE
/-- Rate of a port in 100 Mbit/s. -/
def portRate (s : State) (die port : Nat) : Nat := (portMode (feMode s die port)).2.2
/-- MTU of a port. -/
def portMtu (s : State) (die port : Nat) : Nat := getF s (fePage die port) FE_MODE_MTU

/-- The bundle has the width and lane rate the port's mode requires. -/
def modeFits (s : State) (die port : Nat) : Bool :=
  let m := portMode (feMode s die port)
  bundleEn s die port && getF s (lbPage die) (LB_BCFG_WIDTH.nth port) = m.1 &&
    (bundleLanes s die port).all fun x => laneRate s x = m.2.1

/-- FE_STAT of a port follows its mode, its enable and its bundle; a link that goes down flushes its queues (R380, R398). -/
def linkSettle (s : State) (die port : Nat) : State :=
  let p := fePage die port
  let on := feMode s die port != 0
  let err := on && !modeFits s die port
  let up := enabled s p && on && !err && bundleState s die port = 4
  let was := flag s p FE_STAT_LINK
  let s := putFlag (putFlag (putF s p FE_STAT_RATE (portRate s die port)) p FE_STAT_MODE_ERR err) p FE_STAT_LINK up
  if up && !was then evtPulse s p 0
  else if was && !up then portFlush (evtPulse s p 1) die port
  else s

/-! ### Gate lists and stream gates (R393, R401) -/

/-- Position in a cycle at time `t`. -/
def cyclePos (t base cycle : Nat) : Nat := if cycle = 0 then 0 else (((t : Int) - base) % (cycle : Int)).toNat

/-- Entries (state, interval) laid on a cycle: state, start and end of each, cut at the cycle's end, the last one holding
to it. -/
def layOut (es : List (Nat × Nat)) (at_ cycle : Nat) : List (Nat × Nat × Nat) :=
  match es with
  | [] => []
  | [e] => if at_ < cycle then [(e.1, at_, cycle)] else []
  | e :: r =>
    if cycle ≤ at_ then [] else (e.1, at_, min cycle (at_ + e.2)) :: layOut r (at_ + e.2) cycle

/-- The entry that stands at a position: its index, state, start and end. -/
def entryAt (l : List (Nat × Nat × Nat)) (pos : Nat) : Option (Nat × Nat × Nat × Nat) :=
  (l.zipIdx.find? fun e => e.1.2.1 ≤ pos && decide (pos < e.1.2.2)).map fun e => (e.2, e.1)

/-- BASE of a port's gate list in force. -/
def gclBase (s : State) (p : Nat) : Nat :=
  getF s p (FE_GCL_BASE_NS.nth 0) + 2 ^ 32 * getF s p (FE_GCL_BASE_NS.nth 1)

/-- The gate list of a port as laid on its cycle. -/
def gclList (s : State) (die port : Nat) : List (Nat × Nat × Nat) :=
  let p := fePage die port
  let bank := getF s p FE_GCL_STAT_BANK
  let e := fun j => tblGet (sliceOf s die) 7 (512 * port + 256 * bank + j) 0
  layOut ((List.range (getF s p FE_GCL_CTRL_LEN)).map fun j => (wGet (e j) 0 8, wGet (e j) 8 24)) 0 (getF s p FE_GCL_CYCLE_NS)

/-- Entry and gates of a port now; every gate is open with EN = 0. -/
def gclNow (s : State) (die port : Nat) : Nat × Nat :=
  let p := fePage die port
  if !flag s p FE_GCL_CTRL_EN then (0, 0xFF)
  else
    match entryAt (gclList s die port) (cyclePos s.hub.now (gclBase s p) (getF s p FE_GCL_CYCLE_NS)) with
    | some (i, g, _) => (i, g)
    | none => (0, 0)

/-- ENTRY and OPEN of a port follow the time base. -/
def gclShow (s : State) (die port : Nat) : State :=
  let g := gclNow s die port
  putF (putF s (fePage die port) FE_GCL_STAT_ENTRY g.1) (fePage die port) FE_GCL_STAT_OPEN g.2

/-- Time until gate `q` of a port next closes: none where it stays open. -/
def gateLeft (s : State) (die port q : Nat) : Option Nat :=
  let p := fePage die port
  if !flag s p FE_GCL_CTRL_EN then none
  else
    let l := gclList s die port
    let cycle := getF s p FE_GCL_CYCLE_NS
    let pos := cyclePos s.hub.now (gclBase s p) cycle
    let later := (l.find? fun e => pos ≤ e.2.1 && !nBit e.1 q).map fun e => e.2.1 - pos
    let next := (l.find? fun e => !nBit e.1 q).map fun e => cycle - pos + e.2.1
    later.or next

/-- The gate list commits: the banks swap and GCL_SWITCHED fires (R401). -/
def gclApply (s : State) (die port : Nat) : State :=
  let p := fePage die port
  let s := shadowApply s p
  let s := putF s p FE_GCL_STAT_BANK (1 - getF s p FE_GCL_STAT_BANK)
  let s := putFlag s p FE_GCL_STAT_PENDING false
  let s := updSlice s die fun x => { x with gclAt := tabDel x.gclAt port }
  evtPulse (gclShow s die port) p 2

/-- A COMMIT on an FE_ page: at once while the port does not run, otherwise at its commit point (R55, R401). -/
def feCommitted (s : State) (die port : Nat) : State :=
  let p := fePage die port
  if !enabled s p then gclApply s die port
  else putFlag (updSlice s die fun x => { x with gclAt := tabPut x.gclAt port s.hub.now }) p FE_GCL_STAT_PENDING true

/-- The value register `off` of an FE_ page has once the commit has applied. -/
def feNext (s : State) (p off : Nat) : Word := (tabGet s.pg.committed (p + off)).getD (getReg s (p + off))

/-- The commit point: the first cycle start of the new list at least 1 µs after the COMMIT made at `t`. -/
def gclPoint (s : State) (die port t : Nat) : Nat :=
  let p := fePage die port
  let cycle := (feNext s p 0x104).toNat
  let base := (feNext s p 0x108).toNat + 2 ^ 32 * (feNext s p 0x10C).toNat
  let from_ := t + 1000
  if cycle = 0 then from_ else from_ + (cycle - cyclePos from_ base cycle) % cycle

/-- Stream gate `g` of a slice is valid. -/
def sgValid (x : Slice) (g : Nat) : Bool := wGet (tblGet x 6 g 0) 0 1 = 1

/-- Stream gate `g` is open at time `t`. -/
def sgOpen (x : Slice) (g t : Nat) : Bool :=
  let w := tblGet x 6 g
  let cycle := (w 1).toNat
  let base := (w 2).toNat + 2 ^ 32 * (w 3).toNat
  let n := min 12 (wGet (w 0) 1 4)
  let l := layOut ((List.range n).map fun j => (wGet (w (4 + j)) 0 1, wGet (w (4 + j)) 8 24)) 0 cycle
  match entryAt l (cyclePos t base cycle) with
  | some (_, o, _) => o = 1
  | none => false

/-- The time base has been set: LAST of every context takes it, and gate positions are found anew (R392, R402). -/
def flowTimeSet (s : State) : State :=
  [9, 10, 11, 12].foldl (fun s d =>
    let s := updSlice s d fun x =>
      { x with lastAt := BitVec.ofNat 32 s.hub.now
               tbl := x.tbl.filter fun (e : Nat × Word) => 1048576 ≤ e.1 || e.1 % 16 != 10 }
    (List.range 16).foldl (fun s k => if flag s (fePage d k) FE_GCL_CTRL_EN then gclShow s d k else s) s) s

/-! ### Tables (R389, R390, R417) -/

/-- ADMITTED of a context. -/
def admitted (x : Slice) (ctx : Nat) : Bool := wGet (tblGet x 0 ctx 0) 3 1 = 1

/-- Buckets of a context reduced to its burst sizes, and LAST where `last` gives it (R392). -/
def ctxClip (x : Slice) (c : Nat) (last : Option Nat) : Slice :=
  let cap := fun (w b : Nat) => BitVec.ofNat 32 (min (tblGet x 0 c w).toNat (256 * wGet (tblGet x 0 c b) 0 24))
  let x := { x with tbl := (tblPut (tblPut x 0 c 8 (cap 8 6)) 0 c 9 (cap 9 7)).tbl }
  match last with
  | some t => tblPut x 0 c 10 (BitVec.ofNat 32 t)
  | none => x

/-- An entry written with `data` from word `lo` to word `hi` - 1. -/
def entryPut (s : State) (die table e lo hi : Nat) (data : Nat → Word) : State :=
  let hi := min hi (tblShape table).2
  let x := (List.range (hi - lo)).foldl (fun x i =>
    tblStore x table e (lo + i) (data (lo + i))) (sliceOf s die)
  setSlice s die (if table != 0 then x else ctxClip x e (if hi = 16 then some s.hub.now else none))

/-- RESULT of a WRITE, WRITE_CFG or ZERO of an entry (R390, R410, R401, R417). -/
def writeResult (s : State) (ini die op table e : Nat) : Nat :=
  let x := sliceOf s die
  let port := e / 512
  let bank := e / 256 % 2
  if (tblShape table).1 ≤ e then 1
  else if op = 2 && table != 0 && table != 8 then 5
  else if table = 0 && admitted x e then 2
  else if (table = 8 || table = 9) && iniClass ini != 0 then 3
  else if table = 7 && (flag s (fePage die port) FE_GCL_STAT_PENDING || bank = getF s (fePage die port) FE_GCL_STAT_BANK) then 4
  else 0

/-- FS_TBL_CMD runs: RESULT, data and the entry (R417). -/
def tblRun (s : State) (ini die op table e : Nat) : State :=
  let p := fsPage die
  let data := fun i => getReg s (p + 0x080 + 4 * i)
  let r := if op = 0 then (if (tblShape table).1 ≤ e then 1 else 0) else writeResult s ini die op table e
  let s :=
    if r != 0 then s
    else
      match op with
      | 0 => (List.range 16).foldl (fun s i =>
          let v := if (tblShape table).2 ≤ i || (table = 9 && i < 12) then 0 else tblGet (sliceOf s die) table e i
          setReg s (p + 0x080 + 4 * i) v) s
      | 1 => entryPut s die table e 0 16 data
      | 2 => entryPut s die table e 0 8 data
      | _ => entryPut s die table e 0 16 fun _ => 0
  evtPulse (putF s p FS_TBL_STAT_RESULT r) p 4

/-! ### Exact match (R387) -/

/-- Buckets of a key in ways 0 and 1. -/
def emBucket (key : List Byte) (way : Nat) : Nat :=
  (if way = 0 then crc32c key else crc32cFrom 0x0F0F0F0F key) % 8192

/-- Key bytes of an entry. -/
def emKey (x : Slice) (e : Nat) : List Byte := (List.range 8).flatMap fun i => toBytes 4 (tblGet x 3 e i).toNat

/-- VALID and context of an entry. -/
def emValid (x : Slice) (e : Nat) : Bool := wGet (tblGet x 3 e 8) 16 1 = 1
@[inherit_doc emValid] def emCtx (x : Slice) (e : Nat) : Nat := wGet (tblGet x 3 e 8) 0 16

/-- Entries of bucket `b` of a way. -/
def emSlots (way b : Nat) : List Nat := (List.range 4).map fun i => 4 * (8192 * way + b) + i

/-- The entry that holds a key. -/
def emFind (x : Slice) (key : List Byte) : Option Nat :=
  (emSlots 0 (emBucket key 0) ++ emSlots 1 (emBucket key 1)).find? fun e => emValid x e && emKey x e = key

/-- An entry filled with a key and a context. -/
def emPut (x : Slice) (e : Nat) (key : List Byte) (ctx : Nat) : Slice :=
  let x := (List.range 8).foldl (fun x i => tblPut x 3 e i (BitVec.ofNat 32 (ofBytes ((key.drop (4 * i)).take 4)))) x
  tblPut x 3 e 8 (BitVec.ofNat 32 (ctx + 65536))

/-- A key placed in a full bucket: the displaced entry moves to its other way, at most `fuel` more moves. -/
def emMove (x : Slice) (key : List Byte) (ctx way b moves fuel : Nat) : Option (Slice × Nat) :=
  match fuel with
  | 0 => none
  | f + 1 =>
    let e := 4 * (8192 * way + b) + moves % 4
    let vKey := emKey x e
    let vCtx := emCtx x e
    let x := emPut x e key ctx
    let other := 1 - way
    match (emSlots other (emBucket vKey other)).find? fun i => !emValid x i with
    | some i => some (emPut x i vKey vCtx, moves + 1)
    | none => emMove x vKey vCtx other (emBucket vKey other) (moves + 1) f

/-- FS_EM_CMD runs. -/
def emRun (s : State) (die op ctx : Nat) : State :=
  let p := fsPage die
  let x := sliceOf s die
  let key := (List.range 8).flatMap fun i => toBytes 4 (getReg s (p + 0x0E0 + 4 * i)).toNat
  let found := fun (s : State) (e : Nat) => putF (putF s p FS_EM_RES_ENTRY e) p FS_EM_RES_CTX (emCtx (sliceOf s die) e)
  let result := fun (s : State) (r moves : Nat) => putF (putF s p FS_EM_STAT_RESULT r) p FS_EM_STAT_MOVES moves
  match op, emFind x key with
  | 0, some e => result (found s e) 0 0
  | 0, none => result s 1 0
  | 1, some e => result (found s e) 2 0
  | 1, none =>
    match (emSlots 0 (emBucket key 0) ++ emSlots 1 (emBucket key 1)).find? fun e => !emValid x e with
    | some e => result (found (setSlice s die (emPut x e key ctx)) e) 0 0
    | none =>
      match emMove x key ctx 0 (emBucket key 0) 0 16 with
      | some (y, m) => result (found (setSlice s die y) ((emFind y key).getD 0)) 0 m
      | none => evtPulse (result s 3 16) p 1
  | _, some e => result (setSlice (found s e) die (tblPut x 3 e 8 (tblGet x 3 e 8 &&& 0xFFFF))) 0 0
  | _, none => result s 1 0

/-! ### Trunks (R411, R412) -/

/-- Slice and bridge nodes of a trunk: source and destination. -/
def trunkEnds (die i : Nat) : Nat × Nat := (mkNode die (i / 8) 0, mkNode (9 + i / 2 % 4) (i % 2) 0)

/-- The path of the scheduled lane from router `r` to the node `d`: output channels in order, none where a router has no
usable table entry or the path crosses an isolated die or a seam that is not ACTIVE. -/
def trunkPath (s : State) (r d fuel : Nat) : Option (List (Nat × Nat)) :=
  match fuel with
  | 0 => none
  | f + 1 =>
    if isolated s (nodeDie r) then none
    else if nodeDie r = nodeDie d && nodeRtr r = nodeRtr d then some [(r, localPort (nodeDie d) (nodeRtr d) (nodeEp d))]
    else
      match routeTab s (mkNode (nodeDie r) (nodeRtr r) 0) with
      | none => none
      | some t =>
        let e := routeEntry t r d 3
        let ok := match seamAt (nodeDie r) (nodeRtr r) (e % 8) with
          | some (m, _) => seamActive s (nodeDie r) m && seamActive s (seamFar (nodeDie r) m) m
          | none => true
        if !entryOk r e || !ok then none
        else
          match linkPeer (nodeDie r) (nodeRtr r) (e % 8) with
          | none => none
          | some (pd, pr, _) => (trunkPath s (mkNode pd pr 0) d f).map fun l => (mkNode (nodeDie r) (nodeRtr r) 0, e % 8) :: l
where
  /-- A seam endpoint is ACTIVE. -/
  seamActive (s : State) (die m : Nat) : Bool := getF s (smPage die m) SM_STAT_STATE = 7

/-- Trunk number over the device. -/
def trunkNo (die i : Nat) : Nat := 16 * (die - 9) + i

/-- The reserved channels of a trunk are released. -/
def trunkFree (s : State) (die i : Nat) : State :=
  { s with flow := { s.flow with chans := s.flow.chans.filter fun c => c.2.2 != trunkNo die i } }

/-- The walk of a trunk (R411): RESULT, ROUTERS, SEAMS and the channels. -/
def trunkWalk (s : State) (die i : Nat) : Nat × Nat × Nat × List (Nat × Nat) :=
  let e := trunkEnds die i
  match trunkPath s e.1 e.2 220 with
  | none => (3, 0, 0, [])
  | some path =>
    let routers := path.length
    let seams := (path.filter fun c => (seamAt (nodeDie c.1) (nodeRtr c.1) c.2).isSome).length
    let t := 285 + 20 * routers + 100 * seams
    let taken := s.flow.chans.any fun c => c.2.2 != trunkNo die i && path.contains (c.1, c.2.1)
    let r := if 1520 < t then 1 else if taken then 2
      else if quotaOf s ((nodeIni e.1).getD 0) e.2 = 0 then 4 else 0
    (r, routers, seams, path)

/-! ### Admission (R413) -/

/-- Egress flow IDs of a context. -/
def egressFlows (x : Slice) (ctx : Nat) : List Nat :=
  if wGet (tblGet x 0 ctx 0) 4 2 = 1 then
    let r := wGet (tblGet x 0 ctx 2) 16 12
    ((List.range 4).filter fun i => wGet (tblGet x 5 r i) 31 1 = 1).map fun i => wGet (tblGet x 5 r i) 0 18
  else [wGet (tblGet x 0 ctx 1) 0 18]

/-- Die, port and queue of an egress flow, and EG_VALID. -/
def egressOf (s : State) (flow : Nat) : Nat × Nat × Nat × Bool :=
  let die := 9 + flow / 65536 % 4
  let w := tblGet (sliceOf s die) 0 (flow % 65536) 2
  (die, wGet w 0 4, wGet w 4 3, wGet w 7 1 = 1)

/-- Trunk of a remote egress: source bridge by ingress port, destination bridge by egress port. -/
def trunkOf (inPort egDie egPort : Nat) : Nat := 8 * (inPort / 8) + 2 * (egDie - 9) + egPort / 8

/-- Cells of a context's longest frame. -/
def ctxCells (x : Slice) (ctx : Nat) : Nat := cellsOf (wGet (tblGet x 0 ctx 3) 16 14)

/-- The first condition of R413 that a context fails, 0 for none. -/
def admitResult (s : State) (die ctx : Nat) : Nat :=
  let x := sliceOf s die
  let w0 := tblGet x 0 ctx 0
  let w3 := tblGet x 0 ctx 3
  let len := wGet w3 16 14
  let inPort := wGet w3 0 4
  let gate := wGet w3 8 8
  let eg := (egressFlows x ctx).map (egressOf s)
  let ok4 := fun (e : Nat × Nat × Nat × Bool) =>
    let p := fePage e.1 e.2.1
    e.2.2.2 && !isolated s e.1 && flag s p (FE_QCFG_SCHED.nth e.2.2.1) && flag s p (FE_QCFG_CT.nth e.2.2.1) &&
      decide (getF s p (FE_QSTAT_DEMAND.nth e.2.2.1) + ctxCells x ctx ≤ qMin s e.1 e.2.1 e.2.2.1) &&
      (e.1 = die || 16 ≤ getF s (fsPage die) FS_SCHED_RSV_TOKENS)
  let ok5 := fun (e : Nat × Nat × Nat × Bool) =>
    decide (portRate s e.1 e.2.1 ≤ portRate s die inPort) && !flag s (fePage e.1 e.2.1) FE_STAT_MODE_ERR
  if !(wGet w0 0 1 = 1 && wGet w0 1 2 = 2 && wGet w0 6 1 = 1 && wGet w0 4 2 < 2) then 1
  else if len < 64 || 2000 < len then 2
  else if gate = 255 || !sgValid x gate then 3
  else if !eg.all ok4 then 4
  else if !eg.all ok5 || flag s (fePage die inPort) FE_STAT_MODE_ERR then 5
  else if !eg.all (fun e => e.1 = die || flag s (fsPage die) (FS_TRUNK_RESERVED.nth (trunkOf inPort e.1 e.2.1))) then 6
  else 0

/-- DEMAND of every egress queue of a context changed by `f`. -/
def demandUpd (s : State) (die ctx : Nat) (f : Nat → Nat → Nat) : State :=
  let x := sliceOf s die
  ((egressFlows x ctx).map (egressOf s)).foldl (fun s e =>
    let q := FE_QSTAT_DEMAND.nth e.2.2.1
    putF s (fePage e.1 e.2.1) q (f (getF s (fePage e.1 e.2.1) q) (ctxCells x ctx))) s

/-- ADMITTED of a context set or cleared, with COUNT and DEMAND. -/
def admitPut (s : State) (die ctx : Nat) (b : Bool) : State :=
  let s := demandUpd s die ctx (if b then (· + ·) else (· - ·))
  let c := getF s (fsPage die) FS_ADM_STAT_COUNT
  let s := putF s (fsPage die) FS_ADM_STAT_COUNT (if b then c + 1 else c - 1)
  updSlice s die fun x => tblPut x 0 ctx 0 (wPut (tblGet x 0 ctx 0) 3 1 (ofBool b))

/-- FS_ADM_CMD runs (R413). -/
def admitRun (s : State) (die op ctx : Nat) : State :=
  let p := fsPage die
  let on := admitted (sliceOf s die) ctx
  if op = 0 then
    let r := if on then 0 else admitResult s die ctx
    let s := if r = 0 && !on then admitPut s die ctx true else s
    putF s p FS_ADM_STAT_RESULT r
  else if on then putF (admitPut s die ctx false) p FS_ADM_STAT_RESULT 0
  else putF s p FS_ADM_STAT_RESULT 8

/-- Admitted contexts of a slice. -/
def admittedCtxs (x : Slice) : List Nat :=
  (x.tbl.filter fun (e : Nat × Word) => e.1 < 1048576 && e.1 % 16 = 0 && wGet e.2 3 1 = 1).map fun (e : Nat × Word) => e.1 / 16

/-- Admissions of a slice that `f` names are withdrawn and ADM_LOST fires where there is one. -/
def admitLose (s : State) (die : Nat) (f : Nat → Bool) : State :=
  match (admittedCtxs (sliceOf s die)).filter f with
  | [] => s
  | l => evtPulse (l.foldl (fun s c => admitPut s die c false) s) (fsPage die) 0

/-- A context uses trunk `i` of its slice. -/
def usesTrunk (s : State) (die ctx i : Nat) : Bool :=
  let x := sliceOf s die
  ((egressFlows x ctx).map (egressOf s)).any fun e =>
    e.1 != die && trunkOf (wGet (tblGet x 0 ctx 3) 0 4) e.1 e.2.1 = i

/-- Every admission that uses trunk `i` is withdrawn. -/
def trunkWithdraw (s : State) (die i : Nat) : State :=
  ((admittedCtxs (sliceOf s die)).filter fun c => usesTrunk s die c i).foldl (fun s c => admitPut s die c false) s

/-- The walk `r` of a trunk is shown: ROUTERS, SEAMS and T. -/
def trunkShow (s : State) (die i : Nat) (r : Nat × Nat × Nat × List (Nat × Nat)) : State :=
  let put := fun (s : State) f v => putF s (fsPage die) (FieldRef.nth f i) v
  put (put (put s FS_TRUNK_ROUTERS r.2.1) FS_TRUNK_SEAMS r.2.2.1) FS_TRUNK_T
    (if r.1 = 3 then 0 else min 4095 (285 + 20 * r.2.1 + 100 * r.2.2.1))

/-- A trunk holds the channels of a path, and no other. -/
def trunkHold (s : State) (die i : Nat) (path : List (Nat × Nat)) : State :=
  let s := trunkFree s die i
  { s with flow := { s.flow with chans := s.flow.chans ++ path.map fun c => (c.1, c.2, trunkNo die i) } }

/-- A reserved trunk loses its reservation (R412). -/
def trunkLose (s : State) (die i : Nat) : State :=
  let p := fsPage die
  let s := putFlag (putFlag (trunkFree s die i) p (FS_TRUNK_RESERVED.nth i) false) p (FS_TRUNK_LOST.nth i) true
  evtPulse (trunkWithdraw s die i) p 0

/-- FS_TRUNKi.RESERVE has been written (R411). A trunk that is asked for again while it is reserved, and fails, is lost as
R412 says (log 107). -/
def trunkWritten (s : State) (die i : Nat) (on : Bool) : State :=
  let p := fsPage die
  if on then
    let r := trunkWalk s die i
    let s := trunkShow (putF s p (FS_TRUNK_RESULT.nth i) r.1) die i r
    if r.1 = 0 then putFlag (trunkHold s die i r.2.2.2) p (FS_TRUNK_RESERVED.nth i) true
    else if flag s p (FS_TRUNK_RESERVED.nth i) then trunkLose s die i
    else s
  else putFlag (trunkFree (trunkWithdraw s die i) die i) p (FS_TRUNK_RESERVED.nth i) false

/-- Every reserved trunk is walked again, in the order of slices and numbers, over channels that those walked before it hold
(R412). -/
def trunksRewalk (s : State) : State :=
  let mine := [9, 10, 11, 12].flatMap fun d =>
    ((List.range 16).filter fun i => flag s (fsPage d) (FS_TRUNK_RESERVED.nth i)).map fun i => (d, i)
  mine.foldl (fun s t =>
    let r := trunkWalk s t.1 t.2
    if r.1 = 0 then trunkHold (trunkShow s t.1 t.2 r) t.1 t.2 r.2.2.2 else trunkLose s t.1 t.2)
    { s with flow := { s.flow with chans := [] } }

/-- ENABLE of an FE_ page has changed: the link follows, and a port turned off loses its frames and the admissions that
use it (R398, R413). -/
def feEnable (s : State) (die port : Nat) (on : Bool) : State :=
  let s := linkSettle s die port
  if on then s
  else
    let s := portFlush s die port
    [9, 10, 11, 12].foldl (fun s d =>
      let x := sliceOf s d
      admitLose s d fun c =>
        (d = die && wGet (tblGet x 0 c 3) 0 4 = port) ||
          ((egressFlows x c).map (egressOf s)).any fun e => e.1 = die && e.2.1 = port) s

/-! ### Writes -/

/-- Own-slice trunk registers are reserved (R411, R418). -/
def fsReserved (die off : Nat) : Bool := 0x140 ≤ off && decide (off < 0x180) && (off - 0x140) / 4 / 2 % 4 = die - 9

/-- A write that would make the shared pool negative is out of range (R397): `w` in register `a`. -/
def poolRange (s : State) (die a : Nat) (w : Word) : Bool := decide (poolSize (setReg s a w) die < 0)

/-- The block fault of a write to FS_TBL_CMD, with the RESULT it leaves (R390, R410). -/
def fsFault (s : State) (ini die off : Nat) (w : Word) : Option Nat :=
  if off = 0x060 && wGet w 31 1 = 1 && wGet w 24 3 != 0 then
    match writeResult s ini die (wGet w 24 3) (wGet w 20 4) (wGet w 0 18) with
    | 2 => some 0x0102
    | 3 => some 0x0101
    | _ => none
  else none

/-- RESULT of a table command that is rejected with a fault. -/
def fsRejected (s : State) (die off code : Nat) : State :=
  if off != 0x060 then s
  else if code = 0x0102 then putF s (fsPage die) FS_TBL_STAT_RESULT 2
  else if code = 0x0101 then putF s (fsPage die) FS_TBL_STAT_RESULT 3
  else s

/-- What an accepted write to the FS_ page does beside its fields. -/
def fsWritten (s : State) (ini die off : Nat) (old w : Word) : State :=
  if off = 0x060 then (if wGet w 31 1 = 1 then tblRun s ini die (wGet w 24 3) (wGet w 20 4) (wGet w 0 18) else s)
  else if off = 0x0C0 then (if wGet w 31 1 = 1 then emRun s die (wGet w 28 2) (wGet w 0 16) else s)
  else if off = 0x100 then (if wGet w 31 1 = 1 then admitRun s die (wGet w 28 1) (wGet w 0 16) else s)
  else if 0x140 ≤ off && off < 0x180 then
    let on := wGet w 31 1 = 1
    if on || wGet old 31 1 = 1 then trunkWritten s die ((off - 0x140) / 4) on else s
  else s

/-- What an accepted write to an FE_ page does beside its fields. -/
def feWritten (s : State) (die port off : Nat) : State := if off = 0x040 then linkSettle s die port else s

end Sys2Proof.Machine
end

