-- ==== Sys2Proof/Machine/LanePat.lean ====
section
/-! DEFINITION. What a lane sends and checks symbol by symbol (14_lanes.md R360, R373 to R376): patterns, injected errors, Gray
mapping, precoding, loopbacks and the checker's counts. A step on an empty queue is one symbol of every lane that is not OFF
(log 105). -/

namespace Sys2Proof.Machine

/-! ### Codes (R360) -/

/-- The symbol of a pair of bits, the first the most significant. -/
def gray (a b : Bool) : Nat := if a then (if b then 2 else 3) else ofBool b
/-- The pair of a symbol. -/
def ungray (g : Nat) : List Bool := [decide (2 ≤ g), g = 1 || g = 2]
/-- Precoding: the symbol sent, `p` the one sent before it. -/
def precode (g p : Nat) : Nat := (g + 4 - p % 4) % 4
/-- The symbol before precoding, from the one received and the one received before it. -/
def unprecode (r p : Nat) : Nat := (r + p) % 4

/-! ### Patterns (R373) -/

/-- Exponents of a pattern's polynomial, none for SSPRQ, which the manual leaves to IEEE 802.3. -/
def prbsTaps (pat : Nat) : List Nat :=
  match pat with
  | 0 => [7, 6] | 1 => [9, 5] | 2 => [13, 12, 2, 1] | 3 => [15, 14] | 4 => [23, 18] | 5 => [31, 28] | 6 => [13, 12, 2, 1]
  | 7 => [31, 28] | _ => []
/-- Next bit of a pattern after the bits in `g`, the latest in bit 0. -/
def prbsNext (pat g : Nat) : Bool := (prbsTaps pat).foldl (fun b t => b != nBit g (t - 1)) false
/-- The bits with one more. -/
def prbsPush (g : Nat) (b : Bool) : Nat := (2 * g + ofBool b) % 2 ^ 31
/-- The next `n` bits of a pattern and the bits behind it then. -/
def prbsBits (pat g n : Nat) : List Bool × Nat :=
  match n with
  | 0 => ([], g)
  | n + 1 =>
    let b := prbsNext pat g
    let r := prbsBits pat (prbsPush g b) n
    (b :: r.1, r.2)

/-- Bits that the generator of a lane sends now; the bits it starts from are free, but not all 0. -/
def genBits (s : State) (lane n : Nat) : List Bool × State :=
  let q := laneQuad lane
  let pat := getF s q (lf LQ_PGEN_PAT lane)
  let inv := flag s q (lf LQ_PGEN_INV lane)
  let x := laneOf s lane
  if prbsTaps pat = [] then
    let r := freeVal s n
    ((List.range n).map fun i => nBit r.1 i != inv, r.2)
  else
    let start := if x.gen = 0 then freeVal s 31 else (x.gen, s)
    let r := prbsBits pat (max 1 start.1) n
    (r.1.map (· != inv), setLane start.2 lane { x with gen := r.2 })

/-! ### Injected errors (R375) -/

/-- Which of the next `n` bits of a lane are inverted, and the lane after them. -/
def injBits (s : State) (lane n : Nat) : List Bool × Lane :=
  let q := laneQuad lane
  let x := laneOf s lane
  let every := 2 ^ getF s q (lf LQ_PGEN_RATE_K lane)
  let rate := getF s q (lf LQ_PGEN_INJ lane) = 3
  ((List.range n).map fun i => decide (i < x.injected) || (rate && (x.rate + i) % every = 0),
   { x with injected := x.injected - n, rate := if rate then (x.rate + n) % every else 0 })

/-! ### One symbol -/

/-- The level a lane puts on its wires for the bits of a symbol, and the symbol before inversion (R360). -/
def txSymbol (s : State) (lane : Nat) (bits : List Bool) : Nat × Nat :=
  let q := laneQuad lane
  let inv := flag s q (lf LQ_CFG_TX_INV lane)
  match bits with
  | [a, b] =>
    let g := gray a b
    let p := if flag s q (lf LQ_CFG_PRE_TX lane) then precode g (laneOf s lane).txP else g
    (if inv then 3 - p else p, p)
  | _ =>
    let b := bits.headD false
    (ofBool (b != inv), ofBool b)

/-- The bits a receiver makes of a level, and the symbol after its inversion (R360). -/
def rxSymbol (s : State) (lane : Nat) (pam : Bool) (level : Nat) : List Bool × Nat :=
  let q := laneQuad lane
  let inv := flag s q (lf LQ_CFG_RX_INV lane)
  if pam then
    let r := if inv then 3 - level else level
    (ungray (if flag s q (lf LQ_CFG_PRE_RX lane) then unprecode r (laneOf s lane).rxP else r), r)
  else ([(level = 1) != inv], if inv then 1 - level else level)

/-- A 64-bit counter of the checker rises by `n` and stays at its maximum (R374). -/
def chkCount (s : State) (lane : Nat) (lo hi : FieldRef) (n : Nat) : State :=
  let q := laneQuad lane
  let v := min (2 ^ 64 - 1) (getF s q (lf lo lane) + 2 ^ 32 * getF s q (lf hi lane) + n)
  putF (putF s q (lf lo lane) (v % 2 ^ 32)) q (lf hi lane) (v / 2 ^ 32)

/-- The checker's data is known here: the lane sends to itself, and the pattern has a polynomial. -/
def chkKnown (s : State) (lane : Nat) : Bool :=
  let q := laneQuad lane
  let l := getF s q (lf LQ_CFG_LOOPBACK lane)
  (l = 1 || l = 2) && flag s q (lf LQ_PGEN_EN lane) && prbsTaps (getF s q (lf LQ_PCHK_PAT lane)) != []

/-- The checker takes the bits of a symbol: it seeds itself from them, or with LOCK compares and counts (R374). -/
def chkBits (s : State) (lane : Nat) (bits : List Bool) : State :=
  let q := laneQuad lane
  if !flag s q (lf LQ_PCHK_EN lane) || !chkKnown s lane then s
  else
    let bits := bits.map (· != flag s q (lf LQ_PCHK_INV lane))
    let x := laneOf s lane
    if !flag s q (lf LQ_PCHK_LOCK lane) then setLane s lane { x with chk := bits.foldl prbsPush x.chk }
    else
      let r := prbsBits (getF s q (lf LQ_PCHK_PAT lane)) x.chk bits.length
      let wrong := ((bits.zip r.1).filter fun e => e.1 != e.2).length
      let s := chkCount s lane LQ_PCHK_BITS_LO_BITS LQ_PCHK_BITS_HI_BITS bits.length
      let s := chkCount s lane LQ_PCHK_ERR_LO_ERRORS LQ_PCHK_ERR_HI_ERRORS wrong
      let sym := getF s q (lf LQ_PCHK_SYM_ERRORS lane)
      let s := if bits.length = 2 && 0 < wrong then putF s q (lf LQ_PCHK_SYM_ERRORS lane) (min (2 ^ 32 - 1) (sym + 1)) else s
      setLane s lane { x with chk := r.2 }

/-- One symbol of a lane that is not OFF. -/
def laneSymbol (s : State) (lane : Nat) : State :=
  let q := laneQuad lane
  let pam := pam4 (laneRate s lane)
  let n := if pam then 2 else 1
  let inj := injBits s lane n
  let s := setLane s lane inj.2
  if laneState s lane != 5 || !flag s q (lf LQ_PGEN_EN lane) then setLane s lane { laneOf s lane with tx := none }
  else
    let g := genBits s lane n
    let bits := (g.1.zip inj.1).map fun e => e.1 != e.2
    let s := g.2
    let t := txSymbol s lane bits
    let loop := getF s q (lf LQ_CFG_LOOPBACK lane)
    let s := setLane s lane { laneOf s lane with txP := t.2, tx := if loop = 0 then some t.1 else none }
    match loop with
    | 1 =>
      let r := rxSymbol s lane pam t.1
      chkBits (setLane s lane { laneOf s lane with rxP := r.2 }) lane r.1
    | 2 => chkBits s lane bits
    | _ => s

/-- One symbol of every lane that is not OFF, of the dies that are joined. -/
def laneTick (s : State) : State :=
  if s.pow.torpor then s
  else (s.lane.lanes.filter fun e => e.2.on && !isolated s (laneDie e.1)).foldl (fun s e => laneSymbol s e.1) s

end Sys2Proof.Machine
end

