-- ==== Sys2Proof/Machine/LaneOps.lean ====
section
/-! DEFINITION. Lanes and bundles (14_lanes.md R359 to R379): bring-up, seeds, and what writes to the LQ_ and LB_ pages do. -/

namespace Sys2Proof.Machine

/-! ### Lane states -/

/-- STATE of a lane set. -/
def putLane (s : State) (lane st : Nat) : State := putF s (laneQuad lane) (lf LQ_STAT_STATE lane) st

/-- The committed values of a lane's SHADOW fields take effect: its commit point (R378). -/
def laneCommit (s : State) (lane : Nat) : State :=
  let base := laneQuad lane + 0x100 + 0x80 * laneK lane
  let mine := fun (e : Nat × Word) => base ≤ e.1 && decide (e.1 < base + 0x80)
  let vals := s.pg.committed.filter mine
  let s : State := { s with pg := { s.pg with committed := s.pg.committed.filter fun e => !mine e } }
  vals.foldl (fun s e =>
    let m := shadowMask e.1
    let s := setReg s e.1 (mix (getReg s e.1) e.2 m)
    if m &&& gMask e.1 = 0 then s else retained s (laneQuad lane) (regOff e.1)) s

/-- A lane turns OFF. -/
def laneOff (s : State) (lane : Nat) : State :=
  if laneState s lane = 0 then s
  else
    let q := laneQuad lane
    let a := q + 0x118 + 0x80 * laneK lane
    let s := setReg s a (getReg s a &&& BitVec.ofNat 32 0xF0FF8080)
    let s := putF s q LQ_QSTAT_SYN_LOCK (nSet (getF s q LQ_QSTAT_SYN_LOCK) (laneK lane) false)
    let s := putFlag s q (lf LQ_PCHK_LOCK lane) false
    let x := laneOf s lane
    setLane s lane { fresh := x.fresh, counted := x.counted }

/-- The lane's seed can be used: valid, and for its rate (R364). -/
def seedFits (s : State) (lane : Nat) : Bool :=
  flag s (laneQuad lane) (lf LQ_SEED0_VALID lane) && getF s (laneQuad lane) (lf LQ_SEED0_RATE lane) = laneRate s lane

/-- Transmit taps and precoding as configured: of a valid seed, else LQ_TXEQ and LQ_CFG (R360, R368). -/
def laneOwnTx (s : State) (lane : Nat) (seeded : Bool) (x : LaneSettings) : LaneSettings :=
  let q := laneQuad lane
  let g := fun f => getF s q (lf f lane)
  if seeded then { x with farTaps := g LQ_SEED2_FAR_TAPS, preTx := g LQ_SEED2_PRE_TX_NEG = 1, preRx := g LQ_SEED2_PRE_RX_NEG = 1 }
  else { x with farTaps := g LQ_TXEQ_PRE2 + 16 * g LQ_TXEQ_PRE1 + 1024 * g LQ_TXEQ_POST1, preTx := g LQ_CFG_PRE_TX = 1
                preRx := g LQ_CFG_PRE_RX = 1 }

/-- A lane takes state `st`; leaving OFF, it takes its committed values (R378). -/
def laneTo (s : State) (lane st : Nat) : State :=
  let s :=
    if laneState s lane = 0 then
      let s := laneCommit s lane
      let x := laneOf s lane
      setLane s lane { x with on := true, rcv := laneOwnTx s lane (seedFits s lane) x.rcv }
    else s
  let s := putF s (laneQuad lane) (lf LQ_STAT_RATE lane) (laneRate s lane)
  putLane s lane st

/-- An adaptation starts: from its seed where it has one for its rate and `scratch` does not forbid it (R364). -/
def laneAdapt (s : State) (lane : Nat) (scratch : Bool) : State :=
  let q := laneQuad lane
  let g := fun f => getF s q (lf f lane)
  let seeded := !scratch && seedFits s lane
  let rcv := laneOwnTx s lane (seedFits s lane) <|
    if seeded then
      { ctle := g LQ_SEED0_CTLE, vga := g LQ_SEED0_VGA, phase := g LQ_SEED0_PHASE, dfe := getReg s (q + (lf LQ_SEED1_DFE lane).off) }
    else { }
  let x := laneOf s lane
  let x : Lane := { x with scratch := !seeded, reached := false, hist := [], converged := false, low := 0, rcv := rcv }
  let s := putFlag (putFlag (laneTo s lane 2) q (lf LQ_STAT_SEEDED lane) seeded) q (lf LQ_STAT_CDR_LOCK lane) true
  let s := if seeded && !x.fresh && (s.start.phase = .s7 || s.start.phase = .ready) && s.start.restored.contains (q + (lf LQ_SEED0_VALID lane).off)
    then putFlag s SQ SQ_STAT_SEEDS true else s
  setLane s lane x

/-! ### Bundles (R366) -/

/-- STATE of a bundle set. -/
def putBundle (s : State) (die k st : Nat) : State := linkSettle (putF s (lbPage die) (LB_BSTAT_STATE.nth k) st) die k

/-- SEEDED of a bundle follows its lanes. -/
def bundleSeeded (s : State) (die k : Nat) : State :=
  let l := bundleLanes s die k
  putFlag s (lbPage die) (LB_BSTAT_SEEDED.nth k)
    (l != [] && l.all fun x => flag s (laneQuad x) (lf LQ_STAT_SEEDED x))

/-- The quad of a lane is enabled and its power domain on (R366; 18_power.md R471). -/
def quadRuns (s : State) (lane : Nat) : Bool :=
  enabled s (laneQuad lane) && decide ((domOf s (laneDie lane) (2 + lane % 32 / 4)).state < 2)

/-- WAIT ends once every lane's quad is enabled and on, and every lane detects signal: TRAIN. -/
def bundleTry (s : State) (die k : Nat) : State :=
  let l := bundleLanes s die k
  if bundleState s die k = 1 && l.all fun x => quadRuns s x && flag s (laneQuad x) (lf LQ_STAT_SIGDET x) then
    let b := bundleOf s die k
    let s := l.foldl (fun s x => laneAdapt s x b.scratch) (putBundle s die k 2)
    bundleSeeded (setBundle s die k { b with scratch := false }) die k
  else s

/-- A bundle enters WAIT; `scratch`: the retry adapts every lane from scratch. -/
def bundleWait (s : State) (die k : Nat) (scratch : Bool) : State :=
  let p := lbPage die
  let s := if bundleState s die k = 4 then countUp s p LB_DOWN_CNT_COUNT 1 else s
  let s := putBundle (setReg s (p + 0x084 + 8 * k) 0) die k 1
  let s := setBundle s die k { scratch := scratch }
  let s := (bundleLanes s die k).foldl (fun s x =>
    if quadRuns s x then
      let q := laneQuad x
      let s := putFlag (putFlag s q (lf LQ_STAT_POL_INV x) false) q (lf LQ_STAT_SEEDED x) false
      laneTo (putF s q (lf LQ_STAT_LOGICAL x) 0) x 1
    else laneOff s x) s
  bundleTry s die k

/-- An UP bundle is lost: DOWN fires and it returns to WAIT. -/
def bundleDown (s : State) (die k : Nat) : State := evtPulse (bundleWait s die k false) (lbPage die) 1

/-- A bundle turns OFF. -/
def bundleOff (s : State) (die k : Nat) (lanes : List Nat) : State :=
  linkSettle (lanes.foldl laneOff (setBundle (setReg s (lbPage die + 0x084 + 8 * k) 0) die k { })) die k

/-- A bundle whose EN and LB_ ENABLE are set leaves OFF. -/
def bundleStart (s : State) (die k : Nat) : State :=
  if bundleEn s die k && enabled s (lbPage die) && bundleState s die k = 0 then bundleWait s die k false else s

/-- Lanes that test owns run, and those it owned turn OFF. -/
def testSettle (s : State) (lane : Nat) : State :=
  if laneOwner s lane = 3 then (if laneState s lane = 5 then s else laneTo (setLane s lane { laneOf s lane with hist := [] }) lane 5)
  else if laneState s lane = 5 then laneOff s lane else s

/-- Test owners of a quad. -/
def quadSettle (s : State) (die j : Nat) : State :=
  (List.range 4).foldl (fun s i => testSettle s (laneNo die (4 * j + i))) s

/-- A quad's ENABLE has been set, or its domain is on: bundles that wait for it go on. -/
def quadOn (s : State) (die j : Nat) : State :=
  let s := (List.range 16).foldl (fun s k =>
    if bundleState s die k = 1 && (bundleLanes s die k).any fun x => x % 32 / 4 = j then
      bundleTry ((bundleLanes s die k).foldl (fun s x =>
        if quadRuns s x && laneState s x = 0 then laneTo s x 1 else s) s) die k
    else s) s
  quadSettle s die j

/-- A quad's ENABLE has been cleared (R372). -/
def quadOff (s : State) (die j : Nat) : State :=
  let s := (List.range 16).foldl (fun s k =>
    if bundleState s die k != 0 && (bundleLanes s die k).any fun x => x % 32 / 4 = j then
      (if bundleState s die k = 4 then bundleDown s die k else bundleWait s die k false)
    else s) s
  (List.range 4).foldl (fun s i => laneOff s (laneNo die (4 * j + i))) s

/-- Isolation stops every lane of its die (R352, R372). -/
def lanesStop (s : State) (d : Nat) : State :=
  let s := (List.range 16).foldl (fun s k => if bundleState s d k = 0 then s else bundleOff s d k (bundleLanes s d k)) s
  (List.range 32).foldl (fun s l => laneOff s (laneNo d l)) s

/-- Every lane of every lane die is OFF, and no seed is captured (21_shutdown.md R539). -/
def lanesOff (s : State) : State :=
  [9, 10, 11, 12].foldl lanesStop s

/-- At rejoin the lanes of a die restart from their seeds (R353, R372). -/
def lanesRestart (s : State) (d : Nat) : State :=
  let s := (List.range 16).foldl (fun s k => bundleStart s d k) s
  (List.range 8).foldl (fun s j => quadSettle s d j) s

/-! ### Seeds (R363) -/

/-- The converged settings of a lane become its seed, and are journaled. -/
def seedCapture (s : State) (lane : Nat) : State :=
  let q := laneQuad lane
  let x := laneOf s lane
  let put := fun s f v => putF s q (lf f lane) v
  let s := put (put (put s LQ_SEED0_VALID 1) LQ_SEED0_RATE (laneRate s lane)) LQ_SEED0_LFM (getF s q (lf LQ_STAT_LFM lane))
  let s := put (put (put s LQ_SEED0_CTLE x.rcv.ctle) LQ_SEED0_VGA x.rcv.vga) LQ_SEED0_PHASE x.rcv.phase
  let s := put s LQ_SEED1_DFE x.rcv.dfe.toNat
  let s := put (put (put s LQ_SEED2_FAR_TAPS x.rcv.farTaps) LQ_SEED2_PRE_TX_NEG (ofBool x.rcv.preTx)) LQ_SEED2_PRE_RX_NEG
    (ofBool x.rcv.preRx)
  let s := setLane s lane { x with fresh := true }
  [LQ_SEED0_VALID, LQ_SEED1_DFE, LQ_SEED2_FAR_TAPS].foldl (fun s f => retained s q (lf f lane).off) s

/-- The bundle has reached UP: automatic seeds, and an IDLE that waited (R363, R370). -/
def bundleUp (s : State) (die k : Nat) : State :=
  let p := lbPage die
  let l := bundleLanes s die k
  let ok := l.filter fun x =>
    flag s (laneQuad x) (lf LQ_CFG_SEED_AUTO x) && getF s p LB_CFG_LFM_MIN ≤ getF s (laneQuad x) (lf LQ_STAT_LFM x)
  let s := evtPulse (putBundle s die k 4) p 0
  let s := if ok = [] then s else evtPulse (ok.foldl seedCapture s) p 4
  if flag s p (LB_BCFG_IDLE.nth k) then l.foldl (fun s x => putLane s x 4) (putBundle s die k 5) else s

/-! ### Writes (R363, R365, R369, R373, R375, R376) -/

/-- Why bundle `k` with register value `w` cannot be enabled (R365). -/
def bundleBad (s : State) (die k : Nat) (w : Word) : Bool :=
  let first := wGet w 0 5
  let n := widthOf (wGet w 5 3)
  let l := (List.range n).map fun i => laneNo die (first + i)
  let rate := fun x => wGet (committedReg s (laneQuad x + (lf LQ_CFG_RATE x).off)) 0 5
  n = 0 || first % n != 0 || 32 < first + n ||
    l.any (fun x => pcieOwns s x || (match bundleOn s x with | some j => j != k | none => false)) ||
    l.any (fun x => rate x = 0 || rate x != rate (l.headD 0))

/-- The block fault of a write to LB_BCFGk. -/
def lbFault (s : State) (die off : Nat) (w : Word) : Option Nat :=
  if 0x080 ≤ off && off < 0x100 && off % 8 = 0 then
    let k := (off - 0x080) / 8
    let old := getReg s (lbPage die + off)
    if wGet old 8 1 = 1 && (wGet old 0 8 != wGet w 0 8 || wGet old 9 1 != wGet w 9 1) then some 0x0101
    else if wGet old 8 1 = 0 && wGet w 8 1 = 1 && bundleBad s die k w then some 0x0100
    else none
  else none

/-- LB_BCFG of a bundle written (R366, R371): `old` is the register before. EN starts or ends the bundle, RETRAIN retrains
it, IDLE idles or resumes it. -/
def bcfgWritten (s : State) (die k : Nat) (old w : Word) : State :=
  let lanesOf := fun (v : Word) => (List.range (widthOf (wGet v 5 3))).map fun i => laneNo die (wGet v 0 5 + i)
  let s := if wGet old 8 1 = 1 && wGet w 8 1 = 0 then bundleOff s die k (lanesOf old)
    else if wGet w 8 1 = 1 then bundleStart s die k else s
  let s := if wGet w 31 1 = 1 && bundleState s die k != 0 then bundleWait s die k false else s
  let s := if bundleState s die k = 4 && wGet w 12 1 = 1 then
      (bundleLanes s die k).foldl (fun s x => putLane s x 4) (putBundle s die k 5)
    else if bundleState s die k = 5 && wGet w 12 1 = 0 then
      (bundleLanes s die k).foldl (fun s x => putLane s x 3) (putBundle s die k 4)
    else s
  (lanesOf w).foldl (fun s x => testSettle s x) s

/-- An accepted write to an LB_ page. -/
def lbWritten (s : State) (die off : Nat) (old w : Word) : State :=
  if 0x080 ≤ off && off < 0x100 && off % 8 = 0 then bcfgWritten s die ((off - 0x080) / 8) old w else s

/-- LB_ ENABLE has changed. -/
def lbEnable (s : State) (die : Nat) (on : Bool) : State :=
  (List.range 16).foldl (fun s k =>
    if on then bundleStart s die k
    else if bundleState s die k = 0 then s else bundleOff s die k (bundleLanes s die k)) s

/-- A write to a lane's window holds an out-of-range combination (R358, R373, R377, LQ_TXEQ, LQ_CTRL). -/
def lqRange (s : State) (die j off : Nat) (w : Word) : Bool :=
  if off < 0x100 then false
  else
    let lane := laneNo die (4 * j + (off - 0x100) / 0x80 % 4)
    let rate := laneRate s lane
    let badPat := 8 < wGet w 1 4 || (rate != 0 && pam4 rate != decide (6 ≤ wGet w 1 4))
    match off % 0x80 with
    | 0x00 => 14 ≤ wGet w 0 5
    | 0x04 => 40 < wGet w 0 4 + wGet w 4 6 + wGet w 10 6
    | 0x14 => wGet w 0 2 = 3
    | 0x30 => badPat
    | 0x34 => badPat
    | _ => false

/-- The block fault of a write to a lane's window (R369, R373, R376). -/
def lqFault (s : State) (die j off : Nat) (w : Word) : Option Nat :=
  if off < 0x100 then none
  else
    let lane := laneNo die (4 * j + (off - 0x100) / 0x80 % 4)
    let asks := match off % 0x80 with
      | 0x00 => wGet w 10 2 != 0
      | 0x30 => wGet w 0 1 = 1
      | 0x34 => wGet w 0 1 = 1
      | _ => false
    if asks && (pcieOwns s lane || (bundleOn s lane).isSome) then some 0x0100 else none

/-- INJ_GO (R375): the next bits are inverted, unless those of an earlier one still are. -/
def injRun (s : State) (lane : Nat) : State :=
  let q := laneQuad lane
  let x := laneOf s lane
  if laneState s lane = 0 || 0 < x.injected then s
  else
    match getF s q (lf LQ_PGEN_INJ lane) with
    | 1 => setLane s lane { x with injected := 1 }
    | 2 => setLane s lane { x with injected := getF s q (lf LQ_PGEN_BURST lane) }
    | _ => s

/-- LQ_CTRL of a lane: SEED_SAVE captures a seed of an aligned lane good enough, as at UP (SEED_CAPTURED: log 105); SEED_CLR
drops it (R363, R364). -/
def seedCtrl (s : State) (die lane : Nat) (w : Word) : State :=
  let q := laneQuad lane
  if wGet w 0 1 = 1 then
    (if laneState s lane = 3 && !pcieOwns s lane && getF s (lbPage die) LB_CFG_LFM_MIN ≤ getF s q (lf LQ_STAT_LFM lane)
      then evtPulse (seedCapture s lane) (lbPage die) 4 else s)
  else if wGet w 1 1 = 1 then retained (putF s q (lf LQ_SEED0_VALID lane) 0) q (lf LQ_SEED0_VALID lane).off
  else s

/-- LQ_PGEN of a lane: INJ_GO injects (R373). -/
def pgenWritten (s : State) (lane : Nat) (w : Word) : State :=
  testSettle (if wGet w 31 1 = 1 && !pcieOwns s lane then injRun s lane else s) lane

/-- LQ_PCHK of a lane: CLR zeroes the counts, EN at 0 drops the lock (R374). -/
def pchkWritten (s : State) (lane : Nat) (w : Word) : State :=
  let q := laneQuad lane
  let s := if wGet w 7 1 = 1 then
      let s := [LQ_PCHK_BITS_LO_BITS, LQ_PCHK_BITS_HI_BITS, LQ_PCHK_ERR_LO_ERRORS, LQ_PCHK_ERR_HI_ERRORS,
        LQ_PCHK_SYM_ERRORS].foldl (fun s f => putF s q (lf f lane) 0) s
      setLane s lane { laneOf s lane with counted := flag s q (lf LQ_PCHK_LOCK lane) && !chkKnown s lane }
    else s
  testSettle (if wGet w 0 1 = 0 then putFlag s q (lf LQ_PCHK_LOCK lane) false else s) lane

/-- An accepted write to the window of a lane, at offset `o` of the window. -/
def laneWritten (s : State) (die lane o : Nat) (w : Word) : State :=
  if o = 0x08 || o = 0x0C || o = 0x10 then setLane s lane { laneOf s lane with fresh := true }
  else if o = 0x14 then seedCtrl s die lane w
  else if o = 0x30 then pgenWritten s lane w
  else if o = 0x34 then pchkWritten s lane w
  else testSettle s lane

/-- An accepted write to a quad's page. -/
def lqWritten (s : State) (die j off : Nat) (w : Word) : State :=
  if off < 0x100 then s else laneWritten s die (laneNo die (4 * j + (off - 0x100) / 0x80 % 4)) (off % 0x80) w

end Sys2Proof.Machine
end

