-- ==== Sys2Proof/Machine/Worms.lean ====
section
/-! DEFINITION. Worms at routers: outputs, grants and flits (12_noc.md R304, R310, R311), over mesh links and seams. -/

namespace Sys2Proof.Machine

/-- Output of a head at a router under table `t`: the port, local where the destination is the router (R311). -/
def outPort (t : RouteTab) (node : Nat) (p : Packet) : Nat :=
  if p.dst / 8 = node / 8 then localPort (nodeDie node) (nodeRtr node) (nodeEp p.dst)
  else routeEntry t node (p.dst / 8 * 8) (cmdVc p.cmd) % 8

/-- A draining router holds a head whose old and new outputs differ (R315 step 2). -/
def drainHolds (s : State) (node : Nat) (p : Packet) : Bool :=
  match routeTab s node, (tabGet s.noc.drainNew node).join with
  | some a, some b => outPort a node p != outPort b node p
  | _, _ => false

/-- Output of a head that waits and that nothing holds: by the table, or under the boot route set for VC0 alone (R311;
04_start.md R101). -/
def headOut (s : State) (h : HeadWait) : Option Nat :=
  if h.pkt.dst / 8 = h.node / 8 then some (localPort (nodeDie h.node) (nodeRtr h.node) (nodeEp h.pkt.dst))
  else
    match routeTab s h.node with
    | none => if cmdVc h.pkt.cmd = 0 then some (bootPort h.node h.pkt.dst) else none
    | some t => if drainHolds s h.node h.pkt then none else some (outPort t h.node h.pkt)

/-- A worm of the same VC, or lane of VC3, holds the output (R310). -/
def outHeld (s : State) (node o c : Nat) : Bool :=
  s.noc.heads.any fun h => h.node = node && h.out = some o && packetChan h.pkt = c

/-- The seam and link at the output of a worm. -/
def seamOut (h : HeadWait) (o : Nat) : Option (Nat × Nat) := seamAt (nodeDie h.node) (nodeRtr h.node) o

/-- The seam endpoint at the output takes the packet itself. -/
def outAbsorbs (s : State) (h : HeadWait) (o : Nat) : Bool :=
  (seamOut h o).any fun x => absorbs s (nodeDie h.node) x.1 h.pkt

/-- A hop credit for a flit at the output: a local port needs none (R304). -/
def hopReady (s : State) (h : HeadWait) (o : Nat) : Bool :=
  4 ≤ o || h.gone || outAbsorbs s h o || decide (0 < hopHeld s h.node o (packetChan h.pkt))

/-- Output that a waiting head can be granted now (R310). -/
def grantOut (s : State) (h : HeadWait) : Option Nat :=
  if h.out.isSome then none
  else (headOut s h).filter fun o => !outHeld s h.node o (packetChan h.pkt) && hopReady s h o

/-- A head that would need a new entry in the full ledger of the endpoint at its output (13_seams.md R348). -/
def ledgerHolds (s : State) (h : HeadWait) (o : Nat) : Bool :=
  h.sent = 0 && !outAbsorbs s h o && (seamOut h o).any fun x =>
    ledgerFull (epOf s (nodeDie h.node) x.1).outReq (epOf s (nodeDie h.node) x.1).outCnt h.pkt

/-- The next flit of a granted worm can pass. -/
def flitReady (s : State) (h : HeadWait) : Bool :=
  h.out.any fun o => h.sent < h.came && hopReady s h o && !ledgerHolds s h o

/-- `s` with worm `h` replaced, or gone. -/
def headPut (s : State) (h : HeadWait) (g : Option HeadWait) : State :=
  { s with noc := { s.noc with heads := s.noc.heads.flatMap fun x => if x = h then g.toList else [x] } }

/-- Router node and input port of link `k` of a seam on `die`. -/
def seamInput (die seam k : Nat) : Nat × Nat :=
  let rp := seamPort die seam k
  (mkNode die rp.1 0, rp.2)

/-- The worm of channel `c` at a router input of which flits are still to come. -/
def openWorm (s : State) (node port c : Nat) : Option HeadWait :=
  s.noc.heads.find? fun h => h.node = node && h.port = port && packetChan h.pkt = c && h.came ≤ h.pkt.len

/-- The input buffer of channel `c` has room for a flit (R295). -/
def bufferRoom (s : State) (node port c : Nat) : Bool :=
  decide ((((s.noc.heads.filter fun h => h.node = node && h.port = port && packetChan h.pkt = c).map fun h =>
    h.came - h.sent).sum) < portDepth (nodeDie node) (nodeRtr node) port c)

/-- The first frame of a seam queue leaves it, and the SCRED counter rises (13_seams.md R340). -/
def seamQOut (s : State) (die seam k c : Nat) : State :=
  let x := epOf s die seam
  let l := epLink x k
  setEp s die seam (setLink x k { l with
    queue := tabPutD [] l.queue c (tabOr [] l.queue c).tail
    freed := tabPutD 0 l.freed c ((tabOr 0 l.freed c + 1) % 256) })

/-- A data flit at the front of a seam queue goes to the worm it belongs to, while the input buffer has room (13_seams.md
R340). -/
def seamQData (s : State) (die seam k c fuel : Nat) : State :=
  match fuel with
  | 0 => s
  | f + 1 =>
    let i := seamInput die seam k
    match tabOr [] (epLink (epOf s die seam) k).queue c, openWorm s i.1 i.2 c with
    | _ :: _, some h =>
      if bufferRoom s i.1 i.2 c then
        seamQData (seamQOut (headPut s h (some { h with came := h.came + 1 })) die seam k c) die seam k c f
      else s
    | _, _ => s

/-- A flit has left the input buffer: its hop credit returns to the router before (R304). -/
def bufferFreed (s : State) (h : HeadWait) : State :=
  let c := packetChan h.pkt
  let die := nodeDie h.node
  match seamAt die (nodeRtr h.node) h.port with
  | some (m, k) =>
    let x := epOf s die m
    let l := epLink x k
    let s := setEp s die m (setLink x k { l with hfreed := tabPutD 0 l.hfreed c ((tabOr 0 l.hfreed c + 1) % 256) })
    seamQData s die m k c (tabOr [] l.queue c).length
  | none =>
    match meshPeer die (nodeRtr h.node) h.port with
    | some (r, o) => hopBack s (mkNode die r 0) o c 1
    | none => s

/-- A flit of packet `p` has come to the router that output `o` of `node` leads to, where its head has arrived. -/
def flitCame (s : State) (node o : Nat) (p : Packet) : State :=
  match meshPeer (nodeDie node) (nodeRtr node) o with
  | none => s
  | some (r, i) =>
    let at' := fun (x : HeadWait) => x.node = mkNode (nodeDie node) r 0 && x.port = i && samePkt p x.pkt
    { s with noc := { s.noc with heads := s.noc.heads.map fun x => if at' x then { x with came := x.came + 1 } else x } }

/-- The next flit of a granted worm passes: one hop credit is spent and one returned (R304), the last flit frees the output. -/
def flitPass (s : State) (h : HeadWait) : State :=
  match h.out with
  | none => s
  | some o =>
    let last := tabOr (0, 0) s.noc.lastWin (8 * h.node + o)
    -- a VC0 flit goes before the rotating order and does not move it
    let won := if packetChan h.pkt = 0 then last.1 else packetChan h.pkt
    let s := { s with noc := { s.noc with lastWin := tabPut s.noc.lastWin (8 * h.node + o) (won, last.2) } }
    let gone := h.gone || (h.sent = 0 && outAbsorbs s h o)
    let s := bufferFreed (headPut s h (if h.pkt.len < h.sent + 1 then none else some { h with sent := h.sent + 1, gone := gone })) h
    if 4 ≤ o then s
    else
      match seamOut h o with
      | some (m, k) =>
        if gone then (if h.sent = 0 then seamAbsorb s (nodeDie h.node) m h.pkt else s)
        else seamSend (hopTake s h.node o (packetChan h.pkt) 1) (nodeDie h.node) m k h.pkt h.sent
      | none => flitCame (hopTake s h.node o (packetChan h.pkt) 1) h.node o h.pkt

/-- A head is granted output `o`. -/
def headGrant (s : State) (h : HeadWait) (o : Nat) : State :=
  let last := tabOr (0, 0) s.noc.lastWin (8 * h.node + o)
  headPut { s with noc := { s.noc with lastWin := tabPut s.noc.lastWin (8 * h.node + o) (last.1, h.port) } } h
    (some { h with out := some o })

/-- Rank of a head for a free output: urgency, then round robin over input ports (R310). -/
def headRank (s : State) (h : HeadWait) (o : Nat) : Nat :=
  let l := tabOr (0, 0) s.noc.lastWin (8 * h.node + o)
  (7 - min 7 h.pkt.urg) * 100 + (h.port + 15 - l.2) % 8

/-- Rank of a flit at its output: VC0 first, then urgency, then the rotating order of the channels (R310). -/
def flitRank (s : State) (h : HeadWait) : Nat :=
  let l := tabOr (0, 0) s.noc.lastWin (8 * h.node + h.out.getD 0)
  let c := packetChan h.pkt
  if c = 0 then 0 else 100 + (7 - min 7 h.pkt.urg) * 10 + (c + 9 - l.1) % 5

/-- The first of least rank. -/
def leastOf {α : Type} (rank : α → Nat) (l : List α) : Option α :=
  l.foldl (fun b x => match b with | none => some x | some y => if rank x < rank y then some x else some y) none

/-- The head a router grants next, with its output. -/
def nextHead (s : State) (node : Nat) : Option (HeadWait × Nat) :=
  leastOf (fun x => headRank s x.1 x.2)
    ((s.noc.heads.filter (·.node == node)).filterMap fun h => (grantOut s h).map fun o => (h, o))

/-- The flit a router passes next. -/
def nextFlitAt (s : State) (node : Nat) : Option HeadWait :=
  leastOf (flitRank s) (s.noc.heads.filter fun h => h.node = node && flitReady s h)

/-- A router grants heads and passes flits while it can, `fuel` steps at most. -/
def nodeRun (s : State) (node fuel : Nat) : State :=
  match fuel with
  | 0 => s
  | f + 1 =>
    match nextHead s node with
    | some (h, o) => nodeRun (headGrant s h o) node f
    | none =>
      match nextFlitAt s node with
      | some h => nodeRun (flitPass s h) node f
      | none => s

/-- Steps the worms at hand can take: a grant and its flits each. -/
def wormSteps (s : State) : Nat := (s.noc.heads.map fun h => h.pkt.len + 2).sum

/-- A router runs with every worm at it. -/
def nodeGo (s : State) (node : Nat) : State := nodeRun s node (wormSteps s)

/-- Every router with a worm runs, as often as a flit that moved can let another move. -/
def allGo (s : State) : State :=
  (List.range (wormSteps s)).foldl (fun s _ => ((s.noc.heads.map (·.node)).eraseDups).foldl nodeGo s) s

end Sys2Proof.Machine
end

