-- ==== Sys2Proof/Machine/SeamStates.lean ====
section
/-! DEFINITION. The states of seam endpoints (13_seams.md R341, R342, R347 to R349), width steps and rewinds. -/

namespace Sys2Proof.Machine

/-! ### States (R341, R342, R355) -/

/-- The crossing groups of a ring seam's side are untrained (07_fabric.md R182). -/
def xgClear (s : State) (die seam : Nat) : State :=
  if seam < 8 && isFabric die then
    let a := cfPage die + 0x0B0 + 8 * ringSide die seam
    setReg (setReg s a 0) (a + 4) 0
  else s

/-- Sequence spaces, replay buffers, queues and credits at their start (R342, R344). -/
def linksClear (x : SeamEp) : SeamEp := { x with links := [], step := .none }

/-- Replay buffers, queues and credits go with a retrain (R342); the count of the frames accepted is known until CREDIT zeroes
it, as the far side discards those that were not (R349). -/
def linksDrop (x : SeamEp) : SeamEp :=
  { x with links := x.links.map fun e => (e.1, { rxSeq := e.2.rxSeq }), step := .none, noted := false }

/-- Frames of a link's replay buffer that the far endpoint has not accepted. -/
def replayLeft (s : State) (die seam k : Nat) : List SentFrame :=
  let l := epLink (epOf s die seam) k
  let far := epLink (epOf s (seamFar die seam) seam) k
  let first := (l.txSeq + 128 - l.replay.length) % 128
  l.replay.drop ((far.rxSeq + 128 - first) % 128)

/-- Frames sent and not accepted by the far endpoint, of channel `c` of link `k` (R340). -/
def unaccepted (s : State) (die seam k c : Nat) : Nat := ((replayLeft s die seam k).filter (·.ch == c)).length

/-- A packet whose head went into the replay buffer and was not accepted is gone (R349). -/
def framesLost (s : State) (die seam : Nat) : State :=
  let lost := (List.range (seamLinks seam)).flatMap fun k =>
    (replayLeft s die seam k).map (·.flit) ++ (epLink (epOf s die seam) k).txq.map (·.2)
  (s.noc.flight.filter fun p => lost.contains (packetHeader p)).foldl flightDel s

/-- The sending endpoint absorbs the rest of a worm that the seam has begun (R347). -/
def wormsRest (s : State) (die seam : Nat) : State :=
  let begun := fun (h : HeadWait) =>
    nodeDie h.node = die && decide (0 < h.sent) && h.out.any fun o => (seamOut h o).any fun x => x.1 == seam
  { s with noc := { s.noc with heads := s.noc.heads.map fun h => if begun h then { h with gone := true } else h } }

/-- Data flits of a packet carry POISON from here on. -/
def wormPoison (s : State) (p : Packet) : State :=
  let bad := fun (q : Packet) => if samePkt p q then { q with poison := true } else q
  { s with noc := { s.noc with heads := s.noc.heads.map fun x => { x with pkt := bad x.pkt }
                               flight := s.noc.flight.map bad } }

/-- The receiving endpoint completes a worm into its router with data flits that have POISON set (R347). -/
def wormEnds (s : State) (die seam k c : Nat) : State :=
  let i := seamInput die seam k
  match openWorm s i.1 i.2 c with
  | none => s
  | some h => wormPoison (headPut s h (some { h with came := h.pkt.len + 1 })) h.pkt

/-- Both halves of every worm that the seam carries end (R347). -/
def wormsEnd (s : State) (die seam : Nat) : State :=
  (List.range (seamLinks seam)).foldl (fun s k => (List.range 5).foldl (fun s c => wormEnds s die seam k c) s)
    (wormsRest s die seam)

/-- Hop credits of a seam's links start full again: its router's counters toward the seam (R344). -/
def hopFresh (s : State) (die seam : Nat) : State :=
  (List.range (seamLinks seam)).foldl (fun s k =>
    let rp := seamPort die seam k
    (List.range 5).foldl (fun s c =>
      { s with noc := { s.noc with hopAway := tabDel s.noc.hopAway (outKey (mkNode die rp.1 0) rp.2 c) } }) s) s

/-- STATE of an endpoint becomes `st`: UP and DOWN, what its worms and frames become, reclamation, and the crossing groups
follow (R342, R347, R348, R355). -/
def seamTo (s : State) (die seam st : Nat) : State :=
  let old := seamState s die seam
  let was := old = 6 || old = 7
  let is := st = 6 || st = 7
  let s := putF s (smPage die seam) SM_STAT_STATE st
  let s := if was && !is then wormsEnd (framesLost s die seam) die seam else s
  let s := if old = 7 && st != 7 then reclaim s die seam else s
  if was && !is then
    evtPulse (allGo (xgClear (setEp (hopFresh s die seam) die seam (linksDrop (epOf s die seam))) die seam)) (smPage die seam) 0
  else if is && !was then evtPulse s (smPage die seam) 1 else s

/-- An ACTIVE or MGMT endpoint returns to RESET (R342). -/
def seamRetrain (s : State) (die seam : Nat) : State := if seamReady s die seam then seamTo s die seam 1 else s

/-- MGMT becomes ACTIVE when VC_EN is 1 on both sides (R341). -/
def seamJoin (s : State) (seam : Nat) : State :=
  let a := (seamDies seam).1
  let b := (seamDies seam).2
  if flag s (smPage a seam) SM_CTRL_VC_EN && flag s (smPage b seam) SM_CTRL_VC_EN then
    let s := if seamState s a seam = 6 && seamReady s b seam then seamTo s a seam 7 else s
    if seamState s b seam = 6 && seamReady s a seam then seamTo s b seam 7 else s
  else s

/-- PG_CTRL.ENABLE of an endpoint has become `b`. -/
def smEnabled (s : State) (die seam : Nat) (b : Bool) : State :=
  if b then (if seamState s die seam = 0 then seamTo s die seam 1 else s) else seamTo s die seam 0

/-- ENABLE of both endpoints of a seam sets (R67, R341). -/
def seamEnable (s : State) (seam : Nat) : State :=
  let go := fun (s : State) d => smEnabled (putFlag s (smPage d seam) PG_CTRL_ENABLE true) d seam true
  go (go s (seamDies seam).1) (seamDies seam).2

/-- The requests of the two sides have been compared: where they differ the endpoint that finds it first sets MISMATCH and the
event on both pages and raises the one NOTE (R343; 20_errors.md, worked example of R514). -/
def seamCompare (s : State) (die seam : Nat) (differ : Bool) : State :=
  let x := epOf s die seam
  let s := setEp s die seam { x with noted := false }
  if !differ || x.noted then s
  else
    let far := seamFar die seam
    let s := setEp s far seam { epOf s far seam with noted := true }
    let s := putFlag (putFlag s (smPage die seam) SM_STAT_MISMATCH true) (smPage far seam) SM_STAT_MISMATCH true
    raiseFrom (evtPulse (evtPulse s (smPage die seam) 2) (smPage far seam) 2) (smPage die seam) 0 0x0602 seam

/-- Both ends of a seam adopt `half` width. -/
def seamWidthPut (s : State) (die seam : Nat) (half : Bool) : State := putFlag s (smPage die seam) SM_STAT_WIDTH half

/-- A width step ends when every link of the endpoint is acknowledged (R345). -/
def widthFinish (s : State) (die seam : Nat) : State :=
  let x := epOf s die seam
  match x.step with
  | .draining half =>
    if x.links.all fun e => e.2.replay.isEmpty then
      let s := seamWidthPut (setEp s die seam { x with step := .none }) die seam half
      (List.range (seamLinks seam)).foldl (fun s k => linkPump s die seam k) s
    else s
  | _ => s

/-- A link resends every unacknowledged frame (R339): counted, REPLAY fires, and 16 without an advance retrain (R342). -/
def seamRewind (s : State) (die seam k : Nat) : State :=
  let x := epOf s die seam
  let l := epLink x k
  let s := setEp s die seam (setLink x k { l with rewinds := l.rewinds + 1 })
  let s := evtPulse (countUp s (smPage die seam) SM_REPLAY_COUNT 1) (smPage die seam) 4
  if 16 ≤ l.rewinds + 1 then seamRetrain s die seam else s

end Sys2Proof.Machine
end

