-- ==== Sys2Proof/Machine/IsoOps.lean ====
section
/-! DEFINITION. Losing a die (13_seams.md R350 to R352): isolation, its reset, and what goes with it. -/

namespace Sys2Proof.Machine

/-- A Keep transfer in progress ends with `result` (06_keep.md R142). -/
def xferEnd (s : State) (result : Nat) : State :=
  if getF s KP KP_XFER_STAT_RESULT = 0xF then
    evtPulse (putF { s with keep := { s.keep with xfer := none } } KP KP_XFER_STAT_RESULT result) KP 3
  else s

/-- Locks held by the initiators `f` names are released (17_processors.md R461). -/
def locksFree (s : State) (f : Nat → Bool) : State :=
  { s with hub := { s.hub with locks := s.hub.locks.filter fun e => match e.2 with | some i => !f i | none => false } }

/-- The link of a PCIe controller goes down: LINK_DOWN fires and the locks of its ID are released (R461, R470). -/
def pcieDown (s : State) (pc : Nat) : State :=
  let page := pcPage pc
  let up := flag s page PC_STAT_LINK_UP
  let s := putF (putF (putFlag (putFlag s page PC_STAT_LINK_UP false) page PC_STAT_FLIT false) page PC_STAT_WIDTH 0)
    page PC_STAT_GEN 0
  if up then evtPulse (locksFree s (· == 7 + pc)) page 1 else s

/-- Nodes of the bridges of a die. -/
def dieNodes (d : Nat) : List Nat :=
  (List.range (routerCount d)).flatMap fun r => (endpoints d r).map fun e => mkNode d r e

/-- Work of the dispatcher on a die completes ABORTED and its partition-work queue empties (R351 step 5). -/
def dieWork (s : State) (d : Nat) : State :=
  let ds := (s.pow.desc.filter fun e => e.2.state = 2 && e.2.die = d && e.2.kind != 2).map (·.1)
  let s := ds.foldl (fun s i => descDone s i 2) s
  dsEvents { s with pow := { s.pow with pq := tabDel s.pow.pq d } }

/-- Partitions of a fabric die are OFF, its static region held and a load ends (R352). -/
def partsOff (s : State) (d : Nat) : State :=
  let s := icpFail s d 0xE
  let s := (dieParts s d).foldl (fun s e => partForce s e pOff) s
  staticHoldDie s d

/-- Entries of a table whose key does not lie between `lo` and `hi - 1`. -/
def tabCut {α : Type} (t : Tab α) (lo hi : Nat) : Tab α := t.filter fun e => !(lo ≤ e.1 && decide (e.1 < hi))

/-- Lanes of a lane die by device lane number. -/
def laneLo (d : Nat) : Nat := 32 * (d - 9)

/-- A register of a page of host mailboxes: the isolation of its die does not affect mailboxes (17_processors.md R454; log 109). -/
def mailReg (a : Nat) : Bool := pageOf (regDie a) (regBlk a) == some .mbh

/-- The registers and hidden state of a die at their values after reset (R351 step 2). -/
def dieReset (s : State) (d : Nat) : State :=
  let mine := fun (e : Nat × Word) => regDie e.1 == d && !mailReg e.1
  let keep := s.pg.regs.filter fun e => !mine e
  let back := regsReset (s.pg.regs.filter mine)
  let pg0 : PageState :=
    { regs := back.foldl (fun t e => tabPut t e.1 e.2) keep
      held := s.pg.held.filter fun e => !mine e, committed := s.pg.committed.filter fun e => !mine e
      onceDone := s.pg.onceDone.filter fun e => !mine e
      srst := s.pg.srst.filter fun p => regDie p != d, stalled := s.pg.stalled, bcasts := s.pg.bcasts }
  let s := { s with pg := pg0, pow := { s.pow with doms := tabCut s.pow.doms (64 * d) (64 * d + 64) } }
  let s := { s with noc := { s.noc with
      ports := tabCut s.noc.ports (64 * d) (64 * d + 64)
      routes := tabCut s.noc.routes (256 * d) (256 * d + 256)
      drainNew := tabCut s.noc.drainNew (256 * d) (256 * d + 256)
      hopAway := tabCut s.noc.hopAway (64 * (256 * d)) (64 * (256 * d + 256))
      heads := s.noc.heads.filter fun h => nodeDie h.node != d
      flight := s.noc.flight.filter fun p => !s.noc.heads.any fun h => nodeDie h.node = d && samePkt h.pkt p }
                    seam := { s.seam with eps := tabCut s.seam.eps (32 * d) (32 * d + 32) } }
  let s := { s with clk := { s.clk with
      cdEff := s.clk.cdEff.filter fun e => cdDie e.1 != d, gateWait := s.clk.gateWait.filter fun k => cdDie k != d } }
  if isFabric d then
    let cut := fun {α : Type} (t : Tab α) (n : Nat) => tabCut t (n * d) (n * d + n)
    { s with
      load := { s.load with cfg := cut s.load.cfg 1048576, bankInit := s.load.bankInit.filter fun k => k / 1048576 != d }
      fab := { s.fab with ff := cut s.fab.ff 4096, shadow := cut s.fab.shadow 4096, upset := cut s.fab.upset 1048576
                          cap := tabDel s.fab.cap d, rb := tabDel s.fab.rb d, evo := tabDel s.fab.evo d }
      mem := { banks := cut s.mem.banks 2048, deeps := cut s.mem.deeps 32, waits := s.mem.waits }
      part := { s.part with icp := tabDel s.part.icp d }
      le := { eng := cut s.le.eng 512, gateReq := s.le.gateReq.filter fun g => g / 72 != d
              gated := s.le.gated.filter fun g => g / 72 != d
              opening := s.le.opening.filter fun g => g / 72 != d }
      err := { s.err with ax := tabDel s.err.ax d }
      ddr := { s.ddr with chans := s.ddr.chans.filter fun e => regDie (mcPage e.1) != d
                          late := s.ddr.late.filter fun x => regDie (mcPage x.ch) != d } }
  else if isLane d then
    { s with
      lane := { lanes := tabCut s.lane.lanes (laneLo d) (laneLo d + 32), bundles := tabCut s.lane.bundles (32 * d) (32 * d + 32) }
      flow := { slices := tabDel s.flow.slices d
                chans := s.flow.chans.filter fun x => nodeDie x.1 != d
                puntWait := s.flow.puntWait.filter fun x => x.1 != d } }
  else s

/-- The dies that a lost die takes with it (R350 cause 5). -/
def dependents (d : Nat) : List Nat :=
  match d with
  | 0 => [9] | 2 => [10] | 4 => [11] | 6 => [12] | 1 => [13] | 5 => [14] | _ => []

/-- Accesses that wait for a die being isolated end with 0x2: those to its pages and those to its deep memories. -/
def dieWaitsFail (s : State) (d : Nat) : State :=
  let s := stallsFail s d 2
  (s.mem.waits.filter fun x => x.1 == d).foldl (fun s _ => answer s 2 0)
    { s with mem := { s.mem with waits := s.mem.waits.filter fun x => x.1 != d } }

/-- Isolation of one die (R351). -/
def isolateOne (s : State) (d cause : Nat) : State :=
  let s := putF s DI (DI_STAT_EPOCH.nth d) ((getF s DI (DI_STAT_EPOCH.nth d) + 1) % 65536)
  let s := if isFabric d then pinsLatch s d else s
  let s := putF (putF s DI (DI_STAT_STATE.nth d) 1) DI (DI_STAT_CAUSE.nth d) cause
  let s := { s with seam := { s.seam with rejoinFailed := setDel s.seam.rejoinFailed d } }
  let s := (dieSeams d).foldl (fun s m => seamTo (seamTo s d m 8) (seamFar d m) m 8) s
  let s := dieWaitsFail ((dieNodes d).foldl (fun s n => isoEnter s n 4 true true) s) d
  let s := if isFabric d then partsOff s d else s
  let s := if isLane d then lanesStop s d else s
  let s := if d = 9 then pcieDown s 0 else if d = 11 then pcieDown s 1 else s
  let s :=
    if cause = 5 then s
    else
      let s := dieReset { s with seam := { s.seam with dieReset := setAdd s.seam.dieReset d } } d
      let s := (dieSeams d).foldl (fun s m => putF s (smPage d m) SM_STAT_STATE 8) s
      let s := (dieParts s d).foldl (fun s e =>
        putF (putF s (icPage d) (IC_PSTAT_STATE.nth e.no) pOff) (icPage d) (IC_PSTAT_CLIENT.nth e.no) e.client) s
      (dieNodes d).foldl isoShow s
  let s := dieWork (locksFree s fun i => nodeDie (iniNode i) == d) d
  let s := if isKeep d || d = 1 || d = 5 then xferEnd s 1 else s
  let s := { s with hub := { s.hub with levels := s.hub.levels.filter fun x => srcDie x != d } }
  let s := raise s 2 d 21 0x0603 cause
  evtPulse (countUp s DI DI_ISO_CNT_COUNT 1) DI 0

/-- The hub isolates a die, and with it every die reached only through it; a die that is isolated already stays as it is,
and a rejoin in progress stops (R350, R354). Reserved trunks are walked again (15_flow_slices.md R412). -/
def isolateDie (s : State) (d cause : Nat) : State :=
  if d = 8 || 15 ≤ d || getF s DI (DI_STAT_STATE.nth d) = 1 then s
  else
    let s := isolateOne s d cause
    trunksRewalk
      ((dependents d).foldl (fun s x => if getF s DI (DI_STAT_STATE.nth x) = 1 then s else isolateOne s x 5) s)

end Sys2Proof.Machine
end

