-- ==== Sys2Proof/Machine/Clocks.lean ====
section
/-! DEFINITION. Clocks and references (03_clocks.md): oscillators, PLLs, switches and gates. -/

namespace Sys2Proof.Machine

/-! ### Oscillators -/

/-- OK and FAIL bits of an XO, `b`: XO_B. -/
def xoOk (b : Bool) : FieldRef := if b then CU_OSC_STAT_XO_B_OK else CU_OSC_STAT_XO_A_OK
@[inherit_doc xoOk] def xoFail (b : Bool) : FieldRef := if b then CU_OSC_STAT_XO_B_FAIL else CU_OSC_STAT_XO_A_FAIL
@[inherit_doc xoOk] def xoMeas (b : Bool) : FieldRef := if b then CU_XO_MEAS_XO_B_RC else CU_XO_MEAS_XO_A_RC

/-- Monitor phase of an XO. -/
def xoPhase (s : State) (b : Bool) : OscPhase := if b then s.clk.xoB else s.clk.xoA
@[inherit_doc xoPhase] def setXoPhase (s : State) (b : Bool) (p : OscPhase) : State :=
  if b then { s with clk := { s.clk with xoB := p } } else { s with clk := { s.clk with xoA := p } }

/-- Time of the end of stage `n`: SQ_Tn. The time itself is not modelled, so the value is free (04_start.md R117; log 13). -/
def stageEnd (s : State) (n : Nat) : State :=
  let (v, s) := freeVal s 32
  putF s SQ ((SQ_T_TIME_US).plus (4 * n)) v

/-- S1 ends with `b` (XO_B) chosen; `single`: the other XO did not qualify, which raises FAILOVER (R66). S2 begins with
step 1 of R67: every hub PLL is enabled and locks. -/
def xoChoose (s : State) (b single : Bool) : State :=
  let s := putFlag s CU CU_OSC_STAT_ACTIVE_XO b
  let s := if single then evtPulse s CU 2 else s
  let s := (List.range 8).foldl (fun s j => putFlag s (pllPage 8 j) PG_CTRL_ENABLE true) (stageEnd s 1)
  let s : State := { s with clk := { s.clk with xoChosen := true }, start := { s.start with phase := .s2Pll, failLow := false } }
  setStage s 2

/-- An XO has been judged in S1: the start goes on, waits for the other, or is held (R65, R66). -/
def xoVerdict (s : State) : State :=
  let a := flag s CU (xoOk false)
  let b := flag s CU (xoOk true)
  let judged := fun x => flag s CU (xoOk x) || flag s CU (xoFail x)
  match s.start.phase with
  | .s1 =>
    if !(judged false && judged true) then s
    else if a && b then xoChoose s (flag s CU CU_OSC_CTRL_XO_PREF) false
    else if a then xoChoose s false true
    else if b then xoChoose s true true
    else
      let s := if getF s SQ SQ_CAUSE_FIRST_CAUSE = 0 then putF s SQ SQ_CAUSE_FIRST_CAUSE 1 else s
      { s with start := { s.start with phase := .s1Hold, failLow := true } }
  | .s1Hold => if a then xoChoose s false true else if b then xoChoose s true true else s
  | _ => s

/-- The switch of the hub PLL references to an XO begins (R80). A request while such a switch runs is dropped, which the
manual leaves open (DESIGN CHOICE, log 78). -/
def xoSwitchStart (s : State) (b : Bool) : State :=
  if s.clk.xoChosen && s.clk.xoSwitch.isNone && flag s CU CU_OSC_STAT_ACTIVE_XO != b && flag s CU (xoOk b) then
    { s with clk := { s.clk with xoSwitch := some b } }
  else s

/-- An XO qualifies (R62). Once XO_A qualifies again with FAILBACK set, the references go back to it (R78). -/
def xoPass (s : State) (b : Bool) (rc : Nat) : State :=
  let s := putF (setXoPhase s b .running) CU (xoMeas b) rc
  let s := xoVerdict (putFlag s CU (xoOk b) true)
  if !b && flag s CU CU_OSC_CTRL_FAILBACK then xoSwitchStart s false else s

/-- A qualification of an XO fails; the count repeats (R62, R65). -/
def xoMiss (s : State) (b : Bool) (rc : Nat) : State :=
  let s := putF s CU (xoMeas b) rc
  let s := evtPulse (putFlag s CU (xoFail b) true) CU (ofBool b)
  xoVerdict s

/-- The references the XO selection leaves: a failover where the active XO has failed, FATAL where both have (R78, R79). -/
def xoJudge (s : State) : State :=
  let act := flag s CU CU_OSC_STAT_ACTIVE_XO
  if !s.clk.xoChosen || s.clk.xoSwitch.isSome || flag s CU (xoOk act) then s
  else if flag s CU (xoOk (!act)) then xoSwitchStart s (!act)
  else raiseFrom s CU 3 0x0102 0

/-- A qualified XO is declared failed (R63). A failed standby is reported at once, a failed active XO when the other is in
use (R78, R79). -/
def xoLost (s : State) (b edges : Bool) : State :=
  let s := setXoPhase s b (if edges then .counting else .stopped)
  let s := putFlag (putFlag s CU (xoOk b) false) CU (xoFail b) true
  let s := evtPulse s CU (ofBool b)
  let s :=
    if s.clk.xoChosen && flag s CU CU_OSC_STAT_ACTIVE_XO != b && flag s CU (xoOk (!b)) then
      raiseFrom s CU 1 0x0101 (ofBool b)
    else s
  xoJudge s

/-- The switch of the XO selection completes; `forced` under R81. An unforced switch leaves SWITCH_FORCED as it stands, and
INFO of a forced one's NOTE is a free value: the manual gives neither (DESIGN CHOICE, log 78). -/
def xoSwitched (s : State) (b forced : Bool) : State :=
  let old := flag s CU CU_OSC_STAT_ACTIVE_XO
  let s := putFlag { s with clk := { s.clk with xoSwitch := none } } CU CU_OSC_STAT_ACTIVE_XO b
  let s :=
    if forced then
      let (info, s) := freeVal (putFlag s CU CU_OSC_STAT_SWITCH_FORCED true) 32
      raiseFrom s CU 0 0x0105 info
    else s
  let s := if flag s CU (xoOk old) then s else raiseFrom (evtPulse s CU 2) CU 1 0x0101 (ofBool old)
  xoJudge s

/-- The RTC crystal qualifies or fails its count (R62). -/
def rtcVerdict (s : State) (ok : Bool) : State :=
  if ok then putFlag { s with clk := { s.clk with rtc := .running } } CU CU_OSC_STAT_RTC_OK true
  else evtPulse (putFlag s CU CU_OSC_STAT_RTC_FAIL true) CU 3

/-- The qualified crystal is declared failed (R64). -/
def rtcLost (s : State) (edges : Bool) : State :=
  let s : State := { s with clk := { s.clk with rtc := if edges then .counting else .stopped } }
  let s := putFlag (putFlag s CU CU_OSC_STAT_RTC_OK false) CU CU_OSC_STAT_RTC_FAIL true
  let armed := flag s (pdPage 8 0) PD_ALARM_CTRL_ALARM_EN
  if s.pow.torpor then (if armed then torporExit s 3 else s)
  else
    let s := raiseFrom (evtPulse s CU 3) CU 1 0x0107 0
    if flag s (pdPage 8 1) PD_TORPOR_ENTERING && armed then { s with pow := { s.pow with exitAtEntry := some 3 } } else s

/-! ### PLLs -/

/-- LOCK of a PLL, with its copy in CU_SPINE_STAT for a hub PLL. -/
def pllLock (s : State) (die j : Nat) (b : Bool) : State :=
  let s := putFlag s (pllPage die j) PLL_STAT_LOCK b
  if die = 8 then putF s CU CU_SPINE_STAT_HPLL_LOCK (nSet (getF s CU CU_SPINE_STAT_HPLL_LOCK) j b) else s

/-- The event hub's domain and its fellows move to HPLL3 (R67 step 3). -/
def hubMove (s : State) : State :=
  if s.clk.hubOnRc then
    let s : State := { s with clk := { s.clk with hubOnRc := false } }
    [2, 3, 6, 7].foldl (fun s k => evtPulse s (cdPage k) 0) s
  else s

/-- Every hub PLL has locked in S2: the routers work, so the bridges of the fabric ports, all disabled, enter autotomy (12_noc.md
R319), the management path is enabled and the tadpole stage goes on (R67 step 4). -/
def hubLocked (s : State) : State :=
  if s.start.phase = .s2Pll && getF s CU CU_SPINE_STAT_HPLL_LOCK = 255 then
    let s := (List.range 8).foldl (fun s d => if isolated s d then s else portsFollow s d) s
    let s := [8, 16, 10, 17].foldl seamEnable s
    let s := if getF s SQ SQ_STAT_SOURCE ≥ 2 then pcieBoot ([0, 12].foldl seamEnable s) 0 else s
    bbMarker { s with start := { s.start with phase := .s2Records } } 1 0
  else s

/-- What follows the lock of hub PLL `j` (R67, 17_processors.md R451): SPINE_A and SPINE_B are driven once HPLL0 to HPLL4,
HPLL6 and HPLL7 have locked, and with HPLL5 too the hub moves to HPLL3 and the start goes on. -/
def hubLockEffects (s : State) (j : Nat) : State :=
  let locks := getF s CU CU_SPINE_STAT_HPLL_LOCK
  let s := if locks = 223 || locks = 255 then
      putFlag (putFlag s CU CU_SPINE_STAT_SPINE_A_ON true) CU CU_SPINE_STAT_SPINE_B_ON true else s
  let s :=
    if j = 5 then
      let s := putFlag s TB TB_STAT_COAST false
      if s.hub.tbOn then s else { s with hub := { s.hub with tbOn := true, now := 0, frac := 0 } }
    else s
  if locks = 255 then hubLocked (hubMove s) else s

/-- A PLL loses its reference and coasts (R76, R79). -/
def pllCoast (s : State) (die j : Nat) : State :=
  let page := pllPage die j
  let was := flag s page PLL_STAT_LOCK
  let s := putFlag (putFlag s page PLL_STAT_REF_LOST true) page PLL_STAT_COAST true
  let s := evtPulse (pllLock s die j false) page 1
  let s := if was then evtPulse s page 0 else s
  if die = 8 then
    if j = 5 then
      let s := raiseFrom s page 1 0x0104 0
      if flag s TB TB_STAT_COAST then s
      else [9, 10, 11, 12].foldl (fun s d => if isolated s d then s else evtPulse s (fsPage d) 3)
        (evtPulse (putFlag s TB TB_STAT_COAST true) TB 2)
    else s
  else if flag s (pllPage 8 0) PLL_STAT_LOCK then isolateDie (raiseFrom s page 2 0x0103 j) die 3
  else s

/-- The clock unit, its monitors and the clock domains work: the device has its supplies and is not in torpor, where only CD0
and CD60 run (R73). -/
def clkUp (s : State) : Bool := s.pin.supplies && !s.pow.torpor

/-- A PLL of the device: hub PLL on die 8, fabric PLL on a fabric die. -/
def isPll (die j : Nat) : Bool := (die = 8 && j < 8) || (isFabric die && j < 4)

/-! ### Switches and gates of the clock domains -/

/-- The switch of domain `k` completes; a gated domain keeps its old source until its gate re-opens, and a gate request
that waited begins (R80, R84). -/
def cdSwitched (s : State) (k : Nat) (forced : Bool) : State :=
  let page := cdPage k
  let s := putFlag s page CD_STAT_SWITCHING false
  let s := if flag s page CD_STAT_GATED then s else { s with clk := { s.clk with cdEff := tabDel s.clk.cdEff k } }
  let s := if forced then raiseFrom (evtPulse (putFlag s page CD_STAT_SWITCH_FORCED true) page 1) page 0 0x0105 k else s
  let s := evtPulse s page 0
  if s.clk.gateWait.contains k then
    putFlag { s with clk := { s.clk with gateWait := setDel s.clk.gateWait k } } page CD_STAT_QUIESCING true
  else s

/-- Seams whose endpoints PHY group domain CD48 + n clocks (R73). -/
def groupSeams (n : Nat) : List Nat :=
  match n with
  | 0 => [0, 12] | 1 => [1, 8, 16] | 2 => [2, 13] | 3 => [3, 9] | 4 => [4, 14] | 5 => [5, 10, 17] | 6 => [6, 15] | _ => [7, 11]

/-- The blocks of domain `k` can acknowledge: a seam PHY group only while all its endpoints are OFF (13_seams.md R346). -/
def gateAcks (s : State) (k : Nat) : Bool :=
  if 48 ≤ k && k < 56 then
    (groupSeams (k - 48)).all fun m => seamState s (seamDies m).1 m = 0 && seamState s (seamDies m).2 m = 0
  else true

/-! ### Commands -/

/-- XO_QUALIFIED (R62). -/
def execXoQualified (b : Bool) (rc : Nat) (s : State) : Host.Outcome State Fault Refusal :=
  .next <|
    if !clkUp s || xoPhase s b ≠ .counting then s
    else if 26214 ≤ rc && rc ≤ 39322 then xoPass s b rc else xoMiss s b rc

/-- XO_QUAL_TIMEOUT (R62). -/
def execXoQualTimeout (b : Bool) (s : State) : Host.Outcome State Fault Refusal :=
  .next (if clkUp s && xoPhase s b = .counting then xoMiss s b 0xFFFF else s)

/-- RTC_QUALIFIED (R62). -/
def execRtcQualified (rc : Nat) (s : State) : Host.Outcome State Fault Refusal :=
  .next (if s.clk.rtc = .counting then rtcVerdict s (20000000 ≤ rc && rc ≤ 30000000) else s)

/-- RTC_QUAL_TIMEOUT (R62). -/
def execRtcQualTimeout (s : State) : Host.Outcome State Fault Refusal :=
  .next (if s.clk.rtc = .counting then rtcVerdict s false else s)

/-- XO_EDGE_TIMEOUT (R63). -/
def execXoEdgeTimeout (b : Bool) (s : State) : Host.Outcome State Fault Refusal :=
  .next (if clkUp s && xoPhase s b = .running then xoLost s b false else s)

/-- XO_WINDOW_CHECK (R63). -/
def execXoWindowCheck (b : Bool) (count : Nat) (s : State) : Host.Outcome State Fault Refusal :=
  .next (if clkUp s && xoPhase s b = .running && (count < 640 || 1600 < count) then xoLost s b true else s)

/-- RTC_EDGE_TIMEOUT (R64). -/
def execRtcEdgeTimeout (s : State) : Host.Outcome State Fault Refusal :=
  .next (if s.clk.rtc = .running then rtcLost s false else s)

/-- RTC_WINDOW_CHECK (R64). -/
def execRtcWindowCheck (count : Nat) (s : State) : Host.Outcome State Fault Refusal :=
  .next (if s.clk.rtc = .running && (count < 1100 || 1760 < count) then rtcLost s true else s)

/-- OSC_EDGES_RETURN (R63, R64). -/
def execOscEdgesReturn (o : Osc) (s : State) : Host.Outcome State Fault Refusal :=
  .next <| match o with
    | .xoA => if clkUp s && s.clk.xoA = .stopped then setXoPhase s false .counting else s
    | .xoB => if clkUp s && s.clk.xoB = .stopped then setXoPhase s true .counting else s
    | .rtc => if s.clk.rtc = .stopped then { s with clk := { s.clk with rtc := .counting } } else s

/-- The reference of a PLL is driven: the chosen XO, SPINE_B for HPLL5, SPINE_A for a fabric PLL (R67, R69, R71). -/
def pllRefOn (s : State) (die j : Nat) : Bool :=
  if die = 8 then (if j = 5 then flag s CU CU_SPINE_STAT_SPINE_B_ON else s.clk.xoChosen)
  else flag s CU CU_SPINE_STAT_SPINE_A_ON

/-- PLL_LOCKED (R67, R68, R76): an enabled PLL whose reference is driven sets LOCK, and COAST clears. -/
def execPllLocked (die pll : Nat) (s : State) : Host.Outcome State Fault Refusal :=
  .next <|
    if !clkUp s || !isPll die pll || !pllRefOn s die pll || !enabled s (pllPage die pll) || flag s (pllPage die pll) PLL_STAT_LOCK then s
    else
      let s := pllLock (putFlag s (pllPage die pll) PLL_STAT_COAST false) die pll true
      let s := evtPulse s (pllPage die pll) 2
      if die = 8 then hubLockEffects s pll else s

/-- PLL_REF_LOST (R76). -/
def execPllRefLost (die pll : Nat) (s : State) : Host.Outcome State Fault Refusal :=
  .next <|
    if clkUp s && isPll die pll && enabled s (pllPage die pll) && !flag s (pllPage die pll) PLL_STAT_COAST then pllCoast s die pll
    else s

/-- FPLL_REF_DEVIATION (R77). -/
def execFpllRefDeviation (die pll : Nat) (s : State) : Host.Outcome State Fault Refusal :=
  .next <|
    if clkUp s && isFabric die && pll < 4 && enabled s (pllPage die pll) && !flag s (pllPage die pll) PLL_STAT_COAST then pllCoast s die pll
    else s

/-- The requested gate of domain `k` closes (R82). -/
def domGateClosed (s : State) (k : Nat) : State :=
    if clkUp s && flag s (cdPage k) CD_STAT_QUIESCING && gateAcks s k then
      let s := putFlag (putFlag s (cdPage k) CD_STAT_QUIESCING false) (cdPage k) CD_STAT_GATED true
      if 56 ≤ k && k < 60 then xgFollow s else s
    else s

/-- The requested gate of domain `k` stays open (R82). -/
def domGateDenied (s : State) (k : Nat) : State :=
    if clkUp s && flag s (cdPage k) CD_STAT_QUIESCING then
      let s := putFlag (putFlag s (cdPage k) CD_STAT_QUIESCING false) (cdPage k) CD_STAT_GATE_DENIED true
      let s := evtPulse (putFlag s (cdPage k) CD_GATE_GATE_REQ false) (cdPage k) 2
      raiseFrom s (cdPage k) 0 0x0106 (0x3100 + k)
    else s

/-- GATE_REOPEN (R83). -/
def execGateReopen (k : Nat) (s : State) : Host.Outcome State Fault Refusal :=
  .next (if clkUp s then cdReopen s k else s)

/-- CD_FREQ_UPDATE (R72). -/
def execCdFreqUpdate (k khz : Nat) (toggled : Bool) (s : State) : Host.Outcome State Fault Refusal :=
  .next <|
    if k < 64 && (clkUp s || k = 0 || k = 60) then
      let s := putFlag (putF s (cdPage k) CD_FREQ_FREQ khz) (cdPage k) CD_STAT_RUNNING toggled
      if 56 ≤ k && k < 60 then xgFollow s else s
    else s

end Sys2Proof.Machine
end

