-- ==== Sys2Proof/Machine/MemOps.lean ====
section
/-! DEFINITION. Bank and deep memories: shapes, words, queues and their configuration (08_memories.md R194 to R214). -/

namespace Sys2Proof.Machine

/-- The memory has received contents since the load began: bank memory `k`, or deep memory `k` - 65,536 (R201). -/
def filled (s : State) (die k : Nat) : Bool := s.load.bankInit.contains (1048576 * die + k)
@[inherit_doc filled] def filledAdd (s : State) (die k : Nat) : State :=
  { s with load := { s.load with bankInit := setAdd s.load.bankInit (1048576 * die + k) } }

/-! ### Bank memories -/

/-- Field of `wid` bits at `lsb` of word `w` of BANK frame `b` (R200). -/
def bankCfg (s : State) (die b w lsb wid : Nat) : Nat := frGet (cfgGet s die (0x53000 + b)) (32 * w + lsb) wid

/-- Bits of a word and words by WIDTH (R194). -/
def shapeOf (width : Nat) : Nat × Nat :=
  match width with
  | 1 => (36, 2048) | 2 => (18, 4096) | 3 => (9, 8192) | 4 => (4, 16384) | 5 => (2, 32768) | 6 => (1, 65536)
  | _ => (72, 1024)

/-- WIDTH, and ECC where it applies (R196). -/
def bankWidth (s : State) (die b : Nat) : Nat := bankCfg s die b 0 0 3
@[inherit_doc bankWidth] def bankEcc (s : State) (die b : Nat) : Bool := bankWidth s die b = 0 && bankCfg s die b 0 3 1 = 1

/-- Row and first column of word `a` of shape `w` (R195). -/
def wordAt (w a : Nat) : Nat × Nat :=
  if 9 ≤ w then (a / (72 / w), w * (a % (72 / w)))
  else (w * a / 64, 9 * (w * a % 64 / 8) + w * a % 8)

/-- Bits of the word that write enables `we` cover (R194 to R196). -/
def weMask (w : Nat) (ecc : Bool) (we : Nat) : Nat :=
  if ecc || w < 9 then (if nBit we 0 then 2 ^ w - 1 else 0)
  else ((List.range (w / 9)).filter (nBit we)).foldl (fun m j => m + 511 * 2 ^ (9 * j)) 0

/-- Data bits and check bits of a 72-bit word with ECC (R196). -/
def eccSplit (v : Nat) : Nat × Nat :=
  (ofBits ((List.range 64).filter fun e => nBit v (9 * (e / 8) + e % 8)), ofBits ((List.range 8).filter fun c => nBit v (9 * c + 8)))
/-- The 72-bit word of data bits with their check bits. -/
def eccJoin (d : Nat) : Nat :=
  let c := eccCheck (d % 2 ^ 64)
  ofBits (((List.range 64).filter (nBit d)).map fun e => 9 * (e / 8) + e % 8) +
    ofBits (((List.range 8).filter (nBit c)).map fun i => 9 * i + 8)

/-- What a port delivers for a stored word: 0 clean, 1 corrected, 2 uncorrectable (R196). -/
def eccDeliver (ecc : Bool) (v : Nat) : Nat × Nat :=
  if !ecc then (v, 0)
  else
    match eccDecode (eccSplit v).1 (eccSplit v).2 with
    | .clean => (v, 0)
    | .corrected d => (eccJoin d, 1)
    | .uncorrectable => (v, 2)

/-- Word of the array. -/
def rowWord (x : Bank) (w a : Nat) : Nat :=
  let p := wordAt w a
  nGet (tabOr 0 x.rows p.1).toNat p.2 w
/-- The bank with the bits `mask` of a word set from `v`. -/
def rowPut (x : Bank) (w a mask v : Nat) : Bank :=
  let p := wordAt w a
  let old := tabOr 0 x.rows p.1
  let m : BitVec 72 := BitVec.ofNat 72 (mask * 2 ^ p.2)
  { x with rows := tabPutD 0 x.rows p.1 ((old &&& ~~~m) ||| (BitVec.ofNat 72 (v % 2 ^ w * 2 ^ p.2) &&& m)) }

/-- An error of a read on port A or B of a bank memory is counted, recorded and fires (R196, R215). -/
def bankErr (s : State) (die b : Nat) (portB : Bool) (err addr : Nat) : State :=
  if err = 0 then s
  else
    let p := bgPage die (b / 32)
    let s := countUp s p (if err = 1 then BG_SBE_CNT_COUNT else BG_DBE_CNT_COUNT) 1
    let s := if flag s p BG_ERR_FIRST_VALID then s
      else
        let s := putFlag (putFlag s p BG_ERR_FIRST_VALID true) p BG_ERR_FIRST_DBE (err = 2)
        putF (putF (putFlag s p BG_ERR_FIRST_PORT portB) p BG_ERR_FIRST_MEM (b % 32)) p BG_ERR_FIRST_ADDR addr
    evtPulse s p (err - 1)

/-! ### Queues of bank memories -/

/-- QMODE in effect: single-clock with two clocks acts as dual-clock (R202); token mode and RAM as they are. -/
def soloMode (s : State) (die b : Nat) : Nat :=
  let q := bankCfg s die b 0 4 2
  if q = 1 && bankCfg s die b 0 14 6 != bankCfg s die b 0 20 6 then 2 else q

/-- CASCADE role. -/
def role (s : State) (die b : Nat) : Nat := bankCfg s die b 0 6 2

/-- First stage below: down through middle stages to a head, in the same column. -/
def cascHead (s : State) (die b fuel : Nat) : Option Nat :=
  match fuel with
  | 0 => none
  | f + 1 =>
    if role s die b = 1 then some b
    else if b % 32 = 0 || role s die b = 0 then none
    else if role s die (b - 1) = 1 || role s die (b - 1) = 2 then cascHead s die (b - 1) f else none

/-- Last stage above: up through middle stages to a tail. -/
def cascTail (s : State) (die b fuel : Nat) : Option Nat :=
  match fuel with
  | 0 => none
  | f + 1 =>
    if role s die b = 3 then some b
    else if b % 32 = 31 || role s die b = 0 then none
    else if role s die (b + 1) = 2 || role s die (b + 1) = 3 then cascTail s die (b + 1) f else none

/-- Head and tail of the cascade a memory is part of; none: it acts alone (R205). -/
def cascade (s : State) (die b : Nat) : Option (Nat × Nat) :=
  match cascHead s die b 32, cascTail s die b 32 with
  | some h, some t =>
    let ms := (List.range (t + 1 - h)).map (· + h)
    let q := bankCfg s die h 0 4 2
    if h < t && (q = 1 || q = 2) &&
        ms.all (fun m => bankWidth s die m = bankWidth s die h && bankCfg s die m 0 4 2 = q)
      then some (h, t) else none
  | _, _ => none

/-- A cascade role that is not honoured: bit of BG_CASC_ERR (R205). -/
def cascErr (s : State) (die b : Nat) : Bool := role s die b != 0 && (cascade s die b).isNone

/-- Head and tail of the queue a memory belongs to. -/
def queueEnds (s : State) (die b : Nat) : Nat × Nat := (cascade s die b).getD (b, b)

/-- The two sides of the queue run on one clock. -/
def oneClock (s : State) (die b : Nat) : Bool :=
  let e := queueEnds s die b
  let q := bankCfg s die e.1 0 4 2
  q != 2 && bankCfg s die e.1 0 14 6 == bankCfg s die e.2 0 20 6

/-- The memory is a queue: FIFO modes. -/
def isFifo (s : State) (die b : Nat) : Bool := bankCfg s die b 0 4 2 = 1 || bankCfg s die b 0 4 2 = 2

/-- Entries of the queue between two stages. -/
def queueOcc (s : State) (die : Nat) (e : Nat × Nat) : Nat :=
  ((List.range (e.2 + 1 - e.1)).map fun i => (bankMem s die (e.1 + i)).q.length).sum

/-- Capacity of the queue (R202, R205). -/
def queueCap (s : State) (die : Nat) (e : Nat × Nat) : Nat := (e.2 + 1 - e.1) * (shapeOf (bankWidth s die e.1)).2

/-- Write-side view of a queue (R204). -/
def writeView (s : State) (die : Nat) (e : Nat × Nat) : Nat := queueOcc s die e + (bankMem s die e.2).unseenR
/-- Entries of the last stage the read side sees; EMPTY where there are none. -/
def headView (s : State) (die : Nat) (e : Nat × Nat) : Nat := (bankMem s die e.2).q.length - (bankMem s die e.2).unseenW
/-- Read-side view of a queue (R204): what the last stage does not show yet is not counted. -/
def readView (s : State) (die : Nat) (e : Nat × Nat) : Nat := queueOcc s die e - (bankMem s die e.2).unseenW

/-- FULL, AFULL, EMPTY and AEMPTY from the two views, the capacity and the thresholds (R204). -/
def queueFlags (wr rd cap af ae : Nat) : Nat :=
  ofBool (wr = cap) * 8 + ofBool (min af cap ≤ wr) * 4 + ofBool (rd = 0) * 2 + ofBool (rd ≤ min ae cap)

/-- The pool's ceiling and start value (R200, R206). -/
def tokMax (s : State) (die b : Nat) : Nat := bankCfg s die b 3 16 16
@[inherit_doc tokMax] def tokInit (s : State) (die b : Nat) : Nat := min (bankCfg s die b 3 0 16) (tokMax s die b)

/-- A push or give is accepted or a pop or take delivered: the counter of the side (R207). -/
def queueCount (s : State) (die b : Nat) (f : FieldRef) : State := countWrap s (bgPage die (b / 32)) (f.nth (b % 32))

/-- A rejected push or give (R203, R206). -/
def queueReject (s : State) (die b : Nat) : State :=
  evtPulse (countUp s (bgPage die (b / 32)) BG_WREJ_CNT_COUNT 1) (bgPage die (b / 32)) 2

/-- An entry enters stage `b`; the last stage of a dual-clock queue shows it later. -/
def stagePut (s : State) (die b : Nat) (v : BitVec 72) : State :=
  let x := bankMem s die b
  let e := queueEnds s die b
  let late := b = e.2 && !oneClock s die b
  setBank s die b { x with q := x.q ++ [v], unseenW := x.unseenW + ofBool late }

/-- A push of the queue with ends `e` (R203). -/
def queuePush (s : State) (die : Nat) (e : Nat × Nat) (din : BitVec 72) : State :=
  let w := (shapeOf (bankWidth s die e.1)).1
  let v := din.toNat % 2 ^ w
  let v := if bankEcc s die e.1 then eccJoin (eccSplit v).1 else v
  queueCount (stagePut s die e.1 (BitVec.ofNat 72 v)) die e.1 BG_WACC_COUNT

/-- A pop of the queue with ends `e`: its head entry, which stood on DO_B, is delivered and removed (R203). -/
def queuePop (s : State) (die : Nat) (e : Nat × Nat) : State :=
  let x := bankMem s die e.2
  match x.q with
  | [] => s
  | v :: rest =>
    let d := eccDeliver (bankEcc s die e.2) v.toNat
    let late := ofBool (!oneClock s die e.2)
    let s := setBank s die e.2 { x with q := rest, doB := BitVec.ofNat 72 d.1, errB := d.2, unseenR := x.unseenR + late }
    queueCount (bankErr s die e.2 true d.2 0) die e.2 BG_RDEL_COUNT

/-- Stage `b` of a queue is emptied: its entries are discarded and counted (R207, R214). -/
def bankEmptyOne (s : State) (die b : Nat) : State :=
  let p := bgPage die (b / 32)
  let x := bankMem s die b
  let s := putF s p BG_DISC_COUNT ((getF s p BG_DISC_COUNT + x.q.length + x.tok) % 2 ^ 32)
  setBank s die b { x with q := [], tok := 0, unseenW := 0, unseenR := 0 }

/-- The queue a memory belongs to is emptied as a whole; WACC at its head and RDEL at its tail are set equal, to a value the
rule does not name (R207, R214). -/
def bankEmpty (s : State) (die b : Nat) : State :=
  let e := queueEnds s die b
  let stages := (List.range (e.2 + 1 - e.1)).map (· + e.1)
  if stages.all fun i => (bankMem s die i).q = [] && bankCfg s die i 0 4 2 = 0 then s
  else
    let (v, s) := freeVal (stages.foldl (fun s i => bankEmptyOne s die i) s) 32
    let p := bgPage die (b / 32)
    putF (putF s p (BG_WACC_COUNT.nth (e.1 % 32)) v) p (BG_RDEL_COUNT.nth (e.2 % 32)) v

/-- The pool of a memory in token mode holds its start value (R201, R206). -/
def bankPool (s : State) (die b : Nat) : State :=
  if bankCfg s die b 0 4 2 = 3 then setBank s die b { bankMem s die b with tok := tokInit s die b, unseenW := 0, unseenR := 0 }
  else s

/-- BANK frame `b` has been written: where its content changed, the queue it was part of empties, and that which it is part of
now; the pool of the new configuration holds its start value (R214). -/
def bankRewrite (s : State) (die b : Nat) (f : Frame) : State :=
  if cfgGet s die (0x53000 + b) = f then cfgPut s die (0x53000 + b) f
  else
    let s := bankEmpty s die b
    bankPool (bankEmpty (cfgPut s die (0x53000 + b) f) die b) die b

/-- A target 0x02 frame `n` is written (R201, R214). -/
def bankFill (s : State) (die n : Nat) (f : Frame) : State :=
  let b := n / 36
  let s := bankPool (bankEmpty s die b) die b
  let x := bankMem s die b
  let lo := 2048 * (n % 36)
  let rows := (List.range 30).map (· + lo / 72)
  let put := fun (t : Tab (BitVec 72)) r =>
    (List.range 72).foldl (fun (t : Tab (BitVec 72)) c =>
      let p := 72 * r + c
      if p < lo || lo + 2048 ≤ p || 1024 ≤ r then t
      else
        let o := tabOr 0 t r
        let m := BitVec.ofNat 72 (2 ^ c)
        tabPutD 0 t r (if f.getLsbD (p - lo) then o ||| m else o &&& ~~~m)) t
  filledAdd (setBank s die b { x with rows := rows.foldl put x.rows }) die b

/-- The check bits of a memory that received contents are recomputed (R201). -/
def bankRecheck (s : State) (die b : Nat) : State :=
  let x := bankMem s die b
  if filled s die b && bankEcc s die b then
    let fix := fun (e : Nat × BitVec 72) => (e.1, BitVec.ofNat 72 (eccJoin (eccSplit e.2.toNat).1))
    setBank s die b { x with rows := (x.rows.map fix).filter fun e => e.2 != 0 }
  else s

/-! ### Outputs of a bank memory (R197) -/

/-- FULL, AFULL, EMPTY and AEMPTY of bank memory `b` as one number, 8 to 1: FULL and AFULL at the head of a cascade, EMPTY and
AEMPTY at its tail; EMPTY goes with the entries its last stage shows (R204, R205). -/
def bankFlags (s : State) (die b : Nat) : Nat :=
  let x := bankMem s die b
  if soloMode s die b = 3 then
    queueFlags (x.tok + x.unseenR) (x.tok - x.unseenW) (tokMax s die b) (bankCfg s die b 1 0 22) (bankCfg s die b 2 0 22)
  else if isFifo s die b then
    let e := queueEnds s die b
    let f := queueFlags (writeView s die e) (readView s die e) (queueCap s die e) (bankCfg s die e.1 1 0 22) (bankCfg s die e.2 2 0 22)
    (if e.1 = b then f / 4 % 4 * 4 else 0) + (if e.2 = b then ofBool (headView s die e = 0) * 2 + f % 2 else 0)
  else 0

/-- DO_A (`false`) or DO_B, with what SBE and DBE say (R197, R203). In token mode 0; in FIFO mode DO_B presents the head entry. -/
def bankDo (s : State) (die b : Nat) (portB : Bool) : BitVec 72 × Nat :=
  let x := bankMem s die b
  if soloMode s die b = 3 then (0, 0)
  else if portB && isFifo s die b && headView s die (b, b) != 0 then
    let d := eccDeliver (bankEcc s die b) (x.q.headD 0).toNat
    (BitVec.ofNat 72 d.1, d.2)
  else if portB then (x.doB, x.errB) else (x.doA, if isFifo s die b then 0 else x.errA)

/-- FLAG_A and FLAG_B (R197). -/
def bankFlagA (s : State) (die b : Nat) : Nat :=
  if isFifo s die b then ofBits ((if nBit (bankFlags s die b) 3 then [0] else []) ++ (if nBit (bankFlags s die b) 2 then [1] else []))
  else 0
@[inherit_doc bankFlagA] def bankFlagB (s : State) (die b : Nat) : Nat :=
  let f := bankFlags s die b
  if soloMode s die b = 3 then ofBool (bankMem s die b).grant + 2 * ofBool (nBit f 1)
  else if isFifo s die b then ofBool (nBit f 1) + 2 * ofBool (nBit f 0)
  else 0

/-- OCC: what the read side sees of the queue or the pool (R197, R204). -/
def bankOcc (s : State) (die b : Nat) : Nat :=
  let x := bankMem s die b
  if soloMode s die b = 3 then x.tok - x.unseenW
  else if isFifo s die b then (let e := queueEnds s die b; if e.2 = b then readView s die e else x.q.length)
  else 0

/-- Output signals of a bank memory as one number: DO_A, DO_B, FLAG_A, FLAG_B, OCC, SBE_A, DBE_A, SBE_B, DBE_B from bit 0. -/
def bankOut (s : State) (die b : Nat) : Nat :=
  let a := bankDo s die b false
  let c := bankDo s die b true
  a.1.toNat + c.1.toNat * 2 ^ 72 + bankFlagA s die b * 2 ^ 144 + bankFlagB s die b * 2 ^ 148 + bankOcc s die b % 2 ^ 22 * 2 ^ 152
    + ofBool (a.2 = 1) * 2 ^ 174 + ofBool (a.2 = 2) * 2 ^ 175 + ofBool (c.2 = 1) * 2 ^ 176 + ofBool (c.2 = 2) * 2 ^ 177

/-! ### Deep memories -/

/-- Field of DEEP frame `j` (R200). -/
def deepCfg (s : State) (die j w lsb wid : Nat) : Nat := frGet (cfgGet s die (0x53800 + j)) (32 * w + lsb) wid
/-- FIFO mode, and the sides given to the NoC. -/
def deepFifo (s : State) (die j : Nat) : Bool := deepCfg s die j 0 0 1 = 1
@[inherit_doc deepFifo] def deepPushNoc (s : State) (die j : Nat) : Bool := deepCfg s die j 0 1 1 = 1
@[inherit_doc deepFifo] def deepPopNoc (s : State) (die j : Nat) : Bool := deepCfg s die j 0 2 1 = 1

/-- The two sides of a deep queue are on different clocks: one on the fabric, one on the NoC. -/
def deepCrossed (s : State) (die j : Nat) : Bool := deepPushNoc s die j != deepPopNoc s die j

/-- A word of a deep memory written; a corrected word waiting for its write back is dropped (R212). -/
def deepPut (s : State) (die j w : Nat) (v : BitVec 72) : State :=
  let x := deepMem s die j
  setDeep s die j { x with words := tabPutD 0 x.words w v, wb := x.wb.filter fun e => e.1 != w }

/-- A read of word `w` met `err` (1 corrected, 2 uncorrectable): counters, first record, event; `deg`: the DEGRADE report of
an uncorrectable read; `src`: 0 fabric, 1 NoC, 2 patrol (R212, 20_errors.md R512). -/
def deepErr (s : State) (die j w err src : Nat) (deg : Bool) : State :=
  if err = 0 then s
  else
    let p := dmPage die j
    let s := countUp s p (if err = 1 then DM_SBE_CNT_COUNT else DM_DBE_CNT_COUNT) 1
    let s := if flag s p DM_ERR_FIRST_VALID then s
      else
        let s := putFlag (putFlag s p DM_ERR_FIRST_VALID true) p DM_ERR_FIRST_DBE (err = 2)
        putF (putF s p DM_ERR_FIRST_SRC src) p DM_ERR_FIRST_WORD w
    let s := evtPulse s p (err - 1)
    if err = 2 && deg then raiseFrom s p 1 0x0501 (w * 32768 + 32 * j + src) else s

/-- Word `w` read by requester `src`: data, whether it is uncorrectable, and the state after; a corrected word waits for its
write back where WB_EN is 1 (R212). -/
def deepRead (s : State) (die j w src : Nat) : State × Nat × Bool :=
  let r := eccRead (tabOr 0 (deepMem s die j).words w)
  let s := deepErr s die j w r.2 src true
  let s :=
    if r.2 = 1 && flag s (dmPage die j) DM_CTRL_WB_EN then
      let x := deepMem s die j
      setDeep s die j { x with wb := (x.wb.filter fun e => e.1 != w) ++ [(w, eccWord r.1)] }
    else s
  (s, r.1, r.2 == 2)

/-- Words `w` to `w + n - 1` read in turn: data, latest word first, and whether one was uncorrectable. -/
def deepReads (s : State) (die j src w n : Nat) : State × List Nat × Bool :=
  (List.range n).foldl (fun (a : State × List Nat × Bool) i =>
    let r := deepRead a.1 die j (w + i) src
    (r.1, a.2.1 ++ [r.2.1], a.2.2 || r.2.2)) (s, [], false)

/-- Bytes `bs` at byte `off` of word data `d`. -/
def mergeBytes (d off : Nat) (bs : List Byte) : Nat :=
  ofBytes ((List.range 8).map fun i =>
    if off ≤ i && decide (i < off + bs.length) then bs.getD (i - off) 0 else BitVec.ofNat 8 (d / 256 ^ i))

/-- The queue of a deep memory counts an entry in or out (R216). -/
def deepCount (s : State) (die j : Nat) (f : FieldRef) : State := countWrap s (dmPage die j) f

/-- An entry joins the queue. -/
def deepPush (s : State) (die j : Nat) (d : Nat) : State :=
  let x := deepMem s die j
  let late := ofBool (deepCrossed s die j)
  deepCount (setDeep s die j { x with q := x.q ++ [eccWord d], unseenW := x.unseenW + late }) die j DM_WACC_COUNT

/-- The head entry leaves the queue: its data, and whether it is uncorrectable. -/
def deepPop (s : State) (die j src : Nat) : State × Nat × Bool :=
  let x := deepMem s die j
  match x.q with
  | [] => (s, 0, false)
  | v :: rest =>
    let r := eccRead v
    let late := ofBool (deepCrossed s die j)
    let s := setDeep s die j { x with q := rest, unseenR := x.unseenR + late }
    let (w, s) := if r.2 = 0 then (0, s) else freeVal s 17
    let s := deepErr s die j w r.2 src true
    (deepCount s die j DM_RDEL_COUNT, r.1, r.2 == 2)

/-- Views of the two sides of a deep queue (R204, R209). -/
def deepWriteView (s : State) (die j : Nat) : Nat := (deepMem s die j).q.length + (deepMem s die j).unseenR
@[inherit_doc deepWriteView] def deepReadView (s : State) (die j : Nat) : Nat :=
  (deepMem s die j).q.length - (deepMem s die j).unseenW

/-- Outputs of the fabric port of a deep memory (R209): RSP_VALID, RSP_ERR and RSP_DATA in RAM mode; in FIFO mode DO with the
head entry, and FULL, AFULL, EMPTY and AEMPTY. The signals of a side given to the NoC are 0. -/
def deepOut (s : State) (die j : Nat) : Bool × Bool × BitVec 64 × Nat :=
  let x := deepMem s die j
  if !deepFifo s die j then (x.rspValid, x.rspErr, x.rspData, 0)
  else
    let f := queueFlags (deepWriteView s die j) (deepReadView s die j) 131072 (deepCfg s die j 1 0 18) (deepCfg s die j 2 0 18)
    let head := if deepPopNoc s die j then 0 else if deepReadView s die j = 0 then x.rspData
      else BitVec.ofNat 64 (eccRead (x.q.headD 0)).1
    (false, !deepPopNoc s die j && deepReadView s die j != 0 && (eccRead (x.q.headD 0)).2 == 2, head,
      (if deepPushNoc s die j then 0 else f / 4 % 4 * 4) + (if deepPopNoc s die j then 0 else f % 4))

/-- The queue of a deep memory is emptied (R214). -/
def deepEmpty (s : State) (die j : Nat) : State :=
  let p := dmPage die j
  let x := deepMem s die j
  if x.q = [] && !deepFifo s die j then s
  else
    let (v, s) := freeVal s 32
    let s := putF s p DM_DISC_COUNT ((getF s p DM_DISC_COUNT + x.q.length) % 2 ^ 32)
    let s := putF (putF s p DM_WACC_COUNT v) p DM_RDEL_COUNT v
    setDeep s die j { x with q := [], unseenW := 0, unseenR := 0 }

/-- DEEP frame `j` is written (R214). -/
def deepRewrite (s : State) (die j : Nat) (f : Frame) : State :=
  let s := if cfgGet s die (0x53800 + j) = f then s else deepEmpty s die j
  cfgPut s die (0x53800 + j) f

/-- A target 0x03 frame `n` is written (R201, R214). -/
def deepFill (s : State) (die n : Nat) (f : Frame) : State :=
  let j := n / 4096
  let s := filledAdd (deepEmpty s die j) die (65536 + j)
  (List.range 32).foldl (fun s k => deepPut s die j (32 * (n % 4096) + k) (eccWord (frGet f (64 * k) 64))) s

end Sys2Proof.Machine
end

