-- ==== Sys2Proof/Machine/FabEval.lean ====
section
/-! DEFINITION. The logic of the fabric at work: what tile multiplexers, wires and cells carry, and what a clock edge does
(07_fabric.md R157 to R166, R174 to R183; 09_partitions.md R219; log 89). -/

namespace Sys2Proof.Machine

/-! ### Wires and the tiles they run over (R163, R164) -/

/-- Rows and the logic column west of hard block `k`, where it joins the routing (R156, R189; 09_partitions.md R218). -/
def hardAt (b : HardBlock) (k c t : Nat) : Bool :=
  let inRows := fun (r : Nat × Nat) => r.1 ≤ t && decide (t < r.1 + r.2)
  match b with
  | .bank => c = bankCol k && inRows (bankRows k)
  | .engine => c = engCol k && inRows (engRows k)
  | .deep => c = deepCol k && inRows (deepRows k)
  | .port => c = portCol k && t = portRow k
  | .icp => c = 374 && 400 ≤ t && decide (t < 432)
  | .pin => true

/-- Tile at the end of a hop of length 2^l from (c, t), clipped at the edge of the die (R163). -/
def hopEnd (c t l dir : Nat) : Nat × Nat :=
  let n := 2 ^ l
  match dir with
  | 0 => (c, min 479 (t + n))
  | 1 => (min 749 (c + n), t)
  | 2 => (c, t - n)
  | _ => (c - n, t)

/-- The input multiplexers of tile (c, t) can read a wire: it runs over the tile (R163, R164, R179, R190). A hop runs over the
tiles from its origin to its end (log 89). -/
def wireOver (die c t : Nat) (w : Wire) : Bool :=
  match w with
  | .out d c' t' o => d = die && c' = c && t' = t && decide (o < 33)
  | .hop d c' t' l dir i =>
    let e := hopEnd c' t' l dir
    d = die && decide (l < 3) && decide (dir < 4) && decide (i < 8) && min c' e.1 ≤ c && decide (c ≤ max c' e.1)
      && min t' e.2 ≤ t && decide (t ≤ max t' e.2) && (c, t) != (c', t')
  | .hspan d r k g => d = die && r = t && decide (k < 64) && 16 * g ≤ c && decide (c ≤ 16 * g + 15)
  | .vspan d c' k g => d = die && c' = c && decide (k < 64) && 16 * g ≤ t && decide (t ≤ 16 * g + 15)
  | .hlong d r k => d = die && r = t && decide (k < 8)
  | .vlong d c' k => d = die && c' = c && decide (k < 8)
  | .xin d side i => d = die && decide (side < 2) && decide (i < 16384) && xgTile die side i == (c, t)
  | .evi d i => d = die && decide (i < 64) && c = 375 && t = 224 + i
  | .capDone d => d = die && c = 375 && t = 305
  | .hard d c' t' b k _ => d = die && c' = c && t' = t && hardAt b k c t

/-- Enable field of a span or long span, with its number of drivers (R165, R170). -/
def enableField (s : State) (w : Wire) : Nat × Nat :=
  let fld := fun (d base n i wid : Nat) => frGet (cfgSeen s d (base + i / n)) (wid * (i % n)) wid
  match w with
  | .hspan d r k g => (4, fld d 0x50000 512 (3008 * r + 47 * k + g) 4)
  | .vspan d c k g => (4, fld d 0x51000 512 (1920 * c + 30 * k + g) 4)
  | .hlong d r k => (30, fld d 0x52000 64 (8 * r + k) 32)
  | .vlong d c k => (30, fld d 0x52100 64 (8 * c + k) 32)
  | _ => (0, 0)

/-- The driver that a span or long span takes its value from; none: the keeper holds it at 0 (R165, R166). -/
def enabledDriver (s : State) (w : Wire) : Option Nat :=
  let f := enableField s w
  driverOf f.1 f.2

/-- Die, tile and multiplexer of driver `i` of a wire (R163, R164; log 89). Multiplexers of a tile are numbered: 7k + i input i
of cell k, its bypass last; 56 and 57 SR, 58 to 61 CE; 62 + 8 (4l + d) + i hops; from 158 on tracks of horizontal and vertical
spans, from 286 on those of long spans; 302 + 256 side + w outgoing crossing wires. -/
def driverMux (w : Wire) (i : Nat) : Nat × Nat × Nat × Nat :=
  match w with
  | .hop d c t l dir k => (d, c, t, 62 + 8 * (4 * l + dir) + k)
  | .hspan d r k g => (d, 16 * g + 4 * i, r, 158 + k)
  | .vspan d c k g => (d, c, 16 * g + 4 * i, 222 + k)
  | .hlong d r k => (d, 25 * i, r, 286 + k)
  | .vlong d c k => (d, c, 16 * i, 294 + k)
  | _ => (0, 0, 0, 0)

/-- Die and column of what drives a wire: a cell, or the enabled driver. -/
def wireSource (s : State) (w : Wire) : Option (Nat × Nat) :=
  match w with
  | .out d c _ _ => some (d, c)
  | .hop d c _ _ _ _ => some (d, c)
  | .hspan .. | .vspan .. | .hlong .. | .vlong .. =>
    (enabledDriver s w).map fun i => ((driverMux w i).1, (driverMux w i).2.1)
  | .hard d c _ _ _ _ => some (d, c)
  | _ => none

/-- The partition that drives a wire is fenced (09_partitions.md R219, R221). -/
def wireFenced (s : State) (w : Wire) : Bool :=
  (wireSource s w).any fun dc =>
    match ownerAt s dc.1 dc.2 with
    | some e => partStateOn s dc.1 e.no != pLive
    | none => false

/-! ### Multiplexers, cells and wires -/

/-- The output of tile multiplexer `m` of tile (c, t): the wire it selects, or FVAL where that wire's partition is fenced
(R167; 09_partitions.md R219). -/
def muxVal (s : State) (val : Wire → Bool) (die c t m : Nat) : Bool :=
  let sel := tileField s die c t 800 800
  let w := Config.muxSource m sel die c t
  if !wireOver die c t w then false
  else
    match Config.muxFence m sel with
    | some v => if wireFenced s w then v else val w
    | none => val w

/-- Inputs I0 to I5 of a cell. -/
def cellInputs (s : State) (val : Wire → Bool) (die c t k : Nat) : Nat :=
  ofBits ((List.range 6).filter fun i => muxVal s val die c t (7 * k + i))

/-- Cell mode field of cell `k` (R159). -/
def cellMode (s : State) (die c t k : Nat) : Nat := tileField s die c t (512 + 32 * k) 32

/-- FOUT and HOUT of cell `k` (R157). -/
def cellFH (s : State) (val : Wire → Bool) (die c t k : Nat) : Bool × Bool :=
  cellOut (tileField s die c t (64 * k) 64) (cellMode s die c t k % 4) (cellInputs s val die c t k)

/-- Carry into cell 0: the tile below, a constant, or BYP (R162). -/
def chainStart (s : State) (val : Wire → Bool) (die c t : Nat) : Bool :=
  carryIn (tileField s die c t 782 2) (if t = 0 then false else val (.out die c (t - 1) 32)) (muxVal s val die c t 6)

/-- Carry into cell `k`: CO of the cell below in the tile (R161, R162). -/
def chainIn (s : State) (val : Wire → Bool) (die c t k : Nat) : Bool :=
  match k with
  | 0 => chainStart s val die c t
  | j + 1 =>
    let fh := cellFH s val die c t j
    carryOut (nGet (cellMode s die c t j) 2 2) fh.1 fh.2 (chainIn s val die c t j)

/-- Levels of SR0 and SR1, and of CE0 to CE3, of a tile. -/
def tileSr (s : State) (val : Wire → Bool) (die c t : Nat) : Nat :=
  ofBits ((List.range 2).filter fun i => muxVal s val die c t (56 + i))
@[inherit_doc tileSr] def tileCe (s : State) (val : Wire → Bool) (die c t : Nat) : Nat :=
  ofBits ((List.range 4).filter fun i => muxVal s val die c t (58 + i))

/-- Stored value of flip-flop `f` of tile (c, t). -/
def ffBit (s : State) (die c t f : Nat) : Bool := (ffGet s die (4 * c + f / 4)).getLsbD (4 * t + f % 4)

/-- Extent that column `c` of a die belongs to: its partition, or 64 for the static region. -/
def extentAt (s : State) (die c : Nat) : Nat := ((ownerAt s die c).map (·.no)).getD 64

/-- The extent at column `c` is released, or its release runs (09_partitions.md R224). -/
def releaseOn (s : State) (die c : Nat) : Bool := !heldAt s die c || s.part.releasing.contains (extentAt s die c)

/-- A flip-flop of column `c` on network `net` is held in reset (R176, R177): until the third rising edge after the release has
passed. -/
def ffHeld (s : State) (die c net : Nat) : Bool :=
  !releaseOn s die c || decide (tabOr 0 s.fab.relEdges (relKey die (extentAt s die c) net) < 3)

/-- The 11-bit field of flip-flop `f` (R158). -/
def ffField (s : State) (die c t f : Nat) : Nat := tileField s die c t (ffBase f) 11

/-- Q of a flip-flop: what it holds, or what an asynchronous set/reset forces (R159); a held one drives what it holds (R176). -/
def ffQ (s : State) (val : Wire → Bool) (die c t f : Nat) : Bool :=
  let q := ffBit s die c t f
  if nGet (ffField s die c t f) 3 2 != 2 then q
  else
    match ffNet s die c t f with
    | none => if releaseOn s die c then ffAsync (ffField s die c t f) (tileSr s val die c t) q else q
    | some n => if ffHeld s die c n then q else ffAsync (ffField s die c t f) (tileSr s val die c t) q

/-- Output `o` of a tile (R160). -/
def tileOut (s : State) (val : Wire → Bool) (die c t o : Nat) : Bool :=
  let k := o / 4
  if o = 32 then chainIn s val die c t 8
  else
    match o % 4 with
    | 0 => cellFirst (nBit (cellMode s die c t k) 4) (cellFH s val die c t k).1 (chainIn s val die c t k)
    | 1 => (cellFH s val die c t k).2
    | 2 => ffQ s val die c t (2 * k)
    | _ => ffQ s val die c t (2 * k + 1)

/-- A hard block's signal: outputs of bank memories (178 signals, `bankOut`) and of deep memories (RSP_VALID, RSP_ERR, RSP_DATA
or DO, then the flags), other signals as the design's surroundings have them. -/
def hardVal (s : State) (w : Wire) : Bool :=
  match w with
  | .hard d _ _ .bank k i => nBit (bankOut s d k) i
  | .hard d _ _ .deep j i =>
    let o := deepOut s d j
    if i = 0 then o.1 else if i = 1 then o.2.1 else if i < 66 then o.2.2.1.getLsbD (i - 2) else nBit o.2.2.2 (i - 66)
  | _ => Config.hardLevel s.freeIdx w

/-- What a wire carries, given what other wires carry (R160, R163 to R166, R181, R190). -/
def wireStep (s : State) (val : Wire → Bool) (w : Wire) : Bool :=
  match w with
  | .out d c t o => tileOut s val d c t o
  | .hop .. =>
    let m := driverMux w 0
    muxVal s val m.1 m.2.1 m.2.2.1 m.2.2.2
  | .hspan .. | .vspan .. | .hlong .. | .vlong .. =>
    match enabledDriver s w with
    | none => false
    | some i =>
      let m := driverMux w i
      muxVal s val m.1 m.2.1 m.2.2.1 m.2.2.2
  | .xin d side i => xgIn s d side i
  | .evi d i => s.hub.eviLevel.contains (64 * d + i)
  | .capDone d => flag s (cfPage d) CF_CAP_STAT_DONE
  | .hard .. => hardVal s w

/-- What a wire carries along paths of at most `fuel` wires; a longer path is a combinational loop. -/
def wireVal (s : State) (fuel : Nat) (w : Wire) : Bool :=
  match fuel with
  | 0 => Config.loopLevel s.freeIdx w
  | n + 1 => wireStep s (wireVal s n) w

/-- Wires a path without a loop can take: more than a device has. -/
def pathMax : Nat := 2 ^ 30

/-- What a wire carries. -/
def level (s : State) (w : Wire) : Bool := wireVal s pathMax w

/-! ### Clock edges (R158, R159, R174, R176, R177) -/

/-- Columns of a die that are not all zero: others keep their flip-flops at 0. -/
def liveCols (s : State) (die : Nat) : List Nat :=
  (List.range 750).filter fun c =>
    s.load.cfg.any (fun e => cfgKey die (400 * c) ≤ e.1 && decide (e.1 < cfgKey die (400 * c + 400))) ||
    s.fab.ff.any (fun e => capKey die (4 * c) ≤ e.1 && decide (e.1 < capKey die (4 * c + 4)))

/-- What stands at column `c` has its supply: the die joined, the band not dropped (18_power.md R476). -/
def powered (s : State) (die c : Nat) : Bool :=
  !isolated s die &&
    match tabGet s.pow.doms (64 * die + bandOf c) with
    | none => true
    | some d => d.state != 2 && d.state != 3

/-- The tile clock of a flip-flop is inverted: CLKA_INV or CLKB_INV (R169). -/
def ffInv (s : State) (die c t f : Nat) : Bool :=
  tileBit s die c t (if tileBit s die c t (ffBase f + 10) then 781 else 780)

/-- Flip-flop `f` of tile (c, t) is clocked by an edge of network `net` (R158, R169). -/
def ffClocked (s : State) (die c t f net : Nat) (rising : Bool) : Bool :=
  ffNet s die c t f == some net && ffInv s die c t f != rising

/-- Q of a flip-flop after an edge that clocks it (R158, R159). -/
def ffNext (s : State) (val : Wire → Bool) (die c t f : Nat) : Bool :=
  let k := f / 2
  let w := ffField s die c t f
  let fh := cellFH s val die c t k
  let d := ffData (w % 4) fh.1 fh.2 (chainIn s val die c t k) (muxVal s val die c t (7 * k + 6))
  ffEdge w (tileSr s val die c t) (tileCe s val die c t) d (ffQ s val die c t f)

/-- A frame of flip-flop values rebuilt bit by bit from the flip-flops of its tiles: `q t f`. -/
def ffFrame (m : Nat) (q : Nat → Nat → Bool) : Frame :=
  BitVec.ofNat 2048 (ofBits ((List.range 1920).filter fun b => q (b / 4) (4 * m + b % 4)))

/-- Flip-flop values of a die after edges of the networks `nets`, from the values before (R159, R176). -/
def edgeFfs (s u : State) (die : Nat) (nets : List Nat) (rising : Bool) : State :=
  let next := fun (c t f : Nat) =>
    let q := ffQ s (level s) die c t f
    match nets.find? fun n => ffClocked s die c t f n rising with
    | some n => if ffHeld s die c n || !powered s die c then q else ffNext s (level s) die c t f
    | none => q
  (liveCols s die).foldl (fun u c => (List.range 4).foldl (fun u m => ffPut u die (4 * c + m) (ffFrame m (next c))) u) u

/-- Rising edges of a network count for every extent of its die whose release has begun (R177). -/
def edgeCount (s : State) (die net : Nat) : State :=
  let exts := (s.part.parts.filter fun e => e.die = die && releaseOn s die e.cFirst).map (·.no)
    ++ (if s.fab.staticOn.contains die then [64] else [])
  let up := fun (t : Tab Nat) (x : Nat) => tabPut t (relKey die x net) (min 4 (tabOr 0 t (relKey die x net) + 1))
  { s with fab := { s.fab with relEdges := exts.foldl up s.fab.relEdges } }

/-! ### Crossing registers (R180, R181) -/

/-- A 256-bit value with bit `w` where `f w`. -/
def xgBits (f : Nat → Bool) : BitVec 256 := BitVec.ofNat 256 (ofBits ((List.range 256).filter f))

/-- What the outgoing wires of a group carry at their launch registers (R179, R180). -/
def xgOut (s : State) (die side g : Nat) : BitVec 256 :=
  xgBits fun w =>
    let t := xgTile die side (256 * g + w)
    muxVal s (level s) die t.1 t.2 (302 + 256 * side + w)

/-- A group of a die takes a rising edge of its clock: what was launched one edge before moves on, the capture registers take
what was launched two edges before, or the clamp values, and the launch registers take the outgoing wires (R181, R183).
Outgoing wire i of the far die is incoming wire i of this one (R179). -/
def xgEdgeOne (s u : State) (die side g : Nat) : State :=
  let k := xgKey die side g
  let far := tabOr 0 s.fab.xgLaunch (xgKey (xgPeer die side) (1 - side) g)
  let mid := tabOr 0 s.fab.xgMid k
  let cap := xgBits fun w =>
    if xgClamped s die side (256 * g + w) then clampValue s die side (256 * g + w) else mid.getLsbD w
  { u with fab := { u.fab with xgLaunch := tabPutD 0 u.fab.xgLaunch k (xgOut s die side g)
                               xgMid := tabPutD 0 u.fab.xgMid k far
                               xgCap := tabPutD 0 u.fab.xgCap k cap } }

/-- The groups of a die that the networks `nets` clock take a rising edge. -/
def edgeXgs (s u : State) (die : Nat) (nets : List Nat) : State :=
  [0, 1].foldl (fun u side => (List.range 64).foldl (fun u g =>
    let f := xgField s die side g
    if nBit f 7 && nets.contains (f % 32) then xgEdgeOne s u die side g else u) u) u

/-- Engines in direct mode whose SCLK is one of the networks take an edge without an operation (10_loop_engines.md R265); an
edge with one is DIRECT_OP. -/
def directEdges (s : State) (die : Nat) (nets : List Nat) : State :=
  s.le.eng.foldl (fun s k =>
    let e := k.1 % 512
    let x := engOf s die e
    if k.1 / 512 = die && x.mode = .direct && (netOfSel (bandOf (engCol e)) (engCfg s die e % 64)).any nets.contains then
      setEng s die e (dirShift x none)
    else s) s

/-- Networks whose edges come with that of network `net` of a die: trained crossing groups tie the clocks at their ends
(R180, R181). -/
def tiedNets (s : State) (fuel : Nat) (l : List (Nat × Nat)) : List (Nat × Nat) :=
  match fuel with
  | 0 => l
  | n + 1 =>
    let more := l.flatMap fun x => [0, 1].flatMap fun side => (List.range 64).filterMap fun g =>
      let f := xgField s x.1 side g
      if x.2 < 32 && nBit f 7 && f % 32 = x.2 && xgUp s x.1 side g then
        some (xgPeer x.1 side, xgField s (xgPeer x.1 side) (1 - side) g % 32)
      else none
    let l' := (l ++ more).eraseDups
    if l'.length = l.length then l else tiedNets s n l'

/-- Edges of the networks `l`, all at once: flip-flops, crossing registers, and the levels of the networks. -/
def netEdges (s : State) (l : List (Nat × Nat)) (rising : Bool) : State :=
  let dies := (l.map (·.1)).eraseDups
  let nets := fun die => (l.filter (·.1 = die)).map (·.2)
  let u := dies.foldl (fun u d => edgeFfs s u d (nets d) rising) s
  let u := if rising then dies.foldl (fun u d => edgeXgs s u d (nets d)) u else u
  let u := if rising then dies.foldl (fun u d => directEdges u d (nets d)) u else u
  let u := if rising then l.foldl (fun u x => edgeCount u x.1 x.2) u else u
  let key := fun (x : Nat × Nat) => 96 * x.1 + x.2
  { u with fab := { u.fab with netHigh := l.foldl (fun h x => if rising then setAdd h (key x) else setDel h (key x)) u.fab.netHigh } }

/-- A rising edge of network `net` of a die, with those that are tied to it. -/
def netRise (s : State) (die net : Nat) : State := netEdges s (tiedNets s 256 [(die, net)]) true

/-- The next edge of network `net` of a die: it falls where it is high, and rises where it is low and runs (R174). -/
def netNext (s : State) (die net : Nat) : State :=
  if s.fab.netHigh.contains (96 * die + net) then netEdges s (tiedNets s 256 [(die, net)]) false
  else if netRuns s die net then netRise s die net
  else s

/-- A moment of the fabric: one network, free to be any, comes to its next edge (03_clocks.md R74; log 89). A fabric without
clock networks stands still. -/
def fabTick (s : State) : State :=
  if (List.range 8).all fun d => cfgGet s d 0x53900 = 0 then s
  else
    let (k, s) := freeVal s 10
    if k < 768 then netNext s (k / 96) (k % 96) else s

/-! ### Releases (R177; 09_partitions.md R224) -/

/-- Network `net` clocks a flip-flop of columns `lo` to `hi`. A column whose frames are all zero is clocked by GCK0. -/
def netUsed (s : State) (die lo hi net : Nat) : Bool :=
  ((List.range (hi + 1 - lo)).map (· + lo)).any fun c =>
    if (liveCols s die).contains c then
      (List.range 480).any fun t => (List.range 16).any fun f => ffNet s die c t f == some net
    else net = 0

/-- Every toggling network that clocks a flip-flop of a partition has passed its fourth edge (R224 step 4). -/
def releasePassed (s : State) (e : PartEntry) : Bool :=
  (List.range 96).all fun n =>
    !netRuns s e.die n || 4 ≤ tabOr 0 s.fab.relEdges (relKey e.die e.no n) || !netUsed s e.die e.cFirst e.cLast n

/-- A running capture of the CF_ page still waits for network `net` (R185). -/
def capWants (s : State) (die net : Nat) : Bool := ((tabGet s.fab.cap die).join).any fun r => r.left.contains net

end Sys2Proof.Machine
end

