-- ==== Sys2Proof/Machine/Extent.lean ====
section
/-! DEFINITION. What of configuration memory belongs to a partition (09_partitions.md R218, R229), the segment maps and group
index of the newt cores (20_errors.md R520), and the frame a scrubber has in flight (09_partitions.md R228). -/

namespace Sys2Proof.Machine

/-! ### Frames of an extent (R229) -/

/-- Frame `a` of a target space is one the port writes for partition `e`. -/
def extentFrame (e : PartEntry) (target a : Nat) : Bool :=
  let cols := fun (lo hi : Nat) => decide (lo ≤ e.cLast) && decide (e.cFirst ≤ hi)
  let col := fun (c : Nat) => cols c c
  match target with
  | 1 =>
    if a < 0x493E0 then col (a / 400)
    else if 0x50000 ≤ a && a < 0x50B04 then true
    else if 0x51000 ≤ a && a < 0x51AFD then cols (512 * (a - 0x51000) / 1920) ((512 * (a - 0x51000) + 511) / 1920)
    else if 0x52000 ≤ a && a < 0x5203C then true
    else if 0x52100 ≤ a && a < 0x5215E then cols (8 * (a - 0x52100)) (8 * (a - 0x52100) + 7)
    else if 0x53000 ≤ a && a < 0x53800 then col (bankCol (a - 0x53000))
    else if 0x53800 ≤ a && a < 0x53820 then col (deepCol (a - 0x53800))
    else if 0x54000 ≤ a && a < 0x66000 then col (engCol ((a - 0x54000) / 256))
    else false
  | 2 => col (bankCol (a / 36))
  | 3 => col (deepCol (a / 4096))
  | _ => false

/-- Every driver of the wire of field `i` of driver frame `a` lies in the extent (07_fabric.md R164, R170). -/
def wireInside (e : PartEntry) (a i : Nat) : Bool :=
  let cols := fun (lo hi : Nat) => decide (e.cFirst ≤ lo) && decide (hi ≤ e.cLast)
  if a < 0x50B04 then
    let s := (512 * (a - 0x50000) + i) % 47
    cols (16 * s) (16 * s + 12)
  else if a < 0x51AFD then
    let c := (512 * (a - 0x51000) + i) / 1920
    cols c c
  else if a < 0x5203C then cols 0 725
  else
    let c := (64 * (a - 0x52100) + i) / 8
    cols c c

/-- Bits of driver frame `a` that hold the fields of wires inside the extent; every bit of another frame. -/
def extentMask (e : PartEntry) (a : Nat) : Frame :=
  match driverShape a with
  | none => ~~~0
  | some (w, n, _) => (List.range n).foldl (fun m i =>
      if wireInside e a i then m ||| (BitVec.ofNat 2048 (2 ^ w - 1) <<< (w * i)) else m) 0

/-- `base` with the bits of the extent taken from `f`. -/
def mergeOver (e : PartEntry) (a : Nat) (base f : Frame) : Frame :=
  (base &&& ~~~extentMask e a) ||| (f &&& extentMask e a)

/-- The frame the port writes at `a`: of a driver frame only the fields of wires inside the extent are taken from `f`. -/
def mergeFrame (s : State) (e : PartEntry) (a : Nat) (f : Frame) : Frame := mergeOver e a (cfgSeen s e.die a) f

/-! ### Segment maps (20_errors.md R520) -/

/-- Stream frames `lo` to `lo + n - 1` hold a frame of the extent. -/
def runsHold (segs : List SegRun) (e : PartEntry) (lo n : Nat) : Bool :=
  segs.any fun r =>
    let a := max lo r.frame
    (List.range (min (lo + n) (r.frame + r.count) - a)).any fun j => extentFrame e r.target (r.addr + (a - r.frame) + j)

/-- The last stream frame that a map gives for frame `a` of target 0x01. -/
def runOf (segs : List SegRun) (a : Nat) : Option Nat :=
  (segs.reverse.find? fun r => r.target = 1 && r.addr ≤ a && decide (a < r.addr + r.count)).map fun r => r.frame + (a - r.addr)

/-- Segment map of a die's stream in the active image. -/
def segsOf (s : State) (die : Nat) : List SegRun := tabOr [] s.load.segMap die

/-- Groups of the die's stream that hold a frame of the extent, in ascending order (R231). -/
def reloadGroups (s : State) (e : PartEntry) : List Nat :=
  let x := s.load.hdr.streams.getD e.die { }
  let segs := segsOf s e.die
  ((List.range ((x.frames + 255) / 256)).filter fun k => runsHold segs e (256 * k) (min 256 (x.frames - 256 * k))).map
    (x.firstGroup + ·)

/-- Progress of the die's stream where its group `g` begins, from the group index and the segment map. -/
def groupProg (s : State) (die g : Nat) : StreamProg :=
  let x := s.load.hdr.streams.getD die { }
  let k := 256 * (g - x.firstGroup)
  let m := tabOr { } s.load.groupIdx g
  let p : StreamProg := { frames := k, bytes := m.bytes, prev := m.prev }
  match (segsOf s die).find? fun r => r.frame ≤ k && decide (k < r.frame + r.count) with
  | some r => { p with target := r.target, addr := r.addr + (k - r.frame), left := r.frame + r.count - k }
  | none => p

/-! ### The scrubber's frame -/

/-- Engine of a fabric die. -/
def axOf (s : State) (die : Nat) : AxEngine := tabOr { } s.err.ax die
/-- `s` with an engine set. -/
def setAx (s : State) (die : Nat) (x : AxEngine) : State :=
  { s with err := { s.err with ax := tabPutD { } s.err.ax die x } }

/-- The logic columns whose extents a frame belongs to, as first and last; none: the frame is no partition's own. -/
def frameCol (a : Nat) : Option Nat :=
  if a ≤ 0x493DF then some (a / 400)
  else if 0x53000 ≤ a && a < 0x53800 then some (bankCol (a - 0x53000))
  else if 0x53800 ≤ a && a < 0x53820 then some (deepCol (a - 0x53800))
  else if 0x54000 ≤ a && a < 0x66000 then some (engCol ((a - 0x54000) / 256))
  else none

/-- Partition `e` has fields in the shared driver frame `a` (R228, R229). -/
def sharesFrame (e : PartEntry) (a : Nat) : Bool := (frameCol a).isNone && extentFrame e 1 a

/-- RLOCK of a partition is held. -/
def rlocked (s : State) (e : PartEntry) : Bool := flag s (icPage e.die) (IC_PSTAT_RLOCK.nth e.no)

/-- The engine skips a frame: its partition is OFF or LOADING, or a held RLOCK covers it (20_errors.md R517, R228). -/
def scrubSkips (s : State) (die a : Nat) : Bool :=
  match frameCol a with
  | some c =>
    (match ownerAt s die c with
     | none => false
     | some e =>
       let st := partStateOn s die e.no
       st = pOff || st = pLoading || rlocked s e)
  | none => (dieParts s die).any fun e => rlocked s e && sharesFrame e a

/-- The scrubber has a frame of the extent, or a driver frame it shares, in flight: read, and not yet regenerated. The ICP
writes nothing until it has completed (R228, 20_errors.md R522). -/
def scrubHolds (s : State) (e : PartEntry) : Bool := (axOf s e.die).state = 2 && extentFrame e 1 (axOf s e.die).pos

end Sys2Proof.Machine
end

