-- ==== Sys2Proof/Machine/PartCmd.lean ====
section
/-! DEFINITION. Commands to partitions (09_partitions.md R223, R224, R227, R231) and what follows them on the fabric ports. -/

namespace Sys2Proof.Machine

/-- STATE of a partition changes by command or load; ports follow (R219, 12_noc.md R319). -/
def partMove (s : State) (e : PartEntry) (st : Nat) : State :=
  let hold := st = pHeld || st = pOff || st = pLoading
  portsFollow (if hold then partHoldIn s e st else partSet s e st) e.die

/-- A partition is fenced for a cause other than a command: FENCE_ON (R234). -/
def partFence (s : State) (e : PartEntry) : State :=
  if partStateOn s e.die e.no = pLive then fenceOn (partMove s e pFenced) e else s

/-- A partition enters LOADING: RLOCK sets, what ran is held (R227, R231). -/
def partLoading (s : State) (e : PartEntry) : State :=
  partMove (putFlag s (icPage e.die) (IC_PSTAT_RLOCK.nth e.no) true) e pLoading

/-- Check bits of the extent's bank memories that received new contents are recomputed (R224 step 1, 08_memories.md R201). -/
def partRecheck (s : State) (e : PartEntry) : State :=
  let bs := (List.range 2048).filter fun b => e.cFirst ≤ bankCol b && decide (bankCol b ≤ e.cLast) && filled s e.die b
  bs.foldl (fun s b =>
    let s := bankRecheck s e.die b
    { s with load := { s.load with bankInit := setDel s.load.bankInit (1048576 * e.die + b) } }) s

/-- RELEASE begins: the initial-value load of the extent; the hold ends network by network (R224 steps 1 to 3). -/
def partRelease (s : State) (e : PartEntry) : State :=
  let s := relBegin (initLoad (partRecheck s e) e.die e.cFirst e.cLast) e.die e.no
  { s with part := { s.part with releasing := setAdd s.part.releasing e.no } }

/-- A command runs on the die: a RELEASE has not completed; loads and RELOADs are apart (R234). -/
def partBusy (s : State) (die : Nat) : Bool := (dieParts s die).any fun e => s.part.releasing.contains e.no

/-- States a command is accepted from (R223). -/
def partAccepts (op st : Nat) : Bool :=
  match op with
  | 1 => st = pLive || st = pFenced || st = pHeld || st = pOff
  | 2 => st = pFenced || st = pLive
  | 3 => st = pLive || st = pFenced || st = pHeld
  | 4 => st = pHeld || st = pLive
  | _ => st = pOff || st = pHeld || st = pFenced || st = pLive

/-- The fault that rejects a command (R223, R234), none where it is accepted; of several the lowest code (log 94). -/
def partCmdFault (s : State) (die op n : Nat) : Option Nat :=
  match (dieParts s die).find? (·.no == n) with
  | none => if partBusy s die then some 0x0101 else some 0x0102
  | some _ =>
    if !partAccepts op (partStateOn s die n) then some 0x0100
    else if partBusy s die then some 0x0101
    else if op = 5 && (icpLoad s die).isSome then some 0x0103
    else none

/-- A load or RELOAD succeeds: the partition is HELD with `source`, RLOCK clears (R230, R231). -/
def icpSuccess (s : State) (e : PartEntry) (source : Nat) : State :=
  let page := icPage e.die
  let s := putF (putFlag s page (IC_PSTAT_RLOCK.nth e.no) false) page (IC_PSTAT_SOURCE.nth e.no) source
  icpEnd (partSet s e pHeld) e.die 0

/-- RELOAD begins: the groups it will read are those of the segment map that hold a frame of the extent; with none it is done
(R231). -/
def reloadStart (s : State) (e : PartEntry) : State :=
  let page := icPage e.die
  let before := partStateOn s e.die e.no
  let s := partLoading s e
  let s := putF (putFlag (putFlag s page IC_STAT_BUSY true) page IC_STAT_RELOAD true) page IC_STAT_PART e.no
  let s := putF (putF (putF s page IC_PROGRESS_FRAMES 0) page IC_FAIL_FRAME 0x1FFFFF) page IC_FAIL_GROUP_GROUP 0xFFF
  let l : IcpLoad := { before := before, entered := true, todo := reloadGroups s e }
  let s := { s with part := { s.part with icp := tabPut s.part.icp e.die (some l) } }
  if l.todo = [] then icpSuccess s e 0 else s

/-- An accepted command (R223). -/
def partCommand (s : State) (die op n : Nat) : State :=
  match (dieParts s die).find? (·.no == n) with
  | none => s
  | some e =>
    let st := partStateOn s die n
    match op with
    | 1 => if st = pLive then partMove s e pFenced else s
    | 2 => if st = pFenced then partMove s e pLive else s
    | 3 => if st = pHeld then s else partMove s e pHeld
    | 4 => if st = pLive then s else partRelease s e
    | _ => reloadStart s e

/-- RELEASE_COMPLETE: once every toggling network of the extent has passed its fourth edge the fence lifts, STATE is LIVE, the engines leave their hold and PART_LIVE fires (R224 step 4). -/
def execReleaseComplete (die part : Nat) (s : State) : Host.Outcome State Fault Refusal :=
  .next <|
    match (dieParts s die).find? (·.no == part) with
    | none => s
    | some e =>
      if !s.part.releasing.contains part || !releasePassed s e then s
      else
        let s := { s with part := { s.part with releasing := setDel s.part.releasing part } }
        let s := (partEngs e).foldl (fun s x => engRelease s die x) (partSet s e pLive)
        evtPulse (portsFollow s die) (icPage die) 2

end Sys2Proof.Machine
end

