-- ==== Sys2Proof/Machine/DdrOps.lean ====
section
/-! DEFINITION. External memory: the symbol code, protected ranges, and reads and writes of one line
(16_external_memory.md R428 to R442). Lines are kept as plaintext with the key set they were stored under. -/

namespace Sys2Proof.Machine

/-! ### GF(16) and the symbol code (R428, R429) -/

/-- Product by α. -/
def gfAlpha (v : Nat) : Nat := if 8 ≤ v then (2 * v) ^^^ 0x13 else 2 * v
/-- `v` times the `k`-th power of α. -/
def gfPow (v k : Nat) : Nat :=
  match k with
  | 0 => v
  | j + 1 => gfAlpha (gfPow v j)

/-- Remainder of the data symbols of a beat: the check symbols s1·x + s0 (R428). Symbols d_7 to d_0 in turn, each a step of
division by g(x) = x² + α⁴·x + α. -/
def rsCheck (data : List Nat) : Nat × Nat :=
  (data.reverse).foldl (fun (r : Nat × Nat) d =>
    -- r = (r1, r0); multiply by x, add d·x²
    let q := r.1 ^^^ d
    (r.2 ^^^ gfPow q 4, gfPow q 1)) (0, 0)

/-- What a beat with symbol errors decodes to: the correction made (symbol, value), or none where it is uncorrectable. -/
def rsDecode (errs : List (Nat × Nat)) : Option (Option (Nat × Nat)) :=
  let s0 := errs.foldl (fun n e => n ^^^ e.2 % 16) 0
  let s1 := errs.foldl (fun n e => n ^^^ gfPow (e.2 % 16) e.1) 0
  if s0 = 0 && s1 = 0 then some none
  else if s0 = 0 || s1 = 0 then none
  else match (List.range 10).find? fun j => gfPow s0 j == s1 with
    | some j => some (some (j, s0))
    | none => none

/-- Reading of a whole line: no beat uncorrectable, first symbol corrected, and the symbol errors left in data symbols. -/
def lineDecode (errs : List (Nat × Nat × Nat)) : Bool × Option Nat × List (Nat × Nat × Nat) :=
  (List.range 16).foldl (fun (r : Bool × Option Nat × List (Nat × Nat × Nat)) t =>
    let es := (errs.filter fun e => e.1 == t && e.2.1 < 10).map (·.2)
    match rsDecode es with
    | none => (false, r.2.1, r.2.2)
    | some c =>
      let all := es ++ (match c with | some x => [x] | none => [])
      let sum := fun k => all.foldl (fun n e => if e.1 = k then n ^^^ e.2 % 16 else n) 0
      let left := ((List.range 10).filter fun k => 2 ≤ k && sum k != 0).map fun k => (t, k, sum k)
      (r.1, r.2.1.or (c.map (·.1)), r.2.2 ++ left)) (true, none, [])

/-- The bytes of a line with symbol errors in data symbols (R427, R428). -/
def lineErrs (bs : List Byte) (left : List (Nat × Nat × Nat)) : List Byte :=
  bs.zipIdx.map fun bi =>
    left.foldl (fun b e =>
      let k := e.2.1 - 2
      if 4 * e.1 + k / 2 = bi.2 then b ^^^ BitVec.ofNat 8 (e.2.2 * 16 ^ (k % 2)) else b) bi.1

/-! ### Ranges (R431, R432, R436) -/

/-- Interleave width W of R436. -/
def ilvWays (s : State) : Nat := match ddrIlv s with | 0 => 4 | 1 => 2 | _ => 1

/-- First address and length in bytes of what interleaves on channel `ch`: its region or group. -/
def groupSpan (s : State) (ch : Nat) : Nat × Nat :=
  (ddrBase s ch, ddrCap s ch * ilvWays s)

/-- BASE and LIMIT of range `j` as first and end address. -/
def rangeSpan (s : State) (ch j : Nat) : Nat × Nat :=
  (getF s (mcPage ch) (RNG_BASE_PAGE.nth j) * 4096, (getF s (mcPage ch) (RNG_LIMIT_PAGE.nth j) + 1) * 4096)

/-- First channel offset and end offset of the lines of range `j` that channel `ch` holds. -/
def rangeOffs (s : State) (ch j : Nat) : Nat × Nat :=
  let g := groupSpan s ch
  let r := rangeSpan s ch j
  let lo := max r.1 g.1 - g.1
  let hi := min r.2 (g.1 + g.2) - g.1
  (lo / ilvWays s, hi / ilvWays s)

/-- The channel holds a line of the range. -/
def rangeHeld (s : State) (ch j : Nat) : Bool := (rangeOffs s ch j).1 < (rangeOffs s ch j).2

/-- Tag region of range `j` as channel offsets. -/
def tagSpan (s : State) (ch j : Nat) : Nat × Nat :=
  let t := getF s (mcPage ch) (RNG_TOFF_PAGE.nth j) * 4096
  let r := rangeSpan s ch j
  (t, t + (r.2 - r.1) * 8 / (64 * ilvWays s))

/-- Range `j` is enabled. -/
def rangeOn (s : State) (ch j : Nat) : Bool := flag s (mcPage ch) (RNG_CTRL_EN.nth j)

/-- Two spans share an address. -/
def spansMeet (a b : Nat × Nat) : Bool := a.1 < b.2 && decide (b.1 < a.2)

/-- The enabled range of a line. -/
def rangeOf (s : State) (ch line : Nat) : Option Nat :=
  (List.range 16).find? fun j =>
    rangeOn s ch j && decide ((rangeOffs s ch j).1 ≤ 64 * line) && decide (64 * line < (rangeOffs s ch j).2)

/-- The line lies in an enabled tag region. -/
def inTags (s : State) (ch line : Nat) : Bool :=
  (List.range 16).any fun j => rangeOn s ch j && spansMeet (64 * line, 64 * line + 64) (tagSpan s ch j)

/-- Tag line of a line of range `j`, as a line number of the channel (R436, R437). -/
def tagLine (s : State) (ch j line : Nat) : Nat :=
  ((tagSpan s ch j).1 + 8 * ((64 * line - (rangeOffs s ch j).1) / 64)) / 64

/-- EN = 1 is accepted (R432). -/
def rangeOk (s : State) (ch j : Nat) : Bool :=
  let r := rangeSpan s ch j
  let others := (List.range 16).filter fun k => k != j && rangeOn s ch k
  let t := tagSpan s ch j
  decide (r.1 < r.2) && decide (r.2 ≤ ddrEnd s) && rangeHeld s ch j
    && (others.all fun k => !spansMeet r (rangeSpan s ch k))
    && decide (t.2 ≤ ddrCap s ch)
    && (others.all fun k => !spansMeet t (tagSpan s ch k))
    && ((j :: others).all fun k => !spansMeet t (rangeOffs s ch k))
    && (others.all fun k => !spansMeet (tagSpan s ch k) (rangeOffs s ch j))
    && getF s (mcPage ch) (RNG_CTRL_KEYS.nth j) = 7

/-! ### Lines -/

/-- Facts of a line. -/
def lineOf (s : State) (ch line : Nat) : DdrLine :=
  let c := chanOf s ch
  let d : DdrLine := { key := ((c.bulk.find? fun b => b.1 ≤ line && decide (line ≤ b.2.1)).map (·.2.2)).getD 0 }
  (tabGet c.lines line).getD d

/-- Key set under which the controller reads and writes a line now: its range's, 0 outside every range. -/
def keyNow (s : State) (ch line : Nat) : Nat :=
  match rangeOf s ch line with
  | some j => tabOr 0 (chanOf s ch).sets j
  | none => 0

/-- The 64 bytes of a line as the controller sees them now (R434). -/
def lineBytes (s : State) (ch line : Nat) : List Byte :=
  let bs := memRead (chanOf s ch).data (64 * line) 64
  let x := lineOf s ch line
  let now := keyNow s ch line
  if x.key = now then bs else Config.ddrCipher x.key now (ddrAddr s ch (64 * line)) bs

/-- A line that has been written since its read is not written back (R430, R443). -/
def wbCancel (s : State) (ch line : Nat) : State :=
  let c := chanOf s ch
  let s := setChan s ch { c with wb := c.wb.filter fun w => w.1 != line }
  { s with ddr := { s.ddr with late := s.ddr.late.map fun l => if l.ch = ch && l.line = line then { l with wb := none } else l } }

/-- A whole line stored under the keys in force, with its tag and metadata (R434, R435, R441). -/
def lineStore (s : State) (ch line : Nat) (bs : List Byte) (poison : Bool) : State :=
  let c := chanOf s ch
  wbCancel (setChan s ch { c with
    data := memWrite c.data (64 * line) bs
    lines := tabPut c.lines line { key := keyNow s ch line, poison := poison, tagBad := false } }) ch line

/-! ### The place of a line in the DRAM (R427) -/

/-- Place of channel offset `o` in the DRAM. -/
structure DramPlace where
  sub : Nat
  group : Nat
  bank : Nat
  column : Nat
  row : Nat
  rank : Nat
  deriving DecidableEq, Repr

/-- Place of channel offset `o` (R427): the bits above the row number the rank. -/
def dramPlace (s : State) (ch o : Nat) : DramPlace :=
  let r := if (chanOf s ch).dens = 1 then 17 else 16
  { sub := nGet o 6 1, group := nGet o 7 3, bank := nGet o 10 2, column := nGet o 12 7, row := nGet o 19 r
    rank := nGet o (19 + r) 2 }

/-- Two lines of a channel lie in one bank. -/
def sameDram (a b : DramPlace) : Bool := a.sub = b.sub && a.rank = b.rank && a.group = b.group && a.bank = b.bank

/-- The record of MC_ERR_FIRST and MC_ERR_LINE (R444). -/
def mcFirst (s : State) (ch kind line sym ini : Nat) : State :=
  let p := mcPage ch
  if flag s p MC_ERR_FIRST_VALID then s
  else
    let s := putF (putF (putF (putF s p MC_ERR_FIRST_KIND kind) p MC_ERR_FIRST_SUBCH (line % 2)) p MC_ERR_FIRST_SYMBOL sym)
      p MC_ERR_FIRST_SRC ini
    putFlag (putF s p MC_ERR_LINE_LINE line) p MC_ERR_FIRST_VALID true

/-- A line with an uncorrectable beat, or a tag line that is (R429, R437). -/
def mcUncorr (s : State) (ch line ini : Nat) (beat : Bool) : State :=
  let p := mcPage ch
  let s := if beat then evtPulse (countUp s p MC_DBE_CNT_COUNT 1) p 2 else s
  raiseFrom (mcFirst s ch 1 line 15 ini) p 1 0x0702 line

/-- A line with corrected beats. -/
def mcCorr (s : State) (ch line sym ini : Nat) : State :=
  evtPulse (countUp (mcFirst s ch 0 line sym ini) (mcPage ch) MC_SBE_CNT_COUNT 1) (mcPage ch) 1

/-- A tag failure other than a late one: record, count, alarm (R430, R439, R441). -/
def mcTagFail (s : State) (ch kind line sym ini bit : Nat) : State :=
  let p := mcPage ch
  let s := countUp (mcFirst s ch kind line sym ini) p MC_TAG_CNT_VERIFIED 1
  alarm (evtPulse s p 3) bit (regDie p) ini

/-- The tag cache takes the tag line; hits and misses count (R437). -/
def tagTouch (s : State) (ch t : Nat) (hit dirty : Bool) : State :=
  let s := countWrap s (mcPage ch) (if hit then MC_TC_HIT_COUNT else MC_TC_MISS_COUNT)
  let c := chanOf s ch
  let old := (c.cache.find? (·.1 == t)).map (·.2)
  setChan s ch { c with cache := (t, dirty || old.getD false) :: (c.cache.filter (·.1 != t)).take 4095 }

/-- A corrected line waits for its write-back (R430). -/
def wbAdd (s : State) (ch line : Nat) (bs : List Byte) : State :=
  if flag s (mcPage ch) MC_CFG_WB_EN then
    let c := chanOf s ch
    setChan s ch { c with wb := c.wb.filter (·.1 != line) ++ [(line, keyNow s ch line, bs)] }
  else s

/-- A line written back: its data as corrected, its tag and metadata as they stand (R430). -/
def lineBack (s : State) (ch line key : Nat) (bs : List Byte) : State :=
  let c := chanOf s ch
  setChan s ch { c with
    data := memWrite c.data (64 * line) bs
    lines := tabPut c.lines line { lineOf s ch line with key := key } }

/-- Every line of the tag line of `line` counts as bad (R437). -/
def tagsBad (s : State) (ch j line : Nat) : State :=
  let t := tagLine s ch j line
  let base := (rangeOffs s ch j).1 / 64
  let first := base + (64 * t - (tagSpan s ch j).1) / 8
  (List.range 8).foldl (fun s i =>
    let l := first + i
    let c := chanOf s ch
    setChan s ch { c with lines := tabPut c.lines l { lineOf s ch l with tagBad := true } }) s

/-! ### Reads (R429, R437 to R440) -/

/-- What a read of a line gives: code, bytes, poison. -/
structure LineRead where
  code : Nat
  bytes : List Byte := []
  poison : Bool := false
  deriving DecidableEq, Repr

/-- Codes that refuse a line before it is read: a tag region or a class (0x5), a range that initialises (0x4). -/
def lineRefused (s : State) (ch line ini : Nat) : Option Nat :=
  if inTags s ch line then some 5
  else
    match rangeOf s ch line with
    | none => none
    | some j =>
      if iniClass ini = 4 || iniClass ini = 5 then some 5
      else if !flag s (mcPage ch) (RNG_CTRL_INIT_DONE.nth j) then some 4 else none

/-- Engine of a LOOP group whose descriptor reads the line: that of the outstanding read that covers it (R440). -/
def readEng (s : State) (ch line ini : Nat) : Option Nat :=
  let a := ddrAddr s ch (64 * line)
  if !iniLoop ini then none
  else
    ((s.noc.outst.find? fun o => o.ini = ini && o.kind = 0 && decide (o.addr < a + 64) && decide (a < o.addr + o.size)).bind
      fun o => gatherOf s o.acc).map fun g => g.accTag / 4

/-- A read of one line by `ini`. -/
def lineRead (s : State) (ch line ini : Nat) (errs : List (Nat × Nat × Nat)) (hit tagUnc : Bool) : State × LineRead :=
  match lineRefused s ch line ini with
  | some c => (s, { code := c })
  | none =>
    let d := lineDecode errs
    if !d.1 then (mcUncorr s ch line ini true, { code := 4 })
    else
      let x := lineOf s ch line
      let bytes := lineErrs (lineBytes s ch line) d.2.2
      let s := match d.2.1 with | some sym => mcCorr s ch line sym ini | none => s
      match rangeOf s ch line with
      | none => (if d.2.1.isSome then wbAdd s ch line bytes else s, { code := 0, bytes := bytes })
      | some j =>
        let s := tagTouch s ch (tagLine s ch j line) hit false
        if x.tagBad || tagUnc then
          (mcUncorr (if tagUnc then tagsBad s ch j line else s) ch line ini false, { code := 4 })
        else
          let ok := x.key = keyNow s ch line && d.2.2 = []
          let sym := d.2.1.getD 15
          if flag s (mcPage ch) (RNG_CTRL_POLICY.nth j) then
            let l : LateCheck := { ch := ch, line := line, range := j, ini := ini, tagOk := ok, sub := line % 2, sym := sym
                                   wb := if d.2.1.isSome then some bytes else none, eng := readEng s ch line ini }
            ({ s with ddr := { s.ddr with late := s.ddr.late ++ [l] } }, { code := 0, bytes := bytes, poison := x.poison })
          else if !ok then (mcTagFail s ch 2 line sym ini 0, { code := 4 })
          else (if d.2.1.isSome then wbAdd s ch line bytes else s, { code := 0, bytes := bytes, poison := x.poison })

/-! ### Writes (R441, R442) -/

/-- `bs` with `new` from byte `off`. -/
def splice (bs : List Byte) (off : Nat) (new : List Byte) : List Byte :=
  bs.take off ++ new ++ bs.drop (off + new.length)

/-- A write of bytes at `off` of one line. -/
def lineWrite (s : State) (ch line off ini : Nat) (new : List Byte) (poison : Bool) (errs : List (Nat × Nat × Nat))
    (hit tagUnc : Bool) : State × Nat :=
  match lineRefused s ch line ini with
  | some c => (s, c)
  | none =>
    let whole := off = 0 && new.length = 64
    match rangeOf s ch line with
    | none =>
      if poison then (s, 6)
      else if whole then (lineStore s ch line new false, 0)
      else
        let d := lineDecode errs
        if !d.1 then (mcUncorr s ch line ini true, 4)
        else
          let old := lineErrs (lineBytes s ch line) d.2.2
          let s := match d.2.1 with | some sym => mcCorr s ch line sym ini | none => s
          (lineStore s ch line (splice old off new) false, 0)
    | some j =>
      let s := tagTouch s ch (tagLine s ch j line) hit true
      if whole then (lineStore s ch line new poison, 0)
      else
        let x := lineOf s ch line
        let d := lineDecode errs
        if !d.1 then (mcUncorr s ch line ini true, 4)
        else if x.tagBad || tagUnc then (mcUncorr (if tagUnc then tagsBad s ch j line else s) ch line ini false, 4)
        else
          let s := match d.2.1 with | some sym => mcCorr s ch line sym ini | none => s
          if !(x.key = keyNow s ch line) || d.2.2 != [] then (mcTagFail s ch 2 line (d.2.1.getD 15) ini 0, 4)
          else if x.poison then (s, 6)
          else (lineStore s ch line (splice (lineBytes s ch line) off new) poison, 0)

/-! ### The decode and the life of a channel (R422 to R426) -/

/-- STATE of a channel. -/
def mcState (s : State) (ch : Nat) : Nat := getF s (mcPage ch) MC_STAT_STATE

/-- ILV_ERR on every page. -/
def ilvShow (s : State) : State :=
  (List.range 4).foldl (fun s m => putFlag s (mcPage m) MC_STAT_ILV_ERR (s.ddr.formed && !ilvOk s)) s

/-- The decode is formed once every enabled channel knows its capacity (R426). -/
def ddrForm (s : State) : State :=
  let on := (List.range 4).filter fun m => enabled s (mcPage m)
  if s.ddr.formed || on = [] || !(on.all fun m => (chanOf s m).capSet) then s
  else
    let s := (List.range 4).foldl (fun s m =>
      let c := chanOf s m
      setChan s m { c with cm := if c.enabled then getF s (mcPage m) MC_STAT_CAP_GIB else 0 }) s
    ilvShow { s with ddr := { s.ddr with formed := true } }

/-- MC_CFG.ILV has been written: the decode is discarded and formed again (R426). -/
def ilvWritten (s : State) : State := ddrForm (ilvShow { s with ddr := { s.ddr with formed := false } })

/-- A channel fails with `cause`; the accesses that waited complete with 0x4 (R422, R423). -/
def mcFail (s : State) (ch cause : Nat) : State :=
  let p := mcPage ch
  let s := putF (putF s p MC_STAT_STATE 3) p MC_STAT_CAUSE cause
  slotsFail (raiseFrom (evtPulse s p 0) p 1 0x0701 (ch + 16 * cause)) (ddrNode ch) 4

/-- A channel that is there: its die joined, its power domain not dropped, so that lines reach it. -/
def chanHere (s : State) (ch : Nat) : Bool :=
  ch < 4 && !isolated s (regDie (mcPage ch)) &&
    decide ((if ch < 2 then domOf s 3 (22 + ch) else domOf s 7 (20 + ch)).state < 2)

/-- PG_CTRL.ENABLE of a channel has gone to 1 (R422). -/
def mcStart (s : State) (ch : Nat) : State :=
  let c := chanOf s ch
  let s := setChan s ch { c with enabled := true, capSet := false, selfRefresh := false }
  putF s (mcPage ch) MC_STAT_STATE 1

/-- PG_CTRL.ENABLE of a channel has gone to 0: the tag cache is written back and the DRAM refreshes itself (R422). -/
def mcStop (s : State) (ch : Nat) : State :=
  let c := chanOf s ch
  slotsFail (putF (setChan s ch { c with cache := [], selfRefresh := true }) (mcPage ch) MC_STAT_STATE 0) (ddrNode ch) 4

/-- A key word has been written (R431, R444). -/
def keyWritten (s : State) (ch : Nat) (val : Word) : State :=
  let p := mcPage ch
  let w := getF s p MC_KEY_SEL_WORD
  let k := getF s p MC_KEY_SEL_KEY
  let j := getF s p MC_KEY_SEL_RANGE
  let c := chanOf s ch
  let old := tabOr 0 c.keys (3 * j + k)
  let new := BitVec.ofNat 256 (old.toNat - nGet old.toNat (32 * w) 32 * 2 ^ (32 * w) + val.toNat * 2 ^ (32 * w))
  let s := setChan s ch { c with keys := tabPut c.keys (3 * j + k) new }
  let s := putF s p MC_KEY_SEL_WORD ((w + 1) % 8)
  if w = 7 then putF s p (RNG_CTRL_KEYS.nth j) (ofBits (k :: bitsOf 3 (getF s p (RNG_CTRL_KEYS.nth j)))) else s

/-- EN of a range has been set: its initialisation begins (R433). -/
def rangeStart (s : State) (ch j : Nat) : State :=
  let c := chanOf s ch
  let s := setChan s ch { c with sets := tabPut c.sets j c.nextSet, nextSet := c.nextSet + 1, init := setAdd c.init j }
  putF (putFlag s (mcPage ch) (RNG_CTRL_INIT_DONE.nth j) false) (mcPage ch) (RNG_INIT_LINES.nth j) 0

/-- EN of a range has been cleared: keys and tag-cache entries go, the data stays as ciphertext (R432, R443). -/
def rangeStop (s : State) (ch j : Nat) (t : Nat × Nat) : State :=
  let c := chanOf s ch
  let s := setChan s ch { c with
    keys := c.keys.filter fun e => e.1 / 3 != j
    sets := tabDel c.sets j
    init := setDel c.init j
    cache := c.cache.filter fun e => !(t.1 ≤ 64 * e.1 && decide (64 * e.1 < t.2)) }
  putFlag (putF s (mcPage ch) (RNG_CTRL_KEYS.nth j) 0) (mcPage ch) (RNG_CTRL_INIT_DONE.nth j) false

end Sys2Proof.Machine
end

