-- ==== Sys2Proof/Machine/Ddr.lean ====
section
/-! DEFINITION. External memory: SPD, training, lines, late checks, write-back and patrol (16_external_memory.md R421 to
R443). -/

namespace Sys2Proof.Machine

/-- Capacity in GiB of a supported geometry: 32 GiB a rank of 16 Gbit devices, twice that of 32 Gbit (R421). -/
def geomGib (ranks dens : Nat) : Option Nat :=
  if dens = 0 && (ranks = 1 || ranks = 2 || ranks = 4) then some (32 * ranks)
  else if dens = 1 && (ranks = 1 || ranks = 2) then some (64 * ranks)
  else none

/-- The capacity of a channel in GiB by what its SPD read or its MC_GEOM says; none: no reading, or out of range (R422). -/
def chanCap (s : State) (ch cause ranks dens : Nat) : Option Nat :=
  if flag s (mcPage ch) MC_GEOM_SPD then (if cause = 0 then geomGib ranks dens else none)
  else geomGib (if getF s (mcPage ch) MC_GEOM_RANKS = 1 then 1 else if getF s (mcPage ch) MC_GEOM_RANKS = 2 then 2 else 4)
    (getF s (mcPage ch) MC_GEOM_DENS)

/-- SPD_READ_DONE: the capacity, from SPD or MC_GEOM, or the failure of step 1 (R422, R423). -/
def execSpdReadDone (ch cause ranks dens : Nat) (s : State) : Host.Outcome State Fault Refusal :=
  .next <|
    let p := mcPage ch
    if 4 ≤ ch || mcState s ch != 1 || (chanOf s ch).capSet then s
    else
      let found := if flag s p MC_GEOM_SPD then dens else getF s p MC_GEOM_DENS
      let u := setChan s ch { chanOf s ch with capSet := true, dens := found }
      match chanCap s ch cause ranks dens with
      | some g => ddrForm (putF u p MC_STAT_CAP_GIB g)
      | none => mcFail (ddrForm (putF u p MC_STAT_CAP_GIB 0)) ch
          (if flag s p MC_GEOM_SPD && 1 ≤ cause && cause ≤ 2 then cause else 3)

/-- DDR_READ of one line. -/
def execDdrRead (ch line ini : Nat) (errs : List (Nat × Nat × Nat)) (hit tagBad : Bool) (s : State) :
    Host.Outcome State Fault Refusal :=
  .next <|
    if !chanHere s ch || ddrCap s ch ≤ 64 * line || mcState s ch = 1 then s
    else if mcState s ch != 2 then answer s 4 0
    else
      let r := lineRead s ch line ini errs hit tagBad
      answer r.1 (if r.2.code = 0 && r.2.poison then 6 else r.2.code) (ofBytes r.2.bytes)

/-- The partitions that ACTION 2 fences for a late failure (R440): the owner of the NoC port, or of the engine that issued the
descriptor; where the access is not known any more, those of the engines of the group with a descriptor in progress. -/
def lateOwners (s : State) (l : LateCheck) : List PartEntry :=
  let n := iniNode l.ini
  let die := nodeDie n
  match epKind n, l.eng with
  | .fport p, _ => (ownerAt s die (portCol p)).toList
  | .group q, some i => (dieParts s die).filter fun e => (partEngs e).contains (72 * q + i)
  | .group q, none =>
    let busy := (List.range 72).filter fun i => (engOf s die (72 * q + i)).descs.any (·.2.busy)
    (dieParts s die).filter fun e => busy.any fun i => (partEngs e).contains (72 * q + i)
  | _, _ => []

/-- The range's ACTION against the initiator of a late failure (R440): not again while it is isolated for cause 5; a
partition that is fenced stays so. -/
def lateEnd (s : State) (action : Nat) (l : LateCheck) : State :=
  let n := iniNode l.ini
  let cut := if (causesI s n).contains 5 then s else isoEnter s n 5 true false
  match action with
  | 0 => s
  | 2 => match lateOwners s l with
    | [] => cut
    | es => es.foldl partFence s
  | 3 => startTrigger (bbDrain s 64)
  | _ => cut

/-- A late check leaves the queue of those that wait. -/
def lateTaken (s : State) (l : LateCheck) : State := { s with ddr := { s.ddr with late := s.ddr.late.erase l } }

/-- LATE_TAG_CHECK: the tag result of the oldest speculative read of the channel (R440). -/
def execLateTagCheck (ch : Nat) (s : State) : Host.Outcome State Fault Refusal :=
  .next <|
    match s.ddr.late.find? (·.ch == ch) with
    | none => s
    | some l =>
      let s := lateTaken s l
      if l.tagOk then (match l.wb with | some bs => wbAdd s ch l.line bs | none => s)
      else
        let p := mcPage ch
        let s := mcFirst s ch 3 l.line l.sym l.ini
        let s := countUp (countUp s p (RNG_LATE_COUNT.nth l.range) 1) p MC_TAG_CNT_LATE 1
        let s := alarm (evtPulse s p 4) 1 (regDie p) l.ini
        lateEnd s (getF s p (RNG_CTRL_ACTION.nth l.range)) l

/-- DDR_WRITE of bytes of one line. -/
def execDdrWrite (ch line off ini : Nat) (bytes : List (BitVec 8)) (poison : Bool) (errs : List (Nat × Nat × Nat))
    (hit tagBad : Bool) (s : State) : Host.Outcome State Fault Refusal :=
  .next <|
    if !chanHere s ch || ddrCap s ch ≤ 64 * line || mcState s ch = 1 || bytes = [] || 64 < off + bytes.length then s
    else if mcState s ch != 2 then answer s 4 0
    else
      let r := lineWrite s ch line off ini bytes poison errs hit tagBad
      answer r.1 r.2 0

/-- DDR_WRITEBACK: the bank of line `line` is idle, and the oldest corrected line of that bank is written back (R430). -/
def execDdrWriteback (ch line : Nat) (s : State) : Host.Outcome State Fault Refusal :=
  .next <|
    let c := chanOf s ch
    match c.wb.find? fun w => sameDram (dramPlace s ch (64 * w.1)) (dramPlace s ch (64 * line)) with
    | none => s
    | some w =>
      if chanHere s ch && mcState s ch = 2 then
        lineBack (setChan s ch { c with wb := c.wb.erase w }) ch w.1 w.2.1 w.2.2
      else s

/-- A patrol read of `line` whose decode is `d` (R430, R437, R439). -/
def patrolJudged (s : State) (ch line : Nat) (d : Bool × Option Nat × List (Nat × Nat × Nat)) (hit tagUnc : Bool) : State :=
  let p := mcPage ch
  if !d.1 then mcUncorr s ch line 0 true
  else
    let s := match d.2.1 with | some sym => mcCorr s ch line sym 0 | none => s
    let bytes := lineErrs (lineBytes s ch line) d.2.2
    match rangeOf s ch line with
    | none => if d.2.1.isSome then wbAdd s ch line bytes else s
    | some j =>
      if !flag s p (RNG_CTRL_INIT_DONE.nth j) then s
      else
      let s := tagTouch s ch (tagLine s ch j line) hit false
      if (lineOf s ch line).tagBad || tagUnc then mcUncorr (if tagUnc then tagsBad s ch j line else s) ch line 0 false
      else if !((lineOf s ch line).key = keyNow s ch line) || d.2.2 != [] then
        mcTagFail s ch 4 line (d.2.1.getD 15) 0 2
      else if d.2.1.isSome then wbAdd s ch line bytes else s

/-- DDR_PATROL_READ of the next line in ascending channel offset (R430). -/
def execDdrPatrolRead (ch : Nat) (errs : List (Nat × Nat × Nat)) (hit tagBad : Bool) (s : State) :
    Host.Outcome State Fault Refusal :=
  .next <|
    let p := mcPage ch
    let c := chanOf s ch
    if !chanHere s ch || mcState s ch != 2 || gateShut s (40 + ch) || !flag s p MC_CFG_PATROL_EN || c.cm = 0 then s
    else
      let line := c.patrol
      patrolJudged (setChan s ch { c with patrol := (line + 1) % (c.cm * 2 ^ 24) }) ch line (lineDecode errs) hit tagBad

/-- The channel once a range holds encrypted zeros, and its tags (R433). -/
def rangeZeroed (s : State) (ch range : Nat) : DdrChan :=
  let c := chanOf s ch
  let o := rangeOffs s ch range
  let t := tagSpan s ch range
  let set := tabOr 0 c.sets range
  let out := fun a => !(o.1 ≤ a && decide (a < o.2)) && !(t.1 ≤ a && decide (a < t.2))
  { c with
    init := setDel c.init range
    data := c.data.filter fun e => out e.1
    lines := c.lines.filter fun e => out (64 * e.1)
    wb := c.wb.filter fun e => out (64 * e.1)
    bulk := (o.1 / 64, o.2 / 64 - 1, set) :: (t.1 / 64, (t.2 - 1) / 64, set) :: c.bulk }

/-- RANGE_INIT_DONE: every line of the range holds encrypted zeros with a valid tag (R433). -/
def execRangeInitDone (ch range : Nat) (s : State) : Host.Outcome State Fault Refusal :=
  .next <|
    if !chanHere s ch || mcState s ch != 2 || !(chanOf s ch).init.contains range then s
    else
      let o := rangeOffs s ch range
      let p := mcPage ch
      evtPulse (putFlag (putF (setChan s ch (rangeZeroed s ch range)) p (RNG_INIT_LINES.nth range) (o.2 / 64 - o.1 / 64)) p
        (RNG_CTRL_INIT_DONE.nth range) true) p 5

end Sys2Proof.Machine
end

