-- ==== Sys2Proof/Machine/HubOps.lean ====
section
/-! DEFINITION. Hub services as register writes and reads act on them: cores, time base, mailboxes, locks, routes and
interrupts (17_processors.md R447 to R470). -/

namespace Sys2Proof.Machine

/-! ### System cores (R447) -/

/-- CL_HART.EN has been written; `old` its bits before. A core of a dropped CLUSTER starts when the domain has woken
(18_power.md R477, R478). -/
def hartsWritten (s : State) (old : Nat) : State :=
  let en := getF s CL CL_HART_EN
  let s := if (bitsOf 4 en).any fun c => !nBit old c then domTouch s 8 3 else s
  let up := decide ((domOf s 8 3).state < 2)
  hartsSettle ((List.range 4).foldl (fun s c =>
    if nBit en c && !nBit old c then (if up then setHart s c { running := true, fresh := true } else s)
    else if !nBit en c && nBit old c then setHart s c { hartOf s c with stopping := true, resv := none }
    else s) s)

/-! ### The time base (R451) -/

/-- TB_CMP. -/
def tbCmp (s : State) : Nat := getF s TB TB_CMP_LO_NS + getF s TB TB_CMP_HI_NS * 2 ^ 32

/-- The compare fires: CMP, and CMP_EN clears. -/
def tbFire (s : State) : State := evtPulse (putFlag s TB TB_CTRL_CMP_EN false) TB 1

/-- The time base is loaded with `v` by SET or STEP: SET fires, and CMP at once where TB_CMP is passed. -/
def tbLoad (s : State) (v : Nat) : State :=
  let old := s.hub.now
  let s : State := { s with hub := { s.hub with now := v % 2 ^ 64 } }
  let s := evtPulse (flowTimeSet s) TB 0
  if flag s TB TB_CTRL_CMP_EN && old < tbCmp s && tbCmp s ≤ v % 2 ^ 64 then tbFire s else s

/-- TB_CTRL has been written with SET or STEP. -/
def tbCtrlWritten (s : State) (set step : Bool) : State :=
  if set then tbLoad s (getF s TB TB_SET_LO_NS + getF s TB TB_SET_HI_NS * 2 ^ 32)
  else if step then tbLoad s (s.hub.now + getF s TB TB_STEP_LO_NS + getF s TB TB_STEP_HI_NS * 2 ^ 32)
  else s

/-- A read of TB_NOW_LO latches the high word (R451). -/
def tbLatch (s : State) : State := { s with hub := { s.hub with nowHi := s.hub.now / 2 ^ 32 % 2 ^ 32 } }

/-! ### Locks (R459 to R461) -/

/-- Holder of lock `k`. -/
def lockOf (s : State) (k : Nat) : Option Nat := (tabGet s.hub.locks k).join
/-- `s` with the holder of a lock set. -/
def setLock (s : State) (k : Nat) (h : Option Nat) : State :=
  { s with hub := { s.hub with locks := match h with | some i => tabPut s.hub.locks k (some i) | none => tabDel s.hub.locks k } }

/-- The holder of lock `k` is a halted system core. -/
def lockHalted (s : State) (k : Nat) : Bool :=
  match lockOf s k with
  | some i => i < 4 && (hartOf s i).halted
  | none => false

/-- A read of lock word `k` by `ini`: what it returns, and the state (R459). -/
def lockTake (s : State) (ini k : Nat) (peek : Bool) : State × Nat :=
  match lockOf s k with
  | none => (if peek then s else setLock s k (some ini), 0)
  | some h => (s, if h = ini && !peek then 0 else 2 ^ 31 + h)

/-! ### Event hub (R463) -/

/-- The pending source core `c` claims: highest PRIO, lowest number among equals. -/
def claimSource (s : State) (c : Nat) : Option Nat :=
  let mine := (s.hub.pending.filter fun x => x % 4 == c).map (· / 4)
  let prio := fun x => nGet (route s x 0) 4 4
  mine.foldl (fun b x => match b with
    | none => some x
    | some y => if prio y < prio x || (prio x = prio y && x < y) then some x else some y) none

/-- A claim: the pending bit clears and the source is in service. -/
def claim (s : State) (c x : Nat) : State :=
  { s with hub := { s.hub with pending := setDel s.hub.pending (4 * x + c), service := setAdd s.hub.service (4 * x + c) } }

/-- Service of source `x` ends for core `c`; a level still high pends again. -/
def serviceEnd (s : State) (c x : Nat) : State :=
  let h := { s.hub with service := setDel s.hub.service (4 * x + c) }
  let h := if h.levels.contains x then { h with pending := setAdd h.pending (4 * x + c) } else h
  coreStir { s with hub := h }

/-- A route word written (R463). -/
def routePut (s : State) (src word : Nat) (w : Word) : State :=
  let m : Word := if word = 0 then 0x1FFFF else 0x3FFF
  { s with hub := { s.hub with routes := tabPutD 0 s.hub.routes (2 * src + word) (w &&& m) } }

/-! ### Host links (R467, R468) -/

/-- PC_MSI_SEND of function `fn` written. -/
def msiWritten (s : State) (pc fn : Nat) (val : Word) : State :=
  (bitsOf 8 val.toNat).foldl (fun s i => msixRaise s pc fn (8 + i)) s

/-- A write to PC_DOORBELL that sets bits. -/
def doorbellSet (s : State) (pc : Nat) (val : Word) : State :=
  if val = 0 then s
  else evtPulse (setReg s (pcPage pc + 0x088) (getReg s (pcPage pc + 0x088) ||| val)) (pcPage pc) 2

end Sys2Proof.Machine
end

