-- ==== Sys2Proof/Machine/LeArith.lean ====
section
/-! DEFINITION. Arithmetic of the loop engines: products, accumulation, packed halves, extraction, addressing, search and
reduce (10_loop_engines.md R241 to R250). -/

namespace Sys2Proof.Machine

/-- LE_MODE in effect (R271). -/
structure LeMd where
  osh : Nat := 0
  psh : Nat := 0
  packed : Bool := false
  esat : Bool := true
  asat : Bool := true
  rnd : Nat := 0
  frac : Bool := false
  deriving DecidableEq, Repr

/-- LE_MODE of an engine's page. -/
def leMd (s : State) (page : Nat) : LeMd :=
  { osh := getF s page LE_MODE_OSH, psh := getF s page LE_MODE_PSH, packed := flag s page LE_MODE_PACKED
    esat := flag s page LE_MODE_ESAT, asat := flag s page LE_MODE_ASAT, rnd := getF s page LE_MODE_RND
    frac := flag s page LE_MODE_FRAC }

/-- `v` in `n` bits, signed or not. -/
def reading (sgn : Bool) (n v : Nat) : Int := if sgn then signed n v else (v % 2 ^ n : Nat)

/-- The exact product of two operands of `n` bits and whether it was limited (R241, R243): a doubled signed product that
would reach the top of its range. -/
def leProduct (n : Nat) (frac sa sb : Bool) (a b : Int) : Int × Bool :=
  if frac && sa && sb then
    if 2 * (a * b) = 2 ^ (2 * n - 1) then (2 ^ (2 * n - 1) - 1, true) else (2 * (a * b), false)
  else (a * b, false)

/-- A result of `n` signed bits (R242): the value kept and whether the exact result left the range. -/
def leFit (n : Nat) (asat : Bool) (v : Int) : Int × Bool :=
  if v < -(2 ^ (n - 1)) then (if asat then -(2 ^ (n - 1)) else signed n (v % 2 ^ n).toNat, true)
  else if (2 ^ (n - 1) : Int) ≤ v then (if asat then 2 ^ (n - 1) - 1 else signed n (v % 2 ^ n).toNat, true)
  else (v, false)

/-- Division by 2^`sh` with rounding RND (R244). -/
def leRound (rnd sh : Nat) (v : Int) : Int :=
  if sh = 0 then v
  else
    match rnd with
    | 0 => v / 2 ^ sh
    | 1 => (v + 2 ^ (sh - 1)) / 2 ^ sh
    | _ =>
      let q := v / 2 ^ sh
      let r := v % 2 ^ sh
      if r < 2 ^ (sh - 1) then q else if (2 ^ (sh - 1) : Int) < r then q + 1 else q + q % 2

/-- Extraction of `n` bits from a value (R244): the bits and whether the rounded value left the range. -/
def leExtractN (n rnd sh : Nat) (esat sgn : Bool) (v : Int) : Nat × Bool :=
  let r := leRound rnd sh v
  let lo : Int := if sgn then -(2 ^ (n - 1)) else 0
  let hi : Int := if sgn then 2 ^ (n - 1) - 1 else 2 ^ n - 1
  let bits := fun (x : Int) => (x % 2 ^ n).toNat
  if r < lo then (bits (if esat then lo else r), true)
  else if hi < r then (bits (if esat then hi else r), true)
  else (bits r, false)

/-- An accumulator as its parts: whole, or AH and AL (R243). -/
def accParts (packed : Bool) (a : BitVec 56) : List Int :=
  if packed then [signed 28 (a.toNat / 2 ^ 28), signed 28 a.toNat] else [signed 56 a.toNat]

/-- The accumulator whose parts are given. -/
def accJoin (packed : Bool) (ps : List Int) : BitVec 56 :=
  if packed then BitVec.ofNat 56 ((ps.getD 0 0 % 2 ^ 28).toNat * 2 ^ 28 + (ps.getD 1 0 % 2 ^ 28).toNat)
  else BitVec.ofNat 56 (ps.getD 0 0 % 2 ^ 56).toNat

/-- Width of one part of an accumulator and of one part of an operand. -/
def accBits (packed : Bool) : Nat := if packed then 28 else 56
@[inherit_doc accBits] def opBits (packed : Bool) : Nat := if packed then 12 else 24

/-- A 24-bit operand as its parts. -/
def opParts (packed sgn : Bool) (d : BitVec 24) : List Int :=
  if packed then [reading sgn 12 (d.toNat / 4096), reading sgn 12 d.toNat] else [reading sgn 24 d.toNat]

/-- Extraction of a whole accumulator (R244). -/
def leExtract (md : LeMd) (sgn : Bool) (a : BitVec 56) : BitVec 24 × Bool :=
  if md.packed then
    let h := leExtractN 12 md.rnd md.psh md.esat sgn (signed 28 (a.toNat / 2 ^ 28))
    let l := leExtractN 12 md.rnd md.psh md.esat sgn (signed 28 a.toNat)
    (BitVec.ofNat 24 (h.1 * 4096 + l.1), h.2 || l.2)
  else
    let r := leExtractN 24 md.rnd md.osh md.esat sgn (signed 56 a.toNat)
    (BitVec.ofNat 24 r.1, r.2)

/-- The exact result of operation `mop` on one part: target, other half, product or scaled operand (11_loop_programs.md
R284). -/
def accOp (mop : Nat) (t o v : Int) : Int :=
  match mop with
  | 1 => v
  | 2 => t + v
  | 3 => t - v
  | 4 => 0
  | 5 => v
  | 6 => t + v
  | 7 => t - v
  | 8 => t + o
  | 9 => t - o
  | 10 => o
  | 11 => -t
  | 12 => if v < t then v else t
  | 13 => if t < v then v else t
  | _ => t

/-- The operand of operation `mop` on one part and whether its product was limited: a × b, a × S or b × S. -/
def accArg (md : LeMd) (mop : Nat) (sa sb : Bool) (a b : Int) : Int × Bool :=
  let sh := if md.packed then md.psh else md.osh
  if mop ≤ 3 then leProduct (opBits md.packed) md.frac sa sb a b
  else if mop ≤ 7 then (a * 2 ^ sh, false)
  else (b * 2 ^ sh, false)

/-- One lane of an accumulator operation (MOP 1 to 13): the new accumulator and AV. -/
def laneAcc (md : LeMd) (mop : Nat) (sa sb : Bool) (t o : BitVec 56) (a b : BitVec 24) : BitVec 56 × Bool :=
  let tp := accParts md.packed t
  let op := accParts md.packed o
  let ap := opParts md.packed sa a
  let bp := opParts md.packed sb b
  let rs := (List.range tp.length).map fun i =>
    let v := accArg md mop sa sb (ap.getD i 0) (bp.getD i 0)
    let r := leFit (accBits md.packed) md.asat (accOp mop (tp.getD i 0) (op.getD i 0) v.1)
    (r.1, r.2 || v.2)
  (accJoin md.packed (rs.map (·.1)), rs.any (·.2))

/-- Z and N of a 56-bit result (11_loop_programs.md R286): N follows the high half in packed mode, which is bit 55 too. -/
def accZN (r : BitVec 56) : Bool × Bool := (r = 0, r.msb)

/-- The address arithmetic of R247: P with buffer base B, length L and modifier or offset `m`. -/
def leMod (p b : BitVec 16) (l : BitVec 13) (m : Int) : BitVec 16 :=
  if l = 0 then BitVec.ofNat 16 (((p.toNat : Int) + m) % 65536).toNat
  else BitVec.ofNat 16 (((b.toNat : Int) + ((p.toNat : Int) - b.toNat + m) % l.toNat) % 65536).toNat

/-- The winner of a reduce over values and indices (R250): its lane. -/
def leWinner (isMax : Bool) (v : Nat → Int) (ix : Nat → Nat) : Nat :=
  [1, 2, 3].foldl (fun w k =>
    let better := if isMax then decide (v w < v k) else decide (v k < v w)
    if better || (v k = v w && decide (ix k < ix w)) then k else w) 0

end Sys2Proof.Machine
end

