-- ==== Sys2Proof/Machine/LeIsa.lean ====
section
/-! DEFINITION. The instruction word of the loop engines: slots, their decoding and their encoding (11_loop_programs.md R272
to R285). -/

namespace Sys2Proof.Machine

/-- Operations of the C slot (R274). A conditional or unconditional branch has condition 0 BR, 1 BZ, 2 BNZ, 3 BN, 4 BNN,
5 BSL. -/
inductive COp where
  | nop | end_ | trap
  | br (cond : Nat) (t : Nat)
  | call (t : Nat)
  | ret
  | lexit (t : Nat)
  | loopd (r len : Nat)
  | loopi (len n : Nat)
  | movto (reg r : Nat)
  | movfrom (reg r : Nat)
  | setr (reg imm : Nat)
  | ngo (k : Nat)
  | nwait (mask : Nat)
  | clrf (mask : Nat)
  deriving DecidableEq, Repr

/-- Operations of the X and Y slots (R279). -/
inductive XOp where
  | nop
  | pop (port g : Nat)
  | push (port g : Nat) (last : Bool)
  | ld (i am r : Nat) (q : Bool)
  | st (i am r : Nat) (q : Bool)
  | pmod (i am : Nat)
  deriving DecidableEq, Repr

/-- The M slot: MOP 0 for no operation (R284). -/
structure MOp where
  mop : Nat
  f : MFields
  deriving DecidableEq, Repr

/-- A whole instruction. -/
structure LeInstr where
  c : COp
  x : XOp
  y : XOp
  m : MOp
  deriving DecidableEq, Repr

/-! ### Registers of the state map (10_loop_engines.md R239) -/

/-- A register of the state map from 0x3000. -/
inductive LReg where
  | d (i : Nat) | aLo (i : Nat) | aHi (i : Nat) | p (i : Nat) | b (i : Nat) | l (i : Nat) | m (i : Nat)
  | lc (i : Nat) | ln (i : Nat) | lbeg (i : Nat) | lend (i : Nat) | ldepth | ix (i : Nat) | pc | flags | ctx
  | dLoc (k : Nat) | dRlo (k : Nat) | dRhi (k : Nat) | dCtl (k : Nat)
  deriving DecidableEq, Repr

/-- The register at 0x3000 + `a`. -/
def lregAt (a : Nat) : Option LReg :=
  if a < 0x10 then some (.d a)
  else if a < 0x20 then some (if a % 2 = 0 then .aLo ((a - 0x10) / 2) else .aHi ((a - 0x10) / 2))
  else if a < 0x28 then some (.p (a - 0x20))
  else if a < 0x30 then some (.b (a - 0x28))
  else if a < 0x38 then some (.l (a - 0x30))
  else if a < 0x40 then some (.m (a - 0x38))
  else if a < 0x44 then some (.lc (a - 0x40))
  else if a < 0x48 then some (.ln (a - 0x44))
  else if a < 0x4C then some (.lbeg (a - 0x48))
  else if a < 0x50 then some (.lend (a - 0x4C))
  else if a = 0x50 then some .ldepth
  else if a < 0x54 then none
  else if a < 0x58 then some (.ix (a - 0x54))
  else if a = 0x58 then some .pc
  else if a = 0x59 then some .flags
  else if a = 0x5A then some .ctx
  else if a < 0x60 then none
  else if a < 0x70 then
    let k := (a - 0x60) / 4
    some (match a % 4 with | 0 => .dLoc k | 1 => .dRlo k | 2 => .dRhi k | _ => .dCtl k)
  else none

/-- Bits a register holds. -/
def LReg.bits (r : LReg) : Nat :=
  match r with
  | .d _ => 24 | .aLo _ => 32 | .aHi _ => 24 | .p _ | .b _ | .m _ | .lc _ | .ln _ | .ix _ => 16 | .l _ => 13
  | .lbeg _ | .lend _ | .pc => 11 | .ldepth => 3 | .flags => 16 | .ctx => 8
  | .dLoc _ => 13 | .dRlo _ => 32 | .dRhi _ => 10 | .dCtl _ => 20

/-- A register moved with a pair of D registers (R277). -/
def LReg.pair (r : LReg) : Bool := match r with | .aLo _ | .dRlo _ => true | _ => false

/-! ### Decoding; none: ILLEGAL -/

/-- A value where a field that must be 0 is 0. -/
def zeroed {α : Type} (n : Nat) (v : α) : Option α := if n = 0 then some v else none

/-- A move to or from register `reg` with D register `r` (R277). -/
def moveOk (reg r : Nat) (write : Bool) : Bool :=
  match lregAt reg with
  | none => false
  | some x => !(write && (x = .pc || x = .ctx)) && !(x.pair && r % 2 = 1)

/-- A C slot `c` with the immediate `imm` of a long form. -/
def decC (c imm : Nat) : Option COp :=
  let v := c % 2048
  let sink := v / 128
  match c / 2048 with
  | 0x00 => zeroed v .nop
  | 0x01 => zeroed v .end_
  | 0x02 => zeroed v .trap
  | 0x03 => some (.br 0 v)
  | 0x04 => some (.br 1 v)
  | 0x05 => some (.br 2 v)
  | 0x06 => some (.br 3 v)
  | 0x07 => some (.br 4 v)
  | 0x08 => some (.br 5 v)
  | 0x09 => some (.call v)
  | 0x0A => zeroed v .ret
  | 0x0B => some (.lexit v)
  | 0x0C => some (.loopd sink (v % 128))
  | 0x0D => if moveOk (v / 16) (v % 16) true then some (.movto (v / 16) (v % 16)) else none
  | 0x0E => if moveOk (v / 16) (v % 16) false then some (.movfrom (v / 16) (v % 16)) else none
  | 0x0F => zeroed (v / 4) (.ngo (v % 4))
  | 0x10 => if v / 16 = 0 && v != 0 then some (.nwait v) else none
  | 0x11 => zeroed (v / 256) (.clrf v)
  | 0x18 => zeroed (sink + imm / 65536) (.loopi (v % 128) (imm % 65536))
  | 0x19 =>
    match lregAt (v % 128) with
    | none => none
    | some r => if sink = 0 && moveOk (v % 128) 0 true && imm / 2 ^ r.bits = 0 then some (.setr (v % 128) imm) else none
  | _ => none

/-- The C slot is a long form: the X and Y slots are its immediate (R273). -/
def longForm (c : Nat) : Bool := c / 2048 = 0x18 || c / 2048 = 0x19

/-- An X or Y slot. -/
def decX (v : Nat) : Option XOp :=
  let i := v / 128 % 8
  let am := v / 32 % 4
  let r := v / 2 % 16
  let q := v % 2 = 1
  match v / 1024 with
  | 0 =>
    match v / 256 % 4 with
    | 0 => zeroed (v % 256) .nop
    | 1 => zeroed (v % 32) (.pop (v / 128 % 2) (v / 32 % 4))
    | 2 => zeroed (v % 16) (.push (v / 128 % 2) (v / 32 % 4) (v / 16 % 2 = 1))
    | _ => none
  | 1 => if q && r % 4 != 0 then none else some (.ld i am r q)
  | 2 => if q && r % 4 != 0 then none else some (.st i am r q)
  | _ => if (am = 1 || am = 2) && v % 32 = 0 then some (.pmod i am) else none

/-- Fields of an M slot. -/
def mFields (v : Nat) : MFields :=
  { h := v / 2 ^ 18 % 2, ga := v / 2 ^ 16 % 4, bb := v / 2 ^ 15 % 2 = 1, bs := v / 2 ^ 11 % 16, sa := v / 2 ^ 10 % 2 = 1
    sb := v / 2 ^ 9 % 2 = 1, fs := v / 2 ^ 8 % 2 = 1, lm := v / 16 % 16, aux := v % 16 }

/-- The fields an operation does not use are 0, and those it uses have values it defines (R283 to R285); BS = 8 of a search
is legal only inside a loop, which the issue checks. -/
def mFieldsOk (mop : Nat) (f : MFields) : Bool :=
  let noA := f.ga = 0 && !f.sa
  let noB := !f.bb && f.bs = 0 && !f.sb
  let bOk := f.bb || decide (f.bs < 4)
  match mop with
  | 0 => f = { }
  | 1 | 2 | 3 => bOk && f.aux = 0
  | 4 | 8 | 9 | 10 | 11 => noA && noB && f.aux = 0
  | 5 | 6 | 7 | 14 => noB && f.aux = 0
  | 12 | 13 => noA && bOk && f.aux = 0
  | 15 | 16 => !f.bb && decide (f.bs ≤ 8) && !f.sb && !f.fs && decide (f.aux < 3)
  | 17 | 18 => noA && noB && !f.fs && f.lm = 15 && f.aux = 0
  | _ => false

/-- An M slot. -/
def decM (v : Nat) : Option MOp :=
  if mFieldsOk (v / 2 ^ 19) (mFields v) then some { mop := v / 2 ^ 19, f := mFields v } else none

/-- The instruction a word holds (R272, R273). -/
def decWord (w : Nat) : Option LeInstr :=
  let c := w / 2 ^ 48 % 65536
  let xy := w / 2 ^ 24 % 2 ^ 24
  match decC c xy, decM (w % 2 ^ 24) with
  | some co, some mo =>
    if longForm c then some { c := co, x := .nop, y := .nop, m := mo }
    else
      match decX (xy / 4096), decX (xy % 4096) with
      | some xo, some yo => some { c := co, x := xo, y := yo, m := mo }
      | _, _ => none
  | _, _ => none

/-! ### Encoding -/

/-- C slot bits of an operation. -/
def encC (o : COp) : Nat :=
  match o with
  | .nop => 0
  | .end_ => 0x01 * 2048
  | .trap => 0x02 * 2048
  | .br k t => (0x03 + k) * 2048 + t
  | .call t => 0x09 * 2048 + t
  | .ret => 0x0A * 2048
  | .lexit t => 0x0B * 2048 + t
  | .loopd r len => 0x0C * 2048 + r * 128 + len
  | .movto reg r => 0x0D * 2048 + reg * 16 + r
  | .movfrom reg r => 0x0E * 2048 + reg * 16 + r
  | .ngo k => 0x0F * 2048 + k
  | .nwait mask => 0x10 * 2048 + mask
  | .clrf mask => 0x11 * 2048 + mask
  | .loopi len _ => 0x18 * 2048 + len
  | .setr reg _ => 0x19 * 2048 + reg

/-- X or Y slot bits of an operation. -/
def encX (o : XOp) : Nat :=
  match o with
  | .nop => 0
  | .pop port g => 256 + port * 128 + g * 32
  | .push port g last => 512 + port * 128 + g * 32 + ofBool last * 16
  | .ld i am r q => 1024 + i * 128 + am * 32 + r * 2 + ofBool q
  | .st i am r q => 2048 + i * 128 + am * 32 + r * 2 + ofBool q
  | .pmod i am => 3072 + i * 128 + am * 32

/-- M slot bits of an operation. -/
def encM (o : MOp) : Nat :=
  o.mop * 2 ^ 19 + o.f.h * 2 ^ 18 + o.f.ga * 2 ^ 16 + ofBool o.f.bb * 2 ^ 15 + o.f.bs * 2 ^ 11 + ofBool o.f.sa * 2 ^ 10
    + ofBool o.f.sb * 2 ^ 9 + ofBool o.f.fs * 2 ^ 8 + o.f.lm * 16 + o.f.aux

/-- The word of an instruction. -/
def encWord (i : LeInstr) : Nat :=
  let xy := match i.c with
    | .loopi _ n => n
    | .setr _ imm => imm
    | _ => encX i.x * 4096 + encX i.y
  encC i.c * 2 ^ 48 + xy * 2 ^ 24 + encM i.m

/-- Operands lie in the ranges their fields have, and the move operands are ones R277 accepts. -/
def COp.wf (o : COp) : Bool :=
  match o with
  | .nop | .end_ | .trap | .ret => true
  | .br k t => decide (k < 6) && decide (t < 2048)
  | .call t | .lexit t => decide (t < 2048)
  | .loopd r len => decide (r < 16) && decide (len < 128)
  | .loopi len n => decide (len < 128) && decide (n < 65536)
  | .movto reg r => decide (reg < 128) && decide (r < 16) && moveOk reg r true
  | .movfrom reg r => decide (reg < 128) && decide (r < 16) && moveOk reg r false
  | .setr reg imm => decide (reg < 128) && decide (imm < 2 ^ 24) && moveOk reg 0 true &&
      (match lregAt reg with | some x => imm / 2 ^ x.bits = 0 | none => false)
  | .ngo k => decide (k < 4)
  | .nwait mask => decide (0 < mask) && decide (mask < 16)
  | .clrf mask => decide (mask < 256)

@[inherit_doc COp.wf] def XOp.wf (o : XOp) : Bool :=
  match o with
  | .nop => true
  | .pop port g | .push port g _ => decide (port < 2) && decide (g < 4)
  | .ld i am r q | .st i am r q => decide (i < 8) && decide (am < 4) && decide (r < 16) && !(q && r % 4 != 0)
  | .pmod i am => decide (i < 8) && (am = 1 || am = 2)

@[inherit_doc COp.wf] def MOp.wf (o : MOp) : Bool :=
  decide (o.f.h < 2) && decide (o.f.ga < 4) && decide (o.f.bs < 16) && decide (o.f.lm < 16) && decide (o.f.aux < 16)
    && mFieldsOk o.mop o.f

/-- An instruction that some word encodes: its slots are well formed, and a long form leaves X and Y without operation. -/
def LeInstr.wf (i : LeInstr) : Bool :=
  i.c.wf && i.x.wf && i.y.wf && i.m.wf &&
    (match i.c with | .loopi _ _ | .setr _ _ => i.x = .nop && i.y = .nop | _ => true)

end Sys2Proof.Machine
end

