-- ==== Sys2Proof/Machine/LeOps.lean ====
section
/-! DEFINITION. Loop engines at work: the state map, NoC descriptors, starts, the issue of one instruction with its
exceptions, and halts (10_loop_engines.md R239, R240, R255 to R264; 11_loop_programs.md R274 to R290). -/

namespace Sys2Proof.Machine

/-! ### Registers -/

/-- Data register `i`. -/
def dReg (x : Engine) (i : Nat) : BitVec 24 := tabOr 0 x.d i
/-- Accumulator `i`. -/
def aReg (x : Engine) (i : Nat) : BitVec 56 := tabOr 0 x.a i
/-- Descriptor `k`. -/
def leDesc (x : Engine) (k : Nat) : LeDesc := tabOr { } x.descs k
/-- An engine with data register `i` set. -/
def setD (x : Engine) (i : Nat) (v : BitVec 24) : Engine := { x with d := tabPutD 0 x.d i v }
@[inherit_doc setD] def setA (x : Engine) (i : Nat) (v : BitVec 56) : Engine := { x with a := tabPutD 0 x.a i v }
@[inherit_doc setD] def setP (x : Engine) (i : Nat) (v : BitVec 16) : Engine := { x with p := tabPutD 0 x.p i v }
@[inherit_doc setD] def setIx (x : Engine) (i : Nat) (v : BitVec 16) : Engine := { x with ix := tabPutD 0 x.ix i v }
@[inherit_doc setD] def setDescr (x : Engine) (k : Nat) (v : LeDesc) : Engine := { x with descs := tabPutD { } x.descs k v }
/-- An engine with bit `i` of FLAGS set to `b` (R245). -/
def setFlag (x : Engine) (i : Nat) (b : Bool) : Engine := { x with flags := BitVec.ofNat 16 (nSet x.flags.toNat i b) }

/-- Present value of a register of the state map. -/
def lregGet (x : Engine) (r : LReg) : Nat :=
  match r with
  | .d i => (dReg x i).toNat
  | .aLo i => (aReg x i).toNat % 2 ^ 32
  | .aHi i => (aReg x i).toNat / 2 ^ 32
  | .p i => (tabOr 0 x.p i).toNat
  | .b i => (tabOr 0 x.b i).toNat
  | .l i => (tabOr 0 x.l i).toNat
  | .m i => (tabOr 0 x.m i).toNat
  | .lc i => (tabOr 0 x.lc i).toNat
  | .ln i => (tabOr 0 x.ln i).toNat
  | .lbeg i => (tabOr 0 x.lbeg i).toNat
  | .lend i => (tabOr 0 x.lend i).toNat
  | .ldepth => x.ldepth
  | .ix i => (tabOr 0 x.ix i).toNat
  | .pc => x.pc.toNat
  | .flags => x.flags.toNat
  | .ctx => x.ctx.toNat
  | .dLoc k => (leDesc x k).localA
  | .dRlo k => (leDesc x k).remLo.toNat
  | .dRhi k => (leDesc x k).remHi
  | .dCtl k =>
    let d := leDesc x k
    d.count + ofBool d.dir * 2 ^ 8 + ofBool d.busy * 2 ^ 17 + ofBool d.done * 2 ^ 18 + ofBool d.err * 2 ^ 19

/-- An engine with a register of the state map written with `v`; of a descriptor's CTL, COUNT and DIR. -/
def lregPut (x : Engine) (r : LReg) (v : Nat) : Engine :=
  match r with
  | .d i => setD x i (BitVec.ofNat 24 v)
  | .aLo i => setA x i (BitVec.ofNat 56 ((aReg x i).toNat / 2 ^ 32 * 2 ^ 32 + v % 2 ^ 32))
  | .aHi i => setA x i (BitVec.ofNat 56 (v % 2 ^ 24 * 2 ^ 32 + (aReg x i).toNat % 2 ^ 32))
  | .p i => setP x i (BitVec.ofNat 16 v)
  | .b i => { x with b := tabPutD 0 x.b i (BitVec.ofNat 16 v) }
  | .l i => { x with l := tabPutD 0 x.l i (BitVec.ofNat 13 v) }
  | .m i => { x with m := tabPutD 0 x.m i (BitVec.ofNat 16 v) }
  | .lc i => { x with lc := tabPutD 0 x.lc i (BitVec.ofNat 16 v) }
  | .ln i => { x with ln := tabPutD 0 x.ln i (BitVec.ofNat 16 v) }
  | .lbeg i => { x with lbeg := tabPutD 0 x.lbeg i (BitVec.ofNat 11 v) }
  | .lend i => { x with lend := tabPutD 0 x.lend i (BitVec.ofNat 11 v) }
  | .ldepth => { x with ldepth := v % 8 }
  | .ix i => setIx x i (BitVec.ofNat 16 v)
  | .pc => { x with pc := BitVec.ofNat 11 v }
  | .flags => { x with flags := BitVec.ofNat 16 (v % 2 ^ 13) }
  | .ctx => x
  | .dLoc k => setDescr x k { leDesc x k with localA := v % 2 ^ 13 }
  | .dRlo k => setDescr x k { leDesc x k with remLo := BitVec.ofNat 32 v }
  | .dRhi k => setDescr x k { leDesc x k with remHi := v % 2 ^ 10 }
  | .dCtl k => setDescr x k { leDesc x k with count := v % 2 ^ 7, dir := nBit v 8 }

/-! ### Banks -/

/-- Bank word at `a`, bit 12 the bank (R246). -/
def bankAt (x : Engine) (a : Nat) : BitVec 25 :=
  if a < 4096 then tabOr 0 x.bankX a else tabOr 0 x.bankY (a % 4096)
/-- An engine with the bank word at `a` written. -/
def bankPut (x : Engine) (a : Nat) (d : BitVec 24) : Engine :=
  if a < 4096 then { x with bankX := tabPutD 0 x.bankX a (bankWord d) }
  else { x with bankY := tabPutD 0 x.bankY (a % 4096) (bankWord d) }

/-! ### NoC descriptors (R262 to R264) -/

/-- The checks of GO (R263). -/
def goBad (d : LeDesc) : Bool :=
  d.count = 0 || decide (64 < d.count) || decide (4096 < d.localA % 4096 + d.count) || d.remLo.toNat % 4 != 0

/-- Addresses of the bank words of a descriptor. -/
def descWords (d : LeDesc) : List Nat := (List.range d.count).map fun i => d.localA / 4096 * 4096 + (d.localA + i) % 4096

/-- Bytes a bank word travels in: byte 3 is the sign extension of bit 23 (R264). -/
def wordBytes (w : BitVec 25) : List Byte := toBytes 4 ((BitVec.ofNat 24 w.toNat).signExtend 32).toNat

/-- Descriptor `k` completes with an error or without (R264). -/
def descEnd (s : State) (die e k : Nat) (err : Bool) : State :=
  let x := engOf s die e
  let s := setEng s die e (setDescr x k { leDesc x k with busy := false, done := true, err := err, resp := none })
  if err then evtPulse s (lePage die e) 4 else s

/-- Descriptor `k` starts; `run`: a program started it. It is a transfer to the set (R237). A bank parity error met while a write
is sent ends it (R264). -/
def descGo (s : State) (die e k : Nat) (run : Bool) : State :=
  let s := setOpen s die e false
  let x := engOf s die e
  let d := { leDesc x k with busy := true, done := false, err := false, ofRun := run && (leDesc x k).dir, resp := none }
  let s := setEng s die e (setDescr x k d)
  let ws := (descWords d).map (bankAt x)
  if d.dir && ws.any fun w => !parityOk w then descEnd (countUp s (lePage die e) LE_ERR_PAR 1) die e k true
  else
    accessTake s
      { ini := leIni die e, kind := ofBool d.dir, addr := d.remHi * 2 ^ 32 + d.remLo.toNat, size := 4 * d.count
        data := if d.dir then ws.flatMap wordBytes else [], tag := leTag e k } false

/-! ### The state map as software reaches it (R239, R240) -/

/-- The engine issues: addresses from 0x3000 are closed to software. -/
def issuing (x : Engine) : Bool := x.mode != .idle && x.mode != .halt && x.mode != .exc

/-- What a read of the state map at `a` gives: the word, or the fault. In direct mode the accumulators read as they stand
(R265). -/
def mapRead (x : Engine) (a : Nat) : Nat × Option Nat :=
  if a < 0x2000 then
    let w := bankAt x a
    (w.toNat % 2 ^ 24, if parityOk w then none else some 0x0104)
  else if a < 0x3000 then
    let w := (eccRead (imemWord x ((a - 0x2000) / 2))).1
    (if a % 2 = 0 then w % 2 ^ 32 else w / 2 ^ 32, none)
  else
    match lregAt (a - 0x3000) with
    | none => (0, some 0x0001)
    | some r =>
      let acc := match r with | .aLo _ | .aHi _ => true | _ => false
      if issuing x && !(x.mode = .direct && acc) then (0, some 0x0102)
      else
        match r with
        | .aHi i => (((BitVec.ofNat 24 (lregGet x (.aHi i))).signExtend 32).toNat, none)
        | _ => (lregGet x r, none)

/-- A written word has a bit that must be 0, for register `r`. -/
def mapReserved (r : LReg) (v : Nat) : Bool :=
  match r with
  | .aHi _ | .ctx => false
  | .flags => v / 2 ^ 13 != 0
  | .dRlo _ => v % 4 != 0
  | .dCtl _ => v / 2 ^ 20 != 0 || v / 2 ^ 9 % 2 ^ 7 != 0 || nBit v 7
  | _ => v / 2 ^ r.bits != 0

/-- Low half that an odd write of IMEM word `w` takes (R239). -/
def imemLow (x : Engine) (w : Nat) : Nat :=
  match x.heldLow with
  | some (n, l) => if n = w then l.toNat else (eccRead (imemWord x w)).1 % 2 ^ 32
  | none => (eccRead (imemWord x w)).1 % 2 ^ 32

/-- A write of `v` at an IMEM address leaves what the word reads as unchanged. -/
def imemSame (x : Engine) (a v : Nat) : Bool :=
  let w := (a - 0x2000) / 2
  let now := (eccRead (imemWord x w)).1
  if a % 2 = 0 then now % 2 ^ 32 = v % 2 ^ 32 else now = v % 2 ^ 32 * 2 ^ 32 + imemLow x w

/-- A value outside the range of register `r`, GO with a failed check included (R239, R247, R263). -/
def mapRange (x : Engine) (r : LReg) (v : Nat) : Bool :=
  match r with
  | .l _ => decide (4096 < v)
  | .ldepth => decide (4 < v)
  | .dCtl k => nBit v 16 && goBad { leDesc x k with count := v % 2 ^ 7, dir := nBit v 8 }
  | _ => false

/-- The fault a write of `v` at `a` gives, in the order of 02_register_pages.md R39; `runs`: the block runs, which closes IMEM
to a change (STOPPED). -/
def mapFault (x : Engine) (runs : Bool) (a v : Nat) : Option Nat :=
  if a < 0x2000 then (if v / 2 ^ 24 != 0 then some 0x0005 else none)
  else if a < 0x3000 then (if runs && !imemSame x a v then some 0x0002 else none)
  else
    match lregAt (a - 0x3000) with
    | none => some 0x0001
    | some r =>
      if mapReserved r v then some 0x0005
      else if mapRange x r v then some 0x0001
      else if issuing x then some 0x0102
      else
        match r with
        | .dCtl k => if nBit v 16 && (leDesc x k).busy then some 0x0103 else none
        | _ => none

/-- A write of `v` at `a` that gives no fault. -/
def mapWrite (s : State) (die e a v : Nat) : State :=
  let x := engOf s die e
  if a < 0x2000 then setEng s die e (bankPut x a (BitVec.ofNat 24 v))
  else if a < 0x3000 then
    let w := (a - 0x2000) / 2
    if a % 2 = 0 then setEng s die e { x with heldLow := some (w, BitVec.ofNat 32 v) }
    else
      setEng s die e { x with imem := tabPutD 0 x.imem w (eccWord (v % 2 ^ 32 * 2 ^ 32 + imemLow x w)), heldLow := none }
  else
    match lregAt (a - 0x3000) with
    | none => s
    | some r =>
      let s := setEng s die e (lregPut x r v)
      match r with
      | .dCtl k => if nBit v 16 then descGo s die e k false else s
      | _ => s

/-- LE_MADDR after an access without error. -/
def mapStep (s : State) (die e : Nat) : State :=
  let p := lePage die e
  if flag s p LE_MADDR_INC then putF s p LE_MADDR_ADDR ((getF s p LE_MADDR_ADDR + 1) % 65536) else s

/-- A read of LE_MDATA: the state after it, the word and the fault. It re-opens a closed set gate (R237). -/
def mdataGet (s : State) (die e : Nat) : State × Nat × Option Nat :=
  let s := setOpen s die e false
  let a := getF s (lePage die e) LE_MADDR_ADDR
  let r := mapRead (engOf s die e) a
  match r.2 with
  | none => (mapStep s die e, r.1, none)
  | some 0x0104 => (countUp s (lePage die e) LE_ERR_PAR 1, 0, some 0x0104)
  | some f => (s, 0, some f)

/-- A write of LE_MDATA that gives no fault. -/
def mdataPut (s : State) (die e v : Nat) : State :=
  let s := setOpen s die e false
  mapStep (mapWrite s die e (getF s (lePage die e) LE_MADDR_ADDR) v) die e

/-! ### Exceptions (R255, 11_loop_programs.md R288) -/

/-- Exception codes. -/
abbrev excIllegal : Nat := 1
@[inherit_doc excIllegal] abbrev excAddr : Nat := 2
@[inherit_doc excIllegal] abbrev excLoop : Nat := 3
@[inherit_doc excIllegal] abbrev excStall : Nat := 4
@[inherit_doc excIllegal] abbrev excImem : Nat := 5
@[inherit_doc excIllegal] abbrev excDpar : Nat := 6
@[inherit_doc excIllegal] abbrev excNoc : Nat := 7
@[inherit_doc excIllegal] abbrev excTrap : Nat := 8

/-- The engine takes exception `code` at address `pc`: it enters EXC, the event sets and the run completes EXC. -/
def leExc (s : State) (die e code pc : Nat) : State :=
  let p := lePage die e
  let s := setEng s die e { engOf s die e with mode := .exc, stall := 0, stepping := false }
  let s := putF (putF (putFlag s p LE_EXC_VALID true) p LE_EXC_CODE code) p LE_EXC_PC pc
  let s := runDone (evtPulse s p 1) die e .exc
  if code = excImem || code = excDpar then raiseFrom s p 1 0x0502 (e + pc * 65536) else s

/-! ### Addresses of the X and Y slots (R246, R247, R280, R281) -/

/-- Address an access of Pi in mode `am` uses, before its check. -/
def xyAddr (x : Engine) (i am : Nat) : Nat :=
  if am = 3 then
    (leMod (tabOr 0 x.p i) (tabOr 0 x.b i) (tabOr 0 x.l i) (tabOr 0 x.m i : BitVec 16).toInt).toNat
  else (tabOr 0 x.p i : BitVec 16).toNat

/-- Pi after a post-modify, where `am` is one. -/
def xyMod (x : Engine) (i am : Nat) : Option (BitVec 16) :=
  match am with
  | 1 => some (leMod (tabOr 0 x.p i) (tabOr 0 x.b i) (tabOr 0 x.l i) (tabOr 0 x.m i : BitVec 16).toInt)
  | 2 => some (leMod (tabOr 0 x.p i) (tabOr 0 x.b i) (tabOr 0 x.l i) 1)
  | _ => none

/-- Bank words an access covers, and the D register each pairs with. -/
def xyWords (a r : Nat) (q : Bool) : List (Nat × Nat) :=
  if q then (List.range 4).map fun k => (a / 4 * 4 + k, r / 4 * 4 + k) else [(a, r)]

/-- The access of a slot: write?, words and registers; none where the slot makes none. -/
def xyAccess (x : Engine) (o : XOp) : Option (Bool × List (Nat × Nat)) :=
  match o with
  | .ld i am r q => some (false, xyWords (xyAddr x i am) r q)
  | .st i am r q => some (true, xyWords (xyAddr x i am) r q)
  | _ => none

/-- A slot's address lies outside the banks. -/
def xyBad (x : Engine) (o : XOp) : Bool :=
  match o with
  | .ld i am _ _ | .st i am _ _ => decide (8192 ≤ xyAddr x i am)
  | _ => false

/-! ### Registers written by the slots of one instruction (R251, 11_loop_programs.md R287) -/

/-- Codes of registers: D0 to D15, P from 16, A from 24, IX from 32, Z and N 36, SL 37, WL 38, others by state-map address
from 64. -/
def wcode (r : LReg) : List Nat :=
  match r with
  | .d i => [i] | .p i => [16 + i] | .aLo i | .aHi i => [24 + i] | .ix i => [32 + i] | .flags => [36, 37, 38]
  | .b i => [64 + i] | .l i => [72 + i] | .m i => [80 + i] | .lc i => [88 + i] | .ln i => [92 + i] | .lbeg i => [96 + i]
  | .lend i => [100 + i] | .ldepth => [104] | .pc => [105] | .ctx => [106]
  | .dLoc k => [112 + k] | .dRlo k => [116 + k] | .dRhi k => [120 + k] | .dCtl k => [124 + k]

/-- Written by a C slot. -/
def cWrites (o : COp) : List Nat :=
  match o with
  | .call _ => [14]
  | .movto reg _ | .setr reg _ => (lregAt reg).elim [] wcode
  | .movfrom reg r => match lregAt reg with
    | some x => if x.pair then [r, r + 1] else [r]
    | none => []
  | .nwait _ => [36]
  | _ => []

/-- Written by an X or Y slot. -/
def xWrites (o : XOp) : List Nat :=
  match o with
  | .pop _ g => [4 * g, 4 * g + 1, 4 * g + 2, 4 * g + 3, 37]
  | .ld i am r q =>
    (if q then (List.range 4).map (r / 4 * 4 + ·) else [r]) ++ (if am = 1 || am = 2 then [16 + i] else [])
  | .st i am _ _ => if am = 1 || am = 2 then [16 + i] else []
  | .pmod i _ => [16 + i]
  | _ => []

/-- Written by an M slot: AV and SS are sticky and count as written by no slot (log 19). -/
def mWrites (o : MOp) : List Nat :=
  let lanes := bitsOf 4 o.f.lm
  let zn := if o.f.fs && nBit o.f.lm 0 then [36] else []
  let m := o.mop
  if m = 0 then []
  else if m = 14 then lanes.map (4 * o.f.ga + ·) ++ zn
  else if m = 15 || m = 16 then lanes.map (24 + 4 * o.f.h + ·) ++ lanes.map (32 + ·)
  else if m = 17 || m = 18 then [24 + 4 * o.f.h, 32, 38]
  else lanes.map (24 + 4 * o.f.h + ·) ++ zn

/-- A pop in both X and Y may set SL (R282). -/
def isPop (o : XOp) : Bool := match o with | .pop _ _ => true | _ => false

/-- Two slots write one register. -/
def writesClash (i : LeInstr) : Bool :=
  let y := if isPop i.x && isPop i.y then (xWrites i.y).filter (· != 37) else xWrites i.y
  let all := cWrites i.c ++ xWrites i.x ++ y ++ mWrites i.m
  !decide all.Nodup

/-! ### What stops or holds an instruction -/

/-- Stream port of a pop or push: 0 and 1 SI0 and SI1, 2 and 3 SO0 and SO1. -/
def xyPort (o : XOp) : Option Nat :=
  match o with | .pop p _ => some p | .push p _ _ => some (2 + p) | _ => none

/-- ILLEGAL (R251, R261, 11_loop_programs.md R285). -/
def leIllegal (s : State) (die e : Nat) (x : Engine) (i : LeInstr) : Bool :=
  writesClash i || [i.x, i.y].any (fun o => (xyPort o).any fun p => !portEn s die e p) ||
    ((i.m.mop = 15 || i.m.mop = 16) && i.m.f.bs = 8 && x.ldepth = 0)

/-- The loop a LOOPD or LOOPI enters: N and LEND. -/
def loopEntry (x : Engine) (o : COp) : Option (Nat × Nat) :=
  match o with
  | .loopd r len => some ((dReg x r).toNat % 65536, x.pc.toNat + 1 + len)
  | .loopi len n => some (n, x.pc.toNat + 1 + len)
  | _ => none

/-- Value a MOVTO or SETR writes to register `r` (R277). -/
def moveVal (x : Engine) (o : COp) (r : LReg) : Nat :=
  match o with
  | .movto _ d => if r.pair then (dReg x d).toNat + (dReg x (d + 1)).toNat % 256 * 2 ^ 24 else (dReg x d).toNat % 2 ^ r.bits
  | .setr _ imm => imm
  | _ => 0

/-- The register a MOVTO or SETR writes. -/
def moveTo (o : COp) : Option LReg :=
  match o with | .movto reg _ | .setr reg _ => lregAt reg | _ => none

/-- The descriptor the C slot starts, as it stands when it starts. -/
def cGo (x : Engine) (o : COp) : Option (Nat × LeDesc) :=
  match o with
  | .ngo k => some (k, leDesc x k)
  | _ =>
    match moveTo o with
    | some (.dCtl k) =>
      let v := moveVal x o (.dCtl k)
      if nBit v 16 then some (k, { leDesc x k with count := v % 2 ^ 7, dir := nBit v 8 }) else none
    | _ => none

/-- LOOP (R248, 11_loop_programs.md R275, R277). -/
def leLoopExc (x : Engine) (o : COp) : Bool :=
  match o with
  | .lexit _ => x.ldepth = 0
  | _ =>
    match loopEntry x o, moveTo o with
    | some (n, l), _ => decide (2047 < l) || (n != 0 && decide (4 ≤ x.ldepth))
    | none, some .ldepth => decide (4 < moveVal x o .ldepth)
    | _, _ => false

/-- ADDR (R246, R247, R263). -/
def leAddrExc (x : Engine) (i : LeInstr) : Bool :=
  xyBad x i.x || xyBad x i.y || (cGo x i.c).any (fun g => goBad g.2) ||
    (match moveTo i.c with | some (.l n) => decide (4096 < moveVal x i.c (.l n)) | _ => false)

/-- The exception found at issue, first in the order of 11_loop_programs.md R288; 0 for none. -/
def leIssueExc (s : State) (die e : Nat) (x : Engine) (i : LeInstr) : Nat :=
  if leIllegal s die e x i then excIllegal
  else if i.c = .trap then excTrap
  else if leLoopExc x i.c then excLoop
  else if (cGo x i.c).any (fun g => (leDesc x g.1).busy) then excNoc
  else if leAddrExc x i then excAddr
  else 0

/-- Cause an instruction must wait for, as LE_STAT.STALL: 1 input empty, 2 output full, 3 descriptor; 0 for none. -/
def leWait (x : Engine) (i : LeInstr) : Nat :=
  let uses := fun p => ([i.x, i.y].filter fun o => xyPort o = some p).length
  if x.si0.length < uses 0 || x.si1.length < uses 1 then 1
  else if (uses 2 != 0 && 8 < x.so0.length + uses 2) || (uses 3 != 0 && 8 < x.so1.length + uses 3) then 2
  else
    match i.c with
    | .nwait mask => if (bitsOf 4 mask).any fun k => (leDesc x k).busy then 3 else 0
    | _ => 0

/-! ### Interlocks and banks (R252, R253) -/

/-- Data registers that the M slot takes as operands. -/
def mOperands (o : MOp) : List Nat :=
  let lanes := bitsOf 4 o.f.lm
  let a := lanes.map (4 * o.f.ga + ·)
  let b := if o.f.bb then [o.f.bs] else lanes.map (4 * o.f.bs + ·)
  if 1 ≤ o.mop && o.mop ≤ 3 then a ++ b
  else if 5 ≤ o.mop && o.mop ≤ 7 || o.mop = 15 || o.mop = 16 then a else []

/-- Accumulators that an extraction, search or reduce of the M slot reads. -/
def mReads (o : MOp) : List Nat :=
  if 14 ≤ o.mop && o.mop ≤ 16 then (bitsOf 4 o.f.lm).map (4 * o.f.h + ·)
  else if 17 ≤ o.mop then (List.range 4).map (4 * o.f.h + ·) else []

/-- Data registers a slot stores. -/
def xStores (o : XOp) : List Nat :=
  match o with
  | .st _ _ r q => if q then (List.range 4).map (r / 4 * 4 + ·) else [r]
  | _ => []

/-- The address registers number that a slot forms an address with, and whether B, L and M enter. -/
def xAddrs (o : XOp) : Option (Nat × Bool) :=
  match o with
  | .ld i am _ _ | .st i am _ _ => some (i, am != 0)
  | .pmod i _ => some (i, true)
  | _ => none

/-- The latency that instruction `i` needs from a producer (R252); 0 where it takes nothing of it. Loop control takes LEND at
every instruction of a loop and LC, LN and LBEG at the loop's last (log 96). -/
def hazNeed (x : Engine) (i : LeInstr) (h : LeHazard) : Nat :=
  let addr := fun (f : Nat × Bool → Bool) => [i.x, i.y].any fun o => (xAddrs o).any f
  let loop := x.ldepth != 0
  let last := loop && tabOr 0 x.lend (x.ldepth - 1) = x.pc
  match h with
  | .load r => if (mOperands i.m).contains r || (xStores i.x ++ xStores i.y).contains r then 2 else 0
  | .acc k => if (mReads i.m).contains k then 2 else 0
  | .ext r => if (mOperands i.m).contains r then 2 else 0
  | .flags => match i.c with | .br c _ => if 1 ≤ c && c ≤ 4 then 3 else 0 | _ => 0
  | .move reg =>
    match lregAt reg with
    | some (.p n) => if addr fun a => a.1 = n then 3 else 0
    | some (.b n) | some (.l n) | some (.m n) => if addr fun a => a.1 = n && a.2 then 3 else 0
    | some (.lend n) => if loop && n + 1 = x.ldepth then 3 else 0
    | some (.lc n) | some (.ln n) | some (.lbeg n) => if last && n + 1 = x.ldepth then 3 else 0
    | _ => 0

/-- A producer issued too few cycles before. -/
def hazWait (x : Engine) (i : LeInstr) : Bool := x.haz.any fun h => decide (h.2 < hazNeed x i h.1)

/-- What instruction `i` produces for later ones. -/
def hazMade (i : LeInstr) : List LeHazard :=
  let loads := fun (o : XOp) => match o with
    | .pop _ g => (List.range 4).map (4 * g + ·)
    | .ld _ _ r q => if q then (List.range 4).map (r / 4 * 4 + ·) else [r]
    | _ => []
  let accs := (mWrites i.m).filterMap fun w => if 24 ≤ w && w < 32 then some (LeHazard.acc (w - 24)) else none
  let exts := if i.m.mop = 14 then (bitsOf 4 i.m.f.lm).map fun k => LeHazard.ext (4 * i.m.f.ga + k) else []
  let moves := match i.c with | .movto reg _ | .setr reg _ => [LeHazard.move reg] | _ => []
  let flags := match i.c with
    | .nwait _ => [LeHazard.flags]
    | _ => if i.m.f.fs && 0 < i.m.mop && i.m.mop < 15 then [LeHazard.flags] else []
  (loads i.x ++ loads i.y).map LeHazard.load ++ accs ++ exts ++ moves ++ flags

/-- `n` cycles pass; no latency is longer than 3. -/
def hazAge (x : Engine) (n : Nat) : Engine :=
  { x with haz := (x.haz.map fun h => (h.1, h.2 + n)).filter fun h => decide (h.2 < 3) }

/-- Slots X and Y address the same bank (R253). -/
def sameBank (x : Engine) (i : LeInstr) : Bool :=
  match xyAccess x i.x, xyAccess x i.y with
  | some (_, a :: _), some (_, b :: _) => a.1 / 4096 = b.1 / 4096
  | _, _ => false

/-- Cause an instruction must wait for in this cycle, as LE_STAT.STALL: a stream or descriptor, or 4 an interlock or a bank. -/
def leStall (x : Engine) (i : LeInstr) : Nat :=
  if leWait x i != 0 then leWait x i
  else if hazWait x i || (sameBank x i && !x.bankPaid) then 4 else 0

/-- A cycle in which instruction `i` waits (R253, R271): LE_STALLS counts it. -/
def leStalled (s : State) (die e : Nat) (i : LeInstr) : State :=
  let x := engOf s die e
  let paid := x.bankPaid || (leWait x i = 0 && !hazWait x i)
  let y := { hazAge x 1 with stall := leStall x i, bankPaid := paid }
  countWrap (setEng s die e y) (lePage die e) LE_STALLS_COUNT

/-- Words slot X stores, by address. -/
def xStored (x : Engine) (o : XOp) : List Nat :=
  match xyAccess x o with | some (true, ws) => ws.map (·.1) | _ => []

/-- A loaded word fails its parity; Y's access follows X's (R251, R267). -/
def leParity (x : Engine) (i : LeInstr) : Nat :=
  let bad := fun (o : XOp) (fresh : List Nat) =>
    match xyAccess x o with
    | some (false, ws) => (ws.filter fun w => !fresh.contains w.1 && !parityOk (bankAt x w.1)).length
    | _ => 0
  bad i.x [] + bad i.y (xStored x i.x)

/-! ### Effects of the slots; `x0` is the engine at issue, whose registers every slot reads -/

/-- X or Y slot. -/
def xyEffect (x0 x : Engine) (o : XOp) : Engine :=
  match o with
  | .nop => x
  | .pop port g =>
    let q := if port = 0 then x.si0 else x.si1
    match q with
    | [] => x
    | b :: r =>
      let x := if port = 0 then { x with si0 := r } else { x with si1 := r }
      let x := (List.range 4).foldl (fun x k => setD x (4 * g + k) (BitVec.ofNat 24 (b.data.toNat / 2 ^ (24 * k)))) x
      setFlag x 10 b.last
  | .push port g last =>
    let v := (List.range 4).foldl (fun n k => n + (dReg x0 (4 * g + k)).toNat * 2 ^ (24 * k)) 0
    let b : Beat := { data := BitVec.ofNat 96 v, last := last }
    if port = 0 then { x with so0 := x.so0 ++ [b] } else { x with so1 := x.so1 ++ [b] }
  | .ld i am r q =>
    let ws := xyWords (xyAddr x0 i am) r q
    let vals := ws.map fun w => (w.2, BitVec.ofNat 24 (bankAt x w.1).toNat)
    let x := vals.foldl (fun x v => setD x v.1 v.2) x
    match xyMod x0 i am with
    | some p => setP x i p
    | none => x
  | .st i am r q =>
    let x := (xyWords (xyAddr x0 i am) r q).foldl (fun x w => bankPut x w.1 (dReg x0 w.2)) x
    match xyMod x0 i am with
    | some p => setP x i p
    | none => x
  | .pmod i am =>
    match xyMod x0 i am with
    | some p => setP x i p
    | none => x

/-- Z and N (11_loop_programs.md R286). -/
def setZN (x : Engine) (zn : Bool × Bool) : Engine := setFlag (setFlag x 8 zn.1) 9 zn.2

/-- The B operand of lane `k`. -/
def bOperand (x : Engine) (f : MFields) (k : Nat) : BitVec 24 := dReg x (if f.bb then f.bs else 4 * f.bs + k)

/-- An accumulator operation, MOP 1 to 13 (R284). -/
def mAccEffect (md : LeMd) (x0 x : Engine) (o : MOp) : Engine :=
  (bitsOf 4 o.f.lm).foldl (fun x k =>
    let r := laneAcc md o.mop o.f.sa o.f.sb (aReg x0 (4 * o.f.h + k)) (aReg x0 (4 - 4 * o.f.h + k)) (dReg x0 (4 * o.f.ga + k))
      (bOperand x0 o.f k)
    let x := setA x (4 * o.f.h + k) r.1
    let x := if r.2 then setFlag x k true else x
    if o.f.fs && k = 0 then setZN x (accZN r.1) else x) x

/-- EXT (R244, R286). -/
def mExtEffect (md : LeMd) (x0 x : Engine) (o : MOp) : Engine :=
  (bitsOf 4 o.f.lm).foldl (fun x k =>
    let r := leExtract md o.f.sa (aReg x0 (4 * o.f.h + k))
    let x := setD x (4 * o.f.ga + k) r.1
    let x := if r.2 then setFlag x (4 + k) true else x
    if o.f.fs && k = 0 then setZN x (r.1 = 0, o.f.sa && r.1.msb) else x) x

/-- SMAX and SMIN (R249, 11_loop_programs.md R285). -/
def mSearchEffect (x0 x : Engine) (o : MOp) : Engine :=
  let lc := tabOr 0 x0.lc (x0.ldepth - 1)
  let index := if o.f.bs = 8 then lc else tabOr 0 x0.p o.f.bs
  let first := o.f.aux = 1 || (o.f.aux = 2 && x0.ldepth != 0 && lc = 0)
  (bitsOf 4 o.f.lm).foldl (fun x k =>
    let v := reading o.f.sa 24 (dReg x0 (4 * o.f.ga + k)).toNat
    let a := signed 56 (aReg x0 (4 * o.f.h + k)).toNat
    if first || (if o.mop = 15 then decide (a < v) else decide (v < a)) then
      setIx (setA x (4 * o.f.h + k) (BitVec.ofNat 56 (v % 2 ^ 56).toNat)) k index
    else x) x

/-- RMAX and RMIN (R250). -/
def mReduceEffect (x0 x : Engine) (o : MOp) : Engine :=
  let ix := fun k => (tabOr 0 x0.ix k : BitVec 16)
  let w := leWinner (o.mop = 17) (fun k => signed 56 (aReg x0 (4 * o.f.h + k)).toNat) (fun k => (ix k).toNat)
  let x := setIx (setA x (4 * o.f.h) (aReg x0 (4 * o.f.h + w))) 0 (ix w)
  setFlag (setFlag x 11 (nBit w 0)) 12 (nBit w 1)

/-- M slot. -/
def mEffect (md : LeMd) (x0 x : Engine) (o : MOp) : Engine :=
  if o.mop = 0 then x
  else if o.mop ≤ 13 then mAccEffect md x0 x o
  else if o.mop = 14 then mExtEffect md x0 x o
  else if o.mop ≤ 16 then mSearchEffect x0 x o
  else mReduceEffect x0 x o

/-- Condition of a branch. -/
def brTaken (x : Engine) (cond : Nat) : Bool :=
  let f := x.flags.toNat
  match cond with
  | 0 => true | 1 => nBit f 8 | 2 => !nBit f 8 | 3 => nBit f 9 | 4 => !nBit f 9 | _ => nBit f 10

/-- Where control goes from the C slot, none where it falls through; END is a transfer to the next address. -/
def cTarget (x : Engine) (o : COp) : Option (BitVec 11) :=
  match o with
  | .br cond t => if brTaken x cond then some (BitVec.ofNat 11 t) else none
  | .call t | .lexit t => some (BitVec.ofNat 11 t)
  | .ret => some (BitVec.ofNat 11 (dReg x 14).toNat)
  | .end_ => some (x.pc + 1)
  | _ => none

/-- Loop control of an instruction that falls through (R248, 11_loop_programs.md R276): the loops that end at its address,
innermost first. -/
def loopEnd (x : Engine) (a : BitVec 11) (fuel : Nat) : Engine :=
  match fuel with
  | 0 => { x with pc := a + 1 }
  | n + 1 =>
    let i := x.ldepth - 1
    if x.ldepth = 0 || tabOr 0 x.lend i != a then { x with pc := a + 1 }
    else if (tabOr 0 x.lc i : BitVec 16).toNat + 1 < (tabOr 0 x.ln i : BitVec 16).toNat then
      { x with lc := tabPutD 0 x.lc i (tabOr 0 x.lc i + 1), pc := tabOr 0 x.lbeg i }
    else loopEnd { x with ldepth := x.ldepth - 1 } a n

/-- A loop entry, or its skip where N is 0; the end of an enclosing loop at the same address counts only where it falls
through to the body. -/
def loopPush (x : Engine) (n l : Nat) : Engine :=
  if n = 0 then { x with pc := BitVec.ofNat 11 (l + 1) }
  else
    let i := x.ldepth
    { x with
      lc := tabPutD 0 x.lc i 0, ln := tabPutD 0 x.ln i (BitVec.ofNat 16 n)
      lbeg := tabPutD 0 x.lbeg i (x.pc + 1), lend := tabPutD 0 x.lend i (BitVec.ofNat 11 l)
      ldepth := i + 1, pc := x.pc + 1 }

/-- PC and the loop stack after the C slot. -/
def cControl (x0 x : Engine) (o : COp) : Engine :=
  match cTarget x0 o with
  | some t =>
    let x := { x with pc := t }
    match o with
    | .lexit _ => { x with ldepth := x0.ldepth - 1 }
    | _ => x
  | none =>
    match loopEntry x0 o with
    | some (n, l) => loopPush x n l
    | none => loopEnd x x0.pc 5

/-- The C slot beside control and descriptors. -/
def cEffect (x0 x : Engine) (o : COp) : Engine :=
  match o with
  | .call _ => setD x 14 (BitVec.ofNat 24 ((x0.pc.toNat + 1) % 2048))
  | .movto reg _ | .setr reg _ =>
    match lregAt reg with
    | some r => lregPut x r (moveVal x0 o r)
    | none => x
  | .movfrom reg r =>
    match lregAt reg with
    | none => x
    | some q =>
      let v := match q with
        | .pc => x0.pc.toNat
        | _ => lregGet x0 q
      let x := setD x r (BitVec.ofNat 24 v)
      if q.pair then setD x (r + 1) (BitVec.ofNat 24 (v / 2 ^ 24)) else x
  | .nwait mask => setZN x (!((bitsOf 4 mask).any fun k => (leDesc x0 k).err), false)
  | .clrf mask => { x with flags := BitVec.ofNat 16 (x.flags.toNat - (x.flags.toNat &&& mask)) }
  | .end_ => { x with ending := some .ok }
  | _ => x

/-- A data watch matches an access of a slot (11_loop_programs.md R289). -/
def watchMatch (s : State) (page : Nat) (x0 x : Engine) (o : XOp) : Bool :=
  match xyAccess x0 o with
  | none => false
  | some (wr, ws) => (List.range 2).any fun j =>
    flag s page (LE_DW_ADDR_EN.nth j) && nBit (getF s page (LE_DW_ADDR_DIR.nth j)) (if wr then 1 else 0) &&
      ws.any fun w => w.1 = getF s page (LE_DW_ADDR_ADDR.nth j) &&
        (!flag s page (LE_DW_ADDR_VAL_EN.nth j) ||
          (if wr then dReg x0 w.2 else dReg x w.2).toNat = getF s page (LE_DW_VAL_VALUE.nth j))

/-- Breakpoints and watches act: LE_DBG_CTX (11_loop_programs.md R289). -/
def dbgActs (s : State) (page : Nat) (x : Engine) : Bool :=
  !flag s page LE_DBG_CTX_EN || x.ctx.toNat = getF s page LE_DBG_CTX_PROG_ID

/-- A breakpoint stands at PC and has not halted the engine there. -/
def bpHere (s : State) (page : Nat) (x : Engine) : Bool :=
  x.bpPassed != some x.pc && dbgActs s page x && (List.range 2).any fun j =>
    flag s page (LE_BP_EN.nth j) && getF s page (LE_BP_PC.nth j) = x.pc.toNat

/-- Every slot of instruction `i` takes effect: engine registers and memories. -/
def leEffect (md : LeMd) (x0 : Engine) (i : LeInstr) : Engine :=
  let x := { x0 with stall := 0, bpPassed := none }
  let x := cControl x0 x i.c
  let x := cEffect x0 x i.c
  let x := xyEffect x0 x i.x
  let x := xyEffect x0 x i.y
  mEffect md x0 x i.m

/-- What later instructions must wait for after `i` has issued: a taken branch, call or return costs 2 cycles more (R252,
R254). -/
def leHazards (x0 x : Engine) (i : LeInstr) : Engine :=
  let lost := if (cTarget x0 i.c).isSome && i.c != .end_ then 2 else 0
  hazAge { x with haz := (hazMade i).map (·, 0) ++ x.haz, bankPaid := false } (1 + lost)

/-- Instruction `i` issues: it takes an exception, waits, or takes effect. -/
def leIssue (s : State) (die e : Nat) (i : LeInstr) : State :=
  let p := lePage die e
  let x0 := engOf s die e
  let pc := x0.pc.toNat
  let code := leIssueExc s die e x0 i
  if code != 0 then leExc s die e code pc
  else if leStall x0 i != 0 then leStalled s die e i
  else if leParity x0 i != 0 then leExc (countUp s p LE_ERR_PAR (leParity x0 i)) die e excDpar pc
  else
    let x := leHazards x0 (leEffect (leMd s p) x0 i) i
    let hit := dbgActs s p x0 && (watchMatch s p x0 x i.x || watchMatch s p x0 x i.y)
    let x := { x with watchHit := hit, mode := if x0.stepping && i.c != .end_ then .halt else x.mode, stepping := false }
    let s := countWrap (setEng s die e x) p LE_ISSUE_COUNT
    match cGo x0 i.c with
    | some (k, _) => descGo s die e k true
    | none => s

/-- The engine fetches and issues the instruction at PC where its word satisfies `sel`; a word that gives no instruction is
issued whatever is asked (log 19). Nothing issues outside RUN, after END, or before a halt that is due. -/
def leRun (s : State) (die e : Nat) (sel : LeInstr → Bool) : State :=
  let p := lePage die e
  let x := engOf s die e
  if x.mode != .run || x.ending.isSome || x.watchHit || gateShut s (16 + die) || bpHere s p x then s
  else
    let r := eccRead (imemWord x x.pc.toNat)
    if r.2 = 2 then leExc s die e excImem x.pc.toNat
    else
      match decWord r.1 with
      | none => leExc s die e excIllegal x.pc.toNat
      | some i =>
        if !sel i then s
        else
          let s := if r.2 = 1 && x.stall = 0 then evtPulse (countUp s p LE_ERR_SBE 1) p 3 else s
          leIssue s die e i

/-- A halt of the engine (R260): issue stops at the instruction boundary. -/
def leHaltNow (s : State) (die e : Nat) : State :=
  let x := engOf s die e
  if x.mode = .run || x.mode = .idle then setEng s die e { x with mode := .halt, before := x.mode, stepping := false } else s

/-- A halt of the debugger (22_debug.md R570): only DB_LE resumes it. -/
def leDbgHalt (s : State) (die e : Nat) : State :=
  leHaltNow { s with dbg := { s.dbg with leHeld := setAdd s.dbg.leHeld (512 * die + e) } } die e

/-- Engines follow the halts that freeze them (22_debug.md R565): a frozen engine halts, one whose freeze has ended resumes
unless the debugger holds it. -/
def leFreezeFollow (s : State) : State :=
  s.le.eng.foldl (fun s k =>
    let die := k.1 / 512
    let e := k.1 % 512
    let x := engOf s die e
    if leFrozen s die e then leHaltNow s die e
    else if x.mode = .halt && !s.dbg.leHeld.contains k.1 then leSettle (setEng s die e { x with mode := x.before }) die e
    else s) s

/-- A halt that raises BREAK (11_loop_programs.md R289, 22_debug.md R570). -/
def leBreak (s : State) (die e : Nat) : State :=
  let s := haltAsk (leDbgHalt s die e) (getF s DB DB_CFG_LE_HALT) 7
  evtPulse (setEng s die e { engOf s die e with bpPassed := some (engOf s die e).pc, watchHit := false }) (lePage die e) 2

/-! ### LE_CMD and the registers that show the engine (R257, R260, R271) -/

/-- The fault a write of LE_CMD gives: a refused software start. -/
def leCmdFault (s : State) (die e : Nat) (w : Word) : Option Nat :=
  if !nBit w.toNat 31 then none
  else
    match startRefused s die e 2 with
    | none => none
    | some full => some (if full then 0x0101 else 0x0100)

/-- A write of LE_CMD that is accepted: START, ABORT or CLEAR. -/
def leCmd (s : State) (die e : Nat) (w : Word) : State :=
  let p := lePage die e
  if nBit w.toNat 31 then
    startPush s die e { src := .software, vec := w.toNat % 8, arg := BitVec.ofNat 24 (getF s p LE_ARG_ARG) }
  else if nBit w.toNat 30 then (if (engOf s die e).cur.isSome then engAbort s die e false .idle else s)
  else if nBit w.toNat 29 && (engOf s die e).mode = .exc then
    leSettle (putFlag (setEng s die e { engOf s die e with mode := idleMode s die e .idle, before := .idle })
      p LE_EXC_VALID false) die e
  else s

/-- Code of a state (R256). -/
def leModeCode (m : LeMode) : Nat := match m with | .off => 0 | .idle => 1 | .run => 2 | .halt => 3 | .exc => 4 | .direct => 5

/-- LE_STAT. -/
def leStat (s : State) (die e : Nat) : Nat :=
  let x := engOf s die e
  let opens := x.mode = .idle && x.startq != [] && s.le.opening.contains (setKey die (e / 4))
  leModeCode x.mode + (if opens then 5 else x.stall) * 2 ^ 3 + x.startq.length * 2 ^ 6 + ofBool (engDirect s die e) * 2 ^ 9
    + ofBool (s.le.gated.contains (setKey die (e / 4))) * 2 ^ 10
    + ofBits ((List.range 4).filter fun k => (leDesc x k).busy) * 2 ^ 12

/-- PG_STAT.READY of an LE_ page (R256). -/
def leReady (x : Engine) : Bool := x.mode = .idle || x.mode = .run || x.mode = .halt || x.mode = .exc

/-- W1C bits of LE_FLAGS written. -/
def leFlagsClear (s : State) (die e : Nat) (w : Word) : State :=
  let x := engOf s die e
  setEng s die e { x with flags := BitVec.ofNat 16 (x.flags.toNat - (x.flags.toNat &&& (w.toNat % 256))) }

/-- LE_GSUM: engines of the group that drive their event output. -/
def leGsum (s : State) (die e i : Nat) : Nat :=
  ofBits ((List.range (if i = 2 then 8 else 32)).filter fun k => pageDrives s (lePage die (e / 72 * 72 + 32 * i + k)))

end Sys2Proof.Machine
end

