-- ==== Sys2Proof/Machine/Debug.lean ====
section
/-! DEFINITION. Debug and run control (22_debug.md): the TAP's instructions and status, halts of system cores and engines,
trace, watchdogs, and the checks and effects of writes to the pages DB_, TR_, WD_ and BK_. -/

namespace Sys2Proof.Machine

/-! ### The TAP (R558, R559, R562) -/

/-- READY is low and nothing is released: EXTEST, CLAMP and HIGHZ act (R559). -/
def tapActs (s : State) : Bool :=
  !s.start.ready && s.fab.staticOn = [] &&
    s.part.parts.all fun e => partStateOn s e.die e.no != pLive && partStateOn s e.die e.no != pFenced

/-- The pins are driven from the boundary-scan register. -/
def tapDrives (s : State) : Bool := tapActs s && (s.dbg.ir = 0 || s.dbg.ir = 3)
/-- The user pins are tri-stated. -/
def tapFloats (s : State) : Bool := tapActs s && s.dbg.ir = 4

/-- IDCODE. -/
def idcodeValue : Nat := 1 * 2 ^ 28 + 0x5808 * 2 ^ 12 + Config.idcodeMfr.toNat * 2 + 1

/-- A TAP instruction is loaded, and the instruction register captures 0b0000_0001. -/
def tapSel (s : State) (ir : Nat) : State := { s with dbg := { s.dbg with ir := ir, irOut := 1 } }

/-- A TAP instruction is loaded, and its data register captures `out`. -/
def tapLoad (s : State) (ir out : Nat) : State :=
  { s with dbg := { s.dbg with ir := ir, irOut := 1, tdo := BitVec.ofNat 80 out } }

/-- TEST_LOGIC_RESET selects IDCODE. -/
def execTestLogicReset (s : State) : Host.Outcome State Fault Refusal := .next { s with dbg := { s.dbg with ir := 2 } }

/-- EXTEST. -/
def execExtest (s : State) : Host.Outcome State Fault Refusal := .next (tapSel s 0)

/-- SAMPLE_PRELOAD. -/
def execSamplePreload (sampled preload : List Bool) (s : State) : Host.Outcome State Fault Refusal :=
  .next { s with dbg := { s.dbg with ir := 1, irOut := 1, bsrOut := sampled, bsr := preload } }

/-- IDCODE. -/
def execIdcode (s : State) : Host.Outcome State Fault Refusal := .next (tapLoad s 2 idcodeValue)

/-- CLAMP. -/
def execClamp (s : State) : Host.Outcome State Fault Refusal := .next (tapSel s 3)

/-- HIGHZ. -/
def execHighz (s : State) : Host.Outcome State Fault Refusal := .next (tapSel s 4)

/-- Codes of the other instructions of R558. -/
def tapCodes : List Nat := [0, 1, 2, 3, 4, 0x10, 0x11]

/-- BYPASS: every code not listed selects it. -/
def execBypass (ir : Nat) (s : State) : Host.Outcome State Fault Refusal :=
  .next (if 256 ≤ ir || tapCodes.contains ir then s else tapSel s ir)

/-- CL_HART.WFI: the cores that wait for an interrupt. -/
def wfiBits (s : State) : Nat := ofBits ((List.range 4).filter fun c => (hartOf s c).wfi)
/-- CL_HART.HALTED: the cores that are halted. -/
def haltedBits (s : State) : Nat := ofBits ((List.range 4).filter fun c => (hartOf s c).halted)

/-- DBG_STAT as captured (R562). -/
def dbgStatValue (s : State) : Nat :=
  ofBool s.dbg.dbgLost * 2 ^ 31 + s.dbg.reason % 8 * 2 ^ 28 + haltedBits s * 2 ^ 24 + s.sec.lc % 8 * 2 ^ 20
    + getF s SQ SQ_STAT_STAGE % 16 * 2 ^ 16 + ofBool s.start.ready

/-- DBG_STAT: capture, and Update-DR with bit 31 clears DBG_LOST. -/
def execDbgStat (dr : Word) (s : State) : Host.Outcome State Fault Refusal :=
  .next <|
    let s := tapLoad s 0x11 (dbgStatValue s)
    if wGet dr 31 1 = 1 then { s with dbg := { s.dbg with dbgLost := false } } else s

/-- DBG_ACC as captured (R560). -/
def dbgAccValue (s : State) : Nat :=
  s.dbg.rdata.toNat + s.dbg.code % 16 * 2 ^ 32 + ofBool s.dbg.acc.isSome * 2 ^ 36 + ofBool s.dbg.lost * 2 ^ 37

/-- A debug access begins: DEBUG wakes where it is down, and the access is lost with it (R560, R562). -/
def accBegin (s : State) (v : Nat) : State :=
  let down := !s.pow.torpor && ((domOf s 8 5).state = 2 || (domOf s 8 5).state = 3)
  let s := if down then dbgDrop (domTouch s 8 5) 2 else domTouch s 8 5
  { s with dbg := { s.dbg with
      acc := some (nGet v 32 42, nBit v 74, nBit v 75, BitVec.ofNat 32 (nGet v 0 32)), lost := down } }

/-- DBG_ACC: capture, then Update-DR launches an access; one that is not aligned completes with 0x1, one that finds the
DEBUG domain dropped wakes it and will complete with LOST set. -/
def execDbgAcc (dr : BitVec 80) (s : State) : Host.Outcome State Fault Refusal :=
  .next <|
    let u := tapLoad s 0x10 (dbgAccValue s)
    if u.dbg.acc.isSome || u.dbg.dbgLost then u
    else if nGet dr.toNat 32 42 % 4 != 0 then { u with dbg := { u.dbg with code := 1, lost := false } }
    else accBegin u dr.toNat

/-! ### System cores (R563 to R566) -/

/-- Registers of core `c` take the values listed. -/
def coreRegsPut (s : State) (c : Nat) (regs : List (Nat × BitVec 64)) : State :=
  { s with dbg := { s.dbg with coreRegs := regs.foldl (fun t r => tabPutD 0 t (65536 * c + r.1 % 65536) r.2) s.dbg.coreRegs } }

/-- Every capture armed with a HALT trigger starts (07_fabric.md R185). -/
def haltCaptures (s : State) : State := (List.range 8).foldl (fun s d => capTrigger s d 2) s

/-- Core `c` halts: its reservation clears, its group follows, engines freeze, captures start (R563 to R565). -/
def coreHaltNow (s : State) (c cause hit : Nat) (regs : List (Nat × BitVec 64)) : State :=
  let s := setHart s c { hartOf s c with halted := true, wfi := false, fresh := false, resv := none }
  let s := putF (putF s DB (DB_CSTAT_CAUSE.nth c) cause) DB (DB_CSTAT_HIT.nth c) hit
  let s := coreRegsPut s c regs
  let s := { s with dbg := { s.dbg with
      stepping := setDel s.dbg.stepping c, haltReq := s.dbg.haltReq.filter fun r => r.1 != c } }
  let s := traceCore (compsFire s c hit) c 5 cause
  let s := evtPulse s DB 0
  let g := getF s DB DB_CFG_GROUP
  let s := if nBit g c then haltAsk s g 2 else s
  haltCaptures (leFreezeFollow (domTouch (domTouch s 8 3) 8 5))

/-- A comparator of `hit` with ACTION halt may halt core `c` (R569): an instruction comparator only before the instruction at the
PC that `regs` names, where it names one. -/
def hitHalts (s : State) (c hit : Nat) (regs : List (Nat × BitVec 64)) : Bool :=
  let js := hitActs s c hit 0
  js != [] && (js.filter (· < 8)).all fun j =>
    ((regs.find? (·.1 == 0x2000)).map fun r => compAt s c r.2.toNat j).getD true

/-- Core `c` may halt for `cause` now (R563). -/
def haltCause (s : State) (c cause hit : Nat) (regs : List (Nat × BitVec 64)) : Bool :=
  match cause with
  | 0 => (hartOf s c).fresh && nBit (getF s DB DB_HALT_RESET_HALT) c
  | 3 => hitHalts s c hit regs
  | 4 => s.dbg.stepping.contains c
  | 5 => getF s DB DB_CFG_EBREAK != 0
  | n => s.dbg.haltReq.contains (c, n)

/-- CORE_HALT: a running core without an access outstanding halts. -/
def execCoreHalt (c cause hit : Nat) (regs : List (Nat × BitVec 64)) (s : State) : Host.Outcome State Fault Refusal :=
  .next <|
    if 4 ≤ c || !(hartOf s c).running || (hartOf s c).halted || coreBusy s c || !hitsOk s c hit
      || !haltCause s c cause hit regs then s
    else coreHaltNow s c cause hit regs

/-! ### WD_ (R572, R573) -/

/-- ns left of watchdog `c`, 4: of the sentinel; its count shows them in µs, or ms, begun. -/
def wdLeft (s : State) (c : Nat) : Nat :=
  (if c = 4 then getF s WD WD_SENT_CNT_MS * 1000000 else getF s WD (WD_CNT_US.nth c) * 1000) - tabOr 0 s.dbg.wdNs c

/-- A watchdog, or the sentinel, has `ns` left. -/
def wdPut (s : State) (c ns : Nat) : State :=
  let u := if c = 4 then 1000000 else 1000
  let n := (ns + u - 1) / u
  let s : State := { s with dbg := { s.dbg with wdNs := tabPutD 0 s.dbg.wdNs c (n * u - ns) } }
  if c = 4 then putF s WD WD_SENT_CNT_MS n else putF s WD (WD_CNT_US.nth c) n

/-- Watchdog `c` counts: enabled, and not held by a halt of its core. -/
def wdRuns (s : State) (c : Nat) : Bool :=
  flag s WD (WD_CTRL_EN.nth c) && !((hartOf s c).halted && nBit (getF s WD WD_CFG_FREEZE) c)

/-- The sentinel counts: started, and not held by a halt under SENT_FREEZE. -/
def sentRuns (s : State) : Bool :=
  flag s WD WD_SENT_CTRL_EN && !s.pow.torpor &&
    !(flag s WD WD_SENT_CTRL_SENT_FREEZE && (List.range 4).any fun c => (hartOf s c).halted)

/-- A count that a halt held goes on with WDT_GRACE at least, where core `c` resumes. -/
def wdResume (s : State) (c : Nat) : State :=
  let grace := getF s WD WD_CFG_WDT_GRACE * 1000
  let s := if wdRuns s c && nBit (getF s WD WD_CFG_FREEZE) c then wdPut s c (max (wdLeft s c) grace) else s
  if sentRuns s && flag s WD WD_SENT_CTRL_SENT_FREEZE then wdPut s 4 (max (wdLeft s 4) grace) else s

/-- Core `c` issues again, one instruction only where `one` (R566): frozen blocks resume first, and watchdogs of a frozen
count go on (R572, R573). -/
def coreResume (s : State) (c : Nat) (one : Bool) : State :=
  let s := setHart s c { hartOf s c with halted := false }
  let fired := s.dbg.fired.filter fun x => x / 16 != c
  let stop := s.dbg.traceStop && !nBit (getF s TR TR_CFG_CORES) c
  let s := { s with dbg := { s.dbg with
      fired := fired, traceStop := stop, stepping := if one then setAdd s.dbg.stepping c else s.dbg.stepping } }
  let s := wdResume (traceCore s c 6 0) c
  leFreezeFollow (evtPulse s DB 1)

/-! ### DB_ (R563, R566, R570, R574) -/

/-- HALT_REQ and RESUME_REQ set for one core (R566). -/
def dbRange (off : Nat) (w : Word) : Bool := off = 0x040 && (wGet w 0 4 &&& wGet w 4 4) != 0

/-- DB_LE names an engine whose state does not accept OP (R570). -/
def dbLeBad (s : State) (w : Word) : Bool :=
  let m := (engOf s (wGet w 21 4) (wGet w 0 9)).mode
  if wGet w 28 2 = 1 then m != .idle && m != .run else m != .halt

/-- The block fault of a write (R574). -/
def dbFault (s : State) (off : Nat) (w : Word) : Option Nat :=
  if off = 0x060 && wGet w 31 1 = 1 then
    if !(hartOf s (wGet w 16 2)).halted then some 0x0100
    else if flag s DB DB_REGCMD_BUSY then some 0x0102 else none
  else if off = 0x070 && wGet w 31 1 = 1 && dbLeBad s w then some 0x0101
  else none

/-- REG names a register of a core (R566). -/
def regNamed (r : Nat) : Bool := r < 0x40 || (0x1000 ≤ r && r < 0x2000) || r = 0x2000
/-- Writes of the register are ignored: x0 and read-only CSRs. -/
def regReadOnly (r : Nat) : Bool := r = 0 || (0x1000 ≤ r && r < 0x2000 && (r - 0x1000) / 1024 = 3)

/-- DB_REGCMD with GO: the register access (R566). -/
def regCommand (s : State) (w : Word) : State :=
  let c := wGet w 16 2
  let r := wGet w 0 16
  let s := putFlag s DB DB_REGCMD_ERR (!regNamed r)
  if !regNamed r then s
  else if wGet w 30 1 = 1 then
    if regReadOnly r then s
    else coreRegsPut s c [(r, BitVec.ofNat 64 (getF s DB DB_REGDATA_LO_DATA + getF s DB DB_REGDATA_HI_DATA * 2 ^ 32))]
  else
    let v := (tabOr 0 s.dbg.coreRegs (65536 * c + r) : BitVec 64).toNat
    putF (putF s DB DB_REGDATA_LO_DATA (v % 2 ^ 32)) DB DB_REGDATA_HI_DATA (v / 2 ^ 32)

/-- An engine's debug hold is released (R570). -/
def leDbgResume (s : State) (die e : Nat) : State :=
  leFreezeFollow { s with dbg := { s.dbg with leHeld := setDel s.dbg.leHeld (512 * die + e) } }

/-- A held engine runs one instruction, unless it is frozen (R570). -/
def leDbgStep (s : State) (die e : Nat) : State :=
  if leFrozen s die e then s
  else leSettle (setEng s die e { engOf s die e with mode := (engOf s die e).before, stepping := true }) die e

/-- DB_LE with GO (R570). -/
def leRunControl (s : State) (w : Word) : State :=
  if wGet w 28 2 = 1 then leDbgHalt s (wGet w 21 4) (wGet w 0 9)
  else if wGet w 28 2 = 2 then leDbgResume s (wGet w 21 4) (wGet w 0 9)
  else leDbgStep s (wGet w 21 4) (wGet w 0 9)

/-- The halted cores of `step` and `resume` run on, those of `step` for one instruction (R563). -/
def coresResumed (s : State) (resume step : Nat) : State :=
  (List.range 4).foldl (fun s c =>
    if !(hartOf s c).halted then s
    else if nBit step c then coreResume s c true
    else if nBit resume c then coreResume s c false else s) s

/-- An accepted write of a DB_ register. -/
def dbWritten (s : State) (off : Nat) (w : Word) : State :=
  if off = 0x040 then coresResumed (haltAsk s (wGet w 0 4) 1) (wGet w 4 4) (wGet w 8 4)
  else if off = 0x060 && wGet w 31 1 = 1 then regCommand s w
  else if off = 0x070 && wGet w 31 1 = 1 then leRunControl s w
  else s

/-! ### BK_ (R567, R568, R574) -/

/-- Out of range beyond the fields' own ranges: RANGE on an odd comparator, DIR or VAL_EN on an instruction comparator, a
linked comparator as its own source. -/
def bkRange (off : Nat) (w : Word) : Bool :=
  let j := (off - 0x100) / 32
  0x100 ≤ off && off % 32 = 0 &&
    ((wGet w 24 1 = 1 && j % 2 = 1) || (j < 8 && (wGet w 22 2 != 0 || wGet w 21 1 = 1)) ||
     (wGet w 20 1 = 1 && wGet w 0 4 = j))

/-- A write of a comparator forgets that it has fired (R568). -/
def bkWritten (s : State) (c off : Nat) : State :=
  { s with dbg := { s.dbg with fired := setDel s.dbg.fired (16 * c + (off - 0x100) / 32) } }

/-! ### TR_ (R571) -/

/-- EN rises: the count of entries written starts again. -/
def trWritten (s : State) (off : Nat) (old w : Word) : State :=
  if off = 0x040 && wGet w 31 1 = 1 && wGet old 31 1 = 0 then
    { s with dbg := { s.dbg with traceCnt := 0, traceStop := false } }
  else s

/-- One entry is written to the buffer at TR_PTR.WR. -/
def traceWrite (s : State) (e : TraceEnt) : State :=
  let wr := getF s TR TR_PTR_WR
  let n := min (s.dbg.traceCnt + 1) 131071
  let s := { s with dbg := { s.dbg with trace := tabPut s.dbg.trace wr e, traceCnt := n } }
  let s := putF s TR TR_PTR_WR ((wr + 1) % 65536)
  let s := if wr = 65535 then putFlag s TR TR_PTR_WRAPPED true else s
  if flag s TR TR_CFG_STOP_FULL && n = 65536 then evtPulse s TR 0 else s

/-- Writing has stopped: STOP_FULL with 65,536 entries written, or STOP_HALT at a halt. -/
def traceStopped (s : State) : Bool :=
  s.dbg.traceStop || (flag s TR TR_CFG_STOP_FULL && decide (65536 ≤ s.dbg.traceCnt))

/-- An entry leaves the queue, after a LOST entry where entries were lost (R571). -/
def traceTaken (s : State) (rest : List TraceEnt) : State :=
  let u := { s with dbg := { s.dbg with traceQ := rest, traceLost := 0 } }
  if s.dbg.traceLost = 0 then u
  else traceWrite u { time := u.hub.now % 2 ^ 48, kind := 7, src := 0, data := s.dbg.traceLost }

/-- An entry is written; a HALT entry of a core that is still halted stops writing under STOP_HALT (R571). -/
def tracePut (s : State) (e : TraceEnt) : State :=
  let u := traceWrite s e
  if e.kind = 5 && flag u TR TR_CFG_STOP_HALT && (hartOf u (e.src % 4)).halted then
    { u with dbg := { u.dbg with traceStop := true } }
  else u

/-- TRACE_ENTRY_WRITE: the oldest queued entry, after a LOST entry where entries were lost; a HALT entry of a core that is
still halted stops writing under STOP_HALT. -/
def execTraceEntryWrite (s : State) : Host.Outcome State Fault Refusal :=
  .next <|
    match s.dbg.traceQ with
    | [] => s
    | e :: rest =>
      if !flag s TR TR_CFG_EN || traceStopped s then s
      else if traceStopped (traceTaken s rest) then traceTaken s rest
      else tracePut (traceTaken s rest) e

/-- Word `i` of the trace entry at TR_RIDX.IDX. -/
def traceWord (s : State) (i : Nat) : Nat :=
  match tabGet s.dbg.trace (getF s TR TR_RIDX_IDX) with
  | none => 0
  | some e => nGet (e.time % 2 ^ 48 + e.kind % 256 * 2 ^ 48 + e.src % 256 * 2 ^ 56 + e.data % 2 ^ 64 * 2 ^ 64) (32 * i) 32

/-! ### Watchdogs at the register page -/

/-- SENT_FREEZE takes 1 only in DEVELOP (R573). -/
def wdFault (s : State) (off : Nat) (w : Word) : Option Nat :=
  if off = 0x090 && wGet w 30 1 = 1 && s.sec.lc != 2 then some 0x0100 else none

/-- An accepted write: a watchdog or the sentinel starts, or is kicked. -/
def wdWritten (s : State) (off : Nat) (old w : Word) : State :=
  let c := (off - 0x050) / 16
  if 0x050 ≤ off && off < 0x090 && off % 16 = 0 then
    if wGet w 31 1 = 1 && wGet old 31 1 = 0 then wdPut s c (wGet w 0 24 * 1000) else s
  else if 0x050 ≤ off && off < 0x090 && off % 16 = 4 then wdPut s c (getF s WD (WD_CTRL_LOAD_US.nth c) * 1000)
  else if off = 0x090 then
    if wGet w 31 1 = 1 && wGet old 31 1 = 0 then wdPut s 4 (wGet w 0 16 * 1000000) else s
  else if off = 0x094 then wdPut s 4 (getF s WD WD_SENT_CTRL_PERIOD_MS * 1000000)
  else s

/-- A core is reset as by CL_HART.EN written 0 then 1 (R572). -/
def coreReset (s : State) (c : Nat) : State :=
  if nBit (getF s CL CL_HART_EN) c then
    leFreezeFollow (setHart s c { running := true, fresh := true })
  else s

/-- Watchdog `c` has reached 0: BITTEN, its event, the reset of its core under RESET_EN, and the count reloads (R572). -/
def wdBite (s : State) (c : Nat) : State :=
  let s := evtPulse (putF s WD WD_STAT_BITTEN (nSet (getF s WD WD_STAT_BITTEN) c true)) WD c
  let s := if nBit (getF s WD WD_CFG_RESET_EN) c then coreReset s c else s
  wdPut s c (getF s WD (WD_CTRL_LOAD_US.nth c) * 1000)

/-- The sentinel has reached 0: SENT_BIT and a device reset (R573). -/
def sentBite (s : State) : State := putFlag (startTrigger s) WD WD_STAT_SENT_BIT true

/-- WATCHDOG_EXPIRY; a count held by a halt does not expire. -/
def execWatchdogExpiry (c : Nat) (s : State) : Host.Outcome State Fault Refusal :=
  .next (if c < 4 && wdRuns s c then wdBite s c else s)

/-- SENTINEL_BITE. -/
def execSentinelBite (s : State) : Host.Outcome State Fault Refusal := .next (if sentRuns s then sentBite s else s)

/-- 1 ns of the watchdogs and of the sentinel. -/
def wdTick (s : State) : State :=
  let s := (List.range 4).foldl (fun s c =>
    if !wdRuns s c then s else if wdLeft s c ≤ 1 then wdBite s c else wdPut s c (wdLeft s c - 1)) s
  if !sentRuns s then s else if wdLeft s 4 ≤ 1 then sentBite s else wdPut s 4 (wdLeft s 4 - 1)

end Sys2Proof.Machine
end

