-- ==== Sys2Proof/Machine/Engines.lean ====
section
/-! DEFINITION. Loop engines: gates, starts, runs, streams, NoC descriptors, direct mode and halts (10_loop_engines.md R237,
R257 to R265; 11_loop_programs.md R289). -/

namespace Sys2Proof.Machine

/-- SCLK of an engine has edges (R266). -/
def sclk (s : State) (die e : Nat) : Bool := portClocked s die (engCol e) (engCfg s die e % 64)

/-- The stream and start ports of an engine reach its fabric: an SCLK, and no fence (R219, R260). -/
def portsLive (s : State) (die e : Nat) : Bool := sclk s die e && releasedAt s die (engCol e)

/-- The idle conditions of set `set` hold (R237). -/
def setIdle (s : State) (die set : Nat) : Bool :=
  (List.range 4).all fun k =>
    let e := 4 * set + k
    let x := engOf s die e
    flag s (lePage die e) LE_CFG_AUTOGATE && (x.mode = .off || x.mode = .idle || x.mode = .exc) && x.startq = []
      && !(x.descs.any fun d => d.2.busy)

/-- The idle conditions have held for 256 cycles: the gate is requested, and closes or not under R82 (GATE_CLOSED,
GATE_DENIED). -/
def execSetGateRequest (die set : Nat) (s : State) : Host.Outcome State Fault Refusal :=
  .next <|
    let g := setKey die set
    if setIdle s die set && !s.le.gated.contains g then { s with le := { s.le with gateReq := setAdd s.le.gateReq g } } else s

/-- The requested gate of a set closes while its idle conditions hold (R237). -/
def setGateClosed (s : State) (g : Nat) : State :=
  if s.le.gateReq.contains g && setIdle s (g / 72) (g % 72) then
    { s with le := { s.le with gateReq := setDel s.le.gateReq g, gated := setAdd s.le.gated g } }
  else s

/-- A failed quiescence leaves the gate of a set open; the request ends (R237). -/
def setGateDenied (s : State) (g : Nat) : State := { s with le := { s.le with gateReq := setDel s.le.gateReq g } }

/-- GATE_CLOSED: of domain `k`, or, from 64 on, of the set `k - 64` (R237; 03_clocks.md R82). -/
def execGateClosed (k : Nat) (s : State) : Host.Outcome State Fault Refusal :=
  .next (if k < 64 then domGateClosed s k else setGateClosed s (k - 64))

/-- GATE_DENIED: of domain `k`, or, from 64 on, of the set `k - 64` (R237; 03_clocks.md R82). -/
def execGateDenied (k : Nat) (s : State) : Host.Outcome State Fault Refusal :=
  .next (if k < 64 then domGateDenied s k else setGateDenied s (k - 64))

/-- A start on the ST_ handshake: ST_READY stays low where it is not accepted (R257). Without an SCLK nothing is taken
(R266), nor from fabric that does not run. One at an engine of a dropped group wakes the group (18_power.md R477). -/
def execFabricStart (die eng vec : Nat) (arg : BitVec 24) (s : State) : Host.Outcome State Fault Refusal :=
  .next <|
    if !portsLive s die eng then s
    else if 2 ≤ (domOf s die (16 + eng / 72)).state then domTouch s die (16 + eng / 72)
    else if (startRefused s die eng 0).isSome then s
    else startPush s die eng { src := .fabric, vec := vec % 8, arg := arg }

/-- LE_PC.SRC of a source. -/
def srcCode (x : StartSrc) : Nat := match x with | .fabric => 1 | .dispatcher => 2 | .software => 3

/-- The oldest queued start leaves the queue of an IDLE engine (R258); a bad entry word raises ILLEGAL with LE_EXC.PC = v
(11_loop_programs.md R290), an uncorrectable one IMEM. -/
def execStartDequeue (die eng : Nat) (s : State) : Host.Outcome State Fault Refusal :=
  .next <|
    let x := engOf s die eng
    match x.startq with
    | [] => s
    | a :: q =>
      if x.mode != .idle || leFrozen s die eng || gateShut s (16 + die) then s
      else
        let p := lePage die eng
        let s := setOpen (shadowApply s p) die eng false
        let s := putF s p LE_PC_SRC (srcCode a.src)
        let r := eccRead (imemWord x a.vec)
        let s := if r.2 = 1 then evtPulse (countUp s p LE_ERR_SBE 1) p 3 else s
        let y := { x with startq := q, cur := some a, mode := .run, ending := none, stall := 0, bpPassed := none, haz := [] }
        if r.2 = 2 then leExc (setEng s die eng y) die eng excImem a.vec
        else if r.1 / 2 ^ 11 % 2 ^ 5 != 0 || r.1 / 2 ^ 24 != 0 then leExc (setEng s die eng y) die eng excIllegal a.vec
        else
          setEng s die eng (setD { y with pc := BitVec.ofNat 11 r.1, ctx := BitVec.ofNat 8 (r.1 / 2 ^ 16), ldepth := 0 } 15 a.arg)

/-- END has issued and the run's writes and write descriptors are complete: the run completes OK (R254, R259). -/
def execRunComplete (die eng : Nat) (s : State) : Host.Outcome State Fault Refusal :=
  .next <|
    let x := engOf s die eng
    if x.ending.isNone || gateShut s (16 + die) || (x.descs.any fun (d : Nat × LeDesc) => d.2.ofRun && d.2.busy) then s
    else
      let x := if x.mode = .halt then { x with before := .idle } else { x with mode := .idle }
      runDone (setEng s die eng x) die eng .ok

/-- A stall on a stream or a descriptor, not on an interlock, has lasted STALL_TMO: exception STALL at the stalled instruction
(R255). -/
def execStallTimeout (die eng : Nat) (s : State) : Host.Outcome State Fault Refusal :=
  .next <|
    let x := engOf s die eng
    if x.mode != .run || x.stall = 0 || 3 < x.stall || gateShut s (16 + die) || getF s (lePage die eng) LE_CFG_STALL_TMO = 0 then s
    else leExc s die eng excStall x.pc.toNat

/-- A beat enters an input queue with room (R261). -/
def execStreamBeatIn (die eng port : Nat) (data : BitVec 96) (last : Bool) (s : State) : Host.Outcome State Fault Refusal :=
  .next <|
    let x := engOf s die eng
    if !portsLive s die eng || !portEn s die eng (port % 2) || x.mode = .off || x.mode = .direct then s
    else
      let b : Beat := { data := data, last := last }
      if port % 2 = 0 then (if x.si0.length < 8 then setEng s die eng { x with si0 := x.si0 ++ [b] } else s)
      else (if x.si1.length < 8 then setEng s die eng { x with si1 := x.si1 ++ [b] } else s)

/-- The fabric takes the oldest beat of an output queue (R261). A fenced partition sees SOx_VALID low (R219). -/
def execStreamBeatOut (die eng port : Nat) (s : State) : Host.Outcome State Fault Refusal :=
  .next <|
    let x := engOf s die eng
    if !portsLive s die eng || !portEn s die eng (2 + port % 2) then s
    else if port % 2 = 0 then setEng s die eng { x with so0 := x.so0.drop 1 }
    else setEng s die eng { x with so1 := x.so1.drop 1 }

/-- Words of a read response, byte 3 of each ignored (R264). -/
def respWords (bs : List Byte) (n : Nat) : List (BitVec 24) :=
  (List.range n).map fun i => BitVec.ofNat 24 (ofBytes ((bs.drop (4 * i)).take 3))

/-- NOC_DESCRIPTOR_DONE: the access of descriptor `k` has ended, and its result is taken (R264): read words go into the bank, any
non-zero code sets ERR. -/
def execNocDescriptorDone (die eng k : Nat) (s : State) : Host.Outcome State Fault Refusal :=
  .next <|
    let x := engOf s die eng
    let d := leDesc x k
    match d.resp with
    | none => s
    | some (code, bs) =>
      if !d.busy then s
      else if code != 0 then descEnd s die eng k true
      else
        let x := if d.dir then x else
          ((descWords d).zip (respWords bs d.count)).foldl (fun x w => bankPut x w.1 w.2) x
        descEnd (setEng s die eng x) die eng k false

/-- A direct-mode operation (R265): in four lanes the operation `op` on the accumulators of half `hi`, with sticky saturation;
and the extraction of the accumulators it wrote. -/
def directEdge (md : LeMd) (x : Engine) (a b : BitVec 96) (op : Nat) (hi : Bool) : Engine × BitVec 96 :=
  let word := fun (v : BitVec 96) k => BitVec.ofNat 24 (v.toNat / 2 ^ (24 * k))
  let x := (List.range 4).foldl (fun x k =>
    let n := if hi then 4 + k else k
    let r := laneAcc md op true true (aReg x n) 0 (word a k) (word b k)
    let x := setA x n r.1
    if r.2 then setFlag x k true else x) x
  let outs := (List.range 4).map fun k => leExtract md true (aReg x (if hi then 4 + k else k))
  let x := (List.range 4).foldl (fun x k => if (outs.getD k (0, false)).2 then setFlag x (4 + k) true else x) x
  (x, BitVec.ofNat 96 ((List.range 4).foldl (fun n k => n + (outs.getD k (0, false)).1.toNat * 2 ^ (24 * k)) 0))

/-- Direct mode: an SCLK edge with DIR_V high (R265): DIR_OP 1 loads, 2 adds, 3 subtracts the signed product, 4 clears; other
codes, and any with ENABLE 0, do nothing. -/
def execDirectOp (die eng : Nat) (a b : BitVec 96) (op : Nat) (hi : Bool) (s : State) : Host.Outcome State Fault Refusal :=
  .next <|
    let p := lePage die eng
    let x := engOf s die eng
    if x.mode != .direct || gateShut s (16 + die) || !sclk s die eng then s
    else if !enabled s p || op = 0 || 4 < op then setEng s die eng (dirShift x none)
    else
      let r := directEdge (leMd s p) x a b op hi
      setEng s die eng (dirShift r.1 (some r.2))

/-- A breakpoint matches the instruction at PC: the engine halts before it issues (11_loop_programs.md R289). -/
def execBreakpointHit (die eng : Nat) (s : State) : Host.Outcome State Fault Refusal :=
  .next <|
    let x := engOf s die eng
    if x.mode = .run && x.ending.isNone && bpHere s (lePage die eng) x then leBreak s die eng else s

/-- A data watch matched: the instruction has completed and the engine halts before the next (11_loop_programs.md R289). -/
def execDataWatchHit (die eng : Nat) (s : State) : Host.Outcome State Fault Refusal :=
  .next <| if (engOf s die eng).watchHit then leBreak s die eng else s

end Sys2Proof.Machine
end

