-- ==== Sys2Proof/Machine/ImgOps.lean ====
section
/-! DEFINITION. Images (05_images.md): frames and records, segments, groups and the Merkle tree, and the header checks. -/

namespace Sys2Proof.Machine

/-! ### Frames and records (R123, R124) -/

/-- The 256 bytes of a frame, byte i holding payload bits 8i to 8i + 7 (R123). -/
def frameBytes (f : Frame) : List Byte := toBytes 256 f.toNat

/-- Words of a MASKED record spread over the 64 words its mask selects. -/
def spread (mask k : Nat) (ws : List Word) (fuel : Nat) : Nat :=
  match fuel with
  | 0 => 0
  | n + 1 =>
    if nBit mask k then
      match ws with
      | [] => 0
      | w :: r => w.toNat * 2 ^ (32 * k) + spread mask (k + 1) r n
    else spread mask (k + 1) ws n

/-- Stored bytes of a record (R123, R124). -/
def recLen (compressed : Bool) (r : ImgRec) : Nat := if compressed then r.len else 260

/-- The payload a record expands to; none: malformed (R124). `room`: stored bytes left in the stream. -/
def expandRec (compressed : Bool) (prev : Option Frame) (room : Nat) (r : ImgRec) : Option Frame :=
  if room < recLen compressed r then none
  else if !compressed then some r.payload
  else if r.rsv != 0 then none
  else
    let ones := (bitsOf 64 r.mask).length
    match r.kind with
    | 0 => if r.len = 262 then some r.payload else none
    | 1 => if r.len = 14 + 4 * ones && r.words.length = ones then some (BitVec.ofNat 2048 (spread r.mask 0 r.words 64)) else none
    | 2 => if r.len = 6 then prev else none
    | _ => none

/-! ### Groups and the Merkle tree (R126, R127) -/

/-- Digest of the frames of group `g` of stream `st`. -/
def leafOf (g st : Nat) (frames : List Frame) : Nat :=
  (Config.shake256 (0 :: toBytes 4 g ++ toBytes 1 st ++ toBytes 2 frames.length ++ frames.flatMap frameBytes)).toNat

/-- Digest of two nodes, each a string of 32 bytes. -/
def nodePair (a b : BitVec 256) : Nat := (Config.shake256 (1 :: toBytes 32 a.toNat ++ toBytes 32 b.toNat)).toNat

/-- Levels of the tree over `n` leaves: first node and number of nodes, leaves first. -/
def treeLevels (base n fuel : Nat) : List (Nat × Nat) :=
  match fuel with
  | 0 => []
  | f + 1 => if n ≤ 1 then [(base, n)] else (base, n) :: treeLevels (base + n) ((n + 1) / 2) f

/-- NODE_COUNT of a tree over `n` groups. -/
def nodeCount (n : Nat) : Nat := ((treeLevels 0 n 20).map (·.2)).sum

/-- Level a node lies in. -/
def levelOf (n j : Nat) : Nat × Nat :=
  ((treeLevels 0 n 20).find? fun l => l.1 ≤ j && decide (j < l.1 + l.2)).getD (0, 0)

/-- The path of R127 from node `j` upward: nodes to trust, or none where a node check fails. -/
def climb (n : Nat) (nodes : List (BitVec 256)) (trusted : List Nat) (j fuel : Nat) (path : List Nat) : Option (List Nat) :=
  match fuel with
  | 0 => some path
  | f + 1 =>
    if trusted.contains j then some path
    else
      let l := levelOf n j
      let i := j - l.1
      let p := l.1 + l.2 + i / 2
      let alone := l.2 % 2 = 1 && i = l.2 - 1
      let left := l.1 + 2 * (i / 2)
      let node := fun k => nodes.getD k 0
      let h := if alone then (node j).toNat else nodePair (node left) (node (left + 1))
      if h != (node p).toNat then none
      else climb n nodes trusted p f (path ++ (if alone then [j] else [left, left + 1]))

/-- Verification of group `g` with digest `d`: the detail code of a failure, or the nodes trusted after (R127). -/
def verifyGroup (groups root : Nat) (nodes : List (BitVec 256)) (trusted : List Nat) (g d : Nat) : Nat ⊕ List Nat :=
  let top := nodes.length - 1
  if !trusted.contains top && (nodes.getD top 0).toNat != root then .inl 6
  else
    let t1 := setAdd trusted top
    if d != (nodes.getD g 0).toNat then .inl 5
    else
      match climb groups nodes t1 g 20 [] with
      | none => .inl 6
      | some path => .inr (path.foldl setAdd t1)

/-! ### Segments (R125, R168) -/

/-- Every frame address from `a`, `n` of them, lies in a section that segments may write (R168). -/
def noHole (die a n fuel : Nat) : Bool :=
  match fuel with
  | 0 => false
  | f + 1 =>
    match sectionAt die a with
    | none => false
    | some r => if 0x67FFF < a then false else if a + n ≤ r.2 + 1 then true else noHole die (r.2 + 1) (a + n - (r.2 + 1)) f

/-- A segment of `count` frames from `start` lies in the target space of a die. -/
def segmentOk (die target start count : Nat) : Bool :=
  match target with
  | 1 => isFabric die && noHole die start count 12
  | 2 => isFabric die && start + count ≤ 0x12000
  | 3 => isFabric die && start + count ≤ 0x20000
  | 4 => isLane die && start % 262144 + count ≤ tblFrames (start / 262144)
  | _ => false

/-- A descriptor frame: target, start and count; none where it is malformed or its segment invalid (R125). -/
def descriptor (die : Nat) (f : Frame) : Option (Nat × Nat × Nat) :=
  let w := fun k => frGet f (32 * k) 32
  if w 0 = 0x53454731 && w 1 < 256 && 1 ≤ w 3 && w 3 ≤ 16777215 && f >>> 128 = 0 && segmentOk die (w 1) (w 2) (w 3) then
    some (w 1, w 2, w 3)
  else none

/-- Pin word `p` of an IOB frame asks for a standard the bank cannot give (23_pins.md R582, R583). -/
def pinBad (f : Frame) (p : Nat) : Bool :=
  let std := fun q => frGet f (32 * q) 4
  let code := frGet f 1536 3
  match std p with
  | 6 => p % 2 = 1 || std (p + 1) != 7 || (if nBit (frGet f (32 * p) 32) 9 then code != 4 else code < 3 || 5 < code)
  | 7 => p % 2 = 0 || std (p - 1) != 6 || (if nBit (frGet f (32 * p) 32) 9 then code != 4 else code < 3 || 5 < code)
  | n => 1 ≤ n && n ≤ 5 && code != n

/-- Standard a pin acts as: 0 where its word cannot be met (23_pins.md R583). -/
def pinStd (f : Frame) (p : Nat) : Nat := if pinBad f p || 8 ≤ frGet f (32 * p) 4 then 0 else frGet f (32 * p) 4

/-- The frame of the die's bank `a` is written: the VCCIO code, and STD_ERR with its event (23_pins.md R583, R586). -/
def ioFrame (s : State) (die a : Nat) (f : Frame) : State :=
  let code := frGet f 1536 3
  let s := putF s (ioPage die a) IO_STAT_VCCIO (if 1 ≤ code && code ≤ 5 then code else 0)
  if (List.range 48).any (pinBad f) then evtPulse (putFlag s (ioPage die a) IO_STAT_STD_ERR true) (ioPage die a) 0 else s

/-- Codes of the clock networks, or fields of the crossing groups, have changed from `old`: groups whose clock restarts or whose
field changes retrain (07_fabric.md R171, R180, R182). -/
def clkFrame (s : State) (die a : Nat) (old f : Frame) : State :=
  let moved := (List.range 128).filter fun k => frGet old (8 * k) 8 != frGet f (8 * k) 8
  if a = 0x53900 then xgFollow ((moved.filter (· < 32)).foldl (fun s k => xgStop s die k) s)
  else moved.foldl (fun s k => xgDrop s die (k / 64) (k % 64)) s

/-- Outputs of the NoC ports whose EN is 0 are 0 (07_fabric.md R189). -/
def portsOff (s : State) (die : Nat) : State :=
  (List.range 48).foldl (fun s p =>
    let x := nocPort s die p
    if portOn s die p || (x.rsOut.isNone && x.tqOut.isNone) then s
    else setNocPort s die p { x with rsOut := none, tqOut := none }) s

/-- A frame is written to address `a` of a target space (R125); bits 1,920 and up of a LOGIC frame are ignored (07_fabric.md
R169). -/
def frameWrite (s : State) (die target a : Nat) (f : Frame) : State :=
  match target with
  | 1 =>
    if a < 0x493E0 then cfgPut s die a (f &&& BitVec.ofNat 2048 (2 ^ 1920 - 1))
    else if a = 0x53900 || a = 0x53901 then clkFrame (cfgPut s die a f) die a (cfgGet s die a) f
    else if 0x53000 ≤ a && a < 0x53800 then bankRewrite s die (a - 0x53000) f
    else if 0x53800 ≤ a && a < 0x53820 then deepRewrite s die (a - 0x53800) f
    else if 0x54000 ≤ a && a < 0x66000 then engFrameWrite s die ((a - 0x54000) / 256) ((a - 0x54000) % 256) f
    else if 0x53940 ≤ a && (a - 0x53940) % 16 = 0 && (a - 0x53940) / 16 < ioBanks die then
      ioFrame (cfgPut s die a f) die ((a - 0x53940) / 16) f
    else if a = 0x53912 then portsFollow (portsOff (cfgPut s die a f) die) die
    else cfgPut s die a f
  | 2 => bankFill s die a f
  | 3 => deepFill s die a f
  | _ => laneFrameWrite s die a f

/-- The present content of frame `a` of a target 0x01 space (R187). -/
def frameRead (s : State) (die a : Nat) : Frame :=
  if 0x68000 ≤ a then tabOr 0 s.fab.shadow (capKey die (a - 0x68000))
  else if 0x54000 ≤ a && a < 0x66000 then engFrameRead s die ((a - 0x54000) / 256) ((a - 0x54000) % 256)
  else cfgGet s die a

/-! ### The header (R119 to R121) -/

/-- A provisioned signer hash, in a slot VALID and not REVOKED (19_security.md R503). -/
def signerOk (s : State) (hash : Nat) : Bool := s.sec.slots.any fun x => x.valid && !x.revoked && x.hash = hash

/-- Security version against its anti-rollback counter; a counter whose copies do not verify passes nothing (R121 check 5,
06_keep.md R141). -/
def secVerOk (s : State) (h : Header) : Bool :=
  match ctrValue s h.secCtr with
  | some v => v ≤ h.secVer
  | none => false

/-- Stream descriptor `d`. -/
def hdrStream (h : Header) (d : Nat) : StreamDesc := h.streams.getD d { }

/-- Dies of the header's streams, in ascending order. -/
def headerDies (h : Header) : List Nat := bitsOf 16 h.streamMask

/-- Groups of a number of frames (R126). -/
def groupsOf (n : Nat) : Nat := (n + 255) / 256

/-- FIRST_GROUP and GROUP_COUNT follow R126. -/
def groupsOk (h : Header) : Bool :=
  let r := (headerDies h).foldl (fun (a : Bool × Nat) d =>
    (a.1 && (hdrStream h d).firstGroup = a.2, a.2 + groupsOf (hdrStream h d).frames)) (true, groupsOf h.tableFrames)
  r.1 && h.groupCount = r.2

/-- The regions lie in order, on 4,096-byte boundaries, without overlap and inside IMAGE_LEN (R119). Offsets aligned are those
of node table, table stream and die streams: PART_OFF, SEQ_OFF and ROUTE_OFF name bytes of the decompressed table stream and
are not aligned (log 79). -/
def layoutOk (h : Header) : Bool :=
  let table := if h.kind = 2 then [] else [(h.tableOff, h.tableStored)]
  let regs := (h.nodeOff, 32 * h.nodeCount) :: table ++ (headerDies h).map fun d =>
    ((hdrStream h d).offset, (hdrStream h d).stored)
  let r := regs.foldl (fun (a : Bool × Nat) x => (a.1 && x.1 % 4096 = 0 && decide (a.2 ≤ x.1), x.1 + x.2)) (true, 8192)
  r.1 && decide (r.2 ≤ h.imageLen)

/-- Header fields of R120 that a full and a partial image share; `room`: bytes the slot or source has. -/
def headerForm (h : Header) (room : Nat) : Bool :=
  let comp := h.flags = 1
  h.magic = 0x435A4C31 && h.formatVer = 1 && h.flags < 2 && h.rsv11 = 0 && h.rsv1f = 0 && h.rsv98 = 0 && h.rsv380 = 0
    && 8192 ≤ h.imageLen && h.imageLen ≤ 1342177280 && h.imageLen ≤ room && h.secCtr < 16
    && 1 ≤ h.groupCount && h.groupCount ≤ 32768 && h.nodeCount = nodeCount h.groupCount
    && groupsOk h && layoutOk h
    && (List.range 16).all fun d =>
        let x := hdrStream h d
        if nBit h.streamMask d then 1 ≤ x.frames && x.rest = 0 && (comp || x.stored = x.frames * 260) else x = { }

/-- A table region lies in the decompressed table stream (R120). -/
def regionOk (h : Header) (off len : Nat) : Bool := off + len ≤ 256 * h.tableFrames

/-- Check 1 of R121. The rules of R120 that the check does not name (TABLE_FRAMES, SEQ_LEN, the table regions, SEC_CTR,
FIRST_GROUP, an uncompressed TABLE_STORED) fail it too, with cause 0x06 (log 79). -/
def headerCheck1 (h : Header) (room : Nat) : Bool :=
  headerForm h room && h.kind = 1 && h.part = { } && 1 ≤ h.tableFrames && h.tableFrames ≤ 4096
    && (h.flags = 1 || h.tableStored = h.tableFrames * 260)
    && regionOk h h.partOff h.partLen && regionOk h h.seqOff h.seqLen && regionOk h h.routeOff h.routeLen
    && h.seqLen % 16 = 0 && h.seqLen ≤ 65536

/-- The cause of the first check of R121 that fails; `pad`: image bytes 4,097 to 8,191, zero by R119; `readOk`: the units of
header, signature and key were readable (06_keep.md R135). -/
def headerCause (s : State) (h : Header) (pad room : Nat) (readOk : Bool) (keyHash : Nat) (sigOk : Bool) : Option Nat :=
  if !readOk || pad != 0 || !headerCheck1 h room then some 0x06
  else if h.family != 0x5856 || h.device != 8 || h.dieCount != 12 || h.streamMask != 0x1EFF then some 0x07
  else if keyHash != h.signerHash || !signerOk s h.signerHash || !sigOk then some 0x08
  else if !secVerOk s h then some 0x09
  else none

/-! ### One frame of a stream (R124 to R128) -/

/-- A stream's limits: its number, frames, stored bytes and first group. -/
structure StreamInfo where
  st : Nat
  frames : Nat
  stored : Nat
  firstGroup : Nat
  compressed : Bool
  deriving DecidableEq, Repr

/-- What a frame that passes is: part of the table area, a descriptor, or a frame for an address of a target. -/
inductive FrameKind where
  | table | desc | write (target addr : Nat)
  deriving DecidableEq, Repr

/-- The outcome of one stored frame: a detail code, or its payload, what it is and the progress after. -/
inductive FrameStep where
  | bad (detail : Nat) (passed : Bool)
  | ok (f : Frame) (k : FrameKind) (p : StreamProg)
  deriving DecidableEq, Repr

/-- The next stored frame of a stream: record, CRC, then descriptor or address (R123 to R125, R128). `die`: the die whose
target spaces apply; 16 has none. -/
def frameStep (i : StreamInfo) (die : Nat) (p : StreamProg) (r : ImgRec) : FrameStep :=
  match expandRec i.compressed p.prev (i.stored - p.bytes) r with
  | none => if r.unreadable then .bad 1 false else .bad 2 false
  | some f =>
    if r.unreadable || crc32c (frameBytes f) != r.crc.toNat then .bad 1 false
    else
      let n := p.frames + 1
      let q : StreamProg :=
        { p with frames := n, bytes := p.bytes + recLen i.compressed r, prev := some f, group := p.group ++ [f] }
      if i.st = 16 then .ok f .table q
      else if p.left = 0 then
        match descriptor die f with
        | some (t, a, c) =>
          if i.frames < n + c then .bad 4 true else .ok f .desc { q with target := t, addr := a, left := c }
        | none => .bad 4 true
      else .ok f (.write p.target p.addr) { q with addr := p.addr + 1, left := p.left - 1 }

/-- The detail of a stream whose length does not match after a frame (R128). -/
def lengthDetail (i : StreamInfo) (p : StreamProg) : Option Nat :=
  if p.frames < i.frames then (if i.stored ≤ p.bytes then some 7 else none)
  else if p.bytes < i.stored then some 8 else none

end Sys2Proof.Machine
end

