-- ==== Sys2Proof/Machine/Errors.lean ====
section
/-! DEFINITION. Errors, the scrubber and the recorder (20_errors.md R510 to R532). -/

namespace Sys2Proof.Machine

/-- The class a code of R512 is sent with; a code not listed is never sent. -/
def errClass (code : Nat) : Option Nat :=
  if [0x0105, 0x0106, 0x0301, 0x0402, 0x0403, 0x0405, 0x0601, 0x0602].contains code then some 0
  else if [0x0101, 0x0104, 0x0107, 0x0401, 0x0404, 0x0406, 0x0407, 0x0501, 0x0502, 0x0701, 0x0702, 0x0801].contains code
    then some 1
  else if [0x0103, 0x0201, 0x0603].contains code then some 2
  else if code = 0x0102 || code = 0x0F10 || (0x0F01 ≤ code && code ≤ 0x0F08) then some 3
  else none

/-! ### The scrubber -/

/-- The bitwise majority of the three copies of EN (R523). -/
def axVote (x : AxEngine) : Bool := (x.en0 && x.en1) || (x.en0 && x.en2) || (x.en1 && x.en2)

/-- The first scrubbed frame of a die at or after `a` (R517, 07_fabric.md R168). -/
def scrubAt (die a : Nat) : Option Nat :=
  let iobEnd := 0x53940 + 16 * ioBanks die
  if a ≤ 0x493DF then some a
  else if a ≤ 0x50B03 then some (max a 0x50000)
  else if a ≤ 0x51AFC then some (max a 0x51000)
  else if a ≤ 0x5203B then some (max a 0x52000)
  else if a ≤ 0x5215D then some (max a 0x52100)
  else if a ≤ 0x537FF then some (max a 0x53000)
  else if a ≤ 0x5381F then some a
  else if a ≤ 0x53912 then some (max a 0x53900)
  else if a < iobEnd then some (max a 0x53940)
  else if a ≤ 0x54000 + 256 * 287 then some (max 0x54000 (0x54000 + (a - 0x54000 + 255) / 256 * 256))
  else none

/-- The next frame to scrub at or after `a`, at most `fuel` skips on; a skipped logic column is passed as one. -/
def scrubNext (s : State) (die a fuel : Nat) : Option Nat :=
  match fuel with
  | 0 => none
  | f + 1 =>
    match scrubAt die a with
    | none => none
    | some b => if scrubSkips s die b then scrubNext s die (if b ≤ 0x493DF then (b / 400 + 1) * 400 else b + 1) f else some b

/-- Most skips a scan can meet: columns and the frames of the other sections. -/
def scrubFuel : Nat := 20000

/-- A scan starts: each copy of AX_CTRL that differs from the majority is rewritten (R523), and the first frame comes. -/
def scanStart (s : State) (die : Nat) : State :=
  let x := axOf s die
  let v := axVote x
  let bad := ([x.en0, x.en1, x.en2].filter (· != v)).length
  let s := setAx s die { x with en0 := v, en1 := v, en2 := v, state := if v then 1 else 0,
                                pos := (scrubNext s die 0 scrubFuel).getD 0 }
  if bad = 0 then s
  else raiseFrom (evtPulse (countUp s (axPage die) (AX_CORR_COUNT.plus 12) bad) (axPage die) 4) (axPage die) 0 0x0405 0x040

/-- The engine goes on to the next frame, or ends its scan and starts another (R518); after PFW_N's fall it stops (R522). -/
def scanOn (s : State) (die : Nat) : State :=
  let x := axOf s die
  if s.keep.pfwLow then setAx s die { x with state := 0 } else
  match scrubNext s die (x.pos + 1) scrubFuel with
  | some a => setAx s die { x with state := 1, pos := a }
  | none =>
    let s := setAx s die { x with misses := 0 }
    let (ms, s) := freeVal (countWrap s (axPage die) AX_SCAN_COUNT) 16
    scanStart (evtPulse (putF s (axPage die) AX_STAT_LAST_MS ms) (axPage die) 0) die

/-- AX_FIRST takes the first frame acted on (R535). -/
def axFirst (s : State) (die kind frame : Nat) : State :=
  if flag s (axPage die) AX_FIRST_VALID then s
  else putFlag (putF (putF s (axPage die) AX_FIRST_KIND kind) (axPage die) AX_FIRST_FRAME frame) (axPage die) AX_FIRST_VALID true

/-- The engine of a die runs: configured, enabled by the vote, in SCAN, its die joined (R517). -/
def axScans (s : State) (die : Nat) : Bool :=
  isFabric die && (axOf s die).state = 1 && !isolated s die && !gateShut s (24 + die)

/-- A word of a frame as read: data and check bits with the errors of `errs` and of upsets, decoded. -/
def scrubWord (good seen : Frame) (errs : List (Nat × BitVec 72)) (w : Nat) : EccResult :=
  let e := ((errs.find? (·.1 == w)).map (·.2)).getD 0
  let d := frGet seen (64 * w) 64 ^^^ e.toNat % 2 ^ 64
  eccDecode d (eccCheck (frGet good (64 * w) 64) ^^^ e.toNat / 2 ^ 64)

/-- A frame with its correctable words corrected and the others as read. -/
def scrubFix (good seen : Frame) (errs : List (Nat × BitVec 72)) : Frame :=
  (List.range 32).foldl (fun f w =>
    let e := ((errs.find? (·.1 == w)).map (·.2)).getD 0
    let v := match scrubWord good seen errs w with
      | .corrected x => x
      | _ => frGet seen (64 * w) 64 ^^^ e.toNat % 2 ^ 64
    f ||| (BitVec.ofNat 2048 v <<< (64 * w))) 0

/-- SOURCE of partition `e` is a partial image (R232). -/
def fromPartial (s : State) (e : PartEntry) : Bool := flag s (icPage e.die) (IC_PSTAT_SOURCE.nth e.no)

/-- What a source regenerates from: the active image, or the partial image of partition `p`; and the first group of its die
stream. A source whose address is 0 is none; the map holds 2,048 segments (R521). -/
def regenImage (s : State) (die : Nat) (p : Option Nat) : PartImage × Nat :=
  match p with
  | some n => (tabOr { } s.part.image n, 0)
  | none =>
    ({ src := if getF s SQ SQ_STAT_SOURCE = 0 then 1 else 0, root := s.load.hdr.root, groups := s.load.hdr.groupCount
       segs := segsOf s die }, (hdrStream s.load.hdr die).firstGroup)

/-- Frame `a` as source `p` gives it: its group, as read, passes the check against the root along its path (R520, 09_partitions.md
R232). A source whose stream does not hold the frame gives none (log 92). -/
def regenFrom (s : State) (die a : Nat) (p : Option Nat) (reads : List RegenRead) : Option Frame :=
  let x := (regenImage s die p).1
  if x.src = 0 then none
  else
    match runOf (x.segs.take 2048) a, reads.find? (·.part == p) with
    | some j, some r =>
      let g := (regenImage s die p).2 + j / 256
      match verifyGroup x.groups x.root r.nodes [] g (leafOf g die r.frames) with
      | .inr _ => r.frames[j % 256]?
      | .inl _ => none
    | _, _ => none

/-! ### Commands -/

/-- ERROR_REPORT (R510, R511). -/
def execErrorReport (cls die src code info : Nat) (s : State) : Host.Outcome State Fault Refusal :=
  .next (if errClass code = some cls then raise s cls die src code info else s)

/-- FATAL_HOLD_EXPIRY (R515 step 6). -/
def execFatalHoldExpiry (s : State) : Host.Outcome State Fault Refusal :=
  .next (if s.err.fatal && flag s ER ER_CTRL_FATAL_RESET then startTrigger s else s)

/-- How the words of the frame at the scan position read. -/
def frameWords (good seen : Frame) (errs : List (Nat × BitVec 72)) : List EccResult :=
  (List.range 32).map (scrubWord good seen errs)

/-- A frame is corrected in place, counted and recorded; the scan goes on (R516, R517). -/
def scrubCorrected (s : State) (die : Nat) (fixed : Frame) : State :=
  let x := axOf s die
  let s := setAx (cfgPut s die x.pos fixed) die { x with corr := x.corr + 1 }
  let s := axFirst (countUp s (axPage die) AX_CORR_COUNT 1) die 0 x.pos
  scanOn (evtPulse s (axPage die) 1) die

/-- SCRUB_FRAME_READ (R519); a frame that has come to be skipped is passed over (R517). -/
def execScrubFrameRead (die : Nat) (errs : List (Nat × BitVec 72)) (s : State) : Host.Outcome State Fault Refusal :=
  .next <|
    if !axScans s die then s
    else if scrubSkips s die (axOf s die).pos then scanOn s die
    else
      let x := axOf s die
      let words := frameWords (cfgGet s die x.pos) (cfgSeen s die x.pos) errs
      let fixed := scrubFix (cfgGet s die x.pos) (cfgSeen s die x.pos) errs
      if words.any (· == .uncorrectable) then setAx s die { x with state := 2, part := fixed }
      else if words.all (· == .clean) then scanOn s die
      else scrubCorrected s die fixed

/-- Frame `a` from its sources: its partition's, or for a shared driver frame the active image with the fields inside each
extent from that partition's source (09_partitions.md R232). -/
def regenMerged (s : State) (die a : Nat) (reads : List RegenRead) : Option Frame :=
  let own := fun (e : PartEntry) => if fromPartial s e then some e.no else none
  match frameCol a with
  | some c => regenFrom s die a ((ownerAt s die c).bind own) reads
  | none =>
    ((dieParts s die).filter fun e => fromPartial s e && sharesFrame e a && extentMask e a != 0).foldl (fun f e =>
      match f, regenFrom s die a (some e.no) reads with
      | some f, some g => some (mergeOver e a f g)
      | _, _ => none) (regenFrom s die a none reads)

/-- The frame a regeneration takes: both keep dies reachable, and nothing driven twice (R520, R521). -/
def regenGood (s : State) (die : Nat) (reads : List RegenRead) : Option Frame :=
  if keepReach s 13 && keepReach s 14 then
    (regenMerged s die (axOf s die).pos reads).filter fun f => (contention (axOf s die).pos f).isNone
  else none

/-- A frame is regenerated (R518). -/
def regenPlaced (s : State) (die : Nat) (f : Frame) : State :=
  let x := axOf s die
  let s := setAx (cfgPut s die x.pos f) die { x with regen := x.regen + 1 }
  let s := axFirst (countUp s (axPage die) (AX_CORR_COUNT.plus 4) 1) die 1 x.pos
  scanOn (raiseFrom (evtPulse s (axPage die) 2) (axPage die) 0 0x0403 x.pos) die

/-- A frame that cannot be regenerated keeps its errors (R518). -/
def regenFailed (s : State) (die : Nat) : State :=
  let x := axOf s die
  let up := cfgGet s die x.pos ^^^ x.part
  let s : State := { s with fab := { s.fab with upset := tabPutD 0 s.fab.upset (cfgKey die x.pos) up } }
  let s := setAx s die { x with fail := x.fail + 1 }
  let s := axFirst (countUp s (axPage die) (AX_CORR_COUNT.plus 8) 1) die 2 x.pos
  scanOn (raiseFrom (evtPulse s (axPage die) 3) (axPage die) 1 0x0404 x.pos) die

/-- REGEN_DONE (R520, R521). -/
def execRegenDone (die : Nat) (reads : List RegenRead) (s : State) : Host.Outcome State Fault Refusal :=
  .next <|
    if (axOf s die).state ≠ 2 || gateShut s (24 + die) || !isFabric die || isolated s die then s
    else
      match regenGood s die reads with
      | some f => regenPlaced s die f
      | none => regenFailed s die

/-- SCRUB_HEARTBEAT_MISS (R524). -/
def execScrubHeartbeatMiss (die : Nat) (s : State) : Host.Outcome State Fault Refusal :=
  .next <|
    let x := axOf s die
    if !isFabric die || !axVote x || isolated s die || !(x.state = 1 || x.state = 2) then s
    else if x.misses = 0 then
      scanStart (setAx (raiseFrom s (axPage die) 1 0x0406 x.pos) die { x with misses := 1 }) die
    else raiseFrom (setAx s die { x with state := 3, misses := 2 }) (axPage die) 1 0x0407 x.pos

/-- BB_ENTRY_WRITE (R530). -/
def execBbEntryWrite (s : State) : Host.Outcome State Fault Refusal := .next (bbWriteOne s)

/-- BB_COPY (R532). -/
def execBbCopy (reason : Nat) (ok : Bool) (s : State) : Host.Outcome State Fault Refusal :=
  .next (if 1 ≤ reason && reason ≤ 5 then bbCopyWrite s reason ok else s)

end Sys2Proof.Machine
end

