-- ==== Sys2Proof/Machine/FlowPath.lean ====
section
/-! DEFINITION. The frame path of a flow slice (15_flow_slices.md R382 to R410): parsing, classification, metering, MACsec,
sequence recovery, streams between slices, and transmission. -/

namespace Sys2Proof.Machine

/-! ### Parsing (R385, R386) -/

/-- Byte `i` of a frame. -/
def fByte (bs : List Byte) (i : Nat) : Nat := (bs.getD i 0).toNat
/-- The 16-bit big-endian field at `i`. -/
def be16 (bs : List Byte) (i : Nat) : Nat := 256 * fByte bs i + fByte bs (i + 1)

/-- The 16-bit field that a parse entry compares at `i`: a byte that the parser cannot read is open (log 106). -/
def cmp16 (bs : List Byte) (i : Nat) : Nat :=
  let b := fun (i : Nat) => if i < min 128 bs.length then fByte bs i else (Config.parseBeyond i).toNat
  256 * b i + b (i + 1)

/-- What the parser has gathered. -/
structure Parse where
  key : List Byte
  profile : Nat := 0
  seq : Option Nat := none
  /-- where the R-TAG stands -/
  rtag : Option Nat := none
  ptpOff : Nat := 255
  /-- the parse met its limit -/
  limit : Bool := false
  deriving DecidableEq, Repr

/-- Field of a parse entry. -/
def peGet (x : Slice) (e byte : Nat) : Nat := wGet (tblGet x 1 e (byte / 4)) (8 * (byte % 4)) 8

/-- The lowest valid entry of `state` whose field matches. -/
def parseFind (x : Slice) (bs : List Byte) (state off : Nat) : Option Nat :=
  (List.range 256).find? fun e =>
    let b := peGet x e
    nBit (b 0) 6 && b 0 % 64 = state &&
      decide ((cmp16 bs (off + b 5)) &&& (b 3 + 256 * b 4) = b 1 + 256 * b 2)

/-- The parser's steps from `state` and `off`. -/
def parseRun (x : Slice) (bs : List Byte) (state off : Nat) (r : Parse) (fuel : Nat) : Parse :=
  match fuel with
  | 0 => r
  | f + 1 =>
    match parseFind x bs state off with
    | none => r
    | some e =>
      let b := peGet x e
      let far := max (if 0 < b 10 then off + b 9 + b 10 else 0) (if nBit (b 8) 4 then off + b 5 + 6 else 0)
      if min 128 bs.length < far then { r with limit := true }
      else
        let ext := (List.range (b 10)).foldl (fun k i => k.set (b 11 + i) (bs.getD (off + b 9 + i) 0)) r.key
        let off' := off + b 7
        let r : Parse :=
          { r with key := ext, profile := b 8 % 16
                   seq := if nBit (b 8) 4 then some (be16 bs (off + b 5 + 4)) else r.seq
                   rtag := if nBit (b 8) 4 then some (off + b 5) else r.rtag
                   ptpOff := if nBit (b 8) 5 then off' else r.ptpOff }
        if nBit (b 0) 7 then r else parseRun x bs (b 6 % 64) off' r f

/-- The parse of a frame that arrives at a port (R386). -/
def parseFrame (s : State) (die port : Nat) (bs : List Byte) : Parse :=
  let key := BitVec.ofNat 8 port :: List.replicate 31 0
  parseRun (sliceOf s die) bs (getF s (fePage die port) FE_MISS_START_STATE) 0 { key := key } 8

/-! ### Classification (R388) -/

/-- TCAM entry `e` matches. -/
def tcamHit (x : Slice) (port : Nat) (r : Parse) (e : Nat) : Bool :=
  let w := tblGet x 4 e 0
  let byte := fun (i : Nat) => wGet (tblGet x 2 e (i / 4)) (8 * (i % 4)) 8
  wGet w 16 1 = 1 && (port &&& wGet w 4 4) = (wGet w 0 4 &&& wGet w 4 4) &&
    (r.profile &&& wGet w 12 4) = (wGet w 8 4 &&& wGet w 12 4) &&
    (List.range 32).all fun i => ((r.key.getD i 0).toNat &&& byte (32 + i)) = (byte i &&& byte (32 + i))

/-- The context a frame takes, none on a miss. -/
def chooseCtx (s : State) (die port : Nat) (r : Parse) : Option Nat :=
  let x := sliceOf s die
  let win := (List.range 4096).find? (tcamHit x port r)
  let ctxOf := fun (e : Nat) => wGet (tblGet x 4 e 1) 0 16
  let over_ := win.filter fun e => wGet (tblGet x 4 e 0) 17 1 = 1
  let miss := if flag s (fePage die port) FE_MISS_MISS_EN then some (getF s (fePage die port) FE_MISS_MISS_CTX) else none
  let c := (over_.map ctxOf).or (((emFind x r.key).map (emCtx x)).or ((win.map ctxOf).or miss))
  c.filter fun c => wGet (tblGet x 0 c 0) 0 1 = 1

/-! ### Metering (R392) -/

/-- Buckets and LAST of a context brought to time `t`. -/
def meterFill (x : Slice) (c t : Nat) : Slice :=
  let w := tblGet x 0 c
  let d := (t + 2 ^ 32 - (w 10).toNat % 2 ^ 32) % 2 ^ 32
  let cbs := 256 * wGet (w 6) 0 24
  let ebs := 256 * wGet (w 7) 0 24
  let ct := (w 8).toNat + wGet (w 4) 0 20 * d * 256 / 8000
  let o := ct - cbs
  let et := min ebs ((w 9).toNat + wGet (w 5) 0 20 * d * 256 / 8000 + (if wGet (w 6) 24 1 = 1 then o else 0))
  let x := tblPut (tblPut x 0 c 8 (BitVec.ofNat 32 (min ct cbs))) 0 c 9 (BitVec.ofNat 32 et)
  tblPut x 0 c 10 (BitVec.ofNat 32 t)

/-- A context has a meter. -/
def metered (x : Slice) (c : Nat) : Bool := wGet (tblGet x 0 c 4) 0 20 != 0 || wGet (tblGet x 0 c 5) 0 20 != 0

/-- The colour of a frame charged with `l` bytes: 0 green, 1 yellow, 2 red. -/
def meterColour (x : Slice) (c l : Nat) : Slice × Nat :=
  let w := tblGet x 0 c
  if wGet (w 11) 23 1 = 1 then (x, 2)
  else if l * 256 ≤ (w 8).toNat then (tblPut x 0 c 8 (BitVec.ofNat 32 ((w 8).toNat - l * 256)), 0)
  else if l * 256 ≤ (w 9).toNat then (tblPut x 0 c 9 (BitVec.ofNat 32 ((w 9).toNat - l * 256)), 1)
  else (if wGet (w 6) 26 1 = 1 then tblPut x 0 c 11 (wPut (w 11) 23 1 1) else x, 2)

/-- The unused length of a cut-through frame returns to the bucket it was charged to. -/
def meterReturn (x : Slice) (c colour n : Nat) : Slice :=
  let w := tblGet x 0 c
  match colour with
  | 0 => tblPut x 0 c 8 (BitVec.ofNat 32 (min (256 * wGet (w 6) 0 24) ((w 8).toNat + 256 * n)))
  | 1 => tblPut x 0 c 9 (BitVec.ofNat 32 (min (256 * wGet (w 7) 0 24) ((w 9).toNat + 256 * n)))
  | _ => x

/-- The meter of a context acts on a frame of `len` bytes, charged with `l` at its start (R392): the slice, and whether the
frame is dropped. -/
def meterFrame (x : Slice) (c t l len : Nat) : Slice × Bool :=
  if !metered x c then (x, false)
  else
    let r := meterColour (meterFill x c t) c l
    let x := meterReturn r.1 c r.2 (l - len)
    (x, r.2 = 2 || (r.2 = 1 && wGet (tblGet x 0 c 6) 25 1 = 1))

/-- A 16-bit counter in half `hi` of state word `w` of a context, one more, wrapping. -/
def ctxUp (x : Slice) (c w : Nat) (hi : Bool) : Slice :=
  let v := tblGet x 0 c w
  let lsb := if hi then 16 else 0
  tblPut x 0 c w (wPut v lsb 16 (wGet v lsb 16 + 1))

/-! ### MACsec (R408 to R410) -/

/-- What MACsec makes of a received frame: it passes, fails its ICV, or is dropped. -/
inductive SecOut where
  | pass | badIcv | drop
  deriving DecidableEq, Repr

/-- A counter word of SC `i`, one more, wrapping: 8 OK, 9 NOT_VALID, 10 LATE, 11 UNUSED_SA. -/
def scUp (s : State) (die i w : Nat) : State :=
  updSlice s die fun x => tblPut x 8 i w (tblGet x 8 i w + 1)

/-- The secure channel of a direction, port and SCI. -/
def scFind (x : Slice) (dir port sci : Nat) : Option Nat :=
  (List.range 128).find? fun i =>
    let w := tblGet x 8 i
    wGet (w 0) 0 1 = 1 && wGet (w 0) 1 1 = dir && wGet (w 0) 4 4 = port && (w 1).toNat + 2 ^ 32 * (w 2).toNat = sci

/-- Association `an` of SC `i` is enabled and valid. -/
def saOk (x : Slice) (i an : Nat) : Bool := nBit (wGet (tblGet x 8 i 3) 0 4) an && wGet (tblGet x 9 (4 * i + an) 14) 0 1 = 1

/-- PN of an association, and the slice with it set. -/
def saPn (x : Slice) (e : Nat) : Nat := (tblGet x 9 e 12).toNat + 2 ^ 32 * (tblGet x 9 e 13).toNat
@[inherit_doc saPn] def saPnPut (x : Slice) (e v : Nat) : Slice :=
  tblPut (tblPut x 9 e 12 (BitVec.ofNat 32 v)) 9 e 13 (BitVec.ofNat 32 (v / 2 ^ 32))

/-- An ICV failure of a slice: its window and ICV_ALARM (R409, 19_security.md R508). -/
def icvFailed (s : State) (die : Nat) : State :=
  let p := fmPage die
  let s := countUp s p FM_ICV_CNT_COUNT 1
  let x := sliceOf s die
  let now := s.hub.now
  let fresh := match x.icvStart with
    | none => true
    | some t => decide (t + 1000000 * getF s p FM_ALARM_FAIL_WIN < now)
  let n := if fresh then 1 else x.icvCount + 1
  let s := setSlice s die { x with icvCount := n, icvStart := if fresh then some now else x.icvStart }
  if n = getF s p FM_ALARM_FAIL_THR + 1 then alarm (evtPulse s p 2) 3 die 0 else s

/-- The receive SecY of a port acts on a frame (R409). -/
def secRx (s : State) (die port : Nat) (bs : List Byte) (t : SecTag) : State × SecOut :=
  let p := fmPage die
  let x := sliceOf s die
  if !flag s p (FM_PORT_RX_EN.nth port) || getF s p (FM_PORT_VALIDATE.nth port) != 2 then (s, .pass)
  else if !t.present then
    if be16 bs 12 = 0x888E then (s, .pass) else (countUp s p (FM_DROP_NOTAG.nth port) 1, .drop)
  else
    match if t.wellFormed then scFind x 0 port t.sci else none with
    | none => (countUp s p (FM_DROP_BADTAG.nth port) 1, .drop)
    | some i =>
      let e := 4 * i + t.an
      if 4 ≤ t.an || !saOk x i t.an then (scUp s die i 11, .drop)
      else if flag s p (FM_PORT_REPLAY_PROTECT.nth port) && decide (t.pn < saPn x e) then (scUp s die i 10, .drop)
      else if !t.icvOk then (icvFailed (scUp s die i 9) die, .badIcv)
      else
        let low := max (saPn x e) (t.pn + 1 - getF s p FM_REPLAY_WINDOW)
        (updSlice (scUp s die i 8) die fun x => saPnPut x e low, .pass)

/-- The transmit SecY of a port takes a packet number for a frame (R410): protected or sent plain, or none where the frame
is discarded. -/
def secTx (s : State) (die port : Nat) (plain : Bool) : State × Option Bool :=
  let p := fmPage die
  let x := sliceOf s die
  if plain || !flag s p (FM_PORT_TX_EN.nth port) then (s, some false)
  else
    let i := getF s p (FM_PORT_TX_SC.nth port)
    let w := tblGet x 8 i 0
    let e := 4 * i + wGet w 8 2
    let xpn := wGet w 2 2 = 1
    let bits := if xpn then 64 else 32
    let pn := saPn x e % 2 ^ bits
    if wGet w 0 1 = 0 || wGet w 1 1 = 0 || !saOk x i (wGet w 8 2) || pn = 0 then (scUp s die i 11, none)
    else
      let next := (pn + 1) % 2 ^ bits
      let s := updSlice s die fun x => saPnPut (tblPut x 8 i 8 (tblGet x 8 i 8 + 1)) e next
      let s := if next = 3 * 2 ^ (bits - 2) then evtPulse s p 0 else s
      (if next = 0 then evtPulse s p 1 else s, some true)

/-! ### Recovery and queues (R395, R398) -/

/-- Sequence recovery of a context: the slice, and whether the frame is discarded (R395). -/
def recover (x : Slice) (c seq : Nat) : Slice × Bool :=
  let w := tblGet x 0 c 11
  let rcv := wGet w 0 16
  let len : Int := wGet w 16 5
  let dlt : Int := signed 16 (seq + 65536 - rcv)
  let h := tblGet x 0 c 12
  let put := fun (w : Word) (h : Word) => tblPut (tblPut x 0 c 11 w) 0 c 12 h
  if wGet w 21 1 = 1 then (put (wPut (wPut w 0 16 seq) 21 1 0) 1, false)
  else if wGet w 22 1 = 1 then (if seq = rcv then (x, true) else (put (wPut w 0 16 seq) h, false))
  else if len ≤ dlt || dlt ≤ -len then (x, true)
  else if 0 < dlt then (put (wPut w 0 16 seq) ((h <<< dlt.toNat) ||| 1), false)
  else if wGet h (-dlt).toNat 1 = 1 then (x, true)
  else (put w (wPut h (-dlt).toNat 1 1), false)

/-- A frame's first cell reaches its egress slice: recovery, the R-TAG of its context, and its queue (R395, R398). -/
def frameEnqueue (s : State) (die : Nat) (f : EthFrame) : State :=
  let c := f.egFlow % 65536
  let x := sliceOf s die
  let w0 := tblGet x 0 c 0
  let w2 := tblGet x 0 c 2
  let r := if wGet w0 9 1 = 1 && f.seqValid && f.inPort < 64 then recover x c f.seq else (x, false)
  let s := setSlice s die r.1
  if r.2 then frameDel (updSlice s die fun x => ctxUp x c 15 true) die f.id
  else if !flag s (fePage die f.egPort) FE_STAT_LINK then dropCount (frameDel s die f.id) die f.egPort 3
  else
    let add := f.seqValid && f.inPort < 64 && wGet w2 8 1 = 1
    let del := f.rtag.isSome && f.inPort < 64 && wGet w2 9 1 = 1
    frameUpd s die f.id fun e => { e with queued := true, rtagAdd := add, rtagDel := del }

/-! ### The frame that leaves (R381, R384, R395) -/

/-- One byte into the reflected CRC-32 register of IEEE 802.3. -/
def fcsStep (crc : Nat) (b : Byte) : Nat :=
  (List.range 8).foldl (fun c _ => if c % 2 = 1 then c / 2 ^^^ 0xEDB88320 else c / 2) (crc ^^^ b.toNat)

/-- The FCS of a frame (R381). -/
def fcsOf (bs : List Byte) : Nat := bs.foldl fcsStep 0xFFFFFFFF ^^^ 0xFFFFFFFF

/-- Length of a frame as it leaves. -/
def outLen (f : EthFrame) : Nat := f.bytes.length + (if f.rtagAdd then 6 else 0) - (if f.rtagDel then 6 else 0)

/-- Where an R-TAG is inserted: after the source address, or after the VLAN tag (R395). -/
def tagPlace (f : EthFrame) : Nat := if f.vlan then 16 else 12

/-- Bytes of a frame with the R-TAG that the parser found taken out and its own put in (R395). -/
def tagged (f : EthFrame) : List Byte :=
  let bs := match if f.rtagDel then f.rtag else none with
    | some i => f.bytes.take i ++ f.bytes.drop (i + 6)
    | none => f.bytes
  let tag : List Byte := [0xF1, 0xC1, 0, 0, BitVec.ofNat 8 (f.seq / 256), BitVec.ofNat 8 f.seq]
  if f.rtagAdd then bs.take (tagPlace f) ++ tag ++ bs.drop (tagPlace f) else bs

/-- A frame as its MAC sends it, but for MACsec: its last four bytes are the FCS, inverted where R384 ends it. -/
def frameOut (f : EthFrame) : List Byte :=
  let body := (tagged f).dropLast.dropLast.dropLast.dropLast
  let fcs := fcsOf body
  body ++ toBytes 4 (if f.stomp then 2 ^ 32 - 1 - fcs else fcs)

/-- sequenceId of the PTP header that the parser found (R407). -/
def ptpSeqId (f : EthFrame) : Nat := be16 f.bytes (f.ptpOff + 30)

/-! ### Transmission (R383, R384, R399, R400, R407) -/

/-- Time in ns that `n` bytes take on a port. -/
def wireNs (s : State) (die port n : Nat) : Nat :=
  let r := portRate s die port
  if r = 0 then 0 else (80 * n + r - 1) / r

/-- A frame may begin as far as its own bytes go (R383). -/
def beginable (f : EthFrame) : Bool := f.queued && !f.started && (f.complete || (f.ct && 64 ≤ f.bytes.length))

/-- The head frame of a queue. -/
def queueHead (x : Slice) (port q : Nat) : Option EthFrame :=
  x.frames.find? fun f => f.egPort = port && f.egQueue = q && f.queued

/-- A queue's head may begin now: its gate is open, it ends before the gate closes (R400). -/
def canBegin (s : State) (die port q : Nat) : Option EthFrame :=
  let f := (queueHead (sliceOf s die) port q).filter beginable
  f.filter fun f =>
    let n := if f.complete then outLen f else getF s (fePage die port) (FE_QCFG_MAX_SDU.nth q) + 32
    let sec := if flag s (fmPage die) (FM_PORT_TX_EN.nth port) && !f.noMacsec then 32 else 0
    nBit (gclNow s die port).2 q &&
      match gateLeft s die port q with
      | none => true
      | some t => decide (wireNs s die port (n + sec + 20) ≤ t)

/-- The port sends a frame now. -/
def portBusy (s : State) (die port : Nat) : Bool := (sliceOf s die).frames.any fun f => f.egPort = port && f.started

/-- Bytes that MACsec adds to a frame on the wire: SecTAG with SCI, and ICV. -/
def secBytes (f : EthFrame) : Nat := if f.sec then 32 else 0

/-- A port's 64-bit byte counter, `n` more. -/
def bytesUp (s : State) (die port : Nat) (lo hi : FieldRef) (n : Nat) : State :=
  let p := fePage die port
  let v := getF s p lo + 2 ^ 32 * getF s p hi + n
  putF (putF s p lo (v % 2 ^ 32)) p hi (v / 2 ^ 32 % 2 ^ 32)

/-- Stamp of a frame whose first bit crosses the egress pins now (R406). -/
def txStamp (s : State) (die port : Nat) : Nat := (s.hub.now + getF s (fePage die port) FE_TSCOR_TX_COR) % 2 ^ 64

/-- A frame that has been sent leaves: counters, its stamp, its tokens (R384, R407). -/
def frameSent (s : State) (die : Nat) (f : EthFrame) : State :=
  let p := fePage die f.egPort
  let s := updSlice (frameDel s die f.id) die fun x => { x with sent := tabPut x.sent f.egPort (frameOut f) }
  let s := portCount s die f.egPort FE_TXF_COUNT 1
  let s := bytesUp s die f.egPort FE_TXB_LO_BYTES FE_TXB_HI_BYTES (outLen f + secBytes f)
  let s := if f.stomp then countUp s p FE_ERR_STOMP 1 else s
  let tsEn := f.inPort < 64 && wGet (tblGet (sliceOf s die) 0 (f.egFlow % 65536) 0) 7 1 = 1
  if f.ptpOff = 255 || !(tsEn || f.tsReq) then s
  else
    let q := tabOr [] (sliceOf s die).txts f.egPort
    if 64 ≤ q.length then countUp s p FE_TXTS_OVF_COUNT 1
    else
      let e : TxTs := { seqId := ptpSeqId f, ts := f.txTs, ok := !coasting s }
      evtPulse (updSlice s die fun x => { x with txts := tabPut x.txts f.egPort (q ++ [e]) }) p 3

/-! ### Forwarding (R383, R397, R404, R405) -/

/-- A frame that its ingress slice has accepted. -/
structure Accepted where
  die : Nat
  port : Nat
  ctx : Nat
  bytes : List Byte
  seq : Option Nat
  ptpOff : Nat
  ts : Nat
  tsValid : Bool
  vlan : Bool
  rtag : Option Nat
  /-- a check that fails after a cut-through start would have begun, or a reception that stops (R384) -/
  fcsBad : Bool := false
  secBad : Bool := false
  aborted : Bool := false
  deriving DecidableEq, Repr

/-- The frame ends under R384. -/
def Accepted.bad (a : Accepted) : Bool := a.fcsBad || a.secBad || a.aborted

/-- Cut-through of a frame toward an egress (R383). -/
def cutThrough (s : State) (die port ctx flow : Nat) : Bool :=
  let e := egressOf s flow
  let p := fePage e.1 e.2.1
  wGet (tblGet (sliceOf s die) 0 ctx 0) 6 1 = 1 && flag s p (FE_QCFG_CT.nth e.2.2.1) && flag s p FE_MODE_CT_OUT &&
    decide (portRate s e.1 e.2.1 ≤ portRate s die port) && !isolated s e.1

/-- MAX_LEN of a context, or the ingress port's MTU (R397). -/
def frameMax (s : State) (die port ctx : Nat) : Nat :=
  let m := wGet (tblGet (sliceOf s die) 0 ctx 3) 16 14
  if m = 0 then portMtu s die port else m

/-- Descriptor of a stream (R405). -/
def streamDesc (s : State) (a : Accepted) (ct sched : Bool) : List Byte :=
  let flags := ofBool a.seq.isSome + 2 * ofBool a.tsValid + 4 * ofBool ct + 8 * ofBool sched + 16 * ofBool (a.ptpOff != 255)
  toBytes 8 a.ts ++ toBytes 2 (a.seq.getD 0) ++ toBytes 1 flags ++ toBytes 1 (16 * (a.die - 9) + a.port) ++
    toBytes 2 (portRate s a.die a.port) ++ toBytes 1 (if a.ptpOff = 255 then 0 else a.ptpOff) ++ toBytes 1 0

/-- Trailer of a frame (R405); `cut`: the frame was cut to the slot (R415). -/
def frameTrailer (a : Accepted) (cut : Bool) : List Byte :=
  toBytes 2 a.bytes.length
    ++ toBytes 1 (ofBool !(a.fcsBad || a.aborted) + 2 * ofBool !(a.secBad || a.aborted) + 4 * ofBool cut + 8 * ofBool a.aborted)
    ++ List.replicate 13 0

/-- The packets of a stream are handed to the bridge (R403, R404). -/
def streamSend (s : State) (die bridge dstNode flow no : Nat) (sched : Bool) (bytes : List Byte) : State :=
  let n := (bytes.length + 255) / 256
  let ini := 64 + 2 * (die - 9) + bridge
  let acc := s.noc.nextAcc
  let mk := fun (j : Nat) =>
    let d := (bytes.drop (256 * j)).take 256
    let pkt : Packet :=
      { cmd := 3, sched := sched, urg := urgOf s ini 3 sched, len := flitCount 0 d.length, src := ini, srcNode := iniNode ini
        dst := dstNode, tag := no % 2048 + (if j + 1 = n then 2048 else 0), addr := 256 * j, size := d.length
        chk := chkOf s ini dstNode, cls := 3, flow := flow, data := d }
    ({ pkt := pkt, acc := acc } : HeldPkt)
  let s := { s with noc := { s.noc with nextAcc := acc + 1, waiting := s.noc.waiting ++ (List.range n).map mk } }
  pump s

/-- A frame goes to one egress flow, locally or as a stream (R397, R404). -/
def forwardOne (s : State) (a : Accepted) (flow : Nat) : State :=
  let e := egressOf s flow
  let ct := cutThrough s a.die a.port a.ctx flow
  let w0 := tblGet (sliceOf s a.die) 0 a.ctx 0
  let sched := wGet w0 1 2 = 2 && wGet w0 3 1 = 1 && wGet (tblGet (sliceOf s a.die) 0 a.ctx 3) 0 4 = a.port
  let need := cellsOf (frameMax s a.die a.port a.ctx)
  let exact := cellsOf a.bytes.length
  if !e.2.2.2 && e.1 = a.die then dropCount s a.die a.port 1
  else if e.1 = a.die then
    if !canDraw s a.die e.2.1 e.2.2.1 need then dropCount s a.die a.port 0
    else
      let x := sliceOf s a.die
      let f : EthFrame :=
        { id := x.nextId, inPort := 16 * (a.die - 9) + a.port, inRate := portRate s a.die a.port, bytes := a.bytes
          egFlow := flow, egPort := e.2.1, egQueue := e.2.2.1, seqValid := a.seq.isSome
          seq := a.seq.getD 0, ptpOff := a.ptpOff, ts := a.ts, tsValid := a.tsValid, ct := ct, sched := sched, tokens := exact, vlan := a.vlan, rtag := a.rtag }
      let s := setSlice s a.die { x with nextId := x.nextId + 1, frames := x.frames ++ [f], free := x.free - exact }
      if !a.bad then s
      else
        let s := frameEnqueue s a.die f
        let begun := if ct && !portBusy s a.die e.2.1 then canBegin s a.die e.2.1 e.2.2.1 else none
        match begun.filter (·.id == f.id) with
        | some g =>
          match secTx s a.die e.2.1 false with
          | (s, some sec) => frameSent s a.die { g with stomp := true, sec := sec, txTs := txStamp s a.die e.2.1 }
          | (s, none) => frameDel s a.die f.id
        | none => frameDel s a.die f.id
  else if a.bad && !ct then s
  else if !canDrawOut s a.die need sched then dropCount s a.die a.port 0
  else
    let b := a.port / 8
    let ini := 64 + 2 * (a.die - 9) + b
    let x := sliceOf s a.die
    let no := if b = 0 then x.streamA else x.streamB
    let next := (no + 1) % 2048
    let x := { x with outs := x.outs ++ [({ bridge := ini, no := no, tokens := exact, sched := sched } : OutStream)], free := x.free - exact }
    let s := setSlice s a.die (if b = 0 then { x with streamA := next } else { x with streamB := next })
    let s := { s with flow := { s.flow with parsed := tabPut s.flow.parsed (2048 * ini + no) (a.vlan, a.rtag) } }
    let bytes := streamDesc s a ct sched ++ a.bytes ++ frameTrailer a false
    streamSend s a.die b (mkNode e.1 (e.2.1 / 8) 0) flow no sched bytes

/-! ### Arriving streams (R384, R404) -/

/-- The end of a frame has come: the tokens beyond its cells return (R397). -/
def frameClose (s : State) (die : Nat) (f : EthFrame) : State :=
  let n := min f.tokens (cellsOf f.bytes.length)
  updSlice s die fun x =>
    { x with free := x.free + (f.tokens - n)
             frames := x.frames.map fun e => if e.id = f.id then { f with complete := true, tokens := n } else e }

/-- An incomplete frame of a stream is lost: discarded, or ended with its FCS inverted once it has begun (R384). -/
def streamBreak (s : State) (die : Nat) (f : EthFrame) : State :=
  if f.started then frameClose s die { f with stomp := true, bytes := f.bytes ++ List.replicate 4 0 }
  else frameDel s die f.id

/-- The last packet of a stream has come: the trailer is taken off, and a frame that failed is lost (R384, R405). -/
def streamEnd (s : State) (die id : Nat) : State :=
  match (sliceOf s die).frames.find? (·.id == id) with
  | none => s
  | some f =>
    let trailer := f.bytes.drop (f.bytes.length - 16)
    let f := { f with bytes := f.bytes.take (f.bytes.length - 16) }
    if nGet (ofBytes ((trailer.drop 2).take 1)) 0 2 = 3 then frameClose s die f
    else if f.started then frameClose s die { f with stomp := true }
    else frameDel s die id

/-- A STRM packet reaches a slice's bridge: the first one brings the descriptor and draws the tokens, the last one the
trailer; a poisoned packet spoils its frame. -/
def streamPacket (s : State) (die : Nat) (p : Packet) : State :=
  let key := some (p.src, p.tag % 2048)
  let last := fun (s : State) (id : Nat) => if 2048 ≤ p.tag then streamEnd s die id else s
  let e := egressOf s p.flow
  match (sliceOf s die).frames.find? fun f => f.stream = key && !f.complete with
  | some f =>
    if p.addr = 0 then streamBreak s die f
    else if p.addr != 16 + f.bytes.length then s
    else
      let s := frameUpd s die f.id fun g => { g with bytes := g.bytes ++ p.data }
      last s f.id
  | none =>
    if p.addr != 0 || e.1 != die then s
    else
      let d := fun (i n : Nat) => ofBytes ((p.data.drop i).take n)
      let inPort := d 11 1 % 64
      let m := wGet (tblGet (sliceOf s die) 0 (p.flow % 65536) 3) 16 14
      let need := cellsOf (if m = 0 then 9216 else m)
      let lost := fun (c : Nat) =>
        if isolated s (9 + inPort / 16) then s else dropCount s (9 + inPort / 16) (inPort % 16) c
      if !e.2.2.2 then lost 1
      else if !canDraw s die e.2.1 e.2.2.1 need then lost 0
      else
        let found := tabOr (false, none) s.flow.parsed (2048 * p.src + p.tag % 2048)
        let x := sliceOf s die
        let bs := p.data.drop 16
        let f : EthFrame :=
          { id := x.nextId, inPort := inPort, inRate := d 12 2, bytes := bs, egFlow := p.flow, egPort := e.2.1
            egQueue := e.2.2.1, seqValid := nBit (d 10 1) 0, seq := d 8 2, ptpOff := if nBit (d 10 1) 4 then d 14 1 else 255
            ts := d 0 8, tsValid := nBit (d 10 1) 1, ct := nBit (d 10 1) 2, sched := nBit (d 10 1) 3, tokens := need
            stream := key, complete := false, vlan := found.1, rtag := found.2 }
        last (setSlice s die { x with nextId := x.nextId + 1, frames := x.frames ++ [f], free := x.free - need }) f.id

end Sys2Proof.Machine
end

