-- ==== Sys2Proof/Machine/Flow.lean ====
section
/-! DEFINITION. Commands of the flow slices that need nothing outside them (15_flow_slices.md R384 to R401). -/

namespace Sys2Proof.Machine

/-- A slice that is joined, and a port of it. -/
def sliceHere (s : State) (die : Nat) : Bool := isLane die && !isolated s die && !gateShut s (32 + die - 9)

/-- The MACs of a slice run. -/
def macHere (s : State) (die : Nat) : Bool := sliceHere s die && !gateShut s (36 + die - 9)

/-- The head of a queue is longer than the queue may send (R400). -/
def overLong (s : State) (die port queue : Nat) : Option EthFrame :=
  (queueHead (sliceOf s die) port queue).filter fun f =>
    decide (getF s (fePage die port) (FE_QCFG_MAX_SDU.nth queue) < outLen f)

/-- A frame begins on a port (R383, R409): under MACsec where the port has it, or it is dropped; its first bit is stamped. -/
def txBegin (s : State) (die port : Nat) (f : EthFrame) : State :=
  let r := secTx s die port f.noMacsec
  match r.2 with
  | none => frameDel r.1 die f.id
  | some sec =>
    frameUpd r.1 die f.id fun g => { g with started := true, sec := sec, txTs := txStamp r.1 die port }

/-- TX_FRAME_START (R383, R399, R400): the head of `queue` begins where it may and no higher queue can. -/
def execTxFrameStart (die port queue : Nat) (s : State) : Host.Outcome State Fault Refusal :=
  .next <|
    if !macHere s die || 16 ≤ port || 8 ≤ queue || !flag s (fePage die port) FE_STAT_LINK || portBusy s die port then s
    else
      match overLong s die port queue with
      | some f => dropCount (frameDel s die f.id) die port 2
      | none =>
        let higher := (List.range 8).any fun q => queue < q && (canBegin s die port q).isSome
        match if higher then none else canBegin s die port queue with
        | none => s
        | some f => txBegin s die port f

/-- TX_FRAME_END: the frame has left the port (R384, R407). -/
def execTxFrameEnd (die port : Nat) (s : State) : Host.Outcome State Fault Refusal :=
  .next <|
    match (sliceOf s die).frames.find? fun f => f.egPort = port && f.started && f.complete with
    | some f => if macHere s die then frameSent s die f else s
    | none => s

/-- SEQ_RECOVERY (R395). -/
def execSeqRecovery (die id : Nat) (s : State) : Host.Outcome State Fault Refusal :=
  .next <|
    match (sliceOf s die).frames.find? fun f => f.id = id && !f.queued with
    | some f => if sliceHere s die then frameEnqueue s die f else s
    | none => s

/-- STREAM_PACKET_TIMEOUT (R384). -/
def execStreamPacketTimeout (die id : Nat) (s : State) : Host.Outcome State Fault Refusal :=
  .next <|
    match (sliceOf s die).frames.find? fun f => f.id = id && !f.complete with
    | some f => if sliceHere s die then streamBreak s die f else s
    | none => s

/-- METER_SWEEP (R392). -/
def execMeterSweep (die ctx : Nat) (s : State) : Host.Outcome State Fault Refusal :=
  .next <|
    let x := sliceOf s die
    let d := (s.hub.now + 2 ^ 32 - (tblGet x 0 ctx 10).toNat) % 2 ^ 32
    if sliceHere s die && ctx < 65536 && metered x ctx && 2 ^ 30 ≤ d then setSlice s die (meterFill x ctx s.hub.now) else s

/-- CB_RESET_TIMEOUT: TAKE_ANY sets (R395). -/
def execCbResetTimeout (die ctx : Nat) (s : State) : Host.Outcome State Fault Refusal :=
  .next <|
    let x := sliceOf s die
    if sliceHere s die && ctx < 65536 && wGet (tblGet x 0 ctx 0) 9 1 = 1 then
      setSlice s die (tblPut x 0 ctx 11 (wPut (tblGet x 0 ctx 11) 21 1 1))
    else s

/-- GATE_ENTRY_ADVANCE: the entry and gates of a port follow the time base (R401). -/
def execGateEntryAdvance (die port : Nat) (s : State) : Host.Outcome State Fault Refusal :=
  .next (if sliceHere s die && port < 16 then gclShow s die port else s)

/-- GCL_SWITCH: the commit point of a port's gate list (R401). -/
def execGclSwitch (die port : Nat) (s : State) : Host.Outcome State Fault Refusal :=
  .next <|
    match tabGet (sliceOf s die).gclAt port with
    | none => s
    | some t => if sliceHere s die && port < 16 && gclPoint s die port t ≤ s.hub.now then gclApply s die port else s

/-- Cells of a frame that hold data. -/
def filledCells (f : EthFrame) : Nat := if f.complete then f.tokens else min f.tokens ((f.bytes.length + 16 + 255) / 256)

/-- HELD and RSV of a slice (R398). -/
def tokHeld (x : Slice) : Nat := (x.frames.map filledCells).sum + (x.outs.map (·.tokens)).sum
@[inherit_doc tokHeld] def tokRsv (x : Slice) : Nat := (x.frames.map fun f => f.tokens - filledCells f).sum

/-- TOKEN_AUDIT (R398, 20_errors.md R526): ledger 4. -/
def execTokenAudit (die : Nat) (s : State) : Host.Outcome State Fault Refusal :=
  .next <|
    let x := sliceOf s die
    let sum := x.free + tokRsv x + tokHeld x
    if sliceHere s die then audit s 4 (fsPage die) 0x9000 (sum = 131072) else s

end Sys2Proof.Machine
end

