-- ==== Sys2Proof/Machine/Memories.lean ====
section
/-! DEFINITION. Bank and deep memories at work (08_memories.md R198 to R212). -/

namespace Sys2Proof.Machine

/-- Port A (`false`) or B of bank memory `b` has clock edges (R197). -/
def bankClocked (s : State) (die b : Nat) (portB : Bool) : Bool :=
  b < 2048 && portClocked s die (bankCol b) (bankCfg s die b 0 (if portB then 20 else 14) 6)

/-- A port's output word and pipeline register, each with its SBE and DBE, after an edge of its clock that delivers `v`, none
where it delivers nothing. With OREG the word of the edge before moves on, or SRST clears the output register (R198). -/
def portOut1 (oreg srst : Bool) (d pre : BitVec 72 × Nat) (v : Option (BitVec 72 × Nat)) :
    (BitVec 72 × Nat) × (BitVec 72 × Nat) :=
  if oreg then (if srst then (0, 0) else pre, v.getD pre) else (v.getD d, pre)

/-- The outputs of a port of a bank set, and its GRANT ended. -/
def portPut (x : Bank) (portB : Bool) (o : (BitVec 72 × Nat) × (BitVec 72 × Nat)) : Bank :=
  if portB then { x with doB := o.1.1, errB := o.1.2, preB := o.2.1, preErrB := o.2.2, grant := false }
  else { x with doA := o.1.1, errA := o.1.2, preA := o.2.1, preErrA := o.2.2 }

/-- The outputs of a port as they stand. -/
def portNow (x : Bank) (portB : Bool) : (BitVec 72 × Nat) × (BitVec 72 × Nat) :=
  if portB then ((x.doB, x.errB), (x.preB, x.preErrB)) else ((x.doA, x.errA), (x.preA, x.preErrA))

/-- An edge of a port's clock without an access: the output register moves on, and FLAG_B[0] of a pool falls (R198, R206). -/
def portEdge (s : State) (die mem : Nat) (portB srst : Bool) : State :=
  let x := bankMem s die mem
  let oreg := bankCfg s die mem 0 (if portB then 13 else 12) 1 = 1
  let now := portNow x portB
  setBank s die mem (portPut x portB (if bankCfg s die mem 0 4 2 = 0 then portOut1 oreg srst now.1 now.2 none else now))

/-- BANK_ACCESS: an edge of a port's clock, in RAM mode with a read or write where EN (`en`) is high (R198, R199). -/
def execBankAccess (die mem : Nat) (portB en : Bool) (we : BitVec 8) (addr : Nat) (din : BitVec 72) (srst coll : Bool)
    (s : State) : Host.Outcome State Fault Refusal :=
  .next <|
    if !bankClocked s die mem portB then s
    else if !en then portEdge s die mem portB srst
    else if bankCfg s die mem 0 4 2 != 0 then s
    else
      let sh := shapeOf (bankWidth s die mem)
      let ecc := bankEcc s die mem
      let a := addr % sh.2
      let x := bankMem s die mem
      let old := rowWord x sh.1 a
      let mask := weMask sh.1 ecc we.toNat
      let v := if ecc then eccJoin (eccSplit din.toNat).1 else din.toNat
      let x1 := rowPut x sh.1 a mask v
      let wmode := bankCfg s die mem 0 (if portB then 10 else 8) 2
      let oreg := bankCfg s die mem 0 (if portB then 13 else 12) 1 = 1
      let shown := if mask = 0 then some old else if wmode = 1 then some (rowWord x1 sh.1 a)
        else if wmode = 2 then none else some old
      let d := shown.map (eccDeliver ecc)
      let now := portNow x portB
      let out := portOut1 oreg srst now.1 now.2 (d.map fun r => (BitVec.ofNat 72 r.1, r.2))
      let s := bankErr (setBank s die mem (portPut x1 portB out)) die mem portB ((d.map (·.2)).getD 0) a
      if coll && portB && mask != 0 then evtPulse (countUp s (bgPage die (mem / 32)) BG_COLL_CNT_COUNT 1) (bgPage die (mem / 32)) 3
      else s

/-- FIFO_PUSH at port A of a lone queue or of the head of a cascade (R203, R205). -/
def execFifoPush (die mem : Nat) (din : BitVec 72) (popToo : Bool) (s : State) : Host.Outcome State Fault Refusal :=
  .next <|
    let e := queueEnds s die mem
    if !bankClocked s die mem false || !isFifo s die mem || e.1 != mem then s
    else
      let both := popToo && oneClock s die mem
      let empty := headView s die e = 0
      if writeView s die e = queueCap s die e && !both then queueReject s die mem
      else if both && !empty then queuePush (queuePop s die e) die e din
      else if writeView s die e = queueCap s die e then queueReject s die mem
      else queuePush s die e din

/-- FIFO_POP at port B of a lone queue or of the tail of a cascade (R203, R205). -/
def execFifoPop (die mem : Nat) (s : State) : Host.Outcome State Fault Refusal :=
  .next <|
    let e := queueEnds s die mem
    if !bankClocked s die mem true || !isFifo s die mem || e.2 != mem || headView s die e = 0 then s else queuePop s die e

/-- The pool of token memory `b` as its two sides see it (R206). -/
def poolGive (s : State) (die b : Nat) : State :=
  let x := bankMem s die b
  if x.tok + x.unseenR = tokMax s die b then queueReject s die b
  else
    let late := ofBool (!oneClock s die b)
    queueCount (setBank s die b { x with tok := x.tok + 1, unseenW := x.unseenW + late }) die b BG_WACC_COUNT
@[inherit_doc poolGive] def poolTake (s : State) (die b : Nat) : State :=
  let x := bankMem s die b
  let late := ofBool (!oneClock s die b)
  queueCount (setBank s die b { x with tok := x.tok - 1, unseenR := x.unseenR + late }) die b BG_RDEL_COUNT

/-- TOKEN_GIVE at port A (R206). -/
def execTokenGive (die mem : Nat) (s : State) : Host.Outcome State Fault Refusal :=
  .next (if bankClocked s die mem false && bankCfg s die mem 0 4 2 = 3 then poolGive s die mem else s)

/-- FLAG_B[0] of a pool: the take of this edge is granted, or refused (R206). -/
def poolGrant (s : State) (die b : Nat) (g : Bool) : State := setBank s die b { bankMem s die b with grant := g }

/-- TOKEN_TAKE at port B; with one clock a give and a take at one edge of an empty pool are both granted, but for a pool whose
ceiling is 0, which rejects the give (R206). -/
def execTokenTake (die mem : Nat) (giveToo : Bool) (s : State) : Host.Outcome State Fault Refusal :=
  .next <|
    if !bankClocked s die mem true || bankCfg s die mem 0 4 2 != 3 then s
    else
      let both := giveToo && oneClock s die mem
      let view := (bankMem s die mem).tok - (bankMem s die mem).unseenW
      let given := if both then poolGive s die mem else s
      if view = 0 && !(both && tokMax s die mem != 0) then poolGrant given die mem false
      else poolGrant (poolTake given die mem) die mem true

/-- CASCADE_FORWARD: an entry moves one stage north while the next stage has room (R205). -/
def execCascadeForward (die mem : Nat) (s : State) : Host.Outcome State Fault Refusal :=
  .next <|
    match cascade s die mem with
    | none => s
    | some e =>
      let next := bankMem s die (mem + 1)
      if !bankClocked s die e.1 false || e.2 ≤ mem || (shapeOf (bankWidth s die mem)).2 ≤ next.q.length then s
      else
        let x := bankMem s die mem
        match x.q with
        | [] => s
        | v :: rest => stagePut (setBank s die mem { x with q := rest }) die (mem + 1) v

/-- QUEUE_VIEW_SYNC: an operation of the other side becomes visible (R204). -/
def execQueueViewSync (die mem : Nat) (deep toRead : Bool) (s : State) : Host.Outcome State Fault Refusal :=
  .next <|
    if deep then
      let x := deepMem s die mem
      if 32 ≤ mem then s
      else if toRead then setDeep s die mem { x with unseenW := x.unseenW - 1 } else setDeep s die mem { x with unseenR := x.unseenR - 1 }
    else
      let x := bankMem s die mem
      if 2048 ≤ mem then s
      else if toRead then setBank s die mem { x with unseenW := x.unseenW - 1 } else setBank s die mem { x with unseenR := x.unseenR - 1 }

/-- QUEUE_AUDIT of a quiet queue, by its tail (R207). -/
def execQueueAudit (die mem : Nat) (deep : Bool) (s : State) : Host.Outcome State Fault Refusal :=
  .next <|
    if !isFabric die || isolated s die then s
    else if deep then
      let p := dmPage die mem
      if 32 ≤ mem || !deepFifo s die mem then s
      else audit s 0 p (regBlk p)
        ((deepMem s die mem).q.length = (getF s p DM_WACC_COUNT + 2 ^ 32 - getF s p DM_RDEL_COUNT) % 2 ^ 32)
    else
      let e := queueEnds s die mem
      let token := bankCfg s die mem 0 4 2 = 3
      if 2048 ≤ mem || e.2 != mem || !(isFifo s die mem || token) then s
      else
        let wacc := getF s (bgPage die (e.1 / 32)) (BG_WACC_COUNT.nth (e.1 % 32))
        let rdel := getF s (bgPage die (mem / 32)) (BG_RDEL_COUNT.nth (mem % 32))
        let occ := if token then (bankMem s die mem).tok else queueOcc s die e
        let start := if token then tokInit s die mem else 0
        audit s 0 (bgPage die (mem / 32)) (regBlk (bgPage die (mem / 32))) (occ = (start + wacc + 2 ^ 32 - rdel) % 2 ^ 32)

/-- The fabric port of deep memory `j` has clock edges (R209). -/
def deepClocked (s : State) (die j : Nat) : Bool := j < 32 && portClocked s die (deepCol j) (deepCfg s die j 0 3 6)

/-- DM_FABRIC_REQUEST: a request in RAM mode; a push (`we`) or pop in FIFO mode on the side the fabric owns (R209). -/
def execDmFabricRequest (die mem : Nat) (we : Bool) (addr : Nat) (data : BitVec 64) (be : BitVec 8) (s : State) :
    Host.Outcome State Fault Refusal :=
  .next <|
    if !deepClocked s die mem then s
    else
      let x := { deepMem s die mem with rspValid := false }
      let s := setDeep s die mem x
      if !deepFifo s die mem then
        if 16 ≤ x.reqs.length then s
        else
          let r : DmReq := { we := we, addr := addr % 131072, data := data, be := be }
          setDeep s die mem { x with reqs := x.reqs ++ [r] }
      else if we then
        if deepPushNoc s die mem then s
        else if deepWriteView s die mem = 131072 then
          evtPulse (countUp s (dmPage die mem) DM_QREJ_CNT_COUNT 1) (dmPage die mem) 3
        else deepPush s die mem data.toNat
      else if deepPopNoc s die mem || deepReadView s die mem = 0 then s
      else
        let r := deepPop s die mem 0
        setDeep r.1 die mem { deepMem r.1 die mem with rspData := BitVec.ofNat 64 r.2.1, rspErr := r.2.2 }

/-- DM_FABRIC_RESPONSE: the oldest request is served; a write of part of a word reads the word first (R209, R210). -/
def execDmFabricResponse (die mem : Nat) (s : State) : Host.Outcome State Fault Refusal :=
  .next <|
    let x := deepMem s die mem
    if !deepClocked s die mem then s
    else
      match x.reqs with
      | [] => s
      | r :: rest =>
        let s := setDeep s die mem { x with reqs := rest }
        if !r.we then
          let v := deepRead s die mem r.addr 0
          setDeep v.1 die mem { deepMem v.1 die mem with rspValid := true, rspData := BitVec.ofNat 64 v.2.1, rspErr := v.2.2 }
        else
          let old := eccRead (tabOr 0 x.words r.addr)
          let whole := r.be = 0xFF
          let s := if whole then s else deepErr s die mem r.addr old.2 0 false
          let bad := !whole && old.2 = 2
          let new := ofBytes ((List.range 8).map fun i =>
            BitVec.ofNat 8 ((if r.be.getLsbD i then r.data.toNat else old.1) / 256 ^ i))
          let s := if bad then s else deepPut s die mem r.addr (eccWord new)
          let (v, s) := freeVal s 64
          setDeep s die mem { deepMem s die mem with rspValid := true, rspData := BitVec.ofNat 64 v, rspErr := bad }

/-- A NoC access of `len` bytes at `off` in RAM mode: code and bytes read (R210). -/
def deepNoc (s : State) (die j : Nat) (we : Bool) (off len : Nat) (bytes : List Byte) : State × Nat × List Byte :=
  let p := dmPage die j
  if len = 0 || 256 < len || 1048576 < off + len then (s, 4, [])
  else if !we then
    if !flag s p DM_CTRL_NOC_RD_EN then (s, 4, [])
    else
      let w0 := off / 8
      let r := deepReads s die j 1 w0 ((off + len - 1) / 8 + 1 - w0)
      let all := r.2.1.flatMap (toBytes 8)
      (r.1, if r.2.2 then 4 else 0, if r.2.2 then [] else (all.drop (off % 8)).take len)
  else if !flag s p DM_CTRL_NOC_WR_EN then (s, 4, [])
  else
    let w0 := off / 8
    let w1 := (off + len - 1) / 8
    let part := ([w0, w1].eraseDups).filter fun w => 8 * w < off || off + len < 8 * w + 8
    let errs := part.map fun w => (w, (eccRead (tabOr 0 (deepMem s die j).words w)).2)
    let s := errs.foldl (fun s e => deepErr s die j e.1 e.2 1 false) s
    if errs.any (·.2 == 2) then (s, 4, [])
    else
      let put := fun s i =>
        let w := w0 + i
        let lo := max off (8 * w)
        let old := (eccRead (tabOr 0 (deepMem s die j).words w)).1
        deepPut s die j w (eccWord (mergeBytes old (lo - 8 * w) ((bytes.drop (lo - off)).take (min (off + len) (8 * w + 8) - lo))))
      ((List.range (w1 + 1 - w0)).foldl put s, 0, [])

/-- A NoC write to the FIFO window (R211, R216). -/
def deepNocPush (s : State) (die j off : Nat) (bytes : List Byte) : State × Nat :=
  let n := bytes.length / 8
  if off != 0 || bytes.length % 8 != 0 || n = 0 || 32 < n || !deepPushNoc s die j || !flag s (dmPage die j) DM_CTRL_NOC_WR_EN then (s, 4)
  else if 131072 < deepWriteView s die j + n then (evtPulse (countUp s (dmPage die j) DM_QREJ_CNT_COUNT 1) (dmPage die j) 3, 4)
  else ((List.range n).foldl (fun s i => deepPush s die j (ofBytes ((bytes.drop (8 * i)).take 8))) s, 0)

/-- A NoC read of the FIFO window; with `peek` nothing is removed (R211). -/
def deepNocPop (s : State) (die j off len : Nat) (peek : Bool) : State × Nat × List Byte :=
  if !flag s (dmPage die j) DM_CTRL_NOC_RD_EN then (s, 4, [])
  else if off = 0x100 && len = 8 then (s, 0, toBytes 8 ((deepMem s die j).q.length % 2 ^ 18))
  else
    let n := len / 8
    if off != 0 || len % 8 != 0 || n = 0 || 32 < n || !deepPopNoc s die j || deepReadView s die j < n then (s, 4, [])
    else if peek then
      let rs := ((deepMem s die j).q.take n).map eccRead
      (s, if rs.any (·.2 == 2) then 4 else 0, if rs.any (·.2 == 2) then [] else rs.flatMap fun r => toBytes 8 r.1)
    else
      let r := (List.range n).foldl (fun (a : State × List Nat × Bool) _ =>
        let v := deepPop a.1 die j 1
        (v.1, a.2.1 ++ [v.2.1], a.2.2 || v.2.2)) (s, [], false)
      (r.1, if r.2.2 then 4 else 0, if r.2.2 then [] else r.2.1.flatMap (toBytes 8))

/-- A deep memory answers the NoC: it exists and its die is joined. -/
def deepReach (s : State) (die j : Nat) : Bool := isFabric die && !isolated s die && j < 32

/-- DM_WRITEBACK of the oldest corrected word (R212). -/
def execDmWriteback (die mem : Nat) (s : State) : Host.Outcome State Fault Refusal :=
  .next <|
    match (deepMem s die mem).wb with
    | [] => s
    | (w, v) :: _ => if deepReach s die mem then deepPut s die mem w v else s

/-- The patrol reads entry `v` of the queue, its position `x`; a corrected entry is put back where WB_EN is 1 (R212). -/
def patrolEntry (s : State) (die mem x : Nat) (v : BitVec 72) : State :=
  let r := eccRead v
  let (w, s) := if r.2 = 0 then (0, s) else freeVal s 17
  let s := deepErr s die mem w r.2 2 true
  let y := deepMem s die mem
  if r.2 = 1 && flag s (dmPage die mem) DM_CTRL_WB_EN then setDeep s die mem { y with q := y.q.set x (eccWord r.1) } else s

/-- The patrol's position after a read at `x` of `n`: a sweep ends at the last (R212). -/
def patrolNext (s : State) (die mem x n : Nat) : State :=
  let y := deepMem s die mem
  if n ≤ x + 1 then
    evtPulse (countUp (setDeep s die mem { y with patrol := 0 }) (dmPage die mem) DM_SWEEPS_COUNT 1) (dmPage die mem) 2
  else setDeep s die mem { y with patrol := x + 1 }

/-- DM_PATROL_READ: the patrol reads its next word; in FIFO mode only words that hold entries (R212). -/
def execDmPatrolRead (die mem : Nat) (s : State) : Host.Outcome State Fault Refusal :=
  .next <|
    let x := deepMem s die mem
    if !deepReach s die mem || gateShut s (8 + die) || !flag s (dmPage die mem) DM_CTRL_PATROL_EN then s
    else if deepFifo s die mem then
      patrolNext (match x.q[x.patrol]? with | none => s | some v => patrolEntry s die mem x.patrol v) die mem x.patrol x.q.length
    else patrolNext (deepRead s die mem x.patrol 2).1 die mem x.patrol 131072

end Sys2Proof.Machine
end

