-- ==== Sys2Proof/Machine/Bus.lean ====
section
/-! DEFINITION. What the memories of the address map do with one packet, and whole accesses of the units that copy data:
DDR (16_external_memory.md R441), hub SRAM (17_processors.md R449) with the black-box ring (20_errors.md R529), deep
memories (08_memories.md R210, R211) and the Keep's user area (06_keep.md R151). -/

namespace Sys2Proof.Machine

/-! ### Hub SRAM -/

/-- The bytes of a black-box entry (20_errors.md R529). -/
def bbBytes (e : BbEntry) : List Byte :=
  toBytes 8 e.time ++ toBytes 4 e.seq ++ toBytes 2 (e.src % 1024 + e.cls * 1024 + e.die * 4096)
    ++ [BitVec.ofNat 8 e.kind, BitVec.ofNat 8 (ofBool e.coast)] ++ toBytes 4 e.p0 ++ toBytes 4 e.p1 ++ toBytes 8 0

/-- First byte of the ring in hub SRAM. -/
abbrev ringBase : Nat := 0x7E0000

/-- Byte `i` of a ring. -/
def ringByte (r : Tab BbEntry) (i : Nat) : Byte :=
  match tabGet r (i / 32) with
  | none => 0
  | some e => (bbBytes e).getD (i % 32) 0

/-- Byte `o` of hub SRAM. -/
def sramByte (s : State) (o : Nat) : Byte :=
  if ringBase ≤ o then ringByte s.err.ring (o - ringBase) else memGet s.hub.sram o

/-- Words of 8 bytes that `n` bytes at `o` touch. -/
def wordsOf (o n : Nat) : List Nat := (List.range ((o + n + 7) / 8 - o / 8)).map (· + o / 8)

/-- A read of hub SRAM. -/
def sramRead (s : State) (o n : Nat) : Nat × List Byte :=
  if (wordsOf o n).any s.hub.sramBad.contains then (4, []) else (0, (List.range n).map fun i => sramByte s (o + i))

/-- A write of hub SRAM within one packet: refused whole over the ring, and where a word written in part is uncorrectable. -/
def sramWrite (s : State) (o : Nat) (bs : List Byte) : State × Nat :=
  let n := bs.length
  let whole := fun w => decide (o ≤ 8 * w) && decide (8 * w + 8 ≤ o + n)
  if ringBase < o + n then (s, 4)
  else if (wordsOf o n).any fun w => !whole w && s.hub.sramBad.contains w then (s, 4)
  else
    let bad := s.hub.sramBad.filter fun w => !(o ≤ 8 * w && decide (8 * w + 8 ≤ o + n))
    ({ s with hub := { s.hub with sram := memWrite s.hub.sram o bs, sramBad := bad } }, 0)

/-! ### DDR -/

/-- What a packet's access gives: the state after, code, bytes and poison. -/
structure PktRes where
  s : State
  code : Nat
  bytes : List Byte := []
  poison : Bool := false

/-- Pieces of `n` bytes from offset `o` within lines of 64 bytes: line, offset in it and length. -/
def linePieces (o n fuel : Nat) : List (Nat × Nat × Nat) :=
  match fuel with
  | 0 => []
  | f + 1 =>
    if n = 0 then []
    else
      let k := min n (64 - o % 64)
      (o / 64, o % 64, k) :: linePieces (o + k) (n - k) f

/-- A read of `n` bytes at channel offset `o`, line by line; no line has a stored error. -/
def ddrRead (s : State) (ch o n ini : Nat) : PktRes :=
  (linePieces o n 8).foldl (fun (r : PktRes) (p : Nat × Nat × Nat) =>
    let x := lineRead r.s ch p.1 ini [] true false
    { s := x.1, code := if r.code = 0 then x.2.code else r.code, bytes := r.bytes ++ (x.2.bytes.drop p.2.1).take p.2.2
      poison := r.poison || x.2.poison }) { s := s, code := 0 }

/-- A write at channel offset `o`, line by line. -/
def ddrWrite (s : State) (ch o ini : Nat) (bs : List Byte) (poison : Bool) : PktRes :=
  let r := (linePieces o bs.length 8).foldl (fun (r : PktRes × List Byte) (p : Nat × Nat × Nat) =>
    let x := lineWrite r.1.s ch p.1 p.2.1 ini (r.2.take p.2.2) poison [] true false
    ({ r.1 with s := x.1, code := if r.1.code = 0 then x.2 else r.1.code }, r.2.drop p.2.2))
    (({ s := s, code := 0 } : PktRes), bs)
  r.1

/-! ### One packet at a memory target -/

/-- The request that an access at offset `off` of a controller's outbound window becomes (R468). -/
def pcieRequest (s : State) (c off : Nat) (wr : Bool) : PcieReq :=
  let p := pcPage c
  if getF s p PC_CFG_MODE = 2 && off < 2 ^ 28 then
    { cfg := true, wr := wr, bus := off / 2 ^ 20, dev := off / 2 ^ 15 % 32, fn := off / 2 ^ 12 % 8, reg := off % 2 ^ 12 }
  else { wr := wr, addr := (getF s p PC_OUT_LO_ADDR + getF s p PC_OUT_HI_ADDR * 2 ^ 32 + off) % 2 ^ 64 }

/-- The outbound window of controller `c` takes an access: code 0x4 while the link is down and for a root port before its
release (04_start.md R109; log 87). A request that is completed, a read or one of configuration, may come back with Unsupported
Request or Completer Abort or not at all, which is the far side's to say: then 0x4 too (R468; log 109). -/
def pcieOut (s : State) (c a : Nat) (wr : Bool) (r : State → PktRes) : PktRes :=
  let p := pcPage c
  if !flag s p PC_STAT_LINK_UP || (getF s p PC_CFG_MODE = 2 && !flag s p PC_STAT_RELEASED) then { s := s, code := 4 }
  else
    let q := pcieRequest s c ((a - 0x33000000000) % 0x1000000000) wr
    let s := setPcie s c { pcieOf s c with out := some q }
    if wr && !q.cfg then r s
    else
      let v := freeVal s 1
      if v.1 = 1 then { s := v.2, code := 4 } else r v.2

/-- A read of `n` bytes at `a` from a memory target; a target whose content the fabric design or a device outside gives
answers with a free value. -/
def memRd (s : State) (node ini a n : Nat) (peek : Bool) : PktRes :=
  match epKind node with
  | .ddr ch =>
    match ddrMap s a with
    | some (_, o) => if mcState s ch = 2 then ddrRead s ch o n ini else { s := s, code := 4 }
    | none => { s := s, code := 4 }
  | .sram => let r := sramRead s (a - 0x31000000000) n; { s := s, code := r.1, bytes := r.2 }
  | .deep j =>
    let die := nodeDie node
    let off := (a - 0x30000000000) % 0x100000
    let r := if deepFifo s die j then deepNocPop s die j off n peek else deepNoc s die j false off n []
    { s := r.1, code := r.2.1, bytes := r.2.2 }
  | .store => let r := userRead s (a - 0x32000000000) n; { s := r.1, code := r.2.1, bytes := r.2.2 }
  | .pcie c => pcieOut s c a false fun s => let v := freeVal s (8 * min n 256); { s := v.2, code := 0, bytes := toBytes n v.1 }
  | _ => let v := freeVal s (8 * min n 256); { s := v.2, code := 0, bytes := toBytes n v.1 }

/-- A write of `bs` at `a` to a memory target. -/
def memWr (s : State) (node ini a : Nat) (bs : List Byte) (poison : Bool) : PktRes :=
  match epKind node with
  | .ddr ch =>
    match ddrMap s a with
    | some (_, o) => if mcState s ch = 2 then ddrWrite s ch o ini bs poison else { s := s, code := 4 }
    | none => { s := s, code := 4 }
  | .sram => let r := sramWrite s (a - 0x31000000000) bs; { s := r.1, code := r.2 }
  | .deep j =>
    let die := nodeDie node
    let off := (a - 0x30000000000) % 0x100000
    if deepFifo s die j then
      let r := deepNocPush s die j off bs
      { s := r.1, code := r.2 }
    else
      let r := deepNoc s die j true off bs.length bs
      { s := r.1, code := r.2.1 }
  | .store => let r := userWrite s (a - 0x32000000000) bs; { s := r.1, code := r.2 }
  | .pcie c => pcieOut s c a true fun s => { s := s, code := 0 }
  | _ => { s := s, code := 0 }

/-- The droppable power domain a target lies in, pages apart (18_power.md R471). -/
def nodeDomain (node : Nat) : Option (Nat × Nat) :=
  match epKind node with
  | .deep j => some (nodeDie node, 4 * (j / 8) + 3)
  | .ddr ch => some (if ch < 2 then (3, 22 + ch) else (7, 20 + ch))
  | .slice _ => some (nodeDie node, 1)
  | _ => none

/-- The power domain of a target is touched: an access wakes it (01_package.md R31, 18_power.md R477). -/
def nodeTouch (s : State) (node : Nat) : State :=
  match nodeDomain node with
  | some d => domTouch s d.1 d.2
  | none => s

/-- The target's power domain is dropped or waking. -/
def nodeAsleep (s : State) (n : Nat) : Bool :=
  match nodeDomain n with
  | some d => decide (2 ≤ (domOf s d.1 d.2).state)
  | none => false

/-! ### Whole accesses of the copying units -/

/-- Code the target bridge gives in place of the target: isolated (12_noc.md R319). -/
def bridgeCode (s : State) (node : Nat) : Nat :=
  if (tabOr [] s.noc.causeT node) != [] || portShut s node || isolated s (nodeDie node) then 2 else 0

/-- Targets of an access of `n` bytes at `a` whose bridges pass it on. -/
def busNodes (s : State) (a n : Nat) : List Nat :=
  if inRegs a then []
  else ((splitAccess s a n 4096).filterMap fun p => (destOf s p.1).map (·.1)).eraseDups.filter fun d => bridgeCode s d = 0

/-- An access of `n` bytes at `a` stalls at a target: its domain wakes, or its channel trains (01_package.md R31,
16_external_memory.md R422). The state is that in which it stalls, every dropped domain touched; none: it can be made. -/
def targetsStall (s : State) (a n : Nat) : Option State :=
  let ns := busNodes s a n
  let u := ns.foldl nodeTouch s
  if ns.any fun d => nodeAsleep u d || (match epKind d with | .ddr ch => mcState u ch = 1 | _ => false) then some u else none

/-- An access of unit `ini` stalls: the unit is quenched (12_noc.md R317), or a target stalls it. -/
def busStall (s : State) (ini a n : Nat) : Option State :=
  if quenched s ini then some s else targetsStall s a n

/-- The unit's bridge has no credit counter for a target of the access (12_noc.md R305). -/
def busNoReach (s : State) (ini a n : Nat) : Bool :=
  (splitAccess s a n 4096).any fun p => (destOf s p.1).any fun d => quotaOf s ini d.1 = 0

/-- A read of `n` bytes at `a` by unit `ini`, packet by packet: first non-zero code in address order, and the bytes. Register
space is read only in words (02_register_pages.md R36). -/
def busRead (s : State) (ini a n : Nat) : State × Nat × List Byte :=
  if !accessOk s a n false then (s, 1, [])
  else if busNoReach s ini a n then (s, 3, [])
  else if inRegs a then (s, 4, [])
  else
    (splitAccess s a n 4096).foldl (fun (r : State × Nat × List Byte) (p : Nat × Nat) =>
      match destOf r.1 p.1 with
      | none => (r.1, if r.2.1 = 0 then 1 else r.2.1, r.2.2)
      | some (node, _) =>
        let b := bridgeCode r.1 node
        let x := if b = 0 then memRd (nodeTouch r.1 node) node ini p.1 p.2 false else { s := r.1, code := b }
        let c := if x.code = 0 && x.poison then 6 else x.code
        (x.s, if r.2.1 = 0 then c else r.2.1, r.2.2 ++ x.bytes)) (s, 0, [])

/-- A write of `bs` at `a` by unit `ini`, packet by packet: first non-zero code in address order. -/
def busWrite (s : State) (ini a : Nat) (bs : List Byte) : State × Nat :=
  if !accessOk s a bs.length true then (s, 1)
  else if busNoReach s ini a bs.length then (s, 3)
  else if inRegs a then (s, 4)
  else
    let r := (splitAccess s a bs.length 4096).foldl (fun (r : State × Nat × List Byte) (p : Nat × Nat) =>
      match destOf r.1 p.1 with
      | none => (r.1, if r.2.1 = 0 then 1 else r.2.1, r.2.2.drop p.2)
      | some (node, _) =>
        let b := bridgeCode r.1 node
        let x := if b = 0 then memWr (nodeTouch r.1 node) node ini p.1 (r.2.2.take p.2) false else { s := r.1, code := b }
        (x.s, if r.2.1 = 0 then x.code else r.2.1, r.2.2.drop p.2)) (s, 0, bs)
    (r.1, r.2.1)

/-- The bytes `[i × k, min ((i + 1) × k, n))` of a copy of `n` bytes, `k` at a time: offset and length. -/
def chunks (k n : Nat) : List (Nat × Nat) :=
  (List.range ((n + k - 1) / k)).map fun i => (k * i, min k (n - k * i))

/-- `n` bytes copied from `src` to `dst` in accesses of up to 256 bytes, in ascending order; the copy goes on past no
error: the code that ended it and the bytes copied before. -/
def busCopy (s : State) (ini src dst : Nat) (cs : List (Nat × Nat)) (done : Nat) : State × Nat × Nat :=
  match cs with
  | [] => (s, 0, done)
  | (o, k) :: rest =>
    let r := busRead s ini (src + o) k
    if r.2.1 != 0 then (r.1, r.2.1, done)
    else
      let w := busWrite r.1 ini (dst + o) r.2.2
      if w.2 != 0 then (w.1, w.2, done) else busCopy w.1 ini src dst rest (done + k)

end Sys2Proof.Machine
end

