-- ==== Sys2Proof/Machine/FlowRx.lean ====
section
/-! DEFINITION. Frames that come to a flow slice from its ports and from the inject ring, and the punt ring
(15_flow_slices.md R382 to R394, R406, R415, R416). -/

namespace Sys2Proof.Machine

/-! ### The punt ring (R415) -/

/-- Base of the punt ring or, with `d` = 0x20, of the inject ring. -/
def ringAt (s : State) (die d : Nat) : Nat :=
  getF s (fsPage die) (FS_PUNT_HI_ADDR.plus d) * 2 ^ 32 + getF s (fsPage die) (FS_PUNT_LO_ADDR.plus d) * 4096

/-- The bytes of a punt slot. -/
def puntSlot (s : State) (a : Accepted) : List Byte :=
  let cut := decide (4064 < a.bytes.length)
  streamDesc s a false false ++ frameTrailer a cut ++ a.bytes.take 4064

/-- A slot of the punt ring is written by bridge B; while the ring's memory wakes or trains the write stalls
(01_package.md R31). A full ring drops the frame. -/
def puntWrite (s : State) (die : Nat) (slot : List Byte) : State :=
  let p := fsPage die
  let head := getF s p FS_PUNT_HEAD_INDEX
  let next := (head + 1) % getF s p FS_PUNT_CFG_SLOTS
  let a := ringAt s die 0 + 4096 * head
  if next = getF s p FS_PUNT_TAIL_INDEX % getF s p FS_PUNT_CFG_SLOTS then countUp s p FS_PUNT_DROP_PUNT 1
  else
    match busStall s (65 + 2 * (die - 9)) a 4096 with
    | some u => { u with flow := { u.flow with puntWait := u.flow.puntWait ++ [(die, slot)] } }
    | none =>
      let w := busWrite s (65 + 2 * (die - 9)) a slot
      evtPulse (putF w.1 p FS_PUNT_HEAD_INDEX next) p 2

/-- A frame is punted, behind those that stall. -/
def punt (s : State) (a : Accepted) : State :=
  if s.flow.puntWait.any (·.1 == a.die) then
    { s with flow := { s.flow with puntWait := s.flow.puntWait ++ [(a.die, puntSlot s a)] } }
  else puntWrite s a.die (puntSlot s a)

/-! ### Received frames (R382) -/

/-- The context forwards and some egress of it takes the frame cut-through (R383). -/
def ctxCuts (s : State) (die port ctx : Nat) : Bool :=
  wGet (tblGet (sliceOf s die) 0 ctx 0) 4 2 < 2 &&
    (egressFlows (sliceOf s die) ctx).any fun f => cutThrough s die port ctx f

/-- What the MAC and MACsec make of a frame: passed; lost, with its cause counted; longer than the MTU, where its reception
stopped; or one that a cut-through start has carried on and that ends under R384. -/
inductive MacOut where
  | pass | lost | tooLong | badFcs | badIcv | cutShort
  deriving DecidableEq, Repr

/-- Steps 1 and 2: length and FCS, then MACsec; `ct`: the frame would be cut through. Reception of a frame longer than the
MTU stops there: its FCS and ICV are not known, and step 5 drops it. -/
def macCheck (s : State) (die port : Nat) (bytes : List Byte) (fcsOk : Bool) (sec : SecTag) (ended ct : Bool) :
    State × MacOut :=
  let n := bytes.length + if sec.present then 32 else 0
  let tag := secRx s die port bytes { sec with icvOk := true }
  let fails := fun (o : MacOut) => if ct && tag.2 != .drop then o else .lost
  if n < 64 || (!sec.present && be16 bytes 12 = 0x8808) then (dropCount s die port 3, .lost)
  else if portMtu s die port < n || (!ended && portMtu s die port = n) then
    if tag.2 = .drop then (tag.1, .lost) else (s, .tooLong)
  else if !ended then (dropCount s die port 3, fails .cutShort)
  else if !fcsOk then (countUp s (fePage die port) FE_ERR_FCS 1, fails .badFcs)
  else
    match secRx s die port bytes sec with
    | (s, .pass) => (s, .pass)
    | (s, .badIcv) => (s, if ct then .badIcv else .lost)
    | (s, .drop) => (s, .lost)

/-- Step 5: MAX_LEN and the MTU, the stream gate and the meter; the frame passes or is lost and counted. The length of a
cut-through frame is known at its end only, which then ends under R384. -/
def ctxCheck (s : State) (die port ctx n : Nat) (long ct : Bool) : State × Bool :=
  let x := sliceOf s die
  let w3 := tblGet x 0 ctx 3
  let gate := wGet w3 8 8
  if long && !ct then (dropCount s die port 2, false)
  else if gate != 255 && sgValid x gate && !sgOpen x gate s.hub.now then
    (setSlice s die (ctxUp x ctx 13 true), false)
  else
    let m := meterFrame x ctx s.hub.now (if ct then frameMax s die port ctx else n) n
    if m.2 then (setSlice s die (ctxUp m.1 ctx 15 false), false)
    else (if long then dropCount (setSlice s die m.1) die port 2 else setSlice s die m.1, true)

/-- A frame is longer than its context's MAX_LEN. -/
def overMax (s : State) (die ctx n : Nat) : Bool :=
  let m := wGet (tblGet (sliceOf s die) 0 ctx 3) 16 14
  m != 0 && decide (m < n)

/-- Step 6: sequence generation (R394). -/
def seqGive (s : State) (die ctx : Nat) (seq : Option Nat) : State × Option Nat :=
  let x := sliceOf s die
  if seq.isNone && wGet (tblGet x 0 ctx 0) 8 1 = 1 then
    (setSlice s die (ctxUp x ctx 13 false), some (wGet (tblGet x 0 ctx 13) 0 16))
  else (s, seq)

/-- Steps 7 and 8: the frame goes where its context's ACTION sends it, counted in FRAMES. -/
def ctxAct (s : State) (a : Accepted) : State :=
  let x := sliceOf s a.die
  let s := setSlice s a.die (tblPut x 0 a.ctx 14 (tblGet x 0 a.ctx 14 + 1))
  match wGet (tblGet x 0 a.ctx 0) 4 2 with
  | 2 => s
  | 3 => if a.bad then s else punt s a
  | _ => (egressFlows x a.ctx).foldl (fun s f => forwardOne s a f) s

/-- A frame arrives at a port (R382): counts, MACsec, parsing, the checks of its context, its sequence number, and where its
context sends it. -/
def rxTake (s : State) (die port : Nat) (bytes : List Byte) (fcsOk : Bool) (sec : SecTag) (ended : Bool) : State :=
  let p := fePage die port
  let parse := parseFrame s die port bytes
  let ctx := chooseCtx s die port parse
  let ct := ctx.any fun c => ctxCuts s die port c
  let s := portCount s die port FE_RXF_COUNT 1
  let s := bytesUp s die port FE_RXB_LO_BYTES FE_RXB_HI_BYTES (bytes.length + if sec.present then 32 else 0)
  match macCheck s die port bytes fcsOk sec ended ct with
  | (s, .lost) => s
  | (s, mac) =>
    let s := if parse.limit then portCount s die port FE_PARSE_LIM_COUNT 1 else s
    match ctx with
    | none => dropCount s die port 1
    | some c =>
      let long := mac == .tooLong || overMax s die c bytes.length
      let bytes := if mac == .tooLong then bytes.take (portMtu s die port - if sec.present then 32 else 0) else bytes
      match ctxCheck s die port c bytes.length long ct with
      | (s, false) => s
      | (s, true) =>
        let q := seqGive s die c parse.seq
        ctxAct q.1
          { die := die, port := port, ctx := c, bytes := bytes, seq := q.2, ptpOff := parse.ptpOff
            ts := (q.1.hub.now + 2 ^ 64 - getF q.1 p FE_TSCOR_RX_COR) % 2 ^ 64
            tsValid := !coasting q.1, vlan := nBit parse.profile 3, rtag := parse.rtag
            fcsBad := mac == .badFcs, secBad := mac == .badIcv, aborted := long || mac == .cutShort }

/-- RX_FRAME (R382): frames that leave MACsec have shed 32 bytes; a port takes frames with LINK and the slice's ENABLE. -/
def execRxFrame (die port : Nat) (bytes : List Byte) (fcsOk : Bool) (sec : SecTag) (ended : Bool) (s : State) :
    Host.Outcome State Fault Refusal :=
  .next <|
    if !macHere s die || 16 ≤ port || !flag s (fePage die port) FE_STAT_LINK || !enabled s (fsPage die) then s
    else rxTake s die port bytes fcsOk sec ended

/-! ### The inject ring (R416) -/

/-- A field of an inject slot is out of range. -/
def injBad (bs : List Byte) : Bool :=
  let len := ofBytes (bs.take 2)
  len < 60 || 4080 < len || 16 ≤ fByte bs 2 || 32 ≤ fByte bs 3 || ((bs.drop 4).take 12).any (· != 0)

/-- An injected frame of a slot takes its tokens and its place in its queue. -/
def injectFrame (s : State) (die : Nat) (slot : List Byte) : State :=
  let port := fByte slot 2
  let q := fByte slot 3 % 8
  let body := (slot.drop 16).take (ofBytes (slot.take 2))
  let bs := body ++ toBytes 4 (fcsOf body)
  let need := cellsOf bs.length
  let parse := parseFrame s die port bs
  let s := if parse.limit then portCount s die port FE_PARSE_LIM_COUNT 1 else s
  if !flag s (fePage die port) FE_STAT_LINK then dropCount s die port 3
  else if !canDraw s die port q need then dropCount s die port 0
  else
    let x := sliceOf s die
    let f : EthFrame :=
      { id := x.nextId, inPort := 64, inRate := 0, bytes := bs, egFlow := 0, egPort := port, egQueue := q
        ptpOff := parse.ptpOff, tokens := need, queued := true, tsReq := nBit (fByte slot 3) 3
        noMacsec := nBit (fByte slot 3) 4 }
    setSlice s die { x with nextId := x.nextId + 1, frames := x.frames ++ [f], free := x.free - need }

/-- INJECT_SLOT (R416): a slot that cannot be read is skipped like one with a field out of range. -/
def execInjectSlot (die : Nat) (s : State) : Host.Outcome State Fault Refusal :=
  .next <|
    let p := fsPage die
    let tail := getF s p FS_INJ_TAIL_INDEX
    if !sliceHere s die || !enabled s p || tail = getF s p FS_INJ_HEAD_INDEX then s
    else if let some u := busStall s (65 + 2 * (die - 9)) (ringAt s die 0x20 + 4096 * tail) 4096 then u
    else
      let r := busRead s (65 + 2 * (die - 9)) (ringAt s die 0x20 + 4096 * tail) 4096
      let s := putF r.1 p FS_INJ_TAIL_INDEX ((tail + 1) % getF s p FS_INJ_CFG_SLOTS)
      if r.2.1 != 0 || injBad r.2.2 then countUp s p FS_PUNT_DROP_INJ_SKIP 1 else injectFrame s die r.2.2

end Sys2Proof.Machine
end

