-- ==== Sys2Proof/Machine/Hub.lean ====
section
/-! DEFINITION. Events of the hub's services: time base, mailboxes, newt cores, the event hub and host links
(17_processors.md R451 to R470, R598). -/

namespace Sys2Proof.Machine

/-- CMO_DONE: BUSY clears, once the lines are written back (R465). -/
def execCmoDone (s : State) : Host.Outcome State Fault Refusal :=
  .next (if s.hub.cmo.isSome && !writingBack s then putFlag { s with hub := { s.hub with cmo := none } } CL CL_CMO_BUSY false else s)

/-- TIME_COMPARE: the time base stands at TB_CMP, CMP fires and CMP_EN clears (R451). -/
def execTimeCompare (s : State) : Host.Outcome State Fault Refusal :=
  .next <|
    if !flag s TB TB_CTRL_CMP_EN || !s.hub.tbOn then s
    else tbFire { s with hub := { s.hub with now := max s.hub.now (tbCmp s) } }

/-- MB_TIMEOUT: a message has been held for MB_TMO (R454, R457). -/
def execMbTimeout (m : Nat) (s : State) : Host.Outcome State Fault Refusal :=
  .next <|
    if 96 ≤ m || !(mboxOf s m).full || (mboxOf s m).timeout then s
    else
      let u := mbEvents (setMbox s m { mboxOf s m with timeout := true }) m
      if mbFromHost m (mboxOf s m).sender then mbVector u m else u

/-- MAILBOX_AUDIT: the equation of R456. -/
def execMailboxAudit (m : Nat) (s : State) : Host.Outcome State Fault Refusal :=
  .next <|
    if 96 ≤ m then s
    else
      let b := mboxOf s m
      audit s 5 (mbPage m) (regBlk (mbPage m)) (b.seq == (b.taken + b.wdraw + ofBool b.full) % 65536)

/-- The host has enabled a function and unmasked its vector `vec` (R457, log 18). -/
def msixUnmasked (s : State) (pc fn vec : Nat) : State :=
  let c := pcieOf s pc
  let x := fnOf c fn
  setPcie s pc (setFn c fn { x with enable := true, funcMask := false, mask := nSet x.mask vec false })

/-- MSIX_UNMASK: the host unmasks a vector of a function it has enabled; a held message is sent (R457, log 18). -/
def execMsixUnmask (pc fn vec : Nat) (s : State) : Host.Outcome State Fault Refusal :=
  .next <|
    if 2 ≤ pc || 2 ≤ fn || 16 ≤ vec || !fnExists s pc fn || flag s (pcPage pc) PC_STAT_PERST then s
    else msixFlush (msixUnmasked s pc fn vec) pc fn

/-- The message of mailbox `m` is a newt core's request (R598). -/
def newtQueued (s : State) (m : Nat) : State :=
  { s with hub := { s.hub with newt := s.hub.newt ++ [{ mbox := m, word0 := getReg s (mbWord m 0) }] } }

/-- The other mailbox of the newt core that serves `m`, 48 to 63. -/
def newtOther (m : Nat) : Nat := if m < 56 then m + 8 else m - 8

/-- It is mailbox `m`'s turn: the newt core took from the other one last, or no request waits there (R598). -/
def newtTurn (s : State) (m : Nat) : Bool :=
  let o := mboxOf s (newtOther m)
  !s.hub.newtLast.contains m || !o.full || o.sender = 16 + m % 8

/-- The newt core has taken from `m`. -/
def newtTook (s : State) (m : Nat) : State :=
  { s with hub := { s.hub with newtLast := setAdd (setDel s.hub.newtLast (newtOther m)) m } }

/-- NEWT_REQUEST_TAKE (R598). -/
def execNewtRequestTake (m : Nat) (s : State) : Host.Outcome State Fault Refusal :=
  .next <|
    if m < 48 || 64 ≤ m || !(mboxOf s m).full || (mboxOf s m).sender = 16 + m % 8 || isolated s (m % 8) || s.pow.torpor || !newtTurn s m then s
    else mbTaken (newtTook (newtQueued s m) m) m

/-- A newt core sends its answer in mailbox `m`. -/
def newtReply (s : State) (m n : Nat) (words : List Nat) : State :=
  match s.hub.newt.find? (·.mbox == m) with
  | none => s
  | some q =>
    if (mboxOf s m).full || isolated s n || s.pow.torpor then s
    else
      let s := { s with hub := { s.hub with newt := s.hub.newt.erase q } }
      mbPost s m (16 + n) ((if q.word0 = 1 then words else [0x800000FF, 0, 0, 0, 0, 0, 0, 0]))

/-- Sensors of fabric die `n` (18_power.md R482): readings that are valid. -/
def dieSensors (s : State) (n : Nat) : List Int :=
  (List.range 7).filterMap fun i => (tabGet s.pow.sens (7 * n + i)).join

/-- The words of a die power report (18_power.md R479). -/
def diePowerWords (s : State) (n : Nat) : List Nat :=
  let off := ofBits ((List.range 20).filter fun i => (domOf s n i).state = 2)
  let wakes := ((List.range (domCount n)).map fun i => getF s (pdPage n i) PD_WAKES_COUNT).sum % 2 ^ 32
  let hot := match (dieSensors s n).foldl (fun (b : Option Int) x => some (match b with | none => x | some y => max x y)) none with
    | none => 0x80
    | some t => (min t 127 % 256).toNat
  [0x80000001, off, wakes, hot, 0, 0, 0, 0]

/-- DIE_POWER_REPORT of newt core `n` (18_power.md R479). -/
def execDiePowerReport (n : Nat) (s : State) : Host.Outcome State Fault Refusal :=
  .next (if 8 ≤ n then s else newtReply s (56 + n) n (diePowerWords s n))

/-- The words of a scrub report; `us`: its time, which the spec does not state (20_errors.md R525). -/
def scrubWords (s : State) (n us : Nat) : List Nat :=
  let a : AxEngine := tabOr { } s.err.ax n
  [0x80000001, getF s (axPage n) AX_SCAN_COUNT, a.corr % 2 ^ 32, a.regen % 2 ^ 32, a.fail % 2 ^ 32, us, 0, 0]

/-- SCRUB_REPORT of newt core `n` (20_errors.md R525). The time of the last scan in µs, word 5, is a free value (log 5). -/
def execScrubReport (n : Nat) (s : State) : Host.Outcome State Fault Refusal :=
  .next (if 8 ≤ n then s else newtReply (freeVal s 32).2 (48 + n) n (scrubWords (freeVal s 32).2 n (freeVal s 32).1))

/-- EVENT_ARRIVAL at the hub (R463). -/
def execEventArrival (src : Nat) (level : Option Bool) (s : State) : Host.Outcome State Fault Refusal :=
  .next <|
    if 640 ≤ src then s
    else match level with
      | some b => srcLevel s src 0 b
      | none => srcPulse s src

/-- EVI line `k` toggles, and nothing waits on it (R462). -/
def eviSent (s : State) (k : Nat) : State :=
  let lv := if s.hub.eviLevel.contains k then setDel s.hub.eviLevel k else setAdd s.hub.eviLevel k
  { s with hub := { s.hub with evi := tabDel s.hub.evi k, eviLevel := lv } }

/-- EVI_TOGGLE: the next toggle carries the events that have arrived on the line (R463). -/
def execEviToggle (die line : Nat) (s : State) : Host.Outcome State Fault Refusal :=
  .next <|
    let k := 64 * die + line
    let n := tabOr 0 s.hub.evi k
    if 8 ≤ die || 64 ≤ line || n = 0 then s
    else if 1 < n then evtPulse (countUp (eviSent s k) EV EV_MERGE_COUNT (n - 1)) EV 0
    else eviSent s k

/-- PERST_ASSERT: link and configuration space are reset; mailboxes stay (R469). -/
def execPerstAssert (pc : Nat) (s : State) : Host.Outcome State Fault Refusal :=
  .next <|
    if 2 ≤ pc || isolated s (regDie (pcPage pc)) then s
    else
      let u := pcieDown s pc
      evtPulse (putFlag (setPcie u pc { pcieOf u pc with training := false, fn0 := { }, fn1 := { } }) (pcPage pc) PC_STAT_PERST
        true) (pcPage pc) 3

/-- A controller takes its configuration at the release of PERST# and trains (04_start.md R115, R470). -/
def pcieReleased (s : State) (pc : Nat) : State :=
  let c := pcieOf s pc
  let boot := c.boot && !c.cfgWaits
  let on := boot || (c.owned && getF s (pcPage pc) PC_CFG_MODE != 0)
  setPcie s pc { c with boot := boot, cfgWaits := false, training := on }

/-- PERST_DEASSERT: training starts; a configuration that waited for it applies (R109, R115). -/
def execPerstDeassert (pc : Nat) (s : State) : Host.Outcome State Fault Refusal :=
  .next (if 2 ≤ pc || isolated s (regDie (pcPage pc)) then s else pcieReleased (putFlag s (pcPage pc) PC_STAT_PERST false) pc)

/-- PCIe completion status of a host's configuration request: Request Retry Status (2) before the release of the controller,
unless it stands in its boot configuration (04_start.md R109). -/
def configStatus (s : State) (pc : Nat) : Nat :=
  if flag s (pcPage pc) PC_STAT_RELEASED || (pcieOf s pc).boot then 0 else 2

/-- PCIE_LINK_UP (R470). -/
def execPcieLinkUp (pc width gen : Nat) (flit : Bool) (s : State) : Host.Outcome State Fault Refusal :=
  .next <|
    let p := pcPage pc
    if 2 ≤ pc || isolated s (regDie p) || flag s p PC_STAT_PERST || !(pcieOf s pc).training || flag s p PC_STAT_LINK_UP then s
    else
      evtPulse (putF (putF (putFlag (putFlag s p PC_STAT_LINK_UP true) p PC_STAT_FLIT flit) p PC_STAT_WIDTH width)
        p PC_STAT_GEN gen) p 0

/-- PCIE_LINK_DOWN: locks of the controller's ID are released (R461, R470). -/
def execPcieLinkDown (pc : Nat) (s : State) : Host.Outcome State Fault Refusal :=
  .next (if 2 ≤ pc then s else pcieDown s pc)

/-- DOORBELL: a write that sets bits (R468, R470). -/
def execDoorbell (ini pc : Nat) (val : Word) (s : State) : Host.Outcome State Fault Refusal :=
  .next (if 2 ≤ pc || !iniAssigned ini || isolated s (regDie (pcPage pc)) then s else doorbellSet s pc val)

end Sys2Proof.Machine
end

