-- ==== Sys2Proof/Machine/Power.lean ====
section
/-! DEFINITION. Power domains, the budget governor and the work dispatcher (18_power.md). -/

namespace Sys2Proof.Machine

/-! ### Holds (R471, R473) -/

/-- The START hold: from S0 until READY rises. -/
def startHold (s : State) : Bool :=
  match s.start.phase with
  | .ready | .down => false
  | .safe => !s.err.fatal
  | _ => true

/-- The BUSY hold of a domain. -/
def busyHold (s : State) (die i : Nat) : Bool :=
  match domKind die i with
  | 0x03 => (List.range 4).any fun c => nBit (getF s CL CL_HART_EN) c &&
      ((hartOf s c).running && !(hartOf s c).wfi || (hartOf s c).halted)
  | 0x04 => (List.range 8).any fun c => getF s HD (HD_STAT_RESULT.nth c) = 0xF
  | 0x05 => (List.range 4).any fun c => (hartOf s c).halted
  | 0x09 => (List.range 72).any fun k =>
      let x := engOf s die (72 * (i - 16) + k)
      x.mode = .run || x.mode = .halt || x.mode = .direct || x.startq != []
  | 0x0C =>
    let ch := if die = 3 then i - 22 else i - 20
    getF s (mcPage ch) MC_STAT_STATE = 1 || (tabOr { } s.ddr.chans ch).init != []
  | 0x11 => (List.range 16).any fun k => enabled s (fePage die k)
  | 0x12 => (List.range 4).any fun k => laneOwner s (laneNo die (4 * (i - 2) + k)) != 0
  | _ => false

/-- Domains of a die whose hold has begun wake, or end their drop (R477, R479). -/
def holdsWake (s : State) (die : Nat) : State :=
  (List.range (domCount die)).foldl (fun s i =>
    if ((domOf s die i).state = 1 || (domOf s die i).state = 2) && droppable die i && busyHold s die i then domTouch s die i else s) s

/-- A domain is held on, votes apart. -/
def domHeld (s : State) (die i : Nat) : Bool :=
  !droppable die i || startHold s || (domOf s die i).staticHold || busyHold s die i

/-- A domain has a vote. -/
def domVoted (s : State) (die i : Nat) : Bool := getReg s (pdPage die i + 0x028) != 0

/-- PD_STAT.HOLD (R473, R490). -/
def holdBits (s : State) (die i : Nat) : Nat :=
  ofBool (startHold s) + 2 * ofBool (!droppable die i && !s.pow.torpor) + 4 * ofBool (domOf s die i).staticHold
    + 8 * ofBool (busyHold s die i)

/-! ### Drop and wake (R476 to R478) -/

/-- Pages whose block registers lie in domain `i` of a die and lose their contents with it: register offset tests. -/
def domRegs (die i a : Nat) : Bool :=
  regDie a = die && 0x040 ≤ regOff a &&
    match pageOf die (regBlk a) with
    | none => false
    | some p => pageDomain p die (regBlk a) = some i

/-- WACC, RDEL or DISC of a memory's page, kept over a drop (08_memories.md R213). -/
def memCounter (a : Nat) : Bool :=
  match pageOf (regDie a) (regBlk a) with
  | some .bg => regOff a = 0x058 || (0x100 ≤ regOff a && decide (regOff a < 0x200))
  | some .dm => 0x058 ≤ regOff a && decide (regOff a ≤ 0x060)
  | _ => false

/-- Contents a domain keeps over a drop: counters of memories (08_memories.md R213) and flow-slice pages' tables are kept
apart; every other register but /G fields returns to its After reset value (R478). -/
def dropRegs (s : State) (die i : Nat) : State :=
  let f := fun (e : Nat × Word) =>
    if domRegs die i e.1 && !memCounter e.1 then
      let w := mix (regRst e.1) e.2 (gMask e.1)
      if w = regRst e.1 then none else some (e.1, w)
    else some e
  { s with pg := { s.pg with
      regs := s.pg.regs.filterMap f
      held := s.pg.held.filter fun e => !domRegs die i e.1
      committed := s.pg.committed.filter fun e => !domRegs die i e.1 } }

/-- A slice loses the frames of its buffer; their tokens return (R471, FLOW). -/
def sliceDrop (x : Slice) : Slice := { x with frames := [], outs := [], sent := [], free := 131072, txts := [], gclAt := [], icvCount := 0, icvStart := none }

/-- What a dropped domain loses beside its registers (R471). -/
def dropLoss (s : State) (die i : Nat) : State :=
  match domKind die i with
  | 0x03 => (List.range 4).foldl (fun s c => setHart s c { })
      { s with hub := { s.hub with cache := [], coreWait := [] }, dbg := { s.dbg with fired := [] } }
  | 0x05 =>
    dbgDrop s 2
  | 0x09 => (List.range 72).foldl (fun s k =>
      let e := 72 * (i - 16) + k
      setEng s die e { engZero (engOf s die e) with mode := .off, startq := [], cur := none }) s
  | 0x0C =>
    let ch := if die = 3 then i - 22 else i - 20
    let c := tabOr { } s.ddr.chans ch
    { s with ddr := { s.ddr with chans := tabPut s.ddr.chans ch { c with cache := [], selfRefresh := true } } }
  | 0x11 => { s with flow := { s.flow with slices := tabPut s.flow.slices die (sliceDrop (tabOr { } s.flow.slices die)) } }
  | 0x12 => (List.range 4).foldl (fun s k =>
      let l := laneNo die (4 * (i - 2) + k)
      setLane s l { fresh := (laneOf s l).fresh }) s
  | _ => s

/-- What a woken domain starts with (R478; 07_fabric.md R175, 10_loop_engines.md R268, 17_processors.md R447). -/
def wakeStart (s : State) (die i : Nat) : State :=
  match domKind die i with
  | 0x03 => (List.range 4).foldl (fun s c =>
      if nBit (getF s CL CL_HART_EN) c then setHart s c { running := true, fresh := true } else s) s
  | 0x08 => initLoad s die (bandFirst i) (bandFirst (i + 1) - 1)
  | 0x09 => (List.range 72).foldl (fun s k =>
      let e := 72 * (i - 16) + k
      if heldAt s die (engCol e) then s else engRelease s die e) s
  | 0x0C =>
    let ch := if die = 3 then i - 22 else i - 20
    let c := tabOr { } s.ddr.chans ch
    { s with ddr := { s.ddr with chans := tabPut s.ddr.chans ch { c with selfRefresh := false } } }
  | 0x12 => if enabled s (lqPage die (i - 2)) then quadOn s die (i - 2) else s
  | _ => s

/-! ### The governor (R482 to R485) -/

/-- Whole degrees of a reading in hundredths: nearest, ties up (R482). -/
def wholeDegrees (t : Int) : Int := (t + 50) / 100

/-- A reading that is used: whole degrees from −55 to +150. -/
def sensorValid (t : Option Int) : Option Int :=
  (t.map wholeDegrees).filter fun d => -55 ≤ d && decide (d ≤ 150)

/-- Enabled points of curve `c`: TEMP and TOKENS, in order (R483). -/
def curvePoints (s : State) (c : Nat) : List (Int × Int) :=
  ((List.range 8).filter fun i => flag s GV (GV_CRV_EN.plus (4 * (8 * c + i)))).map fun i =>
    (signed 8 (getF s GV (GV_CRV_TEMP.plus (4 * (8 * c + i)))), (getF s GV (GV_CRV_TOKENS.plus (4 * (8 * c + i))) : Int))

/-- Linear interpolation between the points around `t`, rounded down. -/
def interp (ps : List (Int × Int)) (t : Int) : Int :=
  match ps with
  | [] => 0
  | [(_, v)] => v
  | (t0, v0) :: (t1, v1) :: r =>
    if t ≤ t0 then v0 else if t < t1 then v0 + (v1 - v0) * (t - t0) / (t1 - t0) else interp ((t1, v1) :: r) t

/-- Highest of the valid readings of a group of sensors. -/
def hottest (s : State) (sel : Nat → Bool) : Option Int :=
  s.pow.sens.foldl (fun m e =>
    if sel e.1 then
      match e.2, m with
      | some t, some u => some (max t u)
      | some t, none => some t
      | none, _ => m
    else m) none

/-- The temperature a curve is read at: the group's highest, or TEMP of the last enabled point (R483). -/
def groupTemp (s : State) (c : Nat) : Int :=
  match hottest s (fun i => if c = 0 then decide (i < 56) else decide (56 ≤ i)) with
  | some t => t
  | none => ((curvePoints s c).getLast?.map (·.1)).getD 0

/-- An eight-bit field of a temperature, saturating at +127. -/
def tempField (t : Int) : Nat := ((min t 127) % 256).toNat

/-- TARGET and B of a sample (R483). -/
def sampleTarget (s : State) : Nat × Nat :=
  let b := (min (interp (curvePoints s 0) (groupTemp s 0)) (interp (curvePoints s 1) (groupTemp s 1))).toNat
  (b - (s.pow.pwr - heldSum s), b)

/-- The pool follows TARGET (R484). -/
def poolAdjust (s : State) (target : Nat) : State :=
  let p := s.pow
  if p.pool < target then
    let n := target - p.pool
    let s : State := { s with pow := { p with free := p.free + n, pool := target, debt := 0 } }
    revokesEnd (putF s GV GV_MINT_COUNT ((getF s GV GV_MINT_COUNT + n) % 2 ^ 32))
  else
    let r := min p.free (p.pool - target)
    let s : State := { s with pow := { p with free := p.free - r, pool := p.pool - r, debt := p.pool - r - target } }
    let retire := GV_MINT_COUNT.plus 4
    let s := putF s GV retire ((getF s GV retire + r) % 2 ^ 32)
    if s.pow.debt = 0 then revokesEnd s else s

/-- The next holder to revoke: lowest priority, then issued last (R485). -/
def revokeNext (s : State) : Option Nat :=
  (s.pow.desc.foldl (fun (b : Option (Nat × Desc)) e =>
    if e.2.state != 2 || e.2.held = 0 || e.2.revoked then b
    else match b with
      | none => some e
      | some (_, x) => if e.2.prio < x.prio || (e.2.prio = x.prio && x.order < e.2.order) then some e else b) none).map (·.1)

/-- Tokens held by revoked holders. -/
def revokedSum (s : State) : Nat := s.pow.desc.foldl (fun n e => if e.2.revoked then n + e.2.held else n) 0

/-- Holders are selected until their tokens cover DEBT. -/
def revokeMany (s : State) (fuel : Nat) : State :=
  match fuel with
  | 0 => s
  | f + 1 =>
    if s.pow.debt ≤ revokedSum s then s
    else match revokeNext s with
      | none => s
      | some d => revokeMany (setDesc s d { descOf s d with revoked := true }) f

/-- Selection of R485 with its event. -/
def revokeSelect (s : State) : State :=
  let n := fun (s : State) => (s.pow.desc.filter (·.2.revoked)).length
  let s1 := revokeMany s 4096
  if n s < n s1 then evtPulse s1 GV 0 else s1

/-- Sensor `i` reads `t` (R482). -/
def sensorRead (s : State) (i : Nat) (t : Option Int) : State :=
  let v := sensorValid t
  let s : State := { s with pow := { s.pow with sens := tabPut s.pow.sens i v } }
  let fail := GV_SFAIL_INVALID.plus (4 * (i / 32))
  let was := nBit (getF s GV fail) (i % 32)
  let s := putF s GV fail (nSet (getF s GV fail) (i % 32) v.isNone)
  let s := putFlag s GV (GV_SENS_VALID.plus (4 * i)) v.isSome
  match v with
  | some d => putF s GV (GV_SENS_TEMP.plus (4 * i)) (tempField d)
  | none => if was then s else raiseFrom (evtPulse s GV 2) GV 1 0x0801 i

/-! ### The dispatcher (R486 to R488) -/

/-- Ready queue `q`. -/
def readyQ (s : State) (q : Nat) : List Nat := tabOr [] s.pow.ready q
/-- `s` with ready queue `q` set; a new head has not waited yet. -/
def setReadyQ (s : State) (q : Nat) (l : List Nat) : State :=
  let r := if l.head? = (readyQ s q).head? then s.pow.reserve else setDel s.pow.reserve q
  { s with pow := { s.pow with ready := tabPutD [] s.pow.ready q l, reserve := r } }

/-- An event is due on EVI line `line` of a die (17_processors.md R463). -/
def eviMark (s : State) (die line : Nat) : State :=
  { s with hub := { s.hub with evi := tabPutD 0 s.hub.evi (64 * die + line) (tabOr 0 s.hub.evi (64 * die + line) + 1) } }

/-- Heads that target an isolated die complete ABORTED (R489), `fuel` of them at most. -/
def abortIsolated (s : State) (fuel : Nat) : State :=
  match fuel with
  | 0 => s
  | f + 1 =>
    match s.pow.ready.find? fun e => match e.2.head? with
      | some d => isolated s (descOf s d).die
      | none => false with
    | none => s
    | some (q, l) => abortIsolated (descDone (setReadyQ s q l.tail) (l.headD 0) 2) f

/-- The head of queue `q` can be issued now. -/
def headFits (s : State) (q d : Nat) : Bool :=
  let x := descOf s d
  x.cost ≤ s.pow.free && !s.pow.paused.contains q &&
    match x.kind with
    | 1 => decide ((tabOr [] s.pow.pq x.die).length < 64)
    | 2 => decide ((tabOr [] s.pow.mq (x.target % 4)).length < 64)
    | _ => true

/-- The queue that issues, from queue `n - 1` down; a head that has waited RESERVE_US reserves its tokens (R487). -/
def issuePick (s : State) (n : Nat) : Option (Nat × Nat) :=
  match n with
  | 0 => none
  | q + 1 =>
    match (readyQ s q).head? with
    | none => issuePick s q
    | some d =>
      if headFits s q d then some (q, d)
      else if s.pow.reserve.contains q && (descOf s d).cost ≤ s.pow.target then none
      else issuePick s q

/-- A refused start returns its descriptor to the head of its queue (R487). -/
def issueRefused (s : State) (q d : Nat) (reserved : Bool) : State :=
  let x := descOf s d
  let s := setDesc s d { x with state := 1, held := 0 }
  let s := dispatcherVote (tokensBack (setReadyQ s q (d :: readyQ s q)) x.held) x.dom
  let p := { s.pow with
    paused := setAdd s.pow.paused q
    reserve := if reserved then setAdd s.pow.reserve q else s.pow.reserve }
  countWrap { s with pow := p } DS DS_REFUSE_COUNT

/-- Descriptor `d` at the head of queue `q` is issued and delivered (R487). -/
def issue (s : State) (q d : Nat) : State :=
  let x := descOf s d
  let reserved := s.pow.reserve.contains q
  let s := setReadyQ s q (readyQ s q).tail
  let s := setDesc s d { x with state := 2, held := x.cost, order := s.pow.order }
  let s : State := { s with pow := { s.pow with free := s.pow.free - x.cost, order := s.pow.order + 1 } }
  let s := dispatcherVote s x.dom
  match x.kind with
  | 0 =>
    match startRefused s x.die x.eng 1 with
    | some _ => issueRefused s q d reserved
    | none => startPush s x.die x.eng { src := .dispatcher, vec := x.vec, arg := BitVec.ofNat 24 x.arg, desc := d }
  | 1 =>
    let s : State := { s with pow := { s.pow with pq := tabPut s.pow.pq x.die (tabOr [] s.pow.pq x.die ++ [d]) } }
    eviMark s x.die (x.target / 16 % 64)
  | _ =>
    let c := x.target % 4
    dsEvents { s with pow := { s.pow with mq := tabPut s.pow.mq c (tabOr [] s.pow.mq c ++ [d]) } }

/-! ### Commands -/

/-- DROP_START (R476). -/
def execDropStart (die idx : Nat) (s : State) : Host.Outcome State Fault Refusal :=
  .next <|
    let d := domOf s die idx
    if droppable die idx && d.state = 0 && !domVoted s die idx && !domHeld s die idx then
      let s := setDom s die idx { d with state := 1 }
      if domKind die idx = 0x03 then pump (linesClean s (dirtyLines s fun _ => true)) else s
    else s

/-- The caches of CLUSTER have lines to write back still (R471). -/
def cachesDirty (s : State) (die idx : Nat) : Bool :=
  domKind die idx = 0x03 && (writingBack s || dirtyLines s (fun _ => true) != [])

/-- DROPPED (R476). -/
def execDropped (die idx : Nat) (s : State) : Host.Outcome State Fault Refusal :=
  .next <|
    let d := domOf s die idx
    if droppable die idx && d.state = 1 && !cachesDirty s die idx then
      evtPulse (dropLoss (dropRegs (setDom s die idx { d with state := 2 }) die idx) die idx) (pdPage die idx) 0
    else s

/-- DROP_DENIED (R476). -/
def execDropDenied (die idx : Nat) (s : State) : Host.Outcome State Fault Refusal :=
  .next <|
    let d := domOf s die idx
    if droppable die idx && d.state = 1 then
      let s := putFlag (setDom s die idx { d with state := 0 }) (pdPage die idx) PD_STAT_DROP_DENIED true
      raiseFrom (evtPulse s (pdPage die idx) 2) (pdPage die idx) 0 0x0106 (0x4000 + idx)
    else s

/-- DOMAIN_WAKE (R477). -/
def execDomainWake (die idx : Nat) (s : State) : Host.Outcome State Fault Refusal :=
  .next (if droppable die idx then domTouch s die idx else s)

/-- The alarm's TIME of PD_ALARM (R490). -/
def alarmTime (s : State) : Nat := getF s (pdPage 8 0) PD_ALARM_LO_TIME + 2 ^ 32 * getF s (pdPage 8 0) PD_ALARM_HI_TIME

/-- The alarm of a device outside torpor: its event, and an exit that waits for the end of an entry (R480, R481). -/
def alarmRing (s : State) : State :=
  let s := evtPulse s (pdPage 8 0) 3
  if flag s (pdPage 8 1) PD_TORPOR_ENTERING then { s with pow := { s.pow with exitAtEntry := some 1 } } else s

/-- RTC_ALARM (R481): COUNT equals TIME while ALARM_EN is 1. -/
def execRtcAlarm (s : State) : Host.Outcome State Fault Refusal :=
  .next <|
    if flag s (pdPage 8 0) PD_ALARM_CTRL_ALARM_EN && flag s CU CU_OSC_STAT_RTC_OK && s.pow.rtc = alarmTime s then
      if s.pow.torpor then torporExit s 1 else alarmRing s
    else s

/-- What is left once VCC_AON has gone: what flash, fuses and the Keep's cells hold, and the commands that wait. -/
def vccAonLost (s : State) : State :=
  let r := State.reset
  let keep := { s.keep with windows := [], appends := [], pfwClosed := false, pfwLow := false, xfer := none, bootWr := none, merge0 := [], merge1 := [] }
  let pin := { s.pin with supplies := false, railsOut := [2], tripHold := false, xspiResetN := false, latch := [] }
  let shut : ShutState := { buf0 := s.shut.buf0, buf1 := s.shut.buf1, test0 := s.shut.test0, test1 := s.shut.test1 }
  let sec : SecState := { rec0 := s.sec.rec0, rec1 := s.sec.rec1, cert0 := s.sec.cert0, cert1 := s.sec.cert1 }
  { r with pg := { regs := s.pg.regs.filter fun e => keepView e.1 }, start := { phase := .off }, keep := keep, pin := pin,
           shut := shut, sec := sec, err := { copies := s.err.copies }, freeIdx := s.freeIdx, pending := s.pending }

/-- VCC_AON_LOSS (00_scope.md R14): every kept field outside the Keep is lost. -/
def execVccAonLoss (s : State) : Host.Outcome State Fault Refusal := .next (vccAonLost s)

/-- VCC_AON_VALID (22_debug.md R558, R562): the TAP is in Test-Logic-Reset and DBG_LOST is set. -/
def execVccAonValid (s : State) : Host.Outcome State Fault Refusal :=
  .next { s with dbg := { s.dbg with ir := 2, dbgLost := true, reason := if s.dbg.dbgLost then s.dbg.reason else 4 } }

/-- The readings of a sample and what the pages show of them (R482, R484). -/
def govRead (s : State) (temps : List (Option Int)) (milliwatts : Nat) : State :=
  let s := shadowApply s GV
  let s := ((List.range 72).zip temps).foldl (fun s it => sensorRead s it.1 it.2) s
  let p := (milliwatts + 249) / 250
  let s := putF { s with pow := { s.pow with pwr := p } } GV GV_PWR_P (min p 8191)
  let s := putF (putF s GV GV_TEMP_TF (tempField (groupTemp s 0))) GV GV_TEMP_TO (tempField (groupTemp s 1))
  match hottest s (fun _ => true) with
  | some t => putF s GV GV_TEMP_HOT (min t 127 % 128).toNat
  | none => s

/-- The target of a sample and its budget stand. -/
def govAimed (s : State) : State :=
  { s with pow := { s.pow with target := (sampleTarget s).1, bud := (sampleTarget s).2 } }

/-- The governor samples: from S3 onward, and not in torpor (R482). -/
def govSamples (s : State) : Bool :=
  !s.pow.torpor && match s.start.phase with
    | .off | .s0 | .s1 | .s1Hold | .s2Pll | .s2Records | .s2Quick | .s2HostHold | .s2Header | .s2Tables => false
    | _ => true

/-- GOVERNOR_SAMPLE (R482 to R485); committed curves take effect first (R489). -/
def execGovernorSample (temps : List (Option Int)) (milliwatts : Nat) (s : State) : Host.Outcome State Fault Refusal :=
  .next <|
    if !govSamples s then s
    else
      let u := govRead s temps milliwatts
      revokeSelect (poolAdjust (govAimed u) (sampleTarget u).1)

/-- REVOKE_TIMEOUT (R485). -/
def execRevokeTimeout (d : Nat) (s : State) : Host.Outcome State Fault Refusal :=
  .next <|
    let x := descOf s d
    if x.revoked && x.held != 0 && !x.throttled then evtPulse (setDesc s d { x with throttled := true }) GV 1 else s

/-- The ledger of the budget balances (R484, 20_errors.md R526). -/
def budgetOk (s : State) : Bool :=
  s.pow.free + heldSum s = s.pow.pool &&
    decide (s.pow.pool = (getF s GV GV_MINT_COUNT + 2 ^ 32 - getF s GV (GV_MINT_COUNT.plus 4)) % 2 ^ 32)

/-- BUDGET_AUDIT (R484, 20_errors.md R528). -/
def execBudgetAudit (s : State) : Host.Outcome State Fault Refusal := .next (audit s 6 DS 0xC040 (budgetOk s))

/-- DESCRIPTOR_ISSUE (R487). -/
def execDescriptorIssue (s : State) : Host.Outcome State Fault Refusal :=
  .next <|
    if !enabled s DS then s
    else
      let s := abortIsolated s 4096
      match issuePick s 64 with
      | none => s
      | some (q, d) => issue s q d

/-- REFUSAL_PAUSE_END (R487). -/
def execRefusalPauseEnd (q : Nat) (s : State) : Host.Outcome State Fault Refusal :=
  .next { s with pow := { s.pow with paused := setDel s.pow.paused q } }

/-- RESERVE_TIMEOUT (R487). -/
def execReserveTimeout (q : Nat) (s : State) : Host.Outcome State Fault Refusal :=
  .next <|
    if readyQ s q = [] then s else { s with pow := { s.pow with reserve := setAdd s.pow.reserve q } }

end Sys2Proof.Machine
end

