-- ==== Sys2Proof/Machine/HubRegs.lean ====
section
/-! DEFINITION. Checks and effects of accesses to the pages CL_, HD_, TB_, MB_, LK_, EV_ and PC_, and the copies of the hub
DMA (17_processors.md R447 to R470). -/

namespace Sys2Proof.Machine

/-! ### CL_ -/

/-- CL_RVEC outside the regions of R446 (R465). -/
def clRange (s : State) (off : Nat) (w : Word) : Bool :=
  let at_ := fun (lo hi : Word) => wGet lo 2 30 * 4 + wGet hi 0 10 * 2 ^ 32
  if off = 0x044 then !fetchable (at_ w (getReg s (CL + 0x048)))
  else if off = 0x048 then !fetchable (at_ (getReg s (CL + 0x044)) w)
  else false

/-- GO while a CMO runs (R465). -/
def clFault (s : State) (off : Nat) (w : Word) : Option Nat :=
  if off = 0x04C && wGet w 31 1 = 1 && flag s CL CL_CMO_BUSY then some 0x0100 else none

/-- A CMO starts on the lines CL_CMO_LO, CL_CMO_HI and CL_CMO_LEN name: the dirty ones are written back but for op 1, and every
one leaves the caches but for op 0 (R465). -/
def cmoStart (s : State) (op : Nat) : State :=
  let line := getF s CL CL_CMO_LO_ADDR + getF s CL CL_CMO_HI_ADDR * 2 ^ 26
  let n := getF s CL CL_CMO_LEN_LINES
  let mine := fun (l : Nat) => line ≤ l && decide (l < line + n)
  let s := putFlag { s with hub := { s.hub with cmo := some (op, line, n) } } CL CL_CMO_BUSY true
  let s := if op = 1 then s else linesClean s (dirtyLines s mine)
  pump (if op = 0 then s else linesDrop s mine)

/-- An accepted write: EN (R447), a CMO, and a record cleared with its VALID (R448). -/
def clWritten (s : State) (off : Nat) (old w : Word) : State :=
  if off = 0x040 then leFreezeFollow (hartsWritten s (wGet old 0 4))
  else if off = 0x04C && wGet w 31 1 = 1 then cmoStart s (wGet w 0 2)
  else if 0x060 ≤ off && off < 0x0A0 && off % 16 = 0 && wGet old 31 1 = 1 && wGet w 31 1 = 1 then
    setReg (setReg (setReg s (CL + off) 0) (CL + off + 4) 0) (CL + off + 8) 0
  else s

/-! ### HD_ -/

/-- Source, destination and length of channel `ch`. -/
def dmaRange (s : State) (ch : Nat) : Nat × Nat × Nat :=
  (getF s HD (HD_SRC_LO_ADDR.nth ch) + getF s HD (HD_SRC_HI_ADDR.nth ch) * 2 ^ 32,
   getF s HD (HD_DST_LO_ADDR.nth ch) + getF s HD (HD_DST_HI_ADDR.nth ch) * 2 ^ 32,
   getF s HD (HD_LEN_BYTES.nth ch))

/-- Channel `ch` runs: RESULT is 0xF (R466). -/
def dmaRuns (s : State) (ch : Nat) : Bool := getF s HD (HD_STAT_RESULT.nth ch) = 0xF

/-- GO and ABORT together (R466). -/
def hdRange (off : Nat) (w : Word) : Bool := 0x100 ≤ off && off % 32 = 0x14 && wGet w 30 2 = 3

/-- GO of a channel that is busy or whose ranges overlap (R450). -/
def hdFault (s : State) (off : Nat) (w : Word) : Option Nat :=
  if 0x100 ≤ off && off % 32 = 0x14 && wGet w 31 1 = 1 then
    let ch := (off - 0x100) / 32
    let (src, dst, n) := dmaRange s ch
    if dmaRuns s ch then some 0x0100
    else if src < dst + n && dst < src + n then some 0x0101
    else none
  else none

/-- Channel `ch` starts (R450). -/
def dmaStart (s : State) (ch : Nat) : State :=
  putF (putF (putF s HD (HD_STAT_RESULT.nth ch) 0xF) HD (HD_DONE_BYTES.nth ch) 0) HD (HD_CTRL_ABORT.nth ch) 0

/-- GO starts the channel; ABORT of one that runs is kept until its present access ends (R450). -/
def hdWritten (s : State) (off : Nat) (w : Word) : State :=
  if 0x100 ≤ off && off % 32 = 0x14 then
    let ch := (off - 0x100) / 32
    if wGet w 31 1 = 1 then dmaStart s ch
    else if wGet w 30 1 = 1 && dmaRuns s ch then putF s HD (HD_CTRL_ABORT.nth ch) 1
    else s
  else s

/-- Channel `ch` ends after `bytes` bytes with `result` (R450). -/
def dmaEnds (s : State) (ch bytes result : Nat) : Bool :=
  if result = 0 then bytes == (dmaRange s ch).2.2
  else if result = 0xE then getF s HD (HD_CTRL_ABORT.nth ch) == 1 && decide (bytes ≤ (dmaRange s ch).2.2)
  else decide (result ≤ 8) && decide (bytes < (dmaRange s ch).2.2)

/-- A channel has ended: its result and its count of bytes stand, and its event pulses (R450, R466). -/
def dmaEnded (s : State) (ch result done : Nat) : State :=
  evtPulse (putF (putF (putF s HD (HD_STAT_RESULT.nth ch) result) HD (HD_DONE_BYTES.nth ch) done) HD (HD_CTRL_ABORT.nth ch) 0)
    HD ch

/-- DMA_DONE: the bytes reported are copied in accesses of up to 256 bytes by initiator 5; the first access that fails
ends the channel with its code (R450). `result` 0 needs the whole length, 0xE an ABORT or the fall of PFW_N, whose quench
does not hold the present access back. -/
def execDmaDone (ch bytes result : Nat) (s : State) : Host.Outcome State Fault Refusal :=
  .next <|
    if 8 ≤ ch || s.pow.torpor || gateShut s 5 || !dmaRuns s ch || !dmaEnds s ch bytes result then s
    else if result != 0xE && quenched s 5 then s
    else if let some u := targetsStall s (dmaRange s ch).1 bytes then u
    else if let some u := targetsStall s (dmaRange s ch).2.1 bytes then u
    else
      let r := busCopy s 5 (dmaRange s ch).1 (dmaRange s ch).2.1 (chunks 256 bytes) 0
      dmaEnded r.1 ch (if r.2.1 = 0 then result else r.2.1) r.2.2

/-! ### TB_ -/

/-- SET with STEP, or a RATE beyond ±2,147,483 (R451). -/
def tbRange (off : Nat) (w : Word) : Bool :=
  (off = 0x040 && wGet w 30 2 = 3) || (off = 0x05C && (signed 32 w.toNat < -2147483 || 2147483 < signed 32 w.toNat))

/-- An accepted write of TB_CTRL. -/
def tbWritten (s : State) (off : Nat) (w : Word) : State :=
  if off = 0x040 then tbCtrlWritten s (wGet w 31 1 = 1) (wGet w 30 1 = 1) else s

/-! ### MB_ -/

/-- The mailbox whose window holds offset `off` of a mailbox page (R452). -/
def mbAt (die blk off : Nat) : Option Nat :=
  if off < 0x100 || 0x300 ≤ off then none
  else
    let k := (off - 0x100) / 64
    if die = 8 then some (8 * (blk - 0xC010) + k)
    else some (64 + (if die = 9 then 0 else 16) + 8 * (blk - 0xC101) + k)

/-- The block fault of an access to a mailbox (R453, R454, R458). -/
def mbFault (s : State) (ini : Nat) (bar0 wr peek : Bool) (die blk off : Nat) (w : Word) : Option Nat :=
  match mbAt die blk off with
  | none => none
  | some m =>
    let e := off % 64
    let x := mboxOf s m
    if !mbMember s m ini bar0 && (wr || iniClass ini != 5) then some 0x0101
    else if wr then
      if x.full && (e ≤ 0x20 || e = 0x2C || e = 0x30) then some 0x0100
      else if e = 0x34 && wGet w 0 1 = 1 && (!x.full || x.sender != ini) then some 0x0102
      else none
    else if e = 0x24 && !peek && x.full && x.sender = ini then some 0x0103
    else none

/-- An accepted write to a mailbox: SEND, WITHDRAW, and selectors that change what the page's events show (R454, R457). -/
def mbWritten (s : State) (ini die blk off : Nat) (w : Word) : State :=
  match mbAt die blk off with
  | none => s
  | some m =>
    let e := off % 64
    if e = 0x20 && wGet w 0 1 = 1 then mbSend s m ini
    else if e = 0x34 && wGet w 0 1 = 1 then mbWithdrawn s m
    else if e = 0x2C then mbEvents s m
    else s

/-- What a read of MB_TAKE, MB_STAT or MB_CNT gives, and its effect (R454); a DEBUG-class read takes nothing. -/
def mbRead (s : State) (ini : Nat) (peek : Bool) (m e : Nat) : Option (State × Nat) :=
  let x := mboxOf s m
  let head := x.sender % 1024 * 65536 + x.seq % 65536
  if e = 0x24 then
    let v := if x.full then 2 ^ 31 + head else 0
    some (if x.full && !peek && iniClass ini != 5 then mbTaken s m else s, v)
  else if e = 0x28 then some (s, ofBool x.full * 2 ^ 31 + ofBool x.timeout * 2 ^ 30 + head)
  else if e = 0x38 then some (s, x.wdraw % 65536 * 65536 + x.taken % 65536)
  else none

/-! ### LK_ -/

/-- The block fault of a write to the lock page (R459, R461): LK_FORCE belongs to class DEBUG and needs a halted holder. -/
def lkFault (s : State) (ini off : Nat) (w : Word) : Option Nat :=
  if off = 0x040 then
    if iniClass ini != 5 then some 0x0102
    else if wGet w 31 1 = 1 && !lockHalted s (wGet w 0 8) then some 0x0101
    else none
  else if 0x100 ≤ off && off < 0x500 then
    if w != 0 then some 0x0001
    else if lockOf s ((off - 0x100) / 4) = some ini then none
    else some 0x0100
  else none

/-- An accepted write: a release (R459, R461). -/
def lkWritten (s : State) (off : Nat) (w : Word) : State :=
  if off = 0x040 && wGet w 31 1 = 1 then setLock s (wGet w 0 8) none
  else if 0x100 ≤ off && off < 0x500 then setLock s ((off - 0x100) / 4) none
  else s

/-- What a read of a lock word or of LK_STAT gives, and its effect (R459, R461). -/
def lkRead (s : State) (ini : Nat) (peek : Bool) (off : Nat) : Option (State × Nat) :=
  if 0x100 ≤ off && off < 0x500 then some (lockTake s ini ((off - 0x100) / 4) peek)
  else if 0x500 ≤ off && off < 0x900 then
    let k := (off - 0x500) / 4
    some (s, match lockOf s k with
      | none => 0
      | some h => 2 ^ 31 + ofBool (lockHalted s k) * 2 ^ 30 + h % 1024)
  else none

/-! ### EV_ -/

/-- EV_DONE of a source that is not in service (R464). -/
def evRange (s : State) (off : Nat) (w : Word) : Bool :=
  0x080 ≤ off && off < 0x090 && !s.hub.service.contains (4 * wGet w 0 10 + (off - 0x080) / 4)

/-- An accepted write: a route word, or the end of a service (R463); a threshold or route that changes may end a WFI. -/
def evWritten (s : State) (off : Nat) (w : Word) : State :=
  wfiFollow <|
    if off = 0x044 then routePut s (getF s EV EV_RSEL_SRC) 0 w
    else if off = 0x048 then routePut s (getF s EV EV_RSEL_SRC) 1 w
    else if 0x080 ≤ off && off < 0x090 then serviceEnd s ((off - 0x080) / 4) (wGet w 0 10)
    else s

/-- What a read of EV_RDATA, EV_CLAIM or EV_LEVEL gives, and its effect (R463, R464). -/
def evRead (s : State) (peek : Bool) (off : Nat) : Option (State × Nat) :=
  if off = 0x044 then some (s, route s (getF s EV EV_RSEL_SRC) 0)
  else if off = 0x048 then some (s, route s (getF s EV EV_RSEL_SRC) 1)
  else if 0x070 ≤ off && off < 0x080 then
    let c := (off - 0x070) / 4
    some (match claimSource s c with
      | none => (s, 0)
      | some x => (if peek then s else claim s c x, 2 ^ 31 + x))
  else if 0x100 ≤ off && off < 0x150 then
    let k := (off - 0x100) / 4
    some (s, ofBits ((List.range 32).filter fun b => s.hub.levels.contains (32 * k + b)))
  else none

/-! ### PC_ -/

/-- Controller of a PC_ page: PCIe0 on die 9, PCIe1 on die 11. -/
def pcAt (die : Nat) : Nat := if die = 9 then 0 else 1

/-- The controller runs, so its STOPPED fields do not apply: it is on and past its release (R470). -/
def pcRuns (s : State) (die : Nat) : Bool :=
  let p := pcPage (pcAt die)
  getF s p PC_CFG_MODE != 0 && flag s p PC_STAT_RELEASED

/-- A BAR2 target that is not aligned to its size, as the write would leave them (R470). -/
def pcFault (s : State) (die off : Nat) (w : Word) : Option Nat :=
  if 0x060 ≤ off && off < 0x080 && off % 16 < 12 then
    let p := pcPage (pcAt die) + off / 16 * 16
    let reg := fun e => if off % 16 = e then w else getReg s (p + e)
    let tgt := (reg 4).toNat + wGet (reg 8) 0 10 * 2 ^ 32
    if tgt % 2 ^ wGet (reg 0) 0 6 != 0 then some 0x0100 else none
  else none

/-- An accepted write: a configuration, of which a change restarts the link, which a controller in its boot configuration takes at the next release of PERST#
(R109, R115), message sends, and the doorbell, whose bits the host's writes set and others clear (R468, R470). -/
def pcWritten (s : State) (ini die off : Nat) (old w : Word) : State :=
  let pc := pcAt die
  let p := pcPage pc
  let c := pcieOf s pc
  if off = 0x040 then
    if c.boot then setPcie s pc { c with cfgWaits := true }
    else
      holdsWake (setPcie (if old = w then s else pcieDown s pc) pc
        { c with owned := true, training := getF s p PC_CFG_MODE != 0 && !flag s p PC_STAT_PERST }) die
  else if off = 0x080 then msiWritten s pc 0 w
  else if off = 0x084 then msiWritten s pc 1 w
  else if off = 0x088 && (ini = 7 || ini = 8) then doorbellSet (setReg s (p + off) old) pc w
  else s

end Sys2Proof.Machine
end

