-- ==== Sys2Proof/Machine/Icp.lean ====
section
/-! DEFINITION. The internal configuration port: partial loads and RELOAD (09_partitions.md R225 to R231). -/

namespace Sys2Proof.Machine

/-! ### Frames written (R229) -/

/-- A failure of a load: result, and the stream frame and group IC_FAIL and IC_FAIL_GROUP name, where they name one. -/
structure IcpBad where
  result : Nat
  frame : Option Nat
  group : Option Nat
  deriving DecidableEq, Repr

/-- A load or RELOAD of the die ends with a failure (R230, R231). -/
def icpFailAt (s : State) (die : Nat) (b : IcpBad) : State :=
  let s := putF s (icPage die) IC_FAIL_FRAME (b.frame.getD 0x1FFFFF)
  icpFail (putF s (icPage die) IC_FAIL_GROUP_GROUP (b.group.getD 0xFFF)) die b.result

/-- `s` with the load of the die set. -/
def icpPut (s : State) (die : Nat) (l : IcpLoad) : State :=
  { s with part := { s.part with icp := tabPut s.part.icp die (some l) } }

/-- A frame that passed is written for the extent, after the contention check on it as merged (R229); none: the check
fails. -/
def icpWrite (s : State) (e : PartEntry) (target a : Nat) (f : Frame) : Option State :=
  let m := if target = 1 then mergeFrame s e a f else f
  if target = 1 && (contention a m).isSome then none
  else
    let s := countUp (frameWrite s e.die target a m) (icPage e.die) IC_PROGRESS_FRAMES 1
    match icpLoad s e.die with
    | none => some s
    | some l => some (icpPut s e.die { l with wrote := true })

/-- The frames of a buffered group are written in order (R229). -/
def icpWriteAll (s : State) (e : PartEntry) (g : Nat) (ws : List (Nat × Nat × Nat × Frame)) : State ⊕ State :=
  match ws with
  | [] => .inr s
  | (n, t, a, f) :: r =>
    match icpWrite s e t a f with
    | none => .inl (icpFailAt s e.die ⟨9, some n, some g⟩)
    | some s => icpWriteAll s e g r

/-- IC_STAT.RESULT of a detail of the stream checks (R235). -/
def icpResult (detail : Nat) : Nat :=
  match detail with
  | 1 => 7 | 2 => 7 | 3 => 9 | 4 => 8 | 5 => 0xA | 6 => 0xA | _ => 0xB

/-- What the checks of a group leave: the progress after, the segments met, and the frames to write as stream frame, target,
address and payload. -/
structure IcpChecked where
  prog : StreamProg
  segs : List SegRun
  writes : List (Nat × Nat × Nat × Frame) := []

/-- A segment's frames all lie in the extent (R229). -/
def segInside (e : PartEntry) (q : StreamProg) : Bool :=
  (List.range q.left).all fun j => extentFrame e q.target (q.addr + j)

/-- Checks of a group's frames in the buffer (R229). -/
def icpCheck (e : PartEntry) (i : StreamInfo) (g : Nat) (recs : List ImgRec) (c : IcpChecked) : IcpBad ⊕ IcpChecked :=
  match recs with
  | [] => .inr c
  | r :: rest =>
    match frameStep i e.die c.prog r with
    | .bad d _ => .inl ⟨icpResult d, some c.prog.frames, some g⟩
    | .ok f k q =>
      if k == .desc && !segInside e q then .inl ⟨8, some c.prog.frames, some g⟩
      else
        match lengthDetail i q with
        | some 7 => .inl ⟨0xB, some q.frames, some (q.frames / 256)⟩
        | some _ => .inl ⟨0xB, none, some g⟩
        | none => icpCheck e i g rest (match k with
          | .write t a => { c with prog := q, writes := c.writes ++ [(c.prog.frames, t, a, f)] }
          | .desc => { c with prog := q, segs := c.segs ++ [⟨q.frames, q.target, q.addr, q.left⟩] }
          | .table => { c with prog := q })

/-- The die stream of a partial image. -/
def icpStream (h : Header) : StreamInfo :=
  let x := hdrStream h h.part.die
  { st := h.part.die, frames := x.frames, stored := x.stored, firstGroup := 0, compressed := h.flags = 1 }

/-! ### The group buffers (R225, R229) -/

/-- The next stored frame of the bytes `bs`: 260 bytes, or a record (R123, R124); none while it is not whole. With `fin` the
stream's last byte has come: a record then runs as far as it goes, and is malformed. -/
def takeRec (compressed fin : Bool) (bs : List Byte) : Option (ImgRec × List Byte) :=
  let num := fun (off n : Nat) => ofBytes ((bs.drop off).take n)
  if !compressed then
    if bs.length < 260 then none
    else some ({ len := 260, payload := BitVec.ofNat 2048 (num 0 256), crc := BitVec.ofNat 32 (num 256 4) }, bs.drop 260)
  else
    let len := num 0 2 % 512
    let kind := num 0 2 / 16384
    if bs = [] || (!fin && (bs.length < 2 || bs.length < len)) then none
    else
      let words := if kind = 1 then (List.range ((len - 14) / 4)).map fun k => BitVec.ofNat 32 (num (10 + 4 * k) 4) else []
      some ({ kind := kind, rsv := num 0 2 / 512 % 32, len := len, mask := if kind = 1 then num 2 8 else 0, words := words
              payload := if kind = 0 then BitVec.ofNat 2048 (num 2 256) else 0
              crc := BitVec.ofNat 32 (num (len - 4) 4) }, bs.drop len)

/-- The whole stored frames that the bytes begin with, at most `n`. -/
def takeRecs (compressed fin : Bool) (n : Nat) (bs : List Byte) : List ImgRec :=
  match n with
  | 0 => []
  | k + 1 =>
    match takeRec compressed fin bs with
    | none => []
    | some (r, rest) => r :: takeRecs compressed fin k rest

/-- Whole stored frames in the buffers, at most `n`. -/
def icpRecs (l : IcpLoad) (n : Nat) : List ImgRec :=
  let i := icpStream l.hdr
  takeRecs i.compressed (l.prog.bytes + l.buf.length = i.stored) n l.buf

/-- Both group buffers are full. -/
def icpFull (l : IcpLoad) : Bool := (icpRecs l 512).length = 512

/-- The bytes of a word that belong to the die stream; the word begins at image byte `l.bytes`. -/
def icpBytes (l : IcpLoad) (word : BitVec 64) : List Byte :=
  let x := hdrStream l.hdr l.hdr.part.die
  ((toBytes 8 word.toNat).zipIdx.filter fun b => x.offset ≤ l.bytes + b.2 && l.bytes + b.2 < x.offset + x.stored).map (·.1)

/-- A word holds a byte that is not 0 among image bytes 4,097 to 8,191 (05_images.md R119). -/
def padBroken (l : IcpLoad) (word : BitVec 64) : Bool :=
  (toBytes 8 word.toNat).zipIdx.any fun b => b.1 != 0 && 4097 ≤ l.bytes + b.2 && l.bytes + b.2 < 8192

/-! ### Header (R226, R227) -/

/-- Check 1 of R227. -/
def partialForm (h : Header) : Bool :=
  headerForm h 1342177280 && h.kind = 2 && h.dieCount = 1 && (bitsOf 16 h.streamMask).length = 1
    && h.tableOff = 0 && h.tableFrames = 0 && h.tableStored = 0 && h.partOff = 0 && h.partLen = 0 && h.seqOff = 0
    && h.seqLen = 0 && h.routeOff = 0 && h.routeLen = 0 && h.groupCount ≤ 4096
    && h.part.magic = 0x50415231 && h.part.partNo < 64 && nBit h.streamMask h.part.die
    && (hdrStream h h.part.die).firstGroup = 0 && h.part.pflags < 2 && h.part.rsv1 = 0 && h.part.rsv2 = 0 && h.part.rsv3 = 0

/-- The result of the first check of R227 that fails. -/
def partialResult (s : State) (die : Nat) (h : Header) (keyHash : Nat) (sigOk : Bool) : Option Nat :=
  if !partialForm h then some 1
  else if h.family != 0x5856 || h.device != 8 then some 2
  else
    match (dieParts s die).find? (·.no == h.part.partNo) with
    | none => some 3
    | some e =>
      if !nBit e.flags 1 || h.part.die != die || h.part.cFirst != e.cFirst || h.part.cLast != e.cLast
          || (e.cFirst ≤ 374 && 374 ≤ e.cLast) then some 3
      else if h.part.baseRoot != ilRoot s then some 4
      else if keyHash != h.signerHash || !signerOk s h.signerHash || !sigOk then some 5
      else if !secVerOk s h then some 6
      else if flag s (icPage die) IC_STAT_RELOAD || partStateOn s die e.no = pLoading then some 0xF
      else none

/-! ### Success -/

/-- IC_PSRC: the address of the Keep copy (R232, R235). -/
def icPsrc (s : State) (die : Nat) : Nat :=
  getF s (icPage die) IC_PSRC_LO_ADDR * 4096 + getF s (icPage die) IC_PSRC_HI_ADDR * 2 ^ 32

/-- A partial load whose segments were `segs` succeeds (R230): DESIGN_ID, and what regeneration will use (R232); AUTO_RELEASE releases. -/
def partialDone (s : State) (e : PartEntry) (h : Header) (segs : List SegRun) : State :=
  let s := putF s (icPage e.die) (IC_PSTAT_DESIGN_ID.nth e.no) h.part.designId
  let x : PartImage := { src := icPsrc s e.die, root := h.root, groups := h.groupCount, segs := segs }
  let s := { s with part := { s.part with image := tabPut s.part.image e.no x } }
  let s := icpSuccess s e 1
  if nBit h.part.pflags 0 then partRelease s e else s

/-! ### Rows -/

/-- ICP_READY can be high on the die (R225). -/
def icpReady (s : State) (die : Nat) : Bool :=
  let g := s.part.icpGck.getD die 0
  isFabric die && !isolated s die && enabled s (icPage die) && nBit g 7 && gckRuns s die (g % 32)
    && !flag s (icPage die) IC_STAT_SIGCHK && !((icpLoad s die).isSome && flag s (icPage die) IC_STAT_RELOAD)
    && !(icpLoad s die).any icpFull

/-- A load begins with the first word accepted. -/
def icpBegin (s : State) (die : Nat) : State :=
  let page := icPage die
  let s := putFlag (putFlag s page IC_STAT_BUSY true) page IC_STAT_RELOAD false
  let s := putF (putF (putF s page IC_PROGRESS_FRAMES 0) page IC_FAIL_FRAME 0x1FFFFF) page IC_FAIL_GROUP_GROUP 0xFFF
  icpPut s die { }

/-- Result a word ends its load `l` with, if any: 0x1 for a byte that R119 says is 0, 0xB for a word after the last, an
ICP_LAST that does not mark byte IMAGE_LEN - 1, or bytes after it that are not 0 (log 91). -/
def icpWordBad (l : IcpLoad) (word : BitVec 64) (last : Bool) : Option Nat :=
  let n := l.bytes + 8
  let len := l.hdr.imageLen
  if padBroken l word then some 1
  else if l.last || last != (l.entered && decide (len ≤ n)) then some 0xB
  else if last && word.toNat / 2 ^ (8 * (len - l.bytes)) != 0 then some 0xB
  else none

/-- A load whose die stream has been written and whose last word has come succeeds (R230, log 91). -/
def icpFinish (s : State) (die : Nat) : State :=
  match icpLoad s die, partEntry s (getF s (icPage die) IC_STAT_PART) with
  | some l, some e =>
    if l.entered && l.last && l.prog.frames = (icpStream l.hdr).frames then partialDone s e l.hdr l.segs else s
  | _, _ => s

/-- ICP_WORD: the signature check starts when byte 4,096 has come (R225, R227). -/
def execIcpWord (die : Nat) (word : BitVec 64) (last : Bool) (s : State) : Host.Outcome State Fault Refusal :=
  .next <|
    if !icpReady s die then s
    else
      let s := if (icpLoad s die).isSome then s else icpBegin s die
      match icpLoad s die with
      | none => s
      | some l =>
        let add := if l.entered then icpBytes l word else []
        let s := icpPut s die { l with bytes := l.bytes + 8, last := last, buf := l.buf ++ add }
        match icpWordBad l word last with
        | some r => icpFail s die r
        | none =>
          if l.entered then icpFinish s die
          else if 4097 ≤ l.bytes + 8 then putFlag s (icPage die) IC_STAT_SIGCHK true
          else s

/-- ICP_ABORT. -/
def execIcpAbort (die : Nat) (s : State) : Host.Outcome State Fault Refusal :=
  .next <| if (icpLoad s die).isSome && !flag s (icPage die) IC_STAT_RELOAD then icpFail s die 0xC else s

/-- ICP_DATA_TIMEOUT: whenever a load holds ICP_BUSY high (R225). -/
def execIcpDataTimeout (die : Nat) (s : State) : Host.Outcome State Fault Refusal :=
  .next <|
    if (icpLoad s die).isSome && !flag s (icPage die) IC_STAT_RELOAD then icpFail s die 0xD else s

/-- ICP_HEADER_CHECKED: checks 1 to 4 need the header, the rest needs byte 4,096 (R227). A LIVE partition that
it fences fires FENCE_ON (R234). -/
def execIcpHeaderChecked (die : Nat) (hdr : Header) (keyHash : Nat) (sigOk : Bool) (nodes : List (BitVec 256))
    (s : State) : Host.Outcome State Fault Refusal :=
  .next <|
    match icpLoad s die with
    | none => s
    | some l =>
      if l.entered || flag s (icPage die) IC_STAT_RELOAD || l.bytes < 1024 then s
      else
        let res := partialResult s die hdr keyHash sigOk
        let early := match res with | some r => r < 5 | none => false
        if !early && l.bytes < 4097 then s
        else
          let s := putFlag (putF s (icPage die) IC_STAT_PART hdr.part.partNo) (icPage die) IC_STAT_SIGCHK false
          match res, (dieParts s die).find? (·.no == hdr.part.partNo) with
          | some r, _ => icpFail s die r
          | none, none => s
          | none, some e =>
            let st := partStateOn s die e.no
            let s := if st = pLive then fenceOn (partLoading s e) e else partLoading s e
            icpPut s die { l with hdr := hdr, nodes := nodes, entered := true, before := st }

/-- Group `l.group` of the load `l`, its stored frames `recs`, is checked and, once it is whole, verified and written; a load
whose last word has come ends with its last group (R229, R230). -/
def icpGroupIn (s : State) (die : Nat) (e : PartEntry) (l : IcpLoad) (recs : List ImgRec) : State :=
  let i := icpStream l.hdr
  match icpCheck e i l.group recs { prog := { l.prog with group := [] }, segs := l.segs } with
  | .inl b => icpFailAt s die b
  | .inr c =>
    if recs.length != min 256 (i.frames - 256 * l.group) then s
    else
      match verifyGroup l.hdr.groupCount l.hdr.root l.nodes l.trusted l.group (leafOf l.group die c.prog.group) with
      | .inl d => icpFailAt s die ⟨icpResult d, none, some l.group⟩
      | .inr t =>
        let s := icpPut s die { l with trusted := t, group := l.group + 1, prog := { c.prog with group := [] }
                                       segs := c.segs, buf := l.buf.drop (c.prog.bytes - l.prog.bytes) }
        match icpWriteAll s e l.group c.writes with
        | .inl s => s
        | .inr s => icpFinish s die

/-- ICP_GROUP_WRITE: acts on the next group as it stands in the buffers, once the scrubber holds no frame of the extent
(R228, R229). -/
def execIcpGroupWrite (die : Nat) (s : State) : Host.Outcome State Fault Refusal :=
  .next <|
    match icpLoad s die with
    | none => s
    | some l =>
      match partEntry s (getF s (icPage die) IC_STAT_PART) with
      | none => s
      | some e =>
        if !l.entered || flag s (icPage die) IC_STAT_RELOAD || e.die != die || scrubHolds s e
            || l.prog.frames = (icpStream l.hdr).frames then s
        else icpGroupIn s die e l (icpRecs l (min 256 ((icpStream l.hdr).frames - 256 * l.group)))

/-- Frames of a group a RELOAD reads: those of the extent are written as they pass, the others discarded; the stream must be
as long as its header says (R231, R235). -/
def reloadFrames (s : State) (e : PartEntry) (i : StreamInfo) (g : Nat) (recs : List ImgRec) (p : StreamProg) :
    State ⊕ (State × StreamProg) :=
  match recs with
  | [] => .inr (s, p)
  | r :: rest =>
    match frameStep i e.die p r with
    | .bad d _ => .inl (icpFailAt s e.die ⟨icpResult d, some p.frames, some g⟩)
    | .ok f k q =>
      let wrote := match k with
        | .write t a => if extentFrame e t a then icpWrite s e t a f else some s
        | _ => some s
      match wrote with
      | none => .inl (icpFailAt s e.die ⟨9, some p.frames, some g⟩)
      | some s =>
        match lengthDetail i q with
        | some 7 => .inl (icpFailAt s e.die ⟨0xB, some q.frames, some (i.firstGroup + q.frames / 256)⟩)
        | some _ => .inl (icpFailAt s e.die ⟨0xB, none, some g⟩)
        | none => reloadFrames s e i g rest q

/-- The stored bytes of a group's frames, from byte `off` of the image on, can all be read in the active slot (06_keep.md R135). -/
def reloadReads (s : State) (compressed : Bool) (off : Nat) (recs : List ImgRec) : State × Bool :=
  match recs with
  | [] => (s, true)
  | r :: rest =>
    let x := slotRead s off (recLen compressed r)
    let y := reloadReads x.1 compressed (off + recLen compressed r) rest
    (y.1, x.2 && y.2)

/-- Group `g` of the die's stream read again for a RELOAD, `l` the reload: its frames, its verification, and the end of the
RELOAD with the last group (R231). A group that cannot be read fails as its first frame (log 93). -/
def reloadGroupIn (s : State) (die g : Nat) (e : PartEntry) (l : IcpLoad) (recs : List ImgRec) : State :=
  let h := s.load.hdr
  let x := hdrStream h die
  let i : StreamInfo :=
    { st := die, frames := x.frames, stored := x.stored, firstGroup := x.firstGroup, compressed := h.flags = 1 }
  let p := groupProg s die g
  let read := reloadReads s i.compressed (x.offset + p.bytes) recs
  if !read.2 || !keepReach s 13 || !keepReach s 14 || s.start.slot = 0 then
    icpFailAt read.1 die ⟨7, some p.frames, some g⟩
  else
    match reloadFrames read.1 e i g recs p with
    | .inl s => s
    | .inr (s, p) =>
      match verifyGroup h.groupCount h.root s.load.nodes l.trusted g (leafOf g die p.group) with
      | .inl d => icpFailAt s die ⟨icpResult d, none, some g⟩
      | .inr t =>
        match icpLoad s die with
        | none => s
        | some l =>
          let s := icpPut s die { l with trusted := t, todo := l.todo.tail }
          if l.todo.tail = [] then icpSuccess s e 0 else s

/-- RELOAD_GROUP: the next group that holds a frame of the extent, once the scrubber holds none. -/
def execReloadGroup (die : Nat) (recs : List ImgRec) (s : State) : Host.Outcome State Fault Refusal :=
  .next <|
    match icpLoad s die with
    | none => s
    | some l =>
      match partEntry s (getF s (icPage die) IC_STAT_PART), l.todo with
      | some e, g :: _ =>
        let x := hdrStream s.load.hdr die
        if !flag s (icPage die) IC_STAT_RELOAD || e.die != die || scrubHolds s e
            || recs.length != min 256 (x.frames - 256 * (g - x.firstGroup)) then s
        else reloadGroupIn s die g e l recs
      | _, _ => s

end Sys2Proof.Machine
end

