-- ==== Sys2Proof/Machine/KeepRegs.lean ====
section
/-! DEFINITION. Checks and effects of writes to the pages KP_ (06_keep.md R140 to R142, R152), ER_, AX_ and BB_
(20_errors.md R534 to R536), and the transfers they start. -/

namespace Sys2Proof.Machine

/-! ### KP_ -/

/-- Fields of a KP_BOOT value as a boot record. -/
def bootRecOf (w : Word) : BootRec :=
  { seq := 0, primary := wGet w 0 2, trial := wGet w 2 2, trialLeft := wGet w 4 4, flags := wGet w 8 1, tagOk := true }

/-- A transfer of the Keep runs: KP_STAT.XFER_BUSY. -/
def xferBusy (s : State) : Bool := getF s KP KP_XFER_STAT_RESULT = 0xF

/-- Out of range beyond the fields' own ranges: a TRIAL equal to PRIMARY, a GO past the end of the slot (R142, R152). -/
def kpRange (s : State) (off : Nat) (w : Word) : Bool :=
  if off = 0x054 then wGet w 2 2 = wGet w 0 2
  else if off = 0x068 && wGet w 31 1 = 1 then 327680 < getF s KP KP_XFER_OFF_UNIT + getF s KP KP_XFER_LEN_UNITS
  else false

/-- The block fault of a write (R141, R142, R152); of several conditions of a GO the one that stands first in R142's table
(log 82). -/
def kpFault (s : State) (ini off : Nat) (w : Word) : Option Nat :=
  if off = 0x054 then (if wGet w 31 1 = 1 && flag s KP KP_BOOT_BUSY then some 0x0104 else none)
  else if off = 0x068 then
    let slot := wGet w 0 2
    if wGet w 31 1 = 0 then none
    else if wGet w 2 1 = 0 && slot = getF s KP KP_STAT_ACTIVE_SLOT then some 0x0102
    else if wGet w 2 1 = 0 && slot = 3 && s.sec.lc = 3 then some 0x0103
    else if xferBusy s then some 0x0104 else none
  else if 0x080 ≤ off && off < 0x0C0 then
    if ini != 4 then some 0x0100
    else if wGet w 0 16 < (ctrValue s ((off - 0x080) / 4)).getD 0 then some 0x0101 else none
  else none

/-- What an accepted write starts; `old`: the register before it. KP_BOOT keeps showing the newest copy (R140). -/
def kpWritten (s : State) (off : Nat) (old w : Word) : State :=
  if off = 0x054 then
    let s := setReg s (KP + 0x054) old
    if wGet w 31 1 = 1 then
      putFlag { s with keep := { s.keep with bootWr := some (bootRecOf w) } } KP KP_BOOT_BUSY true
    else s
  else if off = 0x068 && wGet w 31 1 = 1 then
    let x : XferRun := {
      slot := wGet w 0 2, out := wGet w 2 1 = 1, off := getF s KP KP_XFER_OFF_UNIT, len := getF s KP KP_XFER_LEN_UNITS
      addr := getF s KP KP_XFER_SRC_LO_ADDR * 4096 + getF s KP KP_XFER_SRC_HI_ADDR * 2 ^ 32 }
    putF (putF { s with keep := { s.keep with xfer := some x } } KP KP_XFER_STAT_DONE 0) KP KP_XFER_STAT_RESULT 0xF
  else if 0x080 ≤ off && off < 0x0C0 then
    let k := (off - 0x080) / 4
    if ctrValue s k = some (wGet w 0 16) then s else ctrRaise s k (wGet w 0 16)
  else s

/-- Records that PFW_N's fall closed are still to be appended: no other Keep write runs (R146). -/
def journalFirst (s : State) : Bool := s.keep.pfwClosed && s.keep.appends != []

/-- BOOT_RECORD_DONE (R140, R150). -/
def execBootRecordDone (worn : Bool) (s : State) : Host.Outcome State Fault Refusal :=
  .next <|
    match s.keep.bootWr with
    | none => s
    | some r =>
      if journalFirst s then s
      else
        let s := putFlag { s with keep := { s.keep with bootWr := none } } KP KP_BOOT_BUSY false
        if worn || unitReadOnly s 13 (recUnit 0) || unitReadOnly s 14 (recUnit 0) then s else bootWrite s r

/-- Unit `i` of transfer `x` is moved: the result that stops it, 0 for none. A slot unit that cannot be read, or a keep die
that cannot be reached, ends it with 0x1 (log 83). -/
def xferUnit (s : State) (x : XferRun) (i : Nat) : State × Nat :=
  let u := x.off + i
  let d := striped (slotMib x.slot) u
  let off := x.slot * 0x50000000 + 4096 * u
  let a := x.addr + 4096 * i
  if !x.out then
    if unitReadOnly s d.1 d.2 then (s, 2)
    else
      let r := busRead s 9 a 4096
      if r.2.1 != 0 then (r.1, 1)
      else
        let s := programUnit r.1 d.1 d.2
        let sec := if u < 2 then { s.sec with verified := tabDel s.sec.verified x.slot } else s.sec
        ({ s with keep := { s.keep with slots := memWrite s.keep.slots off r.2.2 }, sec := sec }, 0)
  else if unreadable s d.1 d.2 then (errRecord s 0 d.1 12 0x0301 u, 1)
  else
    let w := busWrite (unitRead s d.1 d.2) 9 a (memRead s.keep.slots off 4096)
    (w.1, if w.2 = 0 then 0 else 1)

/-- Units `i` onward are moved, `n` of them, until one stops the transfer. -/
def xferMove (s : State) (x : XferRun) (i n : Nat) : State × Nat :=
  match n with
  | 0 => (s, 0)
  | k + 1 =>
    let r := xferUnit s x i
    if r.2 != 0 then r else xferMove (putF r.1 KP KP_XFER_STAT_DONE (i + 1)) x (i + 1) k

/-- The transfer can end as `units` and `result` say: complete after all its units while PFW_N has not fallen, and with 3
after it has (R142). -/
def xferEnds (s : State) (x : XferRun) (units result : Nat) : Bool :=
  units ≤ x.len && result ≤ 3 && (result != 0 || units = x.len) && (result = 3) == s.keep.pfwLow && !journalFirst s

/-- XFER_DONE: the transfer moves `units` units and ends: complete after LEN units, otherwise with what stopped it (R142);
`errs`: bit errors found in units of the Keep (R135). -/
def execXferDone (units result : Nat) (errs : List (Nat × Nat × Nat)) (s : State) : Host.Outcome State Fault Refusal :=
  .next <|
    match s.keep.xfer with
    | none => s
    | some x =>
      if !xferBusy s || !xferEnds s x units result then s
      else if let some u := busStall s 9 x.addr (4096 * units) then u
      else
        let r := xferMove (errsMark s errs) x 0 units
        xferEnd r.1 (if r.2 = 0 then result else r.2)

/-- JOURNAL_WINDOW_END (R144). -/
def execJournalWindowEnd (die blk : Nat) (s : State) : Host.Outcome State Fault Refusal :=
  .next (if s.keep.windows.contains (pg die blk) then windowClose s (pg die blk) else s)

/-- JOURNAL_COMMIT (R145). -/
def execJournalCommit (s : State) : Host.Outcome State Fault Refusal := .next (appendCommit s)

/-- USER_AREA_WRITE (R151). -/
def execUserAreaWrite (off : Nat) (bytes : List (BitVec 8)) (s : State) : Host.Outcome State Fault Refusal :=
  .next <|
    let r := busWrite s 9 (0x32000000000 + off) bytes
    answer r.1 r.2 0

/-- USER_UNIT_PROGRAM (R151); `errs`: the bit errors the stored unit then holds (R135). -/
def execUserUnitProgram (unit errs : Nat) (s : State) : Host.Outcome State Fault Refusal :=
  .next <|
    if journalFirst s || !(mergeOf s unit).any (·.unit == unit) then s
    else errsMark (userProgram s unit) [((userUnit unit).1, (userUnit unit).2, errs)]

/-! ### ER_ and AX_ -/

/-- The block fault of an ER_ write: DONE while HANDLING is 0 (R514). -/
def erFault (s : State) (off : Nat) (w : Word) : Option Nat :=
  if off = 0x040 && wGet w 31 1 = 1 && !s.err.handling then some 0x0100 else none

/-- DONE (R514). -/
def erWritten (s : State) (off : Nat) (w : Word) : State :=
  if off = 0x040 && wGet w 31 1 = 1 then
    match s.err.next with
    | some n => { s with err := { s.err with first := some n, next := none } }
    | none => { s with err := { s.err with first := none, handling := false } }
  else s

/-- CF_ PG_STAT.READY: S5 has ended in this start (07_fabric.md R191). -/
def cfReady (s : State) : Bool :=
  match s.start.phase with
  | .s6 => true
  | .s7 => true
  | .ready => true
  | _ => false

/-- AX_CTRL takes a value: all three copies are written; the engine stops, or starts where it stood OFF (R517, R523, R524). -/
def axWritten (s : State) (die : Nat) : State :=
  let on := flag s (axPage die) AX_CTRL_EN
  let x := { axOf s die with en0 := on, en1 := on, en2 := on }
  if !on then setAx s die { x with state := 0 }
  else if x.state = 0 && cfReady s && !isolated s die then scanStart (setAx s die { x with misses := 0 }) die
  else setAx s die x

/-! ### BB_ -/

/-- Valid copies, newest first (R532). -/
def copiesByAge (s : State) : List BbCopy :=
  let ins := fun (l : List BbCopy) (c : BbCopy) => l.filter (fun x => c.seq < x.seq) ++ c :: l.filter (fun x => !(c.seq < x.seq))
  (s.err.copies.filterMap fun e => e.2.filter (·.valid)).foldl ins []

/-- The copy BB_COPY.AGE selects. -/
def copySel (s : State) : Option BbCopy := (copiesByAge s)[getF s BB BB_COPY_AGE]?

/-- The block fault of a BB_ write: GO while a transfer runs (R536). -/
def bbFault (s : State) (off : Nat) (w : Word) : Option Nat :=
  if off = 0x06C && wGet w 31 1 = 1 && getF s BB BB_XFER_STAT_RESULT = 0xF then some 0x0100 else none

/-- A marker, or the start of a transfer, which needs a valid copy (R529, R533). -/
def bbWritten (s : State) (off : Nat) (w : Word) : State :=
  if off = 0x04C then bbMarker s 0x10 w.toNat
  else if off = 0x06C && wGet w 31 1 = 1 then
    putF s BB BB_XFER_STAT_RESULT (if (copySel s).isSome then 0xF else 2)
  else s

/-- The 20 bytes of an error record, laid out as ER_FIRST0 to ER_FIRST4 (R534). -/
def errWords (r : Option ErrRec) : List Nat :=
  match r with
  | none => [0, 0, 0, 0, 0]
  | some r =>
    [2 ^ 31 + ofBool r.preempt * 2 ^ 30 + r.cls % 4 * 2 ^ 28 + r.die % 16 * 2 ^ 24 + r.src % 1024, r.code % 65536,
     r.info % 2 ^ 32, r.time % 2 ^ 32, r.time / 2 ^ 32 % 2 ^ 32]

/-- The 128 KiB of a copy's ring. -/
def ringBytes (r : Tab BbEntry) : List Byte := (List.range 131072).map (ringByte r)

/-- The header unit of a copy with its KMAC256 tag under device record key `key` (R532). -/
def copyHeader (c : BbCopy) (key : BitVec 256) : List Byte :=
  let h := toBytes 4 0x42425831 ++ toBytes 4 c.seq ++ toBytes 2 c.reason ++ toBytes 2 c.head ++ toBytes 4 c.ringSeq
    ++ toBytes 8 c.time ++ toBytes 6 c.rtc ++ toBytes 8 c.sqStat.toNat ++ toBytes 2 0
    ++ toBytes 8 c.sqCause.toNat ++ (errWords c.first).flatMap (toBytes 4) ++ (errWords c.next).flatMap (toBytes 4)
    ++ toBytes 32 (Config.shake256 (ringBytes c.ring)).toNat
  h ++ toBytes 8 (Config.kmac256 key "" 64 h) ++ List.replicate (4096 - 128) 0

/-- The bytes of a list written from `a` in accesses of 256, until one fails. -/
def busStore (s : State) (ini a : Nat) (bs : List Byte) (fuel : Nat) : State × Nat :=
  match fuel with
  | 0 => (s, 0)
  | f + 1 =>
    if bs = [] then (s, 0)
    else
      let w := busWrite s ini a (bs.take 256)
      if w.2 != 0 then w else busStore w.1 ini (a + 256) (bs.drop 256) f

/-- A copy of the ring goes to memory under its header (R533, R536). -/
def copySent (s : State) (c : BbCopy) (ok : Bool) : State :=
  let a := getF s BB BB_XFER_LO_ADDR * 256 + getF s BB BB_XFER_HI_ADDR * 2 ^ 32
  let w := busStore s 9 a (copyHeader c (s.sec.recKey.getD 0) ++ ringBytes c.ring) 528
  putF w.1 BB BB_XFER_STAT_RESULT (if ok && w.2 = 0 then 0 else 1)

/-- BB_XFER_DONE: header and ring of the copy stand at the destination, or a write failed (R533). -/
def execBbXferDone (ok : Bool) (s : State) : Host.Outcome State Fault Refusal :=
  .next <|
    if getF s BB BB_XFER_STAT_RESULT != 0xF then s
    else
      match copySel s with
      | none => putF s BB BB_XFER_STAT_RESULT 2
      | some c =>
        if let some u := busStall s 9 (getF s BB BB_XFER_LO_ADDR * 256 + getF s BB BB_XFER_HI_ADDR * 2 ^ 32) (528 * 256) then u
        else copySent s c ok

end Sys2Proof.Machine
end

