-- ==== Sys2Proof/Machine/Lanes.lean ====
section
/-! DEFINITION. Commands of the lanes (14_lanes.md R359 to R374). -/

namespace Sys2Proof.Machine

/-- A device lane whose die is joined. -/
def laneHere (s : State) (lane : Nat) : Bool := lane < 128 && !isolated s (laneDie lane)

/-- SYNTH_LOCKED (R359). -/
def execSynthLocked (lane : Nat) (s : State) : Host.Outcome State Fault Refusal :=
  .next <|
    if !laneHere s lane || laneShown s lane = 0 then s
    else putF s (laneQuad lane) LQ_QSTAT_SYN_LOCK (nSet (getF s (laneQuad lane) LQ_QSTAT_SYN_LOCK) (laneK lane) true)

/-- SYNTHESISER_UNLOCK: SYN_UNLOCK fires (R377). -/
def execSynthesiserUnlock (lane : Nat) (s : State) : Host.Outcome State Fault Refusal :=
  .next <|
    let q := laneQuad lane
    if !laneHere s lane || !nBit (getF s q LQ_QSTAT_SYN_LOCK) (laneK lane) then s
    else
      let s := putF s q LQ_QSTAT_SYN_LOCK (nSet (getF s q LQ_QSTAT_SYN_LOCK) (laneK lane) false)
      evtPulse s q (4 * laneK lane + 3)

/-- SIGNAL_DETECT (R366, R371). -/
def execSignalDetect (lane : Nat) (s : State) : Host.Outcome State Fault Refusal :=
  .next <|
    if !laneHere s lane || laneState s lane = 0 then s
    else
      let q := laneQuad lane
      let die := laneDie lane
      let s := putFlag s q (lf LQ_STAT_SIGDET lane) true
      let s := if 2 ≤ laneState s lane then putFlag s q (lf LQ_STAT_CDR_LOCK lane) true else s
      match bundleOn s lane with
      | none => s
      | some k =>
        let s := if flag s (lbPage die) (LB_BSTAT_RX_IDLE.nth k) &&
            (bundleLanes s die k).all fun x => flag s (laneQuad x) (lf LQ_STAT_SIGDET x)
          then putFlag s (lbPage die) (LB_BSTAT_RX_IDLE.nth k) false else s
        bundleTry s die k

/-- SIGNAL_LOSS (R366, R371). -/
def execSignalLoss (lane : Nat) (together : Bool) (s : State) : Host.Outcome State Fault Refusal :=
  .next <|
    if !laneHere s lane || laneState s lane = 0 then s
    else
      let q := laneQuad lane
      let die := laneDie lane
      let s := putFlag (putFlag s q (lf LQ_STAT_SIGDET lane) false) q (lf LQ_STAT_CDR_LOCK lane) false
      match bundleOn s lane with
      | none => s
      | some k =>
        if bundleState s die k != 4 then s
        else if flag s (lbPage die) LB_CFG_IDLE_AWARE && together then putFlag s (lbPage die) (LB_BSTAT_RX_IDLE.nth k) true
        else bundleDown s die k

/-- Eye height of the 256th extremes (R361). -/
def eyeHeight (pam : Bool) (e : Int × Int) : Nat :=
  let d := (e.1 - e.2).toNat
  min 255 (if pam then d else d / 3)

/-- Q99 of the counts above each bound (R361). -/
def q99 (above : List Nat) : Nat := ((List.range 31).find? fun b => above.getD b 0 ≤ 1024).getD 31

/-- The lane figure of merit (R361). -/
def lfm (hmin q : Nat) : Nat := min 255 (4 * (hmin - q))

/-- A window of a lane that adapts: what it has learnt after it (R362). -/
def adaptWindow (x : Lane) (m lfmMin : Nat) (cfg : LaneSettings) : Lane :=
  let hist := (m :: x.hist).take 8
  let hi := hist.foldl max 0
  let lo := hist.foldl min 255
  { x with hist := hist, reached := x.reached || decide (lfmMin ≤ m), rcv := cfg
           converged := x.converged || (hist.length = 8 && decide (hi - lo ≤ 2)) }

/-- A lane's windows count: it adapts, aligns or is up, on a bundle whose receiver is not idle, or PCIe owns it (R361, R371). -/
def lfmCounts (s : State) (lane : Nat) : Bool :=
  let st := laneState s lane
  let rxIdle := match bundleOn s lane with | some k => flag s (lbPage (laneDie lane)) (LB_BSTAT_RX_IDLE.nth k) | none => false
  laneHere s lane && !rxIdle && (st = 2 || st = 3 || st = 5 || pcieOwns s lane)

/-- The eyes of a window, their q99 and the figure of merit are stored (R361); the state and the figure. -/
def lfmStore (s : State) (lane : Nat) (eyes : List (Int × Int)) (above : List Nat) : State × Nat :=
  let q := laneQuad lane
  let pam := if pcieOwns s lane then getF s (pcPage (if laneDie lane = 9 then 0 else 1)) PC_STAT_GEN = 6
    else pam4 (laneRate s lane)
  let h := eyes.map (eyeHeight pam)
  let h0 := if pam then h.getD 0 0 else 0
  let h1 := if pam then h.getD 1 0 else h.getD 0 0
  let h2 := if pam then h.getD 2 0 else 0
  let hmin := if pam then min h0 (min h1 h2) else h1
  let m := lfm hmin (q99 above)
  let s := putF (putF s q (lf LQ_EYE_H0 lane) h0) q (lf LQ_EYE_H1 lane) h1
  let s := putF (putF s q (lf LQ_EYE_H2 lane) h2) q (lf LQ_EYE_Q99 lane) (q99 above)
  (putF s q (lf LQ_STAT_LFM lane) m, m)

/-- The bundle exchanges link training: up to four lanes, with TRAIN 1 (R367, R368). -/
def bundleTrains (s : State) (die k : Nat) : Bool := bundleWidth s die k ≤ 4 && flag s (lbPage die) (LB_BCFG_TRAIN.nth k)

/-- What a window with figure `m` does to the adaptation of a lane of the lane block and to its bundle (R362, R366, R372). -/
def lfmAdapt (s : State) (lane m : Nat) (cfg : LaneSettings) (ms : Nat) : State :=
  let st := laneState s lane
  let die := laneDie lane
  let q := laneQuad lane
  let min' := getF s (lbPage die) LB_CFG_LFM_MIN
  let x := laneOf s lane
  let trains := (bundleOn s lane).any (bundleTrains s die)
  let y := adaptWindow x m min' (if trains then cfg else
    { cfg with farTaps := x.rcv.farTaps, preTx := x.rcv.preTx, preRx := x.rcv.preRx })
  let s := if y.converged && !x.converged then putF s q (lf LQ_ADAPT_MS lane) (min ms 65535) else s
  match bundleOn s lane with
  | none => setLane s lane y
  | some k =>
    if st = 2 then
      let s := setLane s lane y
      let l := bundleLanes s die k
      if bundleState s die k = 2 &&
          l.all fun z => (laneOf s z).converged && decide (min' ≤ getF s (laneQuad z) (lf LQ_STAT_LFM z)) then
        l.foldl (fun s z => putLane s z 3) (putBundle s die k 3)
      else s
    else
      let low := if bundleState s die k = 4 && m < min' then x.low + 1 else 0
      let s := setLane s lane { y with low := low }
      if low = 16 then evtPulse s q (4 * laneK lane) else s

/-- LFM_WINDOW (R361, R362, R372). -/
def execLfmWindow (lane : Nat) (eyes : List (Int × Int)) (above : List Nat) (cfg : LaneSettings) (ms : Nat) (s : State) :
    Host.Outcome State Fault Refusal :=
  .next <|
    if !lfmCounts s lane then s
    else
      let r := lfmStore s lane eyes above
      if pcieOwns s lane then r.1 else lfmAdapt r.1 lane r.2 cfg ms

/-- SEED_REJECT_TIMEOUT (R364). -/
def execSeedRejectTimeout (lane : Nat) (s : State) : Host.Outcome State Fault Refusal :=
  .next <|
    let q := laneQuad lane
    let x := laneOf s lane
    if !laneHere s lane || laneState s lane != 2 || !flag s q (lf LQ_STAT_SEEDED lane) || x.reached then s
    else
      let s := putFlag (putFlag s q (lf LQ_STAT_SEED_REJ lane) true) q (lf LQ_STAT_SEEDED lane) false
      let rcv : LaneSettings := { farTaps := x.rcv.farTaps, preTx := x.rcv.preTx, preRx := x.rcv.preRx }
      let s := setLane s lane { x with scratch := true, hist := [], converged := false, rcv := rcv }
      let s := evtPulse s q (4 * laneK lane + 1)
      (bundleOn s lane).elim s (bundleSeeded s (laneDie lane))

/-- A bundle's bring-up fails: TRAIN_FAIL, and a retry from scratch (R366). -/
def bundleFail (s : State) (die k : Nat) : State := evtPulse (bundleWait s die k true) (lbPage die) 3

/-- A lane die's bundle in one of the states listed. -/
def bundleIn (s : State) (die k : Nat) (sts : List Nat) : Bool :=
  isLane die && k < 16 && !isolated s die && sts.contains (bundleState s die k)

/-- BUNDLE_TRAIN_TIMEOUT (R366). -/
def execBundleTrainTimeout (die k : Nat) (s : State) : Host.Outcome State Fault Refusal :=
  .next (if bundleIn s die k [2, 3] then bundleFail s die k else s)

/-- The lanes of an aligned bundle: logical numbers and polarities are shown, and the bundle comes up, or stands in MISWIRE
where its order or polarity is one the receiver does not mend (R366 to R368). -/
def pcsOrder (s : State) (die k : Nat) (logical : List Nat) (inverted : List Bool) : State :=
  let p := lbPage die
  let l := bundleLanes s die k
  let w := l.length
  let inv := fun i => inverted.getD i false
  let same := (List.range w).all fun i => logical.getD i 16 = i
  let turned := (List.range w).all fun i => logical.getD i 16 = w - 1 - i
  let s := l.zipIdx.foldl (fun s xi =>
    putFlag (putF s (laneQuad xi.1) (lf LQ_STAT_LOGICAL xi.1) (logical.getD xi.2 0)) (laneQuad xi.1)
      (lf LQ_STAT_POL_INV xi.1) (inv xi.2)) s
  let s := putF s p (LB_BSTAT_POL.nth k) (ofBits ((List.range w).filter inv))
  let bad := if 8 ≤ w then !same || (List.range w).any inv else !same && !turned
  if bad then evtPulse (putBundle (putFlag s p (LB_BSTAT_MISWIRE.nth k) true) die k 6) p 2
  else bundleUp (putFlag s p (LB_BSTAT_REVERSED.nth k) (!same && turned)) die k

/-- PCS_ALIGNED (R366 to R368). -/
def execPcsAligned (die k : Nat) (logical : List Nat) (inverted : List Bool) (skew : Nat) (s : State) :
    Host.Outcome State Fault Refusal :=
  .next <|
    if !bundleIn s die k [3] then s
    else if 200000 < skew && 8 ≤ (bundleLanes s die k).length then bundleFail s die k
    else pcsOrder s die k logical inverted

/-- ALIGNMENT_LOSS (R366). -/
def execAlignmentLoss (die k : Nat) (s : State) : Host.Outcome State Fault Refusal :=
  .next (if bundleIn s die k [4] then bundleDown s die k else s)

/-- IDLE_RETURN_CHECK (R371). -/
def execIdleReturnCheck (die k : Nat) (s : State) : Host.Outcome State Fault Refusal :=
  .next <|
    let p := lbPage die
    if bundleIn s die k [4] && flag s p LB_CFG_IDLE_AWARE && !flag s p (LB_BSTAT_RX_IDLE.nth k) &&
        (bundleLanes s die k).any fun x => decide (getF s (laneQuad x) (lf LQ_STAT_LFM x) < getF s p LB_CFG_LFM_MIN)
    then bundleDown s die k else s

/-- CHECKER_LOCK (R374). -/
def execCheckerLock (lane : Nat) (s : State) : Host.Outcome State Fault Refusal :=
  .next <|
    let q := laneQuad lane
    if !laneHere s lane || laneState s lane != 5 || !flag s q (lf LQ_PCHK_EN lane) then s
    else
      let x := laneOf s lane
      setLane (putFlag s q (lf LQ_PCHK_LOCK lane) true) lane { x with counted := x.counted || !chkKnown s lane }

/-- PATTERN_CHECKER_LOCK_LOSS (R374). -/
def execPatternCheckerLockLoss (lane : Nat) (s : State) : Host.Outcome State Fault Refusal :=
  .next <|
    let q := laneQuad lane
    if !laneHere s lane || !flag s q (lf LQ_PCHK_LOCK lane) then s
    else
      let s := countUp (putFlag s q (lf LQ_PCHK_LOCK lane) false) q (lf LQ_PCHK_LOSS_COUNT lane) 1
      evtPulse s q (4 * laneK lane + 2)

end Sys2Proof.Machine
end

