-- ==== Sys2Proof/Machine/LeSlots.lean ====
section
/-! DEFINITION. Loop-engine instructions: a row of a slot issues the whole instruction at PC where the slot it names holds
exactly that operation (11_loop_programs.md R251, R272 to R286). What the slots do is `leEffect`. -/

namespace Sys2Proof.Machine

/-- The X slot, or with `y` the Y slot. -/
def slotOf (i : LeInstr) (y : Bool) : XOp := if y then i.y else i.x

/-- C slot NOP. -/
def execCNop (die eng : Nat) (s : State) : Host.Outcome State Fault Refusal :=
  .next (leRun s die eng (fun i => i.c = .nop))

/-- END: the run ends when its work is done (R259). -/
def execEndOp (die eng : Nat) (s : State) : Host.Outcome State Fault Refusal :=
  .next (leRun s die eng (fun i => i.c = .end_))

/-- TRAP: exception 0x08. -/
def execTrap (die eng : Nat) (s : State) : Host.Outcome State Fault Refusal :=
  .next (leRun s die eng (fun i => i.c = .trap))

/-- BR. -/
def execBr (die eng : Nat) (t : Nat) (s : State) : Host.Outcome State Fault Refusal :=
  .next (leRun s die eng (fun i => i.c = .br 0 t))

/-- BZ. -/
def execBz (die eng : Nat) (t : Nat) (s : State) : Host.Outcome State Fault Refusal :=
  .next (leRun s die eng (fun i => i.c = .br 1 t))

/-- BNZ. -/
def execBnz (die eng : Nat) (t : Nat) (s : State) : Host.Outcome State Fault Refusal :=
  .next (leRun s die eng (fun i => i.c = .br 2 t))

/-- BN. -/
def execBn (die eng : Nat) (t : Nat) (s : State) : Host.Outcome State Fault Refusal :=
  .next (leRun s die eng (fun i => i.c = .br 3 t))

/-- BNN. -/
def execBnn (die eng : Nat) (t : Nat) (s : State) : Host.Outcome State Fault Refusal :=
  .next (leRun s die eng (fun i => i.c = .br 4 t))

/-- BSL. -/
def execBsl (die eng : Nat) (t : Nat) (s : State) : Host.Outcome State Fault Refusal :=
  .next (leRun s die eng (fun i => i.c = .br 5 t))

/-- CALL. -/
def execCall (die eng : Nat) (t : Nat) (s : State) : Host.Outcome State Fault Refusal :=
  .next (leRun s die eng (fun i => i.c = .call t))

/-- RET. -/
def execRet (die eng : Nat) (s : State) : Host.Outcome State Fault Refusal :=
  .next (leRun s die eng (fun i => i.c = .ret))

/-- LEXIT. -/
def execLexit (die eng : Nat) (t : Nat) (s : State) : Host.Outcome State Fault Refusal :=
  .next (leRun s die eng (fun i => i.c = .lexit t))

/-- LOOPD. -/
def execLoopd (die eng : Nat) (r len : Nat) (s : State) : Host.Outcome State Fault Refusal :=
  .next (leRun s die eng (fun i => i.c = .loopd r len))

/-- LOOPI. -/
def execLoopi (die eng : Nat) (len n : Nat) (s : State) : Host.Outcome State Fault Refusal :=
  .next (leRun s die eng (fun i => i.c = .loopi len n))

/-- MOVTO. -/
def execMovto (die eng : Nat) (reg r : Nat) (s : State) : Host.Outcome State Fault Refusal :=
  .next (leRun s die eng (fun i => i.c = .movto reg r))

/-- MOVFROM. -/
def execMovfrom (die eng : Nat) (reg r : Nat) (s : State) : Host.Outcome State Fault Refusal :=
  .next (leRun s die eng (fun i => i.c = .movfrom reg r))

/-- SETR. -/
def execSetr (die eng : Nat) (reg imm : Nat) (s : State) : Host.Outcome State Fault Refusal :=
  .next (leRun s die eng (fun i => i.c = .setr reg imm))

/-- NGO. -/
def execNgo (die eng : Nat) (k : Nat) (s : State) : Host.Outcome State Fault Refusal :=
  .next (leRun s die eng (fun i => i.c = .ngo k))

/-- NWAIT. -/
def execNwait (die eng : Nat) (mask : Nat) (s : State) : Host.Outcome State Fault Refusal :=
  .next (leRun s die eng (fun i => i.c = .nwait mask))

/-- CLRF. -/
def execClrf (die eng : Nat) (mask : Nat) (s : State) : Host.Outcome State Fault Refusal :=
  .next (leRun s die eng (fun i => i.c = .clrf mask))

/-- X or Y slot NOP. -/
def execXyNop (die eng : Nat) (y : Bool) (s : State) : Host.Outcome State Fault Refusal :=
  .next (leRun s die eng (fun w => slotOf w y = .nop))

/-- POP. -/
def execPop (die eng : Nat) (y : Bool) (port g : Nat) (s : State) : Host.Outcome State Fault Refusal :=
  .next (leRun s die eng (fun w => slotOf w y = .pop port g))

/-- PUSH. -/
def execPush (die eng : Nat) (y : Bool) (port g : Nat) (last : Bool) (s : State) : Host.Outcome State Fault Refusal :=
  .next (leRun s die eng (fun w => slotOf w y = .push port g last))

/-- LD. -/
def execLd (die eng : Nat) (y : Bool) (i am r : Nat) (q : Bool) (s : State) : Host.Outcome State Fault Refusal :=
  .next (leRun s die eng (fun w => slotOf w y = .ld i am r q))

/-- ST. -/
def execSt (die eng : Nat) (y : Bool) (i am r : Nat) (q : Bool) (s : State) : Host.Outcome State Fault Refusal :=
  .next (leRun s die eng (fun w => slotOf w y = .st i am r q))

/-- PMOD. -/
def execPmod (die eng : Nat) (y : Bool) (i am : Nat) (s : State) : Host.Outcome State Fault Refusal :=
  .next (leRun s die eng (fun w => slotOf w y = .pmod i am))

/-- M slot NOP. -/
def execMNop (die eng : Nat) (s : State) : Host.Outcome State Fault Refusal :=
  .next (leRun s die eng (fun i => i.m.mop = 0))

/-- MUL. -/
def execMul (die eng : Nat) (f : MFields) (s : State) : Host.Outcome State Fault Refusal :=
  .next (leRun s die eng (fun i => i.m = { mop := 1, f := f }))

/-- MAC. -/
def execMac (die eng : Nat) (f : MFields) (s : State) : Host.Outcome State Fault Refusal :=
  .next (leRun s die eng (fun i => i.m = { mop := 2, f := f }))

/-- MSU. -/
def execMsu (die eng : Nat) (f : MFields) (s : State) : Host.Outcome State Fault Refusal :=
  .next (leRun s die eng (fun i => i.m = { mop := 3, f := f }))

/-- CLR. -/
def execClr (die eng : Nat) (f : MFields) (s : State) : Host.Outcome State Fault Refusal :=
  .next (leRun s die eng (fun i => i.m = { mop := 4, f := f }))

/-- LDA. -/
def execLda (die eng : Nat) (f : MFields) (s : State) : Host.Outcome State Fault Refusal :=
  .next (leRun s die eng (fun i => i.m = { mop := 5, f := f }))

/-- ADA. -/
def execAda (die eng : Nat) (f : MFields) (s : State) : Host.Outcome State Fault Refusal :=
  .next (leRun s die eng (fun i => i.m = { mop := 6, f := f }))

/-- SBA. -/
def execSba (die eng : Nat) (f : MFields) (s : State) : Host.Outcome State Fault Refusal :=
  .next (leRun s die eng (fun i => i.m = { mop := 7, f := f }))

/-- AADD. -/
def execAadd (die eng : Nat) (f : MFields) (s : State) : Host.Outcome State Fault Refusal :=
  .next (leRun s die eng (fun i => i.m = { mop := 8, f := f }))

/-- ASUB. -/
def execAsub (die eng : Nat) (f : MFields) (s : State) : Host.Outcome State Fault Refusal :=
  .next (leRun s die eng (fun i => i.m = { mop := 9, f := f }))

/-- ACPY. -/
def execAcpy (die eng : Nat) (f : MFields) (s : State) : Host.Outcome State Fault Refusal :=
  .next (leRun s die eng (fun i => i.m = { mop := 10, f := f }))

/-- ANEG. -/
def execAneg (die eng : Nat) (f : MFields) (s : State) : Host.Outcome State Fault Refusal :=
  .next (leRun s die eng (fun i => i.m = { mop := 11, f := f }))

/-- AMIN. -/
def execAmin (die eng : Nat) (f : MFields) (s : State) : Host.Outcome State Fault Refusal :=
  .next (leRun s die eng (fun i => i.m = { mop := 12, f := f }))

/-- AMAX. -/
def execAmax (die eng : Nat) (f : MFields) (s : State) : Host.Outcome State Fault Refusal :=
  .next (leRun s die eng (fun i => i.m = { mop := 13, f := f }))

/-- EXT. -/
def execExt (die eng : Nat) (f : MFields) (s : State) : Host.Outcome State Fault Refusal :=
  .next (leRun s die eng (fun i => i.m = { mop := 14, f := f }))

/-- SMAX. -/
def execSmax (die eng : Nat) (f : MFields) (s : State) : Host.Outcome State Fault Refusal :=
  .next (leRun s die eng (fun i => i.m = { mop := 15, f := f }))

/-- SMIN. -/
def execSmin (die eng : Nat) (f : MFields) (s : State) : Host.Outcome State Fault Refusal :=
  .next (leRun s die eng (fun i => i.m = { mop := 16, f := f }))

/-- RMAX. -/
def execRmax (die eng : Nat) (f : MFields) (s : State) : Host.Outcome State Fault Refusal :=
  .next (leRun s die eng (fun i => i.m = { mop := 17, f := f }))

/-- RMIN. -/
def execRmin (die eng : Nat) (f : MFields) (s : State) : Host.Outcome State Fault Refusal :=
  .next (leRun s die eng (fun i => i.m = { mop := 18, f := f }))

end Sys2Proof.Machine
end

