-- ==== Sys2Proof/Machine/Noc.lean ====
section
/-! DEFINITION. The packet network: responses, routers, route updates, time-outs, audits and the fabric side of NoC ports
(12_noc.md R297 to R329). Packets whose target serves them are in Targets.lean. -/

namespace Sys2Proof.Machine

/-- A packet of the network is under way. -/
def inFlight (s : State) (p : Packet) : Bool := s.noc.flight.any (samePkt p)

/-- A packet arrives in its turn: earlier ones of its initiator ID, target node and VC have arrived, but for those that a route
update let it overtake (R301). -/
def inOrder (s : State) (p : Packet) : Bool :=
  (s.noc.flight.takeWhile fun q => !samePkt p q).all fun q =>
    q.src != p.src || q.dst != p.dst || cmdVc q.cmd != cmdVc p.cmd || s.noc.loose.any (samePkt q)

/-! ### Responses (R306, R307, R325, R328) -/

/-- Histogram bin of latency `l` with HIST_SHIFT `sh` (R328). -/
def latBin (l sh : Nat) : Nat := ((List.range 7).filter fun i => 2 ^ (sh + i + 1) ≤ l).length

/-- Latency of a RD or WR counted at its bridge. -/
def latCount (s : State) (n lat : Nat) : State :=
  let s := putF s (nodePage n) (brF NR_BR_MAXLAT_CYCLES n) (max (brGet s n NR_BR_MAXLAT_CYCLES) (min lat 65535))
  countUp s (nodePage n) ((brF NR_BR_HIST_COUNT n).nth (latBin lat (brGet s n NR_BR_CTRL_HIST_SHIFT))) 1

/-- A response that has come to a fabric port keeps its reservation until its access has passed to the design (R306). -/
def gatherHold (s : State) (no resv : Nat) : State :=
  { s with noc := { s.noc with gather := s.noc.gather.map fun g =>
    if g.no = no && 128 ≤ g.ini then { g with resv := g.resv + resv } else g } }

/-- RSP. -/
def execRsp (p : Packet) (lat : Nat) (s : State) : Host.Outcome State Fault Refusal :=
  .next <|
    if !inFlight s p then s
    else
      let s := flightDel s p
      match s.noc.outst.find? fun o => iniNode o.ini == p.dst && o.tag == p.tag with
      | none => s
      | some o =>
        let s := latCount (outstDel s o) p.dst lat
        if o.absorbed then hartsSettle (pump s)
        else
          hartsSettle (pump (packetDone (gatherHold s o.acc o.resv) o.acc o.addr (if p.poison || p.chkBad then 6 else p.code)
            p.data))

/-- CRD. -/
def execCrd (p : Packet) (s : State) : Host.Outcome State Fault Refusal :=
  .next <|
    if !inFlight s p then s
    else
      let s := flightDel s p
      match nodeIni p.dst with
      | none => s
      | some i => pump (creditBack s i p.srcNode p.arg0)

/-- A system core is out of reset and not halted: it may make an access (17_processors.md R447). One that is to halt before its
first instruction does so first (22_debug.md R563). -/
def coreRuns (s : State) (c : Nat) : Bool :=
  (hartOf s c).running && !(hartOf s c).stopping && !(hartOf s c).halted && !(hartOf s c).wfi
    && !((hartOf s c).fresh && nBit (getF s DB DB_HALT_RESET_HALT) c)

/-- The bytes from `a` lie in a window through which controller `pc` lets requests in: BAR2 of a function of an endpoint, or the
window of a root port, which TGT and SZ of function 0 place (R468; log 109). -/
def inboundAt (s : State) (pc a n : Nat) : Bool :=
  let p := pcPage pc
  let win := fun f =>
    let tgt := getF s p (PC_BAR2_TGT_LO_ADDR.nth f) + getF s p (PC_BAR2_TGT_HI_ADDR.nth f) * 2 ^ 32
    decide (tgt ≤ a) && decide (a + n ≤ tgt + 2 ^ getF s p (PC_BAR2_SZ_SZ.nth f))
  flag s p PC_STAT_LINK_UP && flag s p PC_STAT_RELEASED && !(pcieOf s pc).boot
    && (if getF s p PC_CFG_MODE = 1 then win 0 || (fnExists s pc 1 && win 1) else getF s p PC_CFG_MODE = 2 && win 0)

/-- An initiator may make an access: a system core that runs, or the caches for it; the host of a controller through a window of
its; every other one (R447, R468). -/
def mayAccess (s : State) (a : Access) : Bool :=
  iniAssigned a.ini && !s.pow.torpor && a.use != .fill && a.use != .wback &&
    (if a.ini < 4 then a.use == .evict || coreRuns s a.ini
     else if a.ini = 7 || a.ini = 8 then inboundAt s (a.ini - 7) a.addr a.size
     else true)

/-- Core `c` has executed an instruction since its release. -/
def coreBegun (s : State) (c : Nat) : State :=
  if (hartOf s c).fresh then setHart s c { hartOf s c with fresh := false } else s

/-- An initiator makes an access: a system core through its caches, any other through its bridge. -/
def accessMake (s : State) (a : Access) : State :=
  if a.ini < 4 then coreTake (if a.use == .evict then s else coreBegun s a.ini) a else accessTake s { a with use := .plain } false

/-- ACCESS_INJECT (R299). -/
def execAccessInject (a : Access) (s : State) : Host.Outcome State Fault Refusal :=
  .next (if mayAccess s a then accessMake s a else s)

/-! ### Routers (R309 to R311, R324, R329) -/

/-- Unit `w` of a router matches a head at input `port` (R329). -/
def watchHit (s : State) (page w port : Nat) (p : Packet) : Bool :=
  let f := fun (r : FieldRef) => getF s page (r.nth w)
  let lo := f NR_WU_LO_L_ADDR + f NR_WU_LO_H_ADDR * 2 ^ 32
  let hi := f NR_WU_HI_L_ADDR + f NR_WU_HI_H_ADDR * 2 ^ 32
  f NR_WU_CTRL_EN = 1 && f NR_WU_CTRL_PORT = port
    && (f NR_WU_CTRL_CMD_EN = 0 || f NR_WU_CTRL_CMD = p.cmd)
    && (f NR_WU_CTRL_VC_EN = 0 || f NR_WU_CTRL_VC = cmdVc p.cmd)
    && (f NR_WU_CTRL_SRC_EN = 0 || f NR_WU_ID_SRC = p.src)
    && (f NR_WU_CTRL_DST_EN = 0 || f NR_WU_ID_DST = p.dst)
    && (f NR_WU_CTRL_ADDR_EN = 0 || (lo ≤ p.addr && p.addr ≤ hi))

/-- The watch units of a router see a head: counts, events with their trace entries, and halts asked of cores (R329,
22_debug.md R563, R571). -/
def watchHead (s : State) (page port : Nat) (p : Packet) : State :=
  (List.range 2).foldl (fun s w =>
    if !watchHit s page w port p then s
    else
      let s := if flag s page (NR_WU_CTRL_CNT.nth w) then countWrap s page (NR_WU_CNT_COUNT.nth w) else s
      let s :=
        if flag s page (NR_WU_CTRL_EVT.nth w) then
          let s := evtPulse s page w
          if flag s TR TR_CFG_NOC then tracePush s 4 (regDie page) p.addr else s
        else s
      if flag s page (NR_WU_CTRL_HALT.nth w) then haltAsk s (getF s DB DB_CFG_NOC_HALT) 6 else s) s

/-- NR_ERR_FIRST latches the first packet in which a router finds errors: KIND 0 hidden code, 1 user field. -/
def errFirst (s : State) (page port kind : Nat) (p : Packet) : State :=
  if flag s page NR_ERR_FIRST_VALID then s
  else putFlag (putF (putF (putF (putF s page NR_ERR_FIRST_KIND kind) page NR_ERR_FIRST_VC (cmdVc p.cmd))
    page NR_ERR_FIRST_PORT port) page NR_ERR_FIRST_SRC p.src) page NR_ERR_FIRST_VALID true

/-- A router with the pair's check mode checks the user field of the flits that pass (R324). -/
def routerCheck (s : State) (page port : Nat) (p : Packet) : State × Packet :=
  if p.chkBad && (p.chk = 5 || p.chk = 7) then
    (errFirst (evtPulse (countUp s page NR_ERR_CHK 1) page 2) page port 1 p, { p with poison := true })
  else (s, p)

/-- What a router's hidden code finds in the flits of a packet (R324): `flaw` 0 nothing, 1 an error it corrects, 2 a data flit
it cannot correct, which poisons the packet. -/
def hiddenCheck (s : State) (page port flaw : Nat) (p : Packet) : State × Packet :=
  match flaw with
  | 1 => (countUp s page NR_ERR_CORR 1, p)
  | 2 => (errFirst (evtPulse s page 2) page port 0 p, { p with poison := p.poison || decide (0 < p.len) })
  | _ => (s, p)

/-- Flits of a packet that have come to input `port` of a router when its head arrives: over a mesh link as many as the router
before has sent, from a seam the head alone (13_seams.md R340), else all, as a bridge holds a whole packet before its head goes
(R317). -/
def cameWith (s : State) (node port : Nat) (p : Packet) : Nat :=
  if (seamAt (nodeDie node) (nodeRtr node) port).isSome then 1
  else match meshPeer (nodeDie node) (nodeRtr node) port with
  | none => p.len + 1
  | some (r, o) =>
    match s.noc.heads.find? fun h => h.node = mkNode (nodeDie node) r 0 && h.out = some o && samePkt p h.pkt with
    | some h => h.sent
    | none => p.len + 1

/-- The urgency a head carries on is the urgency of its packet in the network (R309). -/
def flightUrg (s : State) (p : Packet) : State :=
  let up := fun (q : Packet) => if samePkt p q then { q with urg := p.urg, poison := q.poison || p.poison } else q
  { s with noc := { s.noc with flight := s.noc.flight.map up } }

/-- A header flit that its router cannot correct: its packet can no longer be accounted for (R324; INFO: log 103). -/
def headLost (s : State) (node port : Nat) (p : Packet) : State :=
  raiseFrom (errFirst (flightDel s p) (nodePage node) port 0 p) (nodePage node) 3 0x0F10 (8 * nodeRtr node + port)

/-- The head of a packet waits at a router input. -/
def headWaits (s : State) (node port : Nat) (p : Packet) : State :=
  { s with noc := { s.noc with heads := s.noc.heads ++ [{ node := node, port := port, pkt := p, came := cameWith s node port p }] } }

/-- A head that is good comes to a router: watch units, check codes, and the worm goes on (R311, R324, R329). -/
def headComes (s : State) (node port flaw : Nat) (p : Packet) : State :=
  let page := nodePage node
  let h := hiddenCheck (watchHead s page port p) page port flaw p
  let r := routerCheck h.1 page port h.2
  allGo (headWaits (flightUrg r.1 r.2) node port r.2)

/-- A head comes to a router input; `flaw`: what the hidden code finds, 3 a header flit it cannot correct. -/
def headAt (s : State) (node port flaw : Nat) (p : Packet) : State :=
  if flaw = 3 then headLost s node port p else headComes s node port flaw p

/-- The head at the front of a seam queue goes to the router, and the data flits behind it follow (13_seams.md R340). -/
def seamQHead (s : State) (die seam k c flaw : Nat) (p : Packet) : State :=
  let i := seamInput die seam k
  let s := headAt (seamQOut s die seam k c) i.1 i.2 flaw p
  allGo (seamQData s die seam k c (tabOr [] (epLink (epOf s die seam) k).queue c).length)

/-- The head of `p` stands at the front of the seam queue, no worm of its channel is unfinished at the input, and the input
buffer has room. -/
def seamQReady (s : State) (die seam k : Nat) (p : Packet) : Bool :=
  let c := packetChan p
  let i := seamInput die seam k
  (tabOr [] (epLink (epOf s die seam) k).queue c).head? == some (packetHeader p) && (openWorm s i.1 i.2 c).isNone
    && bufferRoom s i.1 i.2 c

/-- HEAD_ARRIVAL. A head from a seam comes with its DATA frame, and here where it had to wait in the seam queue. -/
def execHeadArrival (node port : Nat) (p : Packet) (flaw : Nat) (s : State) : Host.Outcome State Fault Refusal :=
  .next <|
    if routerCount (nodeDie node) ≤ nodeRtr node || nodeEp node != 0 || 15 ≤ nodeDie node || !inFlight s p then s
    else
      match seamAt (nodeDie node) (nodeRtr node) port with
      | none => headAt s node port flaw p
      | some (m, k) =>
        if seamQReady s (nodeDie node) m k p then seamQHead s (nodeDie node) m k (packetChan p) flaw p else s

/-- URGENCY_AGE. -/
def execUrgencyAge (node : Nat) (s : State) : Host.Outcome State Fault Refusal :=
  .next <|
    if getF s (nodePage node) NR_CFG_AGE = 0 then s
    else
      let up := fun (h : HeadWait) => if h.node = node && h.out.isNone then { h with pkt := { h.pkt with urg := min 7 (h.pkt.urg + 1) } } else h
      let s := { s with noc := { s.noc with heads := s.noc.heads.map up } }
      allGo ((s.noc.heads.filter fun h => h.node == node && h.out.isNone).foldl (fun s h => flightUrg s h.pkt) s)

/-! ### Audits (R308) -/

/-- LINK_AUDIT: a quiet link's hop-credit equation of one lane, from the flits and credits found on it. -/
def execLinkAudit (node port lane onLink inBuffer returning : Nat) (s : State) : Host.Outcome State Fault Refusal :=
  .next (audit s 1 (nodePage node) port
    (hopHeld s node port lane + onLink + inBuffer + returning == portDepth (nodeDie node) (nodeRtr node) port lane))

/-- Terms of R307 away from a bridge: requests under way, slots used, returns under way. -/
def pairTerms (s : State) (ini target : Nat) : Nat :=
  let n := iniNode ini
  let req := s.noc.flight.filter fun p => p.cmd < 4 && p.srcNode == n && p.dst == target
  let ret := s.noc.flight.filter fun p => (p.cmd = 4 || p.cmd = 5) && p.dst == n && p.srcNode == target
  let used := s.noc.slots.filter fun x => x.1 == target && x.2.srcNode == n
  req.length + used.length + (ret.map fun p => if p.cmd = 5 then p.arg0 else 1).sum

/-- Seams on the path of VC `v` from router `r` to the node `d` by the tables in force. -/
def pathSeams (s : State) (r d v fuel : Nat) : List Nat :=
  match fuel with
  | 0 => []
  | f + 1 =>
    if r / 8 = d / 8 then []
    else
      match routeTab s r with
      | none => []
      | some t =>
        let o := routeEntry t r (d / 8 * 8) v % 8
        match linkPeer (nodeDie r) (nodeRtr r) o with
        | none => []
        | some (pd, pr, _) =>
          ((seamAt (nodeDie r) (nodeRtr r) o).map (·.1)).toList ++ pathSeams s (mkNode pd pr 0) d v f

/-- The path of a pair, requests or responses, crosses a seam that is not ACTIVE: its audit is deferred (13_seams.md R348). -/
def pairDeferred (s : State) (ini target : Nat) : Bool :=
  let n := iniNode ini / 8 * 8
  let t := target / 8 * 8
  (pathSeams s n t 1 218 ++ pathSeams s t n 2 218).any fun m =>
    seamState s (seamDies m).1 m != 7 || seamState s (seamDies m).2 m != 7

/-- PAIR_AUDIT: a quiet pair's end-to-end equation. -/
def execPairAudit (ini target : Nat) (s : State) : Host.Outcome State Fault Refusal :=
  .next <|
    let page := nodePage (iniNode ini)
    if quotaOf s ini target = 0 || pairDeferred s ini target || s.noc.outst.any (fun o => bridgeId o.ini = bridgeId ini && o.target = target) then s
    else audit s 2 page (regBlk page) (creditsHeld s ini target + pairTerms s ini target == quotaOf s ini target)

/-! ### Route updates (R315, R316) -/

/-- The block the loader installs now, where a DRAIN with `tag` names its router. -/
def drainBlock (s : State) (node tag : Nat) : Option RouteTab :=
  s.noc.run.bind fun r => if r.tag = tag then r.blocks.head?.filter (·.node == node) else none

/-- A MGMT DRAIN arrives: the router drains toward the new block; for a router of an isolated die, or with no update that waits
for it, it is answered with a failure (R315, R316). -/
def drainArrive (s : State) (p : Packet) : State :=
  let s := flightDel s p
  match drainBlock s p.dst p.tag with
  | some t =>
    if isolated s (nodeDie p.dst) then flightAdd s (mrspPkt p 2)
    else putFlag { s with noc := { s.noc with drainNew := tabPut s.noc.drainNew p.dst (some t) } } (nodePage p.dst)
      NR_STAT_DRAINING true
  | none => flightAdd s (mrspPkt p 4)

/-- A packet is the MGMT DRAIN of the loader. -/
def isDrain (p : Packet) : Bool := p.cmd = 9 && p.src = 10 && p.arg0 = Config.drainOp % 256

/-- DRAIN: the MGMT DRAIN to a router arrives. -/
def execDrain (node : Nat) (s : State) : Host.Outcome State Fault Refusal :=
  .next <|
    match s.noc.flight.find? fun p => isDrain p && p.dst = node with
    | none => s
    | some p => drainArrive s p

/-- MGMT: a management operation is performed and answered; DRAIN is answered when it ends (R298, R315). -/
def execMgmt (p : Packet) (s : State) : Host.Outcome State Fault Refusal :=
  .next <|
    if !inFlight s p || p.cmd != 9 then s
    else if isDrain p then drainArrive s p
    else flightAdd (flightDel s p) (mrspPkt p (if isolated s (nodeDie p.dst) then 2 else 0))

/-- A worm holds an output that the new table would not give it (R315 step 3). -/
def drainBusy (s : State) (node : Nat) : Bool :=
  s.noc.heads.any fun h => h.node = node && h.out.isSome && drainHolds s node h.pkt

/-- DRAIN_COMPLETE: the last old worm has passed; the new table is installed, EPOCH rises, held heads route by it, and MRSP DONE
goes to the loader. Packets under way may be overtaken (R301), and reserved trunks are walked again (15_flow_slices.md R412). -/
def execDrainComplete (node : Nat) (s : State) : Host.Outcome State Fault Refusal :=
  .next <|
    match (tabGet s.noc.drainNew node).join, s.noc.run with
    | some t, some r =>
      if drainBusy s node then s
      else
        let s := { s with noc := { s.noc with
          drainNew := tabDel s.noc.drainNew node, routes := tabPut s.noc.routes node (some t), loose := s.noc.flight } }
        let page := nodePage node
        let s := putFlag (putF s page NR_STAT_EPOCH ((getF s page NR_STAT_EPOCH + 1) % 4096)) page NR_STAT_DRAINING false
        let s := putF s RT RT_STAT_DONE (getF s RT RT_STAT_DONE + 1)
        flightAdd (allGo (trunksRewalk s)) (mrspPkt (drainPkt node r.tag) 0)
    | _, _ => s

/-- DRAIN_TIMEOUT: the router keeps its old table and the loader stops with RESULT 0x4; the router's answer frees the reserved
space. -/
def execDrainTimeout (node : Nat) (s : State) : Host.Outcome State Fault Refusal :=
  .next <|
    match (tabGet s.noc.drainNew node).join, s.noc.run with
    | some _, some r =>
      let s := { s with noc := { s.noc with drainNew := tabDel s.noc.drainNew node } }
      let page := nodePage node
      let s := putFlag (putFlag s page NR_STAT_DRAINING false) page NR_STAT_ABANDONED true
      flightAdd (routeStop (allGo s) 4 1) (mrspPkt (drainPkt node r.tag) 4)
    | _, _ => s

/-- The loader has the answer to its DRAIN: it goes on to the next block, or stops with RESULT 0x4 (R315, R316). -/
def drainAnswered (s : State) (p : Packet) : State :=
  match s.noc.run with
  | none => s
  | some r =>
    if p.dst != iniNode 10 || p.tag != r.tag then s
    else if p.code != 0 then routeStop s 4 1
    else drainSend s { r with blocks := r.blocks.tail }

/-- A MRSP has come: the space reserved for it is free. -/
def mrspTaken (s : State) (p : Packet) : State :=
  let s := flightDel s p
  { s with noc := { s.noc with vc0 := s.noc.vc0.erase (p.dst, p.srcNode, p.tag) } }

/-! ### Time-outs (R319, R321) -/

/-- TARGET_TIMEOUT. -/
def execTargetTimeout (node : Nat) (s : State) : Host.Outcome State Fault Refusal :=
  .next <|
    if brGet s node NR_BR_TMO_TGT_TMO = 0 || !(s.noc.slots.any fun x => x.1 == node && x.2.cmd < 2) then s
    else isoEnter s node 2 false true

/-- RESPONSE_TIMEOUT: the access completes with 0x7; the tag stays held until the response is absorbed. -/
def execResponseTimeout (ini tag : Nat) (s : State) : Host.Outcome State Fault Refusal :=
  .next <|
    let n := iniNode ini
    match s.noc.outst.find? fun o => o.ini == ini && o.tag == tag && !o.absorbed with
    | none => s
    | some o =>
      if brGet s n NR_BR_TMO_RSP_TMO = 0 then s
      else
        let mark := fun (x : Outst) => if x == o then { x with absorbed := true } else x
        let s := { s with noc := { s.noc with outst := s.noc.outst.map mark } }
        hartsSettle (pump (evtPulse (packetDone s o.acc o.addr 7 []) (nodePage n) 4))

/-- Statistics of an initiator half zero (R328). -/
def statZero (s : State) (n : Nat) : State :=
  let page := nodePage n
  let s := [NR_BR_BYTES_LO_BYTES, NR_BR_BYTES_HI_BYTES, NR_BR_TXN_COUNT, NR_BR_MAXLAT_CYCLES].foldl
    (fun s f => putF s page (brF f n) 0) s
  (List.range 8).foldl (fun s i => putF s page ((brF NR_BR_HIST_COUNT n).nth i) 0) s

/-! ### Fabric side (R326, R327) -/

/-- RQ_READY on a first beat. -/
def rqReady (s : State) (die port : Nat) (b : PortBeat) : Bool :=
  let ini := 128 + 48 * die + port
  let addr := b.addr
  let kind := if inRegs addr && 2 ≤ b.kind then 1 else b.kind
  let waiting := (s.noc.waiting.filter fun h => h.pkt.src == ini).length
  let dst := (destOf s addr).elim 0 (·.1)
  let credit := !(accessOk s addr b.size (kind != 0)) || quotaOf s ini dst = 0 || decide (0 < creditsHeld s ini dst)
  let need := if kind = 0 then flitCount addr b.size + 1 else if kind = 1 then 1 else 0
  portRuns s die port && !quenched s ini && decide (waiting < 2) && credit
    && decide (reserved s (iniNode ini) + need ≤ Config.rspBuf (iniNode ini))

/-- The last beat of a request has come on RQ: the bridge takes the access (R326). -/
def rqRequest (s : State) (die port : Nat) (beats : List PortBeat) (b : PortBeat) : State :=
  let h := beats.headD b
  let ini := 128 + 48 * die + port
  let mode := (destOf s h.addr).elim 0 fun d => chkOf s ini d.1
  let fl := beats.map fun e => chkFlit mode e.data e.chk.toNat
  let data := if h.kind = 0 then [] else bytesOf h.addr h.size (fl.map (·.1))
  accessTake s { ini := ini, kind := h.kind, addr := h.addr, size := h.size, data := data, tag := h.tag }
    (h.kind != 0 && fl.any (·.2))

/-- RQ_BEAT. -/
def execRqBeat (die port : Nat) (b : PortBeat) (s : State) : Host.Outcome State Fault Refusal :=
  .next <|
    let x := nocPort s die port
    if !isFabric die || 48 ≤ port || !portRuns s die port || (x.rq = [] && !rqReady s die port b) then s
    else if !b.last then setNocPort s die port { x with rq := x.rq ++ [b] }
    else rqRequest (setNocPort s die port { x with rq := [] }) die port (x.rq ++ [b]) b

/-- RS_BEAT. -/
def execRsBeat (die port : Nat) (s : State) : Host.Outcome State Fault Refusal :=
  .next <|
    let x := nocPort s die port
    match if portRuns s die port then x.rs else [] with
    | [] => s
    | b :: r =>
      let s := setNocPort s die port { x with rs := r, rsOut := some b, rsResv := if b.last then x.rsResv.tail else x.rsResv }
      -- with the last beat of a response its reservation is released (R306)
      if b.last then pump s else s

/-- TQ_BEAT. -/
def execTqBeat (die port : Nat) (s : State) : Host.Outcome State Fault Refusal :=
  .next <|
    let x := nocPort s die port
    match if portRuns s die port then x.tq else [] with
    | [] => s
    | b :: r =>
      let s := setNocPort s die port { x with tq := r, tqOut := some b }
      let n := portNode die port
      -- a posted request leaves its slot when its last beat has been delivered (R307)
      if b.last && 2 ≤ b.kind then
        match s.noc.slots.find? fun y => y.1 == n && y.2.arg0 == b.tag && 2 ≤ y.2.cmd with
        | some y => targetAnswer s n y.2 0 [] false
        | none => s
      else s

/-- The last beat of an answer has come on TR; in autotomy, or for a stale tag, it is discarded (R320, R327). -/
def trAnswer (s : State) (die port : Nat) (beats : List PortBeat) (b : PortBeat) : State :=
  let n := portNode die port
  let h := beats.headD b
  let isStale := fun (e : Nat × Nat × Nat) => e.1 == n && e.2.2 == h.tag
  if s.noc.stale.any isStale then { s with noc := { s.noc with stale := s.noc.stale.eraseP isStale } }
  else if causesT s n != [] then s
  else
    match s.noc.slots.find? fun y => y.1 == n && y.2.arg0 == h.tag && y.2.cmd < 2 with
    | none => s
    | some y =>
      let fl := beats.map fun e => chkFlit y.2.chk e.data e.chk.toNat
      let code := if h.code = 0 then 0 else 4
      targetAnswer s n y.2 code (bytesOf y.2.addr y.2.size (fl.map (·.1))) (y.2.cmd = 0 && code = 0 && fl.any (·.2))

/-- TR_BEAT: a beat of an answer of the fabric design (R327). -/
def execTrBeat (die port : Nat) (b : PortBeat) (s : State) : Host.Outcome State Fault Refusal :=
  .next <|
    let x := nocPort s die port
    if !isFabric die || 48 ≤ port || !portRuns s die port then s
    else if !b.last then setNocPort s die port { x with tr := x.tr ++ [b] }
    else trAnswer (setNocPort s die port { x with tr := [] }) die port (x.tr ++ [b]) b

end Sys2Proof.Machine
end

