-- ==== Sys2Proof/Machine/Seams.lean ====
section
/-! DEFINITION. Seams: the frames that arrive, training, width steps and time-outs (13_seams.md R336 to R349). -/

namespace Sys2Proof.Machine

/-- A frame the endpoint looks at: not in ISOLATED or OFF (R341), and its CRC passes; a failing one is counted (R337). -/
def frameIn (s : State) (die seam : Nat) (crcOk : Bool) (f : State → State) : State :=
  if !seamOn die seam || seamState s die seam = 0 || seamState s die seam = 8 then s
  else if !crcOk then countUp s (smPage die seam) SM_CRC_COUNT 1
  else f s

/-- A flit accepted from the seam goes into its queue; a header opens a worm and its ledger entry (R339, R340, R348). -/
def flitTaken (x : SeamEp) (link ch : Nat) (flit : BitVec 256) : SeamEp :=
  let l := epLink x link
  let left := tabOr 0 l.rxLeft ch
  let p := headerOf flit
  let x := if left = 0 && ch != 0 then ledgerRecv x p else x
  setLink x link { l with
    rxSeq := (l.rxSeq + 1) % 128, nakSent := false
    rxLeft := tabPutD 0 l.rxLeft ch (if left = 0 then p.len else left - 1)
    queue := tabPutD [] l.queue ch (tabOr [] l.queue ch ++ [flit]) }

/-- What the router's hidden code finds in a data flit of the worm at its input (12_noc.md R324). -/
def flitHidden (s : State) (die seam link ch flaw : Nat) : State :=
  let i := seamInput die seam link
  match openWorm s i.1 i.2 ch with
  | none => s
  | some h =>
    let r := hiddenCheck s (nodePage i.1) i.2 flaw h.pkt
    if r.2.poison && !h.pkt.poison then wormPoison r.1 h.pkt else r.1

/-- The queue of a channel drains into the router's input buffer under the hop credits that its flits hold (R340): a header as
the head of its packet, data flits behind it. A flit of no packet under way leads nowhere. `head`: the flit that came last is a
header. -/
def seamQDrain (s : State) (die seam link ch : Nat) (head : Bool) (flit : BitVec 256) (flaw : Nat) : State :=
  let i := seamInput die seam link
  let q := tabOr [] (epLink (epOf s die seam) link).queue ch
  if head then
    match s.noc.flight.find? fun p => packetHeader p == flit with
    | some p => if seamQReady s die seam link p then seamQHead s die seam link ch flaw p else s
    | none => if q.length = 1 then seamQOut s die seam link ch else s
  else if (openWorm s i.1 i.2 ch).isSome then allGo (seamQData (flitHidden s die seam link ch flaw) die seam link ch q.length)
  else if q.length = 1 then seamQOut s die seam link ch else s

/-- A DATA frame: the expected sequence number is taken, any other is answered once with NAK (R339). -/
def dataFrame (die seam link ch seq : Nat) (flit : BitVec 256) (flaw : Nat) (s : State) : State :=
  let st := seamState s die seam
  if seamLinks seam ≤ link || !(st = 7 || (st = 6 && ch = 0)) then s
  else
    let x := epOf s die seam
    let l := epLink x link
    if seq = l.rxSeq then
      seamQDrain (setEp s die seam (flitTaken x link ch flit)) die seam link ch (tabOr 0 l.rxLeft ch = 0) flit flaw
    else if l.nakSent then s
    else setEp s die seam (setLink x link { l with nak := true, nakSent := true })

/-- SEAM_DATA; `flaw`: what the router's hidden code finds in the flit (12_noc.md R324). -/
def execSeamData (die seam link ch seq : Nat) (flit : BitVec 256) (crcOk : Bool) (flaw : Nat) (s : State) :
    Host.Outcome State Fault Refusal :=
  .next (frameIn s die seam (crcOk && ch < 5) (dataFrame die seam link ch seq flit flaw))

/-- What an ACK says of one link: frames up to ACK_SEQ leave the replay buffer; NAK rewinds (R339). -/
def ackLink (s : State) (die seam k ack : Nat) (nak : Bool) : State :=
  let x := epOf s die seam
  let l := epLink x k
  let first := (l.txSeq + 128 - l.replay.length) % 128
  let n := (ack + 128 - first) % 128
  if l.replay.length < n then s
  else
    let l := { l with replay := l.replay.drop n, rewinds := if n = 0 then l.rewinds else 0 }
    let s := setEp s die seam (setLink x k l)
    let s := if nak && l.replay != [] then seamRewind s die seam k else s
    linkPump s die seam k

/-- An ACK frame of a trained endpoint. -/
def ackFrame (die seam : Nat) (acks : List (Nat × Bool)) (s : State) : State :=
  if !seamReady s die seam then s
  else widthFinish ((acks.take (seamLinks seam)).zipIdx.foldl (fun s a => ackLink s die seam a.2 a.1.1 a.1.2) s) die seam

/-- SEAM_ACK. -/
def execSeamAck (die seam : Nat) (acks : List (Nat × Bool)) (crcOk : Bool) (s : State) : Host.Outcome State Fault Refusal :=
  .next (frameIn s die seam crcOk (ackFrame die seam acks))

/-- SCRED: credits return by the advance of each counter (R340). -/
def scredFrame (die seam : Nat) (counters : List Nat) (s : State) : State :=
  if !seamReady s die seam then s
  else
    (List.range (seamLinks seam)).foldl (fun s k =>
      let x := epOf s die seam
      let l := (List.range 5).foldl (fun (l : SeamLink) c =>
        let v := counters.getD (5 * k + c) 0 % 256
        let d := (v + 256 - tabOr 0 l.freedSeen c) % 256
        { l with away := tabPutD 0 l.away c (tabOr 0 l.away c - d), freedSeen := tabPutD 0 l.freedSeen c v }) (epLink x k)
      linkPump (setEp s die seam (setLink x k l)) die seam k) s

/-- SEAM_SCRED. -/
def execSeamScred (die seam : Nat) (counters : List Nat) (crcOk : Bool) (s : State) : Host.Outcome State Fault Refusal :=
  .next (frameIn s die seam crcOk (scredFrame die seam counters))

/-- HCRED: hop credits return to the routers' outputs toward the seam (R340). -/
def hcredFrame (die seam : Nat) (counters : List Nat) (s : State) : State :=
  if !seamReady s die seam then s
  else
    allGo ((List.range (seamLinks seam)).foldl (fun s k =>
      let rp := seamPort die seam k
      (List.range 5).foldl (fun s c =>
        let x := epOf s die seam
        let l := epLink x k
        let v := counters.getD (5 * k + c) 0 % 256
        let d := (v + 256 - tabOr 0 l.hfreedSeen c) % 256
        let s := setEp s die seam (setLink x k { l with hfreedSeen := tabPutD 0 l.hfreedSeen c v })
        hopBack s (mkNode die rp.1 0) rp.2 c d) s) s)

/-- SEAM_HCRED. -/
def execSeamHcred (die seam : Nat) (counters : List Nat) (crcOk : Bool) (s : State) : Host.Outcome State Fault Refusal :=
  .next (frameIn s die seam crcOk (hcredFrame die seam counters))

/-- The die whose rejoin a seam is part of, if there is one: of two that rejoin together the one that carries the other, so
that both steps 2 and 6 take one epoch (R353, DESIGN CHOICE: log 104). -/
def seamRejoin (s : State) (seam : Nat) : Option Nat :=
  ([(seamDies seam).2, (seamDies seam).1].filter fun d => d != 8 && getF s DI (DI_STAT_STATE.nth d) = 2).head?

/-- DI_EPOCH that a TRAIN of this seam must carry while either die rejoins (R353 step 2). -/
def epochWanted (s : State) (seam : Nat) : Option Nat := (seamRejoin s seam).map fun d => getF s DI (DI_STAT_EPOCH.nth d)

/-- A TRAIN frame: from RESET training begins; a trained endpoint returns to RESET (R341, R342). -/
def trainFrame (die seam fromDie seamNo : Nat) (widthReq : Bool) (epoch : Nat) (s : State) : State :=
  let valid := fromDie = seamFar die seam && seamNo = seam && (epochWanted s seam).elim true (· == epoch)
  if !valid then s
  else
    let s := putFlag s (smPage die seam) SM_STAT_FAR_REQ widthReq
    if seamState s die seam = 1 then seamTo s die seam 2 else seamRetrain s die seam

/-- SEAM_TRAIN. -/
def execSeamTrain (die seam fromDie seamNo : Nat) (widthReq _vcEn : Bool) (epoch : Nat) (crcOk : Bool) (s : State) :
    Host.Outcome State Fault Refusal :=
  .next (frameIn s die seam crcOk (trainFrame die seam fromDie seamNo widthReq epoch))

/-- Full width stands in S3 whatever WIDTH_REQ holds (R343). -/
def startWidth (s : State) : Bool := s.start.phase = .s2Pll || s.start.phase = .s2Records || s.start.phase = .s3

/-- A WIDTH frame: the far side's request; without REPLY it is answered; both known, the step drains (R345). -/
def widthFrame (die seam : Nat) (widthReq reply : Bool) (s : State) : State :=
  if !seamReady s die seam then s
  else
    let page := smPage die seam
    let own := flag s page SM_CTRL_WIDTH_REQ
    let s := putFlag s page SM_STAT_FAR_REQ widthReq
    let s := seamCompare s die seam (own != widthReq)
    let x := epOf s die seam
    match x.step, reply with
    | .sent, true => widthFinish (setEp s die seam { x with step := .draining (own || widthReq) }) die seam
    | .draining _, _ => s
    | _, false => widthFinish (setEp s die seam { x with step := .draining (own || widthReq) }) die seam
    | _, true => s

/-- SEAM_WIDTH. -/
def execSeamWidth (die seam : Nat) (widthReq reply crcOk : Bool) (s : State) : Host.Outcome State Fault Refusal :=
  .next (frameIn s die seam crcOk (widthFrame die seam widthReq reply))

/-- SEAM_IDLE carries nothing. -/
def execSeamIdle (die seam : Nat) (crcOk : Bool) (s : State) : Host.Outcome State Fault Refusal :=
  .next (frameIn s die seam crcOk id)

/-- COUNTER_FRAME_DUE: an ACK (2), SCRED (3) or HCRED (4) is sent; an ACK carries each link's NAK once (R338, R339). -/
def execCounterFrameDue (die seam kind : Nat) (s : State) : Host.Outcome State Fault Refusal :=
  .next <|
    if kind != 2 || !seamOn die seam || !seamReady s die seam then s
    else
      let x := epOf s die seam
      setEp s die seam { x with links := x.links.map fun e => (e.1, { e.2 with nak := false }) }

/-- REPLAY_TIMEOUT. -/
def execReplayTimeout (die seam link : Nat) (s : State) : Host.Outcome State Fault Refusal :=
  .next <|
    if !seamOn die seam || !seamReady s die seam || (epLink (epOf s die seam) link).replay = [] then s
    else seamRewind s die seam link

/-- SEAM_CRC_SILENCE. -/
def execSeamCrcSilence (die seam : Nat) (s : State) : Host.Outcome State Fault Refusal :=
  .next (if seamOn die seam then seamRetrain s die seam else s)

/-- WIDTH has trained: the endpoint adopts the narrower request, in S3 full width (R341, R343). -/
def widthTrained (s : State) (die seam : Nat) : State :=
  let page := smPage die seam
  let own := flag s page SM_CTRL_WIDTH_REQ
  let far := flag s page SM_STAT_FAR_REQ
  if startWidth s then seamTo (seamWidthPut s die seam false) die seam 5
  else
    let s := seamCompare s die seam (own != far)
    seamTo (seamWidthPut s die seam (own || far)) die seam 5

/-- SEAM_TRAIN_STEP_DONE: PHASE to DESKEW to WIDTH to CREDIT; WIDTH adopts the narrower request (R341, R343). A widening
step's background training ends in the same way and sends WIDTH (R345). -/
def execSeamTrainStepDone (die seam : Nat) (s : State) : Host.Outcome State Fault Refusal :=
  .next <|
    if !seamOn die seam then s
    else
      match seamState s die seam with
      | 2 => seamTo s die seam 3
      | 3 => seamTo s die seam 4
      | 4 => widthTrained s die seam
      | _ =>
        let x := epOf s die seam
        match x.step with
        | .widening => setEp s die seam { x with step := .sent }
        | _ => s

/-- CREDIT can be left: no stale entry is left, the router holds its hop credits toward the seam, as absorption returns each at
once, and its input buffers from the seam are empty (R344, R348). -/
def creditReady (s : State) (die seam : Nat) : Bool :=
  let x := epOf s die seam
  x.staleReq = [] && x.staleCnt = [] && (List.range (seamLinks seam)).all fun k =>
    let i := seamInput die seam k
    (s.noc.heads.all fun h => !(h.node = i.1 && h.port = i.2)) &&
      (List.range 5).all fun c => hopHeld s i.1 i.2 c = portDepth die (nodeRtr i.1) i.2 c

/-- CREDIT_CONDITIONS_MET: the endpoint enters MGMT with every counter zero and seam credits at SQ (R344, R348); `us` is the
time since RESET. -/
def execCreditConditionsMet (die seam us : Nat) (s : State) : Host.Outcome State Fault Refusal :=
  .next <|
    if !seamOn die seam || seamState s die seam != 5 || !creditReady s die seam then s
    else
      let s := setEp s die seam (linksClear (epOf s die seam))
      let s := putF (seamTo s die seam 6) (smPage die seam) SM_TTIME_US (min us 65535)
      seamJoin s seam

/-- WIDTH_STEP_TIMEOUT: the seam retrains. -/
def execWidthStepTimeout (die seam : Nat) (s : State) : Host.Outcome State Fault Refusal :=
  .next <|
    match (epOf s die seam).step with
    | .draining _ => seamRetrain s die seam
    | .sent => seamRetrain s die seam
    | _ => s

/-- SEAM_CREDIT_AUDIT: the equation of R340 for a quiet channel. -/
def execSeamCreditAudit (die seam link ch : Nat) (s : State) : Host.Outcome State Fault Refusal :=
  .next <|
    if !seamOn die seam || !(seamState s die seam = 7 || (seamState s die seam = 6 && ch = 0)) || seamLinks seam ≤ link
        || 5 ≤ ch then s
    else
      let l := epLink (epOf s die seam) link
      let far := epLink (epOf s (seamFar die seam) seam) link
      let unseen := (tabOr 0 far.freed ch + 256 - tabOr 0 l.freedSeen ch) % 256
      let away := unaccepted s die seam link ch + (tabOr [] far.queue ch).length + unseen
      audit s 3 (smPage die seam) (0x2000 + seam) (tabOr 0 l.away ch == away)

/-! ### Register writes of SM_CTRL (R341, R342, R345), after the write has been accepted -/

/-- SM_CTRL has been written: `old` its fields before. RETRAIN, a VC_EN that falls on an ACTIVE endpoint or rises, and a
changed WIDTH_REQ act. -/
def smCtrlWritten (s : State) (die seam : Nat) (old : Word) (retrain : Bool) : State :=
  let page := smPage die seam
  let vc := flag s page SM_CTRL_VC_EN
  let vc0 := wGet old 2 1 == 1
  let w := flag s page SM_CTRL_WIDTH_REQ
  let w0 := wGet old 0 1 == 1
  if retrain then seamRetrain s die seam
  else if vc0 && !vc && seamState s die seam = 7 then seamRetrain s die seam
  else
    let s := if vc then seamJoin s seam else s
    if w != w0 && seamReady s die seam then
      let x := epOf s die seam
      setEp s die seam { x with step := if flag s page SM_STAT_WIDTH && !w then .widening else .sent }
    else s

end Sys2Proof.Machine
end

