-- ==== Sys2Proof/Machine/NetRegs.lean ====
section
/-! DEFINITION. Checks and effects of writes to the pages NR_, QU_ and RT_ (12_noc.md R332 to R335), SM_ and DI_
(13_seams.md R355, R356), and what isolates a die or begins its rejoin (R350, R353). -/

namespace Sys2Proof.Machine

/-! ### NR_ and QU_ -/

/-- Node of the bridge window at `off` of the page of router `r`. -/
def windowNode (die r off : Nat) : Nat := mkNode die r ((off - 0x400) / 256)

/-- Stale tags of a node (R320). -/
def staleCount (s : State) (n : Nat) : Nat := (s.noc.stale.filter (·.1 == n)).length

/-- ISOLATE written with 0 while stale tags remain (R322). -/
def nrFault (s : State) (die r off : Nat) (w : Word) : Option Nat :=
  if 0x400 ≤ off && off % 256 = 0 then
    let n := windowNode die r off
    if brGet s n NR_BR_CTRL_ISOLATE = 1 && wGet w 31 1 = 0 && staleCount s n != 0 then some 0x0100 else none
  else none

/-- Bits of QU_Qk of IDs that are assigned (R302, R335). -/
def quMask (k : Nat) : Nat := ofBits ((List.range 32).filter fun b => iniAssigned (32 * k + b))

/-! ### RT_ -/

/-- A staged block (R315): node, reserved bytes, DIE_TAB, LOC_TAB and the rest. -/
def routeBlock (bs : List Byte) : RouteTab :=
  let n := ofBytes bs
  { node := nGet n 0 16, rsv := nGet n 16 16, die := (List.range 64).map fun i => nGet n (32 + 4 * i) 4
    loc := (List.range 128).map fun i => nGet n (288 + 4 * i) 4, rest := nGet n 800 224 }

/-- Blocks of 128 bytes. -/
def routeBlocks (bs : List Byte) (k : Nat) : List RouteTab :=
  (List.range k).map fun i => routeBlock ((bs.drop (128 * i)).take 128)

/-- GO while BUSY (R334). -/
def rtFault (s : State) (off : Nat) (w : Word) : Option Nat :=
  if off = 0x04C && wGet w 31 1 = 1 && flag s RT RT_STAT_BUSY then some 0x0100 else none

/-- The loader reads the staged set as ID 10 (R315, R334) and checks it, and with `apply` installs it. A read that fails is
answered as a set without the form of R315. -/
def routeLoad (s : State) (apply : Bool) : State :=
  let n := getF s RT RT_LEN_BYTES
  let a := getF s RT RT_SRC_LO_ADDR * 128 + getF s RT RT_SRC_HI_ADDR * 2 ^ 32
  if let some u := busStall s 10 a n then { putFlag (putF u RT RT_STAT_RESULT 0xF) RT RT_STAT_BUSY true with noc := { u.noc with loadWait := some apply } }
  else
  let r := busRead s 10 a n
  if r.2.1 != 0 then routeStop (putF r.1 RT RT_STAT_DONE 0) 1 0
  else
    let h := ofBytes (r.2.2.take 16)
    routeGo r.1 (nGet h 0 32) (nGet h 32 16) (nGet h 48 16) (nGet h 64 64)
      (routeBlocks (r.2.2.drop 16) ((n - 16) / 128)) apply

/-- Units whose accesses a quench or an autotomy held go on: the route loader, and bridge B of the slices with punted frames
(R317). -/
def unitsGo (s : State) : State :=
  let s := match s.noc.loadWait with
    | none => s
    | some apply => routeLoad { s with noc := { s.noc with loadWait := none } } apply
  s.flow.puntWait.foldl (fun s x => puntWrite s x.1 x.2) { s with flow := { s.flow with puntWait := [] } }

/-- An accepted write of an NR_ page: ISOLATE begins or ends cause 1 (R319, R322), STAT_CLR zeroes the statistics. -/
def nrWritten (s : State) (die r off : Nat) (old w : Word) : State :=
  if 0x400 ≤ off && off % 256 = 0 then
    let n := windowNode die r off
    let s := if wGet w 31 1 = 1 then isoEnter s n 1 true true
      else if wGet old 31 1 = 1 then unitsGo (isoLeave s n 1 true true) else s
    if wGet w 30 1 = 1 then statZero s n else s
  else s

/-- An accepted write of a QU_Qk: what it no longer quenches goes on (R317). -/
def quWritten (s : State) (off : Nat) : State := if 0x040 ≤ off then unitsGo (pump s) else s

/-- RT_CTRL.GO. -/
def rtWritten (s : State) (off : Nat) (w : Word) : State :=
  if off = 0x04C && wGet w 31 1 = 1 then routeLoad s (wGet w 0 1 == 1) else s

/-! ### SM_ -/

/-- WIDTH_REQ changed during a width step; RETRAIN in ISOLATED (R345, R355). -/
def smFault (s : State) (die seam off : Nat) (w : Word) : Option Nat :=
  if off = 0x040 then
    if (epOf s die seam).step != .none && wGet w 0 1 != getF s (smPage die seam) SM_CTRL_WIDTH_REQ then some 0x0100
    else if wGet w 31 1 = 1 && seamState s die seam = 8 then some 0x0101
    else none
  else none

/-- An accepted write of SM_CTRL. -/
def smWritten (s : State) (die seam off : Nat) (old w : Word) : State :=
  if off = 0x040 then smCtrlWritten s die seam old (wGet w 31 1 == 1) else s

/-! ### DI_ -/

/-- Out of range beyond the fields' own ranges (R356). -/
def diRange (off : Nat) (w : Word) : Bool :=
  off = 0x040 && (wGet w 30 2 = 3 || wGet w 0 4 = 8 || wGet w 0 4 = 15)

/-- The cause of a die's isolation has ended (R353). -/
def causeEnded (s : State) (d : Nat) : Bool :=
  match getF s DI (DI_STAT_CAUSE.nth d) with
  | 3 => nBit (getF s CU CU_SPINE_STAT_HPLL_LOCK) 0 && !coasting s
  | 5 => false
  | _ => true

/-- REJOIN while the cause persists, or for a die that is not isolated or rejoins already (R353, R356). -/
def diFault (s : State) (off : Nat) (w : Word) : Option Nat :=
  if off = 0x040 && wGet w 30 1 = 1 then
    let d := wGet w 0 4
    if getF s DI (DI_STAT_STATE.nth d) != 1 then some 0x0101
    else if !causeEnded s d then some 0x0100 else none
  else none

/-- The dies that a rejoin of die `d` carries: the die, and those isolated with cause 5 because of it (R353). -/
def rejoinGroup (s : State) (d : Nat) : List Nat :=
  d :: (dependents d).filter fun x =>
    getF s DI (DI_STAT_STATE.nth x) != 0 && getF s DI (DI_STAT_CAUSE.nth x) = 5

/-- STATE and STEP of every die of a rejoin. -/
def rejoinShow (s : State) (d st step : Nat) : State :=
  (rejoinGroup s d).foldl (fun s x => putF (putF s DI (DI_STAT_STATE.nth x) st) DI (DI_STAT_STEP.nth x) step) s

/-- A rejoin begins: the hub releases the die's reset, and the fabric PLLs of its dies lock again (R353 step 1). -/
def rejoinStart (s : State) (d : Nat) : State :=
  let s := rejoinShow s d 2 1
  let s := ((rejoinGroup s d).filter isFabric).foldl (fun s x =>
    (List.range 4).foldl (fun s j => putFlag s (pllPage x j) PG_CTRL_ENABLE true) s) s
  { s with seam := { s.seam with dieReset := setDel s.seam.dieReset d } }

/-- An accepted write of DI_CTRL. -/
def diWritten (s : State) (off : Nat) (w : Word) : State :=
  if off = 0x040 then
    let d := wGet w 0 4
    if wGet w 31 1 = 1 then isolateDie s d 1
    else if wGet w 30 1 = 1 then rejoinStart s d else s
  else s

/-- Heartbeats toggle from the router domains: since S2, and not in torpor (R350). -/
def beatsRun (s : State) : Bool := routersUp s && !s.pow.torpor

/-- HEARTBEAT_TIMEOUT (R350 cause 2); the hub's own resets the device (01_package.md R18). -/
def execHeartbeatTimeout (die : Nat) (s : State) : Host.Outcome State Fault Refusal :=
  .next (if !beatsRun s then s else if die = 8 then startTrigger s else isolateDie s die 2)

/-- SEAMS_DOWN_TIMEOUT (R350 cause 4): after S7, every seam of the die is outside MGMT and ACTIVE. -/
def execSeamsDownTimeout (die : Nat) (s : State) : Host.Outcome State Fault Refusal :=
  .next <|
    if s.start.phase = .ready && (dieSeams die).all fun m => !seamReady s die m then isolateDie s die 4 else s

/-- DIE_RESET_REQUEST (R350 cause 6): a die manager that runs asks for it. -/
def execDieResetRequest (die : Nat) (s : State) : Host.Outcome State Fault Refusal :=
  .next (if beatsRun s then isolateDie s die 6 else s)

/-- AUTO_REJOIN (R353). -/
def execAutoRejoin (die : Nat) (s : State) : Host.Outcome State Fault Refusal :=
  .next <|
    if die != 8 && die < 15 && nBit (getF s DI DI_CFG_AUTO_REJOIN) die && getF s DI (DI_STAT_STATE.nth die) = 1
        && !s.seam.rejoinFailed.contains die && causeEnded s die then rejoinStart s die else s

end Sys2Proof.Machine
end

