-- ==== Sys2Proof/Machine/Readback.lean ====
section
/-! DEFINITION. The end of a readback (07_fabric.md R187, R188). -/

namespace Sys2Proof.Machine

/-- A frame as readback returns it: a CAPTURE frame from the shadow latches, a configuration frame after correction by the
frame code, or as it is stored where the code cannot correct it; and whether it could not. -/
def readbackFrame (s : State) (die a : Nat) : Frame × Bool :=
  let good := frameRead s die a
  if 0x68000 ≤ a then (good, false)
  else
    let seen := good ^^^ tabOr 0 s.fab.upset (cfgKey die a)
    let bad := (List.range 32).any fun w => scrubWord good seen [] w == .uncorrectable
    (if bad then seen else scrubFix good seen [], bad)

/-- `n` frames from address `a` are written to memory at `dst`: the code that ended the copy, the frames written, and
whether a frame could not be corrected. -/
def readbackCopy (s : State) (die a dst n done : Nat) (bad : Bool) : State × Nat × Nat × Bool :=
  match n with
  | 0 => (s, 0, done, bad)
  | k + 1 =>
    let f := readbackFrame s die a
    let w := busWrite s (24 + die) dst (frameBytes f.1)
    if w.2 != 0 then (w.1, w.2, done, bad) else readbackCopy w.1 die (a + 1) (dst + 256) k (done + 1) (bad || f.2)

/-- READBACK_DONE (R187, R188). -/
def execReadbackDone (die frames : Nat) (busError pfw : Bool) (s : State) : Host.Outcome State Fault Refusal :=
  .next <|
    match (tabGet s.fab.rb die).join with
    | none => s
    | some r =>
      if r.waiting || isolated s die then s
      else if let some u := busStall s (24 + die) r.dst (256 * r.left) then u
      else
        let c := readbackCopy s die r.frame r.dst (if busError || pfw then min frames r.left else r.left) 0 false
        let p := cfPage die
        let result := if busError || c.2.1 != 0 then 1 else if pfw then 3 else if c.2.2.2 then 2 else 0
        let s : State := { c.1 with fab := { c.1.fab with rb := tabDel c.1.fab.rb die } }
        evtPulse (putF (putF s p CF_RB_STAT_DONE c.2.2.1) p CF_RB_STAT_RESULT result) p 1

end Sys2Proof.Machine
end

