-- ==== Sys2Proof/Machine/ClkRegs.lean ====
section
/-! DEFINITION. Checks and effects of writes to the clock pages CU_, HP_, FP_ and CD_ (03_clocks.md R68, R78, R82 to R87). -/

namespace Sys2Proof.Machine

/-- Reference of the PLL of a page in MHz (R69, R71). -/
def pllRef (die blk : Nat) : Nat := if die = 8 && blk != 0x3006 then 100 else 1600

/-- VCO of a PLL page in MHz, as a fraction: numerator and denominator. -/
def pllVco (s : State) (die blk : Nat) : Nat × Nat :=
  (pllRef die blk * getF s (pg die blk) PLL_CFG_FB_DIV, getF s (pg die blk) PLL_CFG_REF_DIV)

/-- A CFG value breaks a limit of R68: 50 to 800 MHz at the phase detector, 3.2 to 6.4 GHz at the VCO. -/
def pllCfgRange (die blk : Nat) (w : Word) : Bool :=
  let r := pllRef die blk
  let rd := wGet w 8 4
  let f := r * wGet w 0 8
  decide (r < 50 * rd) || decide (800 * rd < r) || decide (f < 3200 * rd) || decide (6400 * rd < f)

/-- An FP_OUT value is out of range: OUT4 off, or an output above its limit (R71, R87). -/
def fpOutRange (s : State) (die blk k : Nat) (w : Word) : Bool :=
  let v := pllVco s die blk
  let top := if k = 4 then (if Config.grade2 then 1000 else 800) else 1000
  (k = 4 && wGet w 8 1 = 0) || decide (top * v.2 * wGet w 0 8 < v.1)

/-- Frequency of a CD_CFG source in MHz, as a fraction (R87). -/
def cdSrc (s : State) (src : Nat) : Nat × Nat :=
  match src with
  | 1 => pllVco s 8 0x3007
  | 2 => pllVco s 8 0x3008
  | 3 => (1600, 1)
  | _ => (25, 1)

/-- A CD_CFG value drives the domain above its limit (R87). -/
def cdCfgRange (s : State) (k : Nat) (w : Word) : Bool :=
  let f := cdSrc s (wGet w 8 3)
  cdSelectable k && decide ((if k = 63 then 1600 else 1000) * f.2 * wGet w 0 8 < f.1)

/-- A domain that can be gated (R72). -/
def cdGateable (k : Nat) : Bool := k != 0 && k != 2 && k != 60 && k != 61 && k != 62

/-- A domain runs ungated. -/
def cdOpen (s : State) (k : Nat) : Bool := !flag s (cdPage k) CD_STAT_GATED

/-- Source of a selectable domain in effect: that of CD_CFG, or the one a switch or a closed gate keeps (R80, R84). -/
def cdSrcNow (s : State) (k : Nat) : Nat := (tabGet s.clk.cdEff k).getD (getReg s (cdPage k + 0x040)).toNat / 256 % 8

/-- An output of the PLL feeds a spine or an ungated domain (R69, R71, R85); in a switch, both the old source and the new. -/
def pllFeeds (s : State) (die j : Nat) : Bool :=
  let sel := fun (c : Nat) => [56, 57, 58, 59, 63].any fun k =>
    cdOpen s k && (cdSrcNow s k = c || getF s (cdPage k) CD_CFG_SRC = c)
  if die = 8 then
    match j with
    | 0 => true | 1 => true
    | 2 => cdOpen s 1
    | 3 => true
    | 4 => cdOpen s 4
    | 5 => true
    | 6 => sel 1
    | _ => sel 2
  else j = 3 && cdOpen s (16 + die)

/-- PLL number of an HP_ or FP_ page. -/
def pllOf (die blk : Nat) : Nat := if die = 8 then blk - 0x3001 else blk - 0x3000

/-- The block fault of a write to a clock page (R84, R85). -/
def clkFault (s : State) (p : Page) (die blk off : Nat) (w : Word) : Option Nat :=
  match p with
  | .hp | .fp =>
    if off = 0x008 && wGet w 0 1 = 0 && enabled s (pg die blk) && pllFeeds s die (pllOf die blk) then some 0x0100 else none
  | .cd => if off = 0x040 && flag s (pg die blk) CD_STAT_SWITCHING then some 0x0101 else none
  | _ => none

/-- A value out of range beyond the fields' own ranges. -/
def clkRange (s : State) (p : Page) (die blk off : Nat) (w : Word) : Bool :=
  match p with
  | .hp => off = 0x040 && pllCfgRange die blk w
  | .fp => if off = 0x040 then pllCfgRange die blk w else 0x048 ≤ off && off ≤ 0x058 && fpOutRange s die blk ((off - 0x048) / 4) w
  | .cd =>
    let k := blk % 4096 - 256
    (off = 0x040 && cdCfgRange s k w) || (off = 0x044 && wGet w 0 1 = 1 && !cdGateable k)
  | _ => false

/-- CD_CFG of domain `k` has changed from `old`: a switch begins; what was in effect stays so until it completes or the gate
opens (R80, R84). -/
def cdCfgWritten (s : State) (k : Nat) (old : Word) : State :=
  if getReg s (cdPage k + 0x040) = old then s
  else
    let eff := (tabGet s.clk.cdEff k).getD (old.toNat % 2048)
    putFlag { s with clk := { s.clk with cdEff := tabPut s.clk.cdEff k eff } } (cdPage k) CD_STAT_SWITCHING true

/-- GATE_REQ of domain `k` has been written; `was`: its value before (R82, R84). A write of 0 ends a request and opens a
closed gate. -/
def gateWritten (s : State) (k : Nat) (was on : Bool) : State :=
  let page := cdPage k
  if on then
    if was then s
    else if flag s page CD_STAT_SWITCHING then { s with clk := { s.clk with gateWait := setAdd s.clk.gateWait k } }
    else putFlag s page CD_STAT_QUIESCING true
  else
    let s := putFlag (putFlag s page CD_STAT_GATED false) page CD_STAT_QUIESCING false
    let s : State := { s with clk := { s.clk with gateWait := setDel s.clk.gateWait k } }
    if flag s page CD_STAT_SWITCHING then s else { s with clk := { s.clk with cdEff := tabDel s.clk.cdEff k } }

/-- ENABLE of a PLL has been written: a PLL switched off is not locked (R68, R85), and crossing groups clocked from it retrain
(07_fabric.md R182). -/
def pllEnabled (s : State) (die j : Nat) (on : Bool) : State :=
  if on then s else xgFollow (pllLock (putFlag s (pllPage die j) PLL_STAT_COAST false) die j false)

/-- What an accepted write to a clock page does; `old`: the register before it. FAILBACK set after XO_A has qualified again
switches back only once XO_A qualifies anew (R78: DESIGN CHOICE, log 78). -/
def clkWritten (s : State) (p : Page) (die blk off : Nat) (old : Word) : State :=
  let a := pg die blk + off
  match p with
  | .cu =>
    let pref := wGet (getReg s a) 0 1
    if off = 0x044 && pref != wGet old 0 1 && flag s CU (xoOk false) && flag s CU (xoOk true) then xoSwitchStart s (pref = 1)
    else s
  | .hp | .fp =>
    if off = 0x008 then pllEnabled s die (pllOf die blk) (wGet (getReg s a) 0 1 = 1)
    else if p = .fp && getReg s a != old then xgFollow s
    else s
  | .cd =>
    let k := blk % 4096 - 256
    if off = 0x040 then cdCfgWritten s k old
    else if off = 0x044 then gateWritten s k (wGet old 0 1 = 1) (wGet (getReg s a) 0 1 = 1)
    else s
  | _ => s

end Sys2Proof.Machine
end

