-- ==== Sys2Proof/Machine/PowRegs.lean ====
section
/-! DEFINITION. Checks and effects of writes to the pages PD_, GV_ and DS_ (18_power.md R483, R486, R488, R490 to R492). -/

namespace Sys2Proof.Machine

/-! ### PD_ -/

/-- ALARM_EN = 1 while RTC_OK is 0 is out of range (R481). -/
def pdRange (s : State) (die i off : Nat) (w : Word) : Bool :=
  die = 8 && i = 0 && off = 0x070 && wGet w 0 1 = 1 && !flag s CU CU_OSC_STAT_RTC_OK

/-- PD_RTC_HI sets all 48 bits of the clock with the low word held (R481, R490). -/
def rtcSet (s : State) (w : Word) : State :=
  { s with pow := { s.pow with rtc := wGet w 0 16 * 2 ^ 32 + s.pow.rtcLo.toNat, rtcFrac := 0 } }

/-- An accepted write of the AON and CORE registers (R490): PD_RTC_LO is held until PD_RTC_HI sets all 48 bits; PD_TORPOR
keeps its value while ENTERING. -/
def pdWritten (s : State) (die i off : Nat) (old w : Word) : State :=
  if die = 8 && i = 0 && off = 0x060 then
    setReg { s with pow := { s.pow with rtcLo := w } } (pdPage 8 0 + off) old
  else if die = 8 && i = 0 && off = 0x064 then
    setReg (rtcSet s w) (pdPage 8 0 + off) old
  else if die = 8 && i = 1 && off = 0x060 && wGet old 8 1 = 1 then setReg s (pdPage 8 1 + off) old
  else s

/-! ### GV_ -/

/-- TEMP of a curve point lies outside −40 to 125 (R491). -/
def gvRange (off : Nat) (w : Word) : Bool :=
  0x080 ≤ off && off < 0x0C0 && (signed 8 (wGet w 16 8) < -40 || 125 < signed 8 (wGet w 16 8))

/-- The points of a curve keep the rule of R483: one enabled at least, TEMP strictly ascending. -/
def curveOk (ws : List Word) : Bool :=
  let ts := (ws.filter fun w => wGet w 31 1 = 1).map fun w => signed 8 (wGet w 16 8)
  ts != [] && (ts.zip ts.tail).all fun p => decide (p.1 < p.2)

/-- Offset of point `i` of curve `c`. -/
def curveOff (c i : Nat) : Nat := 0x080 + 4 * (8 * c + i)

/-- Points of curve `c` as a COMMIT would leave them. -/
def curveNext (s : State) (c : Nat) : List Word :=
  (List.range 8).map fun i =>
    let a := GV + curveOff c i
    let m := shadowMask a
    let w := match tabGet s.pg.committed a with | some v => mix (getReg s a) v m | none => getReg s a
    match tabGet s.pg.held a with | some v => mix w v m | none => w

/-- A PG_COMMIT that would break the rule of the curves (R483). -/
def gvFault (s : State) (off : Nat) (w : Word) : Option Nat :=
  if off = 0x030 && wGet w 0 2 = 1 && !(curveOk (curveNext s 0) && curveOk (curveNext s 1)) then some 0x0100 else none

/-! ### DS_ -/

/-- A field of descriptor `x` is out of range (R486). -/
def descRange (x : Desc) : Bool :=
  2000 < x.cost || match x.kind with
    | 0 => 7 < x.die || 287 < x.eng
    | 1 => 7 < x.die || 1024 ≤ x.target
    | 2 => 4 ≤ x.target
    | _ => true

/-- A descriptor with a field out of range is submitted (R486). -/
def dsRange (s : State) (off : Nat) (w : Word) : Bool := off = 0x054 && descRange (descOf s (wGet w 0 12))

/-- The block fault of a write (R486, R488). -/
def dsFault (s : State) (off : Nat) (w : Word) : Option Nat :=
  let x := descOf s (wGet w 0 12)
  if 0x044 ≤ off && off < 0x050 then
    let st := (descOf s (getF s DS DS_DSEL_INDEX)).state
    if st = 1 || st = 2 then some 0x0100 else none
  else if off = 0x054 then (if x.state = 0 || x.state = 3 then none else some 0x0101)
  else if off = 0x058 then (if x.state = 2 && x.kind != 0 then none else some 0x0102)
  else if off = 0x05C then (if x.state = 2 && wGet w 16 11 ≤ x.held then none else some 0x0103)
  else none

/-- A holder returns `n` of its tokens; at 0 its revocation and throttling end (R485, R488). -/
def holderRelease (s : State) (d n : Nat) : State :=
  let x := descOf s d
  let x := { x with held := x.held - n }
  tokensBack (setDesc s d (if x.held = 0 then { x with revoked := false, throttled := false } else x)) n

/-- Descriptor `d` joins the ready queue of its priority (R486). -/
def descReady (s : State) (d : Nat) : State :=
  let x := descOf s d
  setReadyQ (setDesc s d { x with state := 1 }) x.prio (readyQ s x.prio ++ [d])

/-- An accepted write: the words of the selected descriptor, a submission, a completion or a release (R486, R488). -/
def dsWritten (s : State) (off : Nat) (old w : Word) : State :=
  let d := wGet w 0 12
  if 0x044 ≤ off && off ≤ 0x050 then
    let s := setReg s (DS + off) old
    let k := getF s DS DS_DSEL_INDEX
    let x := descOf s k
    match off with
    | 0x044 => setDesc s k { x with w0 := w }
    | 0x048 => setDesc s k { x with w1 := w }
    | 0x04C => setDesc s k { x with w2 := w }
    | _ => s
  else if off = 0x054 then descReady s d
  else if off = 0x058 then descDone s d (wGet w 16 2)
  else if off = 0x05C then holderRelease s d (wGet w 16 11)
  else s

end Sys2Proof.Machine
end

