-- ==== Sys2Proof/Machine/ShutOps.lean ====
section
/-! DEFINITION. The shut-down sequencer: ways down, arming, snapshots and the self-test (21_shutdown.md R537 to R557). -/

namespace Sys2Proof.Machine

/-! ### Arming (R542, R543) -/

/-- RESUMABLE of a partition. -/
def resumable (e : PartEntry) : Bool := nBit e.flags 0
/-- SD_BR_MEM of partition `n`. -/
def brMem (s : State) (n : Nat) : Bool := nBit (getReg s (SD + 0x04C + 4 * (n / 32))).toNat (n % 32)

/-- RAM-mode bank memories of an extent, in ascending number. -/
def ramBanks (s : State) (e : PartEntry) : List Nat :=
  (List.range 2048).filter fun b => e.cFirst ≤ bankCol b && decide (bankCol b ≤ e.cLast) && bankCfg s e.die b 0 4 2 = 0
/-- RAM-mode deep memories of an extent. -/
def ramDeeps (s : State) (e : PartEntry) : List Nat :=
  (List.range 32).filter fun j => e.cFirst ≤ deepCol j && decide (deepCol j ≤ e.cLast) && !deepFifo s e.die j

/-- Units a partition's section takes. -/
def sectionUnits (s : State) (e : PartEntry) : Nat :=
  (4 * (e.cLast - e.cFirst + 1) + 15) / 16 +
    (if brMem s e.no then (36 * (ramBanks s e).length + 15) / 16 + 256 * (ramDeeps s e).length else 0)

/-- SIZE and LIMIT of R542. -/
def armSize (s : State) : Nat := 1 + ((s.part.parts.filter resumable).map (sectionUnits s)).sum
@[inherit_doc armSize] def armLimit (s : State) : Nat := min 24576 ((getF s SD SD_CFG_HOLDUP_MS - 4) * 2000000 / 4096)

/-- Unit `u` of brumation buffer `b` on its die. -/
def bruUnit (b u : Nat) : Nat × Nat := striped (1928 + 48 * b) u

/-- A unit of either buffer is read-only. -/
def bruWorn (s : State) : Bool :=
  (List.range 2).any fun b => (List.range 24576).any fun u => unitReadOnly s (bruUnit b u).1 (bruUnit b u).2

/-- A way down or a FATAL sequence runs, or S8 has not been reached (R555). -/
def sdClosed (s : State) : Bool :=
  s.shut.way != .none || fatalRuns s || (s.start.phase != .ready && s.start.phase != .safe)

/-- The computation of R542 starts. -/
def armStart (s : State) : State := putF s SD SD_STAT_ARM_RESULT 0xF

/-- The computation ends: the checks that fail are taken in the order worn buffer, no partition, buffer size, hold-up
(log 20). -/
def armEnd (s : State) : State :=
  let r := if bruWorn s then 4 else if !(s.part.parts.any resumable) then 3
    else if 24576 < armSize s then 2 else if armLimit s < armSize s then 1 else 0
  let s := putF (putF s SD SD_BR_SIZE_LIMIT (armLimit s)) SD SD_BR_SIZE_SIZE (armSize s)
  evtPulse (putFlag (putF s SD SD_STAT_ARM_RESULT r) SD SD_STAT_ARMED (r = 0)) SD 0

/-- ARMED clears (R543). -/
def disarmNow (s : State) : State :=
  if flag s SD SD_STAT_ARMED then evtPulse (putFlag s SD SD_STAT_ARMED false) SD 1 else s

/-! ### Snapshots (R540, R544, R545) -/

/-- The snapshot of a buffer, where its header unit can be read (06_keep.md R135). -/
def snapOf (s : State) (b : Nat) : Option Snapshot :=
  if unreadable s (bruUnit b 0).1 (bruUnit b 0).2 then none else if b = 0 then s.shut.buf0 else s.shut.buf1

/-- The newer of two snapshots with its buffer. -/
def snapNewest (s : State) : Option (Nat × Snapshot) :=
  match snapOf s 0, snapOf s 1 with
  | some a, some b => if a.seq < b.seq then some (1, b) else some (0, a)
  | some a, none => some (0, a)
  | none, some b => some (1, b)
  | none, none => none

/-- Partitions a capture takes (R544). -/
def snapParts (s : State) : List PartEntry :=
  (List.range 64).filterMap fun n => (partEntry s n).filter fun e =>
    let st := partStateOn s e.die n
    resumable e && (st = pLive || st = pFenced) && !flag s (icPage e.die) (IC_PSTAT_SOURCE.nth n) && !isolated s e.die

/-- Header and sections of the capture that begins: buffer and snapshot, contents not read yet. -/
def snapBegin (s : State) (reason : Nat) : Nat × Snapshot :=
  let (buf, seq) := match snapNewest s with | some (k, x) => (1 - k, x.seq + 1) | none => (0, 1)
  let ps := snapParts s
  let sec := fun (e : PartEntry) =>
    ({ part := e.no, die := e.die, mem := brMem s e.no, incomplete := false, cFirst := e.cFirst, cLast := e.cLast
       nb := if brMem s e.no then (ramBanks s e).length else 0
       nd := if brMem s e.no then (ramDeeps s e).length else 0 } : SnapSec)
  (buf, { seq := seq, state := 1, reason := reason, root := ilRoot s, rtc := s.pow.rtc, time := s.hub.now
          units := 1 + (ps.map (sectionUnits s)).sum, secs := ps.map sec })

/-- The contents of a section are read (R540). -/
def secRead (s : State) (x : SnapSec) : SnapSec :=
  let e : PartEntry := { no := x.part, die := x.die, cFirst := x.cFirst, cLast := x.cLast, client := 0, flags := 0 }
  let ffs := (s.fab.shadow.filter fun (c : Nat × Frame) =>
    capKey x.die (4 * x.cFirst) ≤ c.1 && decide (c.1 < capKey x.die (4 * x.cLast + 4))).map fun (c : Nat × Frame) => (c.1 % 4096, c.2)
  let banks := if x.mem then (ramBanks s e).flatMap fun b => (bankMem s x.die b).rows.map fun r => (b * 1024 + r.1, r.2) else []
  let deeps := if x.mem then (ramDeeps s e).flatMap fun j => (deepMem s x.die j).words.map fun w => (j * 131072 + w.1, w.2) else []
  { x with incomplete := s.shut.incomplete.contains x.part, ffs := ffs, banks := banks, deeps := deeps }

/-- Once no network is left to capture, the contents of the snapshot are read. -/
def capAllDone (s : State) : State :=
  match s.shut.snap with
  | none => s
  | some (b, x) =>
    if s.shut.capLeft.any fun (e : Nat × List Nat) => e.2 != [] then s
    else { s with shut := { s.shut with capLeft := [], snap := some (b, { x with secs := x.secs.map (secRead s) }) } }

/-- Network `net` of `die` leaves the sequencer's capture. -/
def capLeave (s : State) (die net : Nat) : State :=
  capAllDone { s with shut := { s.shut with capLeft := tabPut s.shut.capLeft die (setDel (tabOr [] s.shut.capLeft die) net) } }

/-- The sequencer's capture holds network `net` of `die`. -/
def capHas (s : State) (die net : Nat) : Bool := (tabOr [] s.shut.capLeft die).contains net

/-- A tile of columns `lo` to `hi` selects network `net` as CLKA or CLKB (R540). -/
def tileSelects (s : State) (die lo hi net : Nat) : Bool :=
  ((List.range (hi + 1 - lo)).map (· + lo)).any fun c => (List.range 480).any fun t =>
    netOfSel (bandOf c) (tileField s die c t 768 6) = some net || netOfSel (bandOf c) (tileField s die c t 774 6) = some net

/-- The flip-flops of network `net` are latched for the snapshot and the network stops (R540). -/
def capTake (s : State) (die net : Nat) : State :=
  capLeave (netEnable (capLatch s die net) die net false) die net

/-! ### The steps of R538 -/

/-- Joined fabric dies. -/
def joinedFabric (s : State) : List Nat := (List.range 8).filter fun d => !isolated s d

/-- Open journal windows close and no further record is requested (06_keep.md R146). -/
def windowsClose (s : State) : State :=
  let s := s.keep.windows.foldl windowClose s
  { s with keep := { s.keep with pfwClosed := true } }

/-- PFW_N abandons the initialisation of ranges (16_external_memory.md R433). -/
def initsStop (s : State) : State :=
  { s with ddr := { s.ddr with chans := s.ddr.chans.map fun (e : Nat × DdrChan) => (e.1, { e.2 with init := [] }) } }

/-- The user area takes no write from PFW_N's fall on (06_keep.md R151). -/
def pfwLowSet (s : State) : State := { s with keep := { s.keep with pfwLow := true } }

/-- Marker, STATE and snapshot REASON of a way down. -/
def wayCodes (w : Way) : Nat × Nat × Nat :=
  match w with | .lastGasp => (3, 1, 1) | .torpor => (4, 0, 2) | .orderly => (5, 2, 3) | .none => (0, 0, 0)

/-- Step 2 of R538, as way `w`. -/
def wayBegin (s : State) (w : Way) : State :=
  let armed := flag s SD SD_STAT_ARMED && s.start.phase = .ready
  let snap := if armed then some (snapBegin s (wayCodes w).2.2) else none
  let s := { s with
    shut := { s.shut with way := w, step := 2, snap := snap, incomplete := [], noHeader := false, restart := false }
    start := { s.start with ready := false, phase := .down } }
  let s := bbMarker (quenchAll s) (wayCodes w).1 0
  let s := windowsClose (putF s SD SD_STAT_STATE (wayCodes w).2.1)
  let s := (joinedFabric s).foldl capAbandonAll s
  if armed then
    { s with shut := { s.shut with capLeft := (joinedFabric s).map fun d => (d, List.range 96) } }
  else (joinedFabric s).foldl (fun s d => (List.range 96).foldl (fun s n => netEnable s d n false) s) s

/-- The self-test record that can be read: of the copies that are present and whose tag verifies K0's first; where neither
verifies, K0's first as it stands (06_keep.md R139; log 84). -/
def testBest (s : State) : Option TestRec :=
  let copy := fun (die : Nat) (r : Option TestRec) => if recReadable s die 3 then r else none
  let a := copy 13 s.shut.test0
  let b := copy 14 s.shut.test1
  (a.filter (·.tagOk)).orElse fun _ => (b.filter (·.tagOk)).orElse fun _ => a.orElse fun _ => b

/-- The self-test record is written, or erased, on the keep dies that can be reached (06_keep.md R136, 04_start.md R600). -/
def testPut (s : State) (r : Option TestRec) : State :=
  programMirrored { s with shut := { s.shut with test0 := copyOn s 13 r s.shut.test0
                                                 test1 := copyOn s 14 r s.shut.test1 } } (recUnit 3)

/-- Every LE group of a die is dropped (R539). -/
def groupsDrop (s : State) (die : Nat) : State :=
  (List.range 4).foldl (fun s q =>
    let i := 16 + q
    dropLoss (dropRegs (setDom s die i { domOf s die i with state := 2 }) die i) die i) s

/-- Load is shed (R539). -/
def shed (s : State) : State :=
  let s := pcieDown (pcieDown (lanesOff s) 0) 1
  let s := (s.le.eng.map fun (e : Nat × Engine) => e.1).foldl (fun s k => engAbort s (k / 512) (k % 512) true .off) s
  let s := (joinedFabric s).foldl groupsDrop s
  let s := secStop (coresStop s)
  let s := { s with ddr := { s.ddr with chans := s.ddr.chans.map fun (e : Nat × DdrChan) =>
    (e.1, { e.2 with cache := [], selfRefresh := e.2.enabled }) } }
  let s := (List.range 8).foldl (fun s d => icpFail s d 0xE) s
  (List.range 8).foldl (fun s d =>
    if (tabGet s.fab.rb d).join.isSome then
      evtPulse (putF { s with fab := { s.fab with rb := tabDel s.fab.rb d } } (cfPage d) CF_RB_STAT_RESULT 3) (cfPage d) 1
    else s) s

/-- A snapshot's units 1 onward are programmed. -/
def snapUnits (s : State) (b n : Nat) : State :=
  ((List.range (n - 1)).map (· + 1)).foldl (fun s u => programUnit s (bruUnit b u).1 (bruUnit b u).2) s

/-- A buffer holds `x`. -/
def setBuf (s : State) (b : Nat) (x : Option Snapshot) : State :=
  if b = 0 then { s with shut := { s.shut with buf0 := x } } else { s with shut := { s.shut with buf1 := x } }

/-- The caches of the system cores are written back and left invalid before they are tested (R551): by the security core's
program itself, past the quench lines. -/
def cachesEmpty (s : State) : State :=
  let dirty := s.hub.cache.filter fun (e : Nat × CacheLine) => e.2.dirty
  let s := dirty.foldl (fun s (e : Nat × CacheLine) => (busWrite s e.2.owner (64 * e.1) e.2.bytes).1) s
  { s with hub := { s.hub with cache := [] } }

/-- REASON of the black-box copy of a way down. -/
def copyReason (w : Way) : Nat := match w with | .lastGasp => 2 | .torpor => 3 | .orderly => 4 | .none => 0

/-- The Keep writes of a way down are complete; a transfer that PFW_N stopped has ended (06_keep.md R142). -/
def wayDone (s : State) : State :=
  let s := if s.keep.pfwLow then xferEnd s 3 else s
  match s.shut.way with
  | .lastGasp =>
    let s := putF s SD SD_STAT_STATE 4
    if s.pin.tripHold then { s with shut := { s.shut with way := .none, step := 0 }, start := { s.start with failLow := true } }
    else if s.shut.restart then startTrigger s else { s with shut := { s.shut with way := .none, step := 0 } }
  | .orderly =>
    if getF s SD SD_CFG_TEST = 2 then
      putF { s with shut := { s.shut with way := .none, step := 0, done := true } } SD SD_STAT_STATE 4
    else putF (cachesEmpty { s with shut := { s.shut with step := 9 } }) SD SD_STAT_STATE 3
  | .torpor => { s with shut := { s.shut with step := 10 } }
  | .none => s

/-- The present step ends and the next begins (R538); step 7 waits for the capture, and no second copy is written while the
sequence of a FATAL runs (20_errors.md R516). -/
def wayStep (s : State) : State :=
  let go := fun (s : State) (n : Nat) => ({ s with shut := { s.shut with step := n } } : State)
  match s.shut.step with
  | 2 => go (shed s) 3
  | 3 => go (commitAll s s.keep.appends.length) 4
  | 4 => go (userFlush s) 5
  | 5 => go (if fatalRuns s then s else bbCopyWrite s (copyReason s.shut.way) true) 6
  | 6 =>
    match s.shut.snap with
    | none => wayDone s
    | some (b, x) =>
      if s.shut.capLeft != [] then s
      else go (snapUnits (setBuf s b none) b x.units) 7
  | 7 =>
    match s.shut.snap with
    | none => wayDone s
    | some (b, x) =>
      if s.shut.noHeader then wayDone (go s 8)
      else wayDone (go (programUnit (setBuf s b (some x)) (bruUnit b 0).1 (bruUnit b 0).2) 8)
  | _ => s

/-- An orderly shut-down begins (R549). -/
def orderlyBegin (s : State) : State := evtPulse (wayBegin s .orderly) SD 2

/-! ### Resume (R546 to R548) -/

/-- S8: each valid header with STATE 1 becomes CONSUMED; K0, which holds both headers, cannot be programmed while it is lost
(04_start.md R600). -/
def snapConsume (s : State) : State :=
  [0, 1].foldl (fun s b =>
    match snapOf s b with
    | some x => if x.state = 1 && keepReach s 13 then programUnit (setBuf s b (some { x with state := 2 })) (bruUnit b 0).1 (bruUnit b 0).2 else s
    | none => s) s

/-- CAUSE of the newest snapshot as a whole, 0 where it can be used (R547); `k0`: its header can be read. -/
def snapCause (s : State) (x : Snapshot) : Nat :=
  let age := getF s SD SD_BR_CFG_MAX_AGE_S
  if x.state != 1 then 2
  else if x.root != ilRoot s then 3
  else if age != 0 && !(flag s CU CU_OSC_STAT_RTC_OK && decide (x.rtc ≤ s.pow.rtc) && decide (s.pow.rtc - x.rtc ≤ age * 32768)) then 4
  else 0

/-- The sections of a snapshot that resume (R547). -/
def snapSecs (s : State) (x : Snapshot) : List SnapSec :=
  x.secs.filter fun c => !c.incomplete && !isolated s c.die &&
    match partEntry s c.part with
    | some e => resumable e && e.die = c.die && e.cFirst = c.cFirst && e.cLast = c.cLast
    | none => false

/-- A section is written: flip-flops and memories of its extent (R548). -/
def secWrite (s : State) (c : SnapSec) : State :=
  let e : PartEntry := { no := c.part, die := c.die, cFirst := c.cFirst, cLast := c.cLast, client := 0, flags := 0 }
  let s := ((List.range (4 * (c.cLast + 1 - c.cFirst))).map (· + 4 * c.cFirst)).foldl (fun s n =>
    if tabOr 0 c.ffs n = ffGet s c.die n then s else ffPut s c.die n (tabOr 0 c.ffs n)) s
  if !c.mem then s
  else
    let s := (ramBanks s e).foldl (fun s b =>
      bankRecheck (filledAdd (setBank s c.die b { bankMem s c.die b with
        rows := (c.banks.filter fun (r : Nat × BitVec 72) => r.1 / 1024 = b).map fun (r : Nat × BitVec 72) => (r.1 % 1024, r.2) })
        c.die b) c.die b) s
    (ramDeeps s e).foldl (fun s j =>
      setDeep s c.die j { deepMem s c.die j with
        words := (c.deeps.filter fun (r : Nat × BitVec 72) => r.1 / 131072 = j).map fun (r : Nat × BitVec 72) => (r.1 % 131072, r.2)
        wb := [] }) s

/-- The resume of S5; `ok`: partitions whose units could be read and verify (R547, R548). Units are striped over both keep
dies: K0 holds both headers, and without K1 the DIGEST fails. -/
def resumeS5 (s : State) (ok : List Nat) : State :=
  match if s.start.k0Lost then none else snapNewest s with
  | none => putF s SD SD_SNAP_CAUSE 1
  | some (b, x) =>
    let s := putF (putF (putF (putFlag s SD SD_SNAP_VALID true) SD SD_SNAP_BUF b) SD SD_SNAP_REASON x.reason) SD SD_SNAP_SEQ_SEQ x.seq
    let s := putF (putF s SD SD_SNAP_RTC_LO_RTC (x.rtc % 2 ^ 32)) SD SD_SNAP_RTC_HI_RTC (x.rtc / 2 ^ 32)
    let s := putF (putF s SD SD_SNAP_TIME_LO_TIME (x.time % 2 ^ 32)) SD SD_SNAP_TIME_HI_TIME (x.time / 2 ^ 32)
    let cause := snapCause s x
    if cause != 0 then putF s SD SD_SNAP_CAUSE cause
    else
      let secs := snapSecs s x
      let s := secs.foldl secWrite s
      let ids := secs.map (·.part)
      if s.start.k1Lost || ids.any (fun p => !ok.contains p) then
        putF { s with shut := { s.shut with heldBySnap := ids } } SD SD_SNAP_CAUSE 5
      else
        let s := setReg s (SD + SD_RES_LO_RES.off) (BitVec.ofNat 32 (ofBits (ids.filter (· < 32))))
        let s := setReg s (SD + SD_RES_HI_RES.off) (BitVec.ofNat 32 (ofBits ((ids.filter (32 ≤ ·)).map (· - 32))))
        let s := putF s SD SD_SNAP_PARTS ids.length
        if ids = [] then s else putFlag (putFlag s SD SD_SNAP_USED true) SQ SQ_STAT_RESUMED true

/-! ### Registers -/

/-- The block fault of a write to the SD_ page (R555, R556). -/
def sdFault (s : State) (off : Nat) (w : Word) : Option Nat :=
  if off != 0x040 || w.toNat / 2 ^ 29 = 0 then none
  else if sdClosed s then some 0x0100
  else if nBit w.toNat 30 && getF s SD SD_STAT_ARM_RESULT = 0xF then some 0x0101
  else none

/-- What an accepted write to the SD_ page does. -/
def sdWritten (s : State) (off : Nat) (w : Word) : State :=
  if off = 0x040 then
    if nBit w.toNat 31 then orderlyBegin s else if nBit w.toNat 30 then armStart s else if nBit w.toNat 29 then disarmNow s else s
  else if off = 0x044 || off = 0x04C || off = 0x050 then disarmNow s
  else s

/-- Regions a die carries (R551). -/
def stRegions (die : Nat) : List Nat :=
  if isFabric die then [0x10, 0x11, 0x12, 0x13, 0x14]
  else if isLane die then [0x20, 0x21, 0x22]
  else if isKeep die then [0x30] else [0x01, 0x02, 0x03, 0x04]

/-- A block of region `r` of a die runs, or a partition its extent touches is neither HELD nor OFF (R554). The whole die
stands for the extent of a region of a fabric die. -/
def stBusy (s : State) (die r : Nat) (runs : Nat → Nat → Bool) : Bool :=
  let part := isFabric die && (dieParts s die).any fun e => partStateOn s die e.no != pHeld && partStateOn s die e.no != pOff
  let pages : List Nat := match r with
    | 0x02 => [0xC000] | 0x03 => [0xB000]
    | 0x04 => (List.range 8).map (0x1000 + ·) ++ (List.range 8).map (0xC010 + ·) ++ [0xC008, 0xC020, 0xC030]
    | 0x10 => [0x5000] | 0x11 => (List.range 64).map (0x7000 + ·) | 0x12 => (List.range 32).map (0x7100 + ·)
    | 0x13 => (List.range 288).map (0x6000 + ·)
    | 0x14 => (List.range (routerCount die)).map (0x1000 + ·) ++ (List.range 20).map (0x2000 + ·)
        ++ (List.range 288).map (0x6000 + ·) ++ [0xA000, 0xA001]
    | 0x20 => [0x9000] | 0x21 => [0x9000]
    | 0x22 => (List.range 16).map (0x9100 + ·) ++ [0x8100, 0xC100] | 0x30 => [0xE000] | _ => []
  part || pages.any (runs die)

/-- A direct self-test starts (R554); with SAVE the caches of the system cores are written back first (R551). -/
def stStart (s : State) (die : Nat) : State :=
  let s := if getF s (stPage die) ST_CMD_REGION = 0x02 && flag s (stPage die) ST_CMD_SAVE then cachesEmpty s else s
  putF (putFlag s (stPage die) ST_STAT_BUSY true) (stPage die) ST_STAT_RESULT 0

/-- PFW_N stops every running direct test: RESULT 3 (R555, R557). -/
def stStop (s : State) : State :=
  (List.range 15).foldl (fun s d =>
    if flag s (stPage d) ST_STAT_BUSY then putF (putFlag s (stPage d) ST_STAT_BUSY false) (stPage d) ST_STAT_RESULT 3 else s) s

/-! ### Torpor entry (18_power.md R480, R481) -/

/-- ARM is 1 and CORE has no vote, after READY and while nothing else goes down. -/
def torporDue (s : State) : Bool :=
  s.start.phase = .ready && s.shut.way = .none && !s.err.fatal && flag s (pdPage 8 1) PD_TORPOR_ARM && !domVoted s 8 1

/-- Torpor entry begins where it is due. -/
def torporBegin (s : State) : State :=
  if torporDue s then putFlag (wayBegin s .torpor) (pdPage 8 1) PD_TORPOR_ENTERING true else s

end Sys2Proof.Machine
end

