-- ==== Sys2Proof/Machine/Security.lean ====
section
/-! DEFINITION. The security core (19_security.md): life-cycle record, commands of R505 and the attestation report. -/

namespace Sys2Proof.Machine

/-! ### Keys (R493) -/

/-- The keys derived from the device secret at every start. -/
def keysDerive (s : State) : State :=
  let key := fun (custom : String) => BitVec.ofNat 256 (Config.kmac256 Config.deviceSecret custom 256 [])
  { s with sec := { s.sec with recKey := some (key "RECORD"), wrapKey := some (key "IDWRAP") } }

/-! ### Requests (R505) -/

/-- The security core serves commands: from S2 on, in the safe state too. -/
def secServes (s : State) : Bool :=
  !s.pow.torpor && s.pin.pfwN &&
    match s.start.phase with
    | .off | .resetHeld | .pfwHeld | .s0 | .s1 | .s1Hold | .s2Pll | .s2Records | .down => false
    | _ => true

/-- States that permit the test window (R501). -/
def testWindowOk (s : State) : Bool := s.sec.lc = 0 || s.sec.lc = 1 || s.sec.lc = 4

/-- The request served next, where none runs: ascending mailboxes, the test window last. -/
def reqFirst (s : State) : Option Nat := (((List.range 8).map (40 + ·)) ++ [127]).find? (reqWaits s)

/-- The idle security core takes the request that is next (R505): BUSY, SOURCE and CODE show it, and its mailbox empties. -/
def secTake (s : State) : State :=
  match s.sec.run, reqFirst s with
  | none, some m =>
    if !secServes s then s
    else
      let ws := reqHeld s m
      let s : State := { s with sec := { s.sec with run := some { at_ := m, words := ws } } }
      let s := putFlag (putF (putF s SC SC_CMD_STAT_SOURCE m) SC SC_CMD_STAT_CODE (ws.getD 0 0 % 256)) SC SC_CMD_STAT_BUSY true
      if m = 127 then s else mbTaken s m
  | _, _ => s

/-- The request of `m` runs, and its reply can be sent: a mailbox that was filled again in the meantime has to be emptied first
(log 111). -/
def secRuns (s : State) (m : Nat) : Bool :=
  secServes s && (s.sec.run.map (·.at_)) == some m && (m = 127 || !(mboxOf s m).full)

/-- The command at `m` with code `code` ends with a status and a byte count, and the reply is sent. -/
def secReply (s : State) (m code status bytes : Nat) : State :=
  let s := putFlag (putF { s with sec := { s.sec with run := none } } SC SC_CMD_STAT_STATUS status) SC SC_CMD_STAT_BUSY false
  let words := [2 ^ 31 + status * 256 + code % 256, bytes, 0, 0, 0, 0, 0, 0]
  if m = 127 then
    putFlag (words.zipIdx.foldl (fun s wi => setReg s (SC + 0x080 + 4 * wi.2) (BitVec.ofNat 32 wi.1)) s) SC SC_TGO_BUSY false
  else mbPost s m 4 words

/-- What a command comes to: the state after its effect, its status and the bytes written to the buffer. -/
structure SecRes where
  s : State
  status : Nat
  bytes : Nat := 0

/-- `n` bytes from `a` touch no protected range and no tag region of a DDR channel. -/
def plainMem (s : State) (a n : Nat) : Bool :=
  (List.range ((n + 63) / 64)).all fun k =>
    match ddrMap s (a + 64 * k) with
    | some (ch, o) => (rangeOf s ch (o / 64)).isNone && !inTags s ch (o / 64)
    | none => true

/-- Address of the command buffer of `n` bytes; none where it is not 64-byte aligned in hub SRAM, or in DDR outside every
protected range and tag region. -/
def secBuf (s : State) (n : Nat) : Option Nat :=
  let a := reqWord s 2 + reqWord s 3 * 2 ^ 32
  if a % 64 = 0 && ((a < 0x20000000000 && plainMem s a n) || (0x31000000000 ≤ a && a < 0x31000800000)) then some a else none

/-- Bytes of the buffer that the command with code `code` may read or write. -/
def secSpan (s : State) (code : Nat) : Nat :=
  match code with
  | 1 => 1664
  | 2 => ((certBest s).map (·.bytes.length)).getD 0
  | 5 => 32
  | 7 => if reqWord s 1 = 4 then 1280 else 0
  | 8 => 32
  | 9 => 1793
  | 0xA => min (reqWord s 1) 8192
  | _ => 0

/-- The buffer of the command lies in memory that wakes or trains: the command waits (01_package.md R31). -/
def secStall (s : State) (code : Nat) : Option State :=
  match secBuf s (secSpan s code) with
  | none => none
  | some a => if secSpan s code = 0 then none else busStall s 4 a (secSpan s code)

/-- The command with code `code` at `m` ends, once it has been taken: nothing where no such request is next. -/
def secServe (s : State) (m code : Nat) (f : State → SecRes) : State :=
  let u := secTake s
  if !secRuns u m || reqWord u 0 != code then s
  else
    match secStall u code with
    | some v => v
    | none => secReply (f u).s m code (f u).status (f u).bytes

/-- `n` bytes read from the buffer. -/
def bufRead (s : State) (n : Nat) (ok : Bool) (f : State → List Byte → SecRes) : SecRes :=
  match secBuf s n with
  | none => { s := s, status := 2 }
  | some a =>
    let r := busRead s 4 a n
    if ok && r.2.1 = 0 then f r.1 r.2.2 else { s := r.1, status := 3 }

/-- `bs` written to the buffer. -/
def bufWrite (s : State) (bs : List Byte) (ok : Bool) : SecRes :=
  match secBuf s bs.length with
  | none => { s := s, status := 2 }
  | some a =>
    let r := busWrite s 4 a bs
    if ok && r.2 = 0 then { s := r.1, status := 0, bytes := bs.length } else { s := r.1, status := 3 }

/-! ### The attestation report (R507) -/

/-- The header fields of R120 as bytes spell them. -/
def headerOfBytes (bs : List Byte) : Header :=
  let g := fun (o n : Nat) => ofBytes ((bs.drop o).take n)
  { magic := g 0 4, formatVer := g 4 2, kind := g 6 1, flags := g 7 1, family := g 8 4, device := g 12 4, dieCount := g 16 1
    rsv11 := g 17 1, streamMask := g 18 2, imageLen := g 20 8, secVer := g 28 2, secCtr := g 30 1, rsv1f := g 31 1
    signerHash := g 32 32, root := g 64 32, groupCount := g 96 4, nodeCount := g 100 4, nodeOff := g 104 8
    tableOff := g 112 8, tableFrames := g 120 4, tableStored := g 124 4, partOff := g 128 4, partLen := g 132 4
    seqOff := g 136 4, seqLen := g 140 4, routeOff := g 144 4, routeLen := g 148 4, rsv98 := g 152 104
    streams := (List.range 16).map fun d =>
      let o := 0x100 + 32 * d
      { frames := g o 4, firstGroup := g (o + 4) 4, offset := g (o + 8) 8, stored := g (o + 16) 8, rest := g (o + 24) 8 }
    part := { magic := g 0x300 4, partNo := g 0x304 1, die := g 0x305 1, cFirst := g 0x306 2, cLast := g 0x308 2
              pflags := g 0x30A 1, rsv1 := g 0x30B 1, designId := g 0x30C 2, rsv2 := g 0x30E 2, baseRoot := g 0x310 32
              rsv3 := g 0x330 80 }
    rsv380 := g 0x380 128 }

/-- SLOTINFO bytes of a header. -/
def slotInfo (h : Header) (status : Nat) : List Byte :=
  toBytes 32 h.root ++ toBytes 2 h.secVer ++ toBytes 1 h.secCtr ++ toBytes 1 status ++ toBytes 4 0

/-- SLOTINFO of slot `k`, 1 A, 2 B, 3 GOLDEN: its header is reread; it counts as verified where this start verified it and no
transfer has written the units that hold header and signature since. -/
def slotEntry (s : State) (k : Nat) : List Byte :=
  let unit := striped (slotMib k) 0
  match tabGet s.sec.verified k with
  | some h => if unreadable s unit.1 unit.2 || !keepReach s 13 then slotInfo { } 0 else slotInfo h 2
  | none =>
    let h := headerOfBytes (memRead s.keep.slots (k * 0x50000000) 1024)
    if keepReach s 13 && !unreadable s unit.1 unit.2 && headerCheck1 h 1342177280 then slotInfo h 1 else slotInfo { } 0

/-- The newest committed record of the journal. -/
def journalNewest (s : State) : Option JUnit :=
  s.keep.journal.foldl (fun b e =>
    match e.2 with
    | none => b
    | some r =>
      if r.committed && r.magicOk && r.tagOk && r.readable && (b.map (fun (x : JUnit) => decide (x.seq < r.seq))).getD true then some r
      else b) none

/-- A unit whose bytes 0 to 4,079 begin with `bs`, with its tag under the device record key, ended by `last` (06_keep.md R139,
R143). -/
def taggedUnit (s : State) (bs last : List Byte) : List Byte :=
  let h := (bs ++ List.replicate 4080 0).take 4080
  h ++ toBytes 8 (Config.kmac256 (s.sec.recKey.getD 0) "" 64 h) ++ last

/-- The 4,096 bytes of a committed journal record (06_keep.md R143). -/
def journalBytes (s : State) (r : JUnit) : List Byte :=
  taggedUnit s (toBytes 4 0x4A524331 ++ toBytes 6 r.seq ++ toBytes 2 r.entries.length ++ toBytes 4 r.page
    ++ toBytes 4 r.pageId.toNat ++ toBytes 4 r.sel.toNat ++ toBytes 8 0
    ++ r.entries.flatMap fun e => toBytes 4 e.1 ++ toBytes 4 e.2.toNat) (toBytes 8 0x5A5A3C3CA5A5C3C3)

/-- The 4,096 bytes of a self-test record whose tag verifies (21_shutdown.md R552). -/
def testBytes (s : State) (r : TestRec) : List Byte :=
  taggedUnit s (toBytes 4 0x53545231 ++ toBytes 1 r.result ++ toBytes 1 r.variant ++ toBytes 1 r.die ++ toBytes 1 r.region
    ++ toBytes 4 r.index ++ toBytes 8 r.rtc ++ toBytes 4 r.duration ++ toBytes 32 r.root) (toBytes 8 0)

/-- Bytes 0x000 to 0x17F of the report; `td`, `ts`: free values for the digest of a self-test record whose tag fails, and for
the self-test state of a FAIL record (log 5). -/
def reportBytes (s : State) (nonce : List Byte) (td ts : Nat) : List Byte :=
  let hash := match s.sec.idPub with | some p => (Config.shake256 p).toNat | none => 0
  let fl := ofBool (flag s SQ SQ_STAT_FALLBACK) + 2 * ofBool (flag s SQ SQ_STAT_TRIAL) + 4 * ofBool (flag s SQ SQ_STAT_QUICK_TEST)
    + 8 * ofBool (flag s KP KP_STAT_FROZEN) + 16 * ofBool (s.sec.alarms != 0)
  let test := s.sec.testRead
  let tst := match test with
    | none => 0
    | some t => if !t.tagOk then 0 else if t.result = 1 then 1 else ts
  toBytes 4 0x52545441 ++ toBytes 2 1 ++ toBytes 1 s.sec.lc ++ toBytes 1 fl ++ toBytes 4 8
    ++ toBytes 4 (getF s SC SC_REPORTS_COUNT + 1) ++ (nonce ++ List.replicate 32 0).take 32 ++ toBytes 32 hash
    ++ toBytes 8 (s.pow.rtc % 2 ^ 48) ++ toBytes 8 s.hub.now
    ++ (if s.sec.active then slotInfo s.load.hdr 2 else slotInfo { } 0) ++ slotEntry s 1 ++ slotEntry s 2 ++ slotEntry s 3
    ++ (List.range 16).flatMap (fun k => toBytes 2 ((ctrValue s k).getD 0))
    ++ toBytes 32 (match journalNewest s with | some r => (Config.shake256 (journalBytes s r)).toNat | none => 0)
    ++ toBytes 8 (nextSeq s)
    ++ toBytes 32 (match test with | some r => if r.tagOk then (Config.shake256 (testBytes s r)).toNat else td | none => 0)
    ++ toBytes 8 tst
    ++ toBytes 4 (getReg s (SQ + 0x040)).toNat ++ toBytes 4 (getReg s (SQ + 0x044)).toNat
    ++ toBytes 4 s.sec.alarms ++ toBytes 4 0

/-! ### Commands -/

/-- What ATTEST comes to once it is served (R505). -/
def attestRun (bufOk : Bool) (s : State) : SecRes :=
  if s.sec.lc = 0 || 5 ≤ s.sec.lc || s.sec.idPub.isNone then { s := s, status := 1 }
  else
    bufRead s 32 bufOk fun s nonce =>
      let (td, s) := freeVal s 256
      let (ts, s) := freeVal s 8
      let msg := reportBytes s nonce td ts
      let sig := (Config.falconSign (Config.gcmOpen (s.sec.wrapKey.getD 0) s.sec.idKey) s.freeIdx msg ++ List.replicate 1280 0).take 1280
      let s := putF { s with freeIdx := s.freeIdx + 1 } SC SC_REPORTS_COUNT ((getF s SC SC_REPORTS_COUNT + 1) % 2 ^ 32)
      bufWrite s (msg ++ sig) bufOk

/-- ATTEST. -/
def execAttest (m : Nat) (bufOk : Bool) (s : State) : Host.Outcome State Fault Refusal :=
  .next (secServe s m 1 (attestRun bufOk))

/-- What GET_CERT comes to once it is served (R502). -/
def getCertRun (bufOk : Bool) (s : State) : SecRes :=
  if s.sec.lc = 0 || 5 ≤ s.sec.lc then { s := s, status := 1 }
  else match certBest s with
    | none => { s := s, status := 2 }
    | some c => bufWrite s c.bytes bufOk

/-- GET_CERT (R502). -/
def execGetCert (m : Nat) (bufOk : Bool) (s : State) : Host.Outcome State Fault Refusal :=
  .next (secServe s m 2 (getCertRun bufOk))

/-- A counter command may run: state, an active image, no fallback where `fb` forbids it (R504). -/
def ctrCmdOk (s : State) (fb : Bool) : Bool :=
  2 ≤ s.sec.lc && s.sec.lc ≤ 4 && s.sec.active && !(fb && flag s SQ SQ_STAT_FALLBACK)

/-- Counter `k` is raised to `v` where `v` is higher; a failed Keep write gives status 0x4. -/
def ctrCmd (s : State) (k v : Nat) (keepOk : Bool) : SecRes :=
  let now := ctrValue s k
  if now.any (v ≤ ·) then { s := s, status := 0 }
  else if keepOk && recWritable s (16 + k) then { s := ctrRaise s k v, status := 0 }
  else { s := s, status := 4 }

/-- What COMMIT_VERSION comes to once it is served (R504). -/
def commitVersionRun (keepOk : Bool) (s : State) : SecRes :=
  if !ctrCmdOk s true then { s := s, status := 1 } else ctrCmd s s.load.hdr.secCtr s.load.hdr.secVer keepOk

/-- COMMIT_VERSION (R504). -/
def execCommitVersion (m : Nat) (keepOk : Bool) (s : State) : Host.Outcome State Fault Refusal :=
  .next (secServe s m 3 (commitVersionRun keepOk))

/-- What SET_CTR comes to once it is served (R504, R141). -/
def setCtrRun (keepOk : Bool) (s : State) : SecRes :=
  let k := nGet (reqWord s 1) 16 4
  let v := nGet (reqWord s 1) 0 16
  let h := s.load.hdr
  if !ctrCmdOk s false then { s := s, status := 1 }
  else if k = 15 || (h.secCtr = k && h.secVer < v) || (ctrValue s k).any (v < ·) then { s := s, status := 2 }
  else ctrCmd s k v keepOk

/-- SET_CTR (R504); a value below the counter is refused (06_keep.md R141). -/
def execSetCtr (m : Nat) (keepOk : Bool) (s : State) : Host.Outcome State Fault Refusal :=
  .next (secServe s m 4 (setCtrRun keepOk))

/-- `s` with a signer slot written to the record. -/
def signerPut (s : State) (i : Nat) (x : Signer) : State :=
  let l := (List.range 4).map fun j => if j = i then x else signerOf s j
  let s := { s with sec := { s.sec with slots := l } }
  lcWrite s (lcRecNow s s.sec.lc s.sec.entryDone)

/-- What SIGNER_ADD comes to once it is served (R503). -/
def signerAddRun (bufOk keepOk : Bool) (s : State) : SecRes :=
  let i := reqWord s 1
  if s.sec.lc != 1 && s.sec.lc != 2 then { s := s, status := 1 }
  else if 4 ≤ i || (signerOf s i).valid then { s := s, status := 2 }
  else
    bufRead s 32 bufOk fun s bs =>
      if keepOk && recWritable s 2 then { s := signerPut s i { hash := ofBytes bs, valid := true }, status := 0 }
      else { s := s, status := 4 }

/-- SIGNER_ADD (R503). -/
def execSignerAdd (m : Nat) (bufOk keepOk : Bool) (s : State) : Host.Outcome State Fault Refusal :=
  .next (secServe s m 5 (signerAddRun bufOk keepOk))

/-- What SIGNER_REVOKE comes to once it is served (R503). -/
def signerRevokeRun (keepOk : Bool) (s : State) : SecRes :=
  let i := reqWord s 1
  let others := (List.range 4).any fun j => j != i && (signerOf s j).valid && !(signerOf s j).revoked
  if s.sec.lc = 0 || 5 ≤ s.sec.lc then { s := s, status := 1 }
  else if 4 ≤ i || !(signerOf s i).valid || !others then { s := s, status := 2 }
  else if keepOk && recWritable s 2 then { s := signerPut s i { signerOf s i with revoked := true }, status := 0 }
  else { s := s, status := 4 }

/-- SIGNER_REVOKE (R503). -/
def execSignerRevoke (m : Nat) (keepOk : Bool) (s : State) : Host.Outcome State Fault Refusal :=
  .next (secServe s m 6 (signerRevokeRun keepOk))

/-- What LC_ADVANCE comes to once it is served (R497, R498, R500). -/
def lcAdvanceRun (m : Nat) (token bufOk keepOk : Bool) (s : State) : SecRes :=
  let new := reqWord s 1
  let go := fun (s : State) =>
    if keepOk && recWritable s 2 && recWritable s 31 then ({ s := lcTransition s new, status := 0 } : SecRes)
    else { s := s, status := 4 }
  if !lcPermits s m new then { s := s, status := 1 }
  else if new = 4 then
    bufRead s 1280 bufOk fun s _ =>
      let good := token && s.sec.nonce.isSome
      let s := { s with sec := { s.sec with nonce := none } }
      if good then go s else { s := alarm s 5 8 0, status := 2 }
  else go s

/-- LC_ADVANCE (R497, R498, R500). -/
def execLcAdvance (m : Nat) (token bufOk keepOk : Bool) (s : State) : Host.Outcome State Fault Refusal :=
  .next (secServe s m 7 (lcAdvanceRun m token bufOk keepOk))

/-- What RETURN_NONCE comes to once it is served (R500). -/
def returnNonceRun (nonce : List (BitVec 8)) (bufOk : Bool) (s : State) : SecRes :=
  let n := (nonce ++ List.replicate 32 0).take 32
  let r := bufWrite s n bufOk
  if r.status = 0 then { r with s := { r.s with sec := { r.s.sec with nonce := some n } } } else r

/-- RETURN_NONCE (R500). -/
def execReturnNonce (m : Nat) (nonce : List (BitVec 8)) (bufOk : Bool) (s : State) : Host.Outcome State Fault Refusal :=
  .next (secServe s m 8 (returnNonceRun nonce bufOk))

/-- What PROVISION comes to once it is served (R502). -/
def provisionRun (pub : List (BitVec 8)) (bufOk keepOk : Bool) (s : State) : SecRes :=
  if s.sec.lc != 1 || s.sec.idPub.isSome then { s := s, status := 1 }
  else if !(keepOk && recWritable s 2) then { s := s, status := 4 }
  else
    let p := (pub ++ List.replicate 1793 0).take 1793
    let key := Config.gcmWrap (s.sec.wrapKey.getD 0) (Config.falconPrivate s.freeIdx)
    let s := { s with sec := { s.sec with idPub := some p, idKey := key }, freeIdx := s.freeIdx + 1 }
    bufWrite (lcWrite s (lcRecNow s s.sec.lc s.sec.entryDone)) p bufOk

/-- PROVISION (R502). -/
def execProvision (m : Nat) (pub : List (BitVec 8)) (bufOk keepOk : Bool) (s : State) : Host.Outcome State Fault Refusal :=
  .next (secServe s m 9 (provisionRun pub bufOk keepOk))

/-- What CERT_WRITE comes to once it is served (R502). -/
def certWriteRun (bufOk keepOk : Bool) (s : State) : SecRes :=
  let n := reqWord s 1
  if s.sec.lc != 1 then { s := s, status := 1 }
  else if n = 0 || 8192 < n then { s := s, status := 2 }
  else
    bufRead s n bufOk fun s bs =>
      if keepOk && recWritable s 32 && recWritable s 33 then
        let c : CertRec := { bytes := bs }
        let s := { s with sec := { s.sec with cert0 := copyOn s 13 (some c) s.sec.cert0
                                              cert1 := copyOn s 14 (some c) s.sec.cert1 } }
        { s := programMirrored (programMirrored s (recUnit 32)) (recUnit 33), status := 0 }
      else { s := s, status := 4 }

/-- CERT_WRITE (R502). -/
def execCertWrite (m : Nat) (bufOk keepOk : Bool) (s : State) : Host.Outcome State Fault Refusal :=
  .next (secServe s m 0xA (certWriteRun bufOk keepOk))

/-- What CLEAR_STEST comes to once it is served (R501). -/
def clearStestRun (keepOk : Bool) (s : State) : SecRes :=
  if s.sec.lc != 4 then { s := s, status := 1 }
  else if keepOk && recWritable s 3 then
    { s := testPut s none, status := 0 }
  else { s := s, status := 4 }

/-- CLEAR_STEST: the self-test record is removed (R501). -/
def execClearStest (m : Nat) (keepOk : Bool) (s : State) : Host.Outcome State Fault Refusal :=
  .next (secServe s m 0xB (clearStestRun keepOk))

/-- A command whose code the table does not list. -/
def execUnknownCommand (m : Nat) (s : State) : Host.Outcome State Fault Refusal :=
  .next <|
    let u := secTake s
    let c := reqWord u 0
    if !secRuns u m || (1 ≤ c && c ≤ 0xB) then s else secReply u m (c % 256) 0xF 0

/-! ### SC_ -/

/-- The block fault of an SC_ write (R509). -/
def scFault (s : State) (ini off : Nat) : Option Nat :=
  if (off = 0x070 || off = 0x078) && iniClass ini != 0 then some 0x0100
  else if 0x080 ≤ off && off ≤ 0x0A0 && (!testWindowOk s || iniClass ini != 5 || flag s SC SC_TGO_BUSY) then some 0x0101
  else none

/-- What an accepted write does: the test window's request; ALARM follows the source bits (R508). -/
def scWritten (s : State) (off : Nat) (w : Word) : State :=
  if off = 0x0A0 && wGet w 0 1 = 1 then putFlag s SC SC_TGO_BUSY true
  else if off = 0x070 then putFlag s SC SC_ALARM_ALARM (getF s SC SC_ALARM_SRC != 0)
  else s

end Sys2Proof.Machine
end

