-- ==== Sys2Proof/Machine/Shutdown.lean ====
section
/-! DEFINITION. Commands of the shut-down sequencer (21_shutdown.md R537 to R557), of captures while it runs (07_fabric.md
R185), and of torpor entry (18_power.md R480). -/

namespace Sys2Proof.Machine

/-- A start is under way: from S0 to the end of S7 (04_start.md R112). -/
def starting (p : StartPhase) : Bool :=
  match p with
  | .s0 | .s1 | .s1Hold | .s2Pll | .s2Records | .s2Quick | .s2HostHold | .s2Header | .s2Tables | .s3 | .s4 | .s5 | .s6 | .s7
  | .clearing => true
  | _ => false

/-- What PFW_N recognised low starts: last-gasp, or what R112 and R555 say where a start or another way down runs. -/
def pfwAct (s : State) : State :=
  let s := scrubStop (secStop (initsStop (dmaStopping (pfwLowSet s)))) false
  if starting s.start.phase then
    let s : State := { s with load := { s.load with stopped := true }, keep := { s.keep with pfwClosed := true } }
    let s := (List.range 8).foldl (fun s d => icpFail s d 0xE) (userFlush (xferEnd s 3))
    let s := bbCopyWrite s 5 true
    { s with start := { s.start with phase := .pfwHeld, abandoned := true, failLow := s.pin.tripHold } }
  else if s.start.phase = .ready || s.start.phase = .safe then
    if s.shut.way = .none then wayBegin (stStop (testsCut s)) .lastGasp else s
  else if s.shut.way = .orderly then
    let s := putF (bbMarker (testsCut s) 3 0) SD SD_STAT_STATE 1
    if s.shut.step = 9 then
      wayDone (bbCopyWrite { s with shut := { s.shut with way := .lastGasp } } 2 true)
    else
      let snap := s.shut.snap.map fun (x : Nat × Snapshot) => (x.1, { x.2 with reason := 1 })
      { s with shut := { s.shut with way := .lastGasp, snap := snap } }
  else s

/-- A power-fail of source `src`: SU_STAT and SU_PF_CNT record it, one entry for one last-gasp, with the PFW_N pin named
where it was among the causes (23_pins.md R579, R594). -/
def powerFail (s : State) (src : Nat) (rail : Option Nat) : State :=
  let running := s.shut.way = .lastGasp
  let s := if running && src != 1 then s else putF s SU SU_STAT_PF_SRC src
  let s := match rail with | some r => putF s SU SU_STAT_PF_RAIL r | none => s
  let s := if running then s else countUp s SU SU_PF_CNT_COUNT 1
  pfwAct s

/-- PFW_N at a level. -/
def pinPfw (s : State) (b : Bool) : State := { s with pin := { s.pin with pfwN := b } }

/-- PFW_N is recognised low (R537); in torpor it is only recorded (log 20). -/
def execPfwFall (s : State) : Host.Outcome State Fault Refusal :=
  .next (if s.pow.torpor || s.start.phase = .off then pinPfw s false else powerFail (pinPfw s false) 1 none)

/-- A rail leaves its range; 8: a VCCIO, which RAIL_OK does not show (23_pins.md R589, R594). -/
def railLost (s : State) (rail : Nat) : State :=
  let s : State := { s with pin := { s.pin with supplies := false, railsOut := setAdd s.pin.railsOut rail } }
  putF s SU SU_STAT_RAIL_OK (if rail < 8 then nSet (getF s SU SU_STAT_RAIL_OK) rail false else getF s SU SU_STAT_RAIL_OK)

/-- BROWN_OUT (23_pins.md R589): after S0 as PFW_N recognised low; the supplies are no longer valid, and in S0 their count
starts again (04_start.md R89). In torpor only VCC_AON is monitored, and its rail is only recorded (R590, log 114). -/
def execBrownOut (rail : Nat) (s : State) : Host.Outcome State Fault Refusal :=
  .next <|
    if 9 ≤ rail then s
    else if s.pow.torpor then (if rail = 2 then putF (railLost s 2) SU SU_STAT_PF_RAIL 2 else s)
    else if s.start.phase = .off || s.start.phase = .s0 then
      let s := railLost s rail
      { s with start := { s.start with phase := .off } }
    else powerFail (railLost s rail) 2 (some rail)

/-- The hottest valid sensor reads at least TRIP_C (23_pins.md R593; log 110). -/
def tooHot (s : State) : Bool :=
  match hottest s (fun _ => true) with
  | some t => decide ((getF s SU SU_CFG_TRIP_C : Int) ≤ t)
  | none => false

/-- THERMAL_TRIP (23_pins.md R593): as PFW_N recognised low; the device is then held until RESET_N or a supply cycle. -/
def execThermalTrip (s : State) : Host.Outcome State Fault Refusal :=
  .next <|
    if !tooHot s || s.pow.torpor || s.shut.way = .lastGasp || s.shut.way = .torpor then s
    else if !starting s.start.phase && s.start.phase != .ready && s.start.phase != .safe && s.shut.way != .orderly then s
    else powerFail { s with pin := { s.pin with tripHold := true } } 3 none

/-- A start begins again after a power-fail that has ended, unless a thermal trip holds the device (R541, 04_start.md R112,
23_pins.md R593). -/
def pfwRestart (s : State) : State :=
  if !s.pin.supplies || !s.pin.pfwN || s.pow.torpor || s.pin.tripHold then s
  else if s.start.phase = .pfwHeld then
    let a := s.start.abandoned
    let s := startTrigger s
    { s with start := { s.start with abandoned := a } }
  else if s.shut.way = .lastGasp then { s with shut := { s.shut with restart := true } }
  else if s.start.phase = .down && s.shut.way = .none && !s.shut.done then startTrigger s
  else s

/-- PFW_N is recognised high again. -/
def execPfwRise (s : State) : Host.Outcome State Fault Refusal := .next (pfwRestart (pinPfw s true))

/-- A step of R538 ends and the next begins. -/
def execLastGaspStepDone (s : State) : Host.Outcome State Fault Refusal :=
  .next (if s.shut.way = .none then s else wayStep s)

/-- A network that runs reaches its capture edge (07_fabric.md R185), for the sequencer's capture or a capture of the CF_
page: its flip-flops take the edge, then their shadow latches take what they hold. -/
def execCaptureEdge (die net : Nat) (s : State) : Host.Outcome State Fault Refusal :=
  .next <|
    if !netRuns s die net then s
    else if capHas s die net then capTake (netRise s die net) die net
    else if capWants s die net then capNetDone (netRise s die net) die net true
    else s

/-- The partitions of a network whose capture came too late are incomplete (21_shutdown.md R546). -/
def capMissed (s : State) (die net : Nat) : State :=
  let ps := (s.part.parts.filter fun e => e.die = die && tileSelects s die e.cFirst e.cLast net).map (·.no)
  { s with shut := { s.shut with incomplete := ps.foldl setAdd s.shut.incomplete } }

/-- A network has not captured: after 20 µs its enable clears, and a network that does not run is latched at once; one that
has not stopped after 100 µs marks the partitions that use it INCOMPLETE (R540). -/
def execCaptureStopTimeout (die net : Nat) (late : Bool) (s : State) : Host.Outcome State Fault Refusal :=
  .next <|
    if !capHas s die net then s
    else if late then capLeave (capMissed s die net) die net
    else if netRuns s die net then netEnable s die net false
    else capTake s die net

/-- The computation of an arming ends (R542). -/
def execArmDone (s : State) : Host.Outcome State Fault Refusal :=
  .next (if getF s SD SD_STAT_ARM_RESULT = 0xF then armEnd s else s)

/-- SHDN_REQ_N is recognised low (R549, R555). -/
def execShdnReqNLow (s : State) : Host.Outcome State Fault Refusal :=
  .next <|
    let u : State := { s with pin := { s.pin with shdnN := false } }
    if starting s.start.phase then { u with start := { u.start with shdnHeld := true } }
    else if (s.start.phase = .ready || s.start.phase = .safe) && s.shut.way = .none then orderlyBegin u
    else u

/-- The record of a shutdown's self-test (R551, R553). -/
def testRecOf (s : State) (ms : Nat) (fail : Option (Nat × Nat × Nat)) : TestRec :=
  let f := fail.getD (0xFF, 0, 0)
  { result := if fail.isNone then 1 else 2, variant := getF s SD SD_CFG_TEST, die := f.1, region := f.2.1, index := f.2.2
    rtc := s.pow.rtc, duration := ms, root := ilRoot s }

/-- The record of a self-test goes to the Keep, and the shutdown is complete. -/
def testSaved (s : State) (r : TestRec) : State :=
  testPut { s with shut := { s.shut with way := .none, step := 0, done := true } } (some r)

/-- FAIL_N goes low. -/
def failPin (s : State) : State := { s with start := { s.start with failLow := true } }

/-- The shut-down self-test ends: its record is written to records unit 3 and SHDN_DONE rises; a failure holds FAIL_N low
(R549, R552, R553). -/
def execShutdownSelftestDone (ms : Nat) (fail : Option (Nat × Nat × Nat)) (s : State) : Host.Outcome State Fault Refusal :=
  .next <|
    if s.shut.way != .orderly || s.shut.step != 9 then s
    else if fail.isNone then putF (testSaved s (testRecOf s ms fail)) SD SD_STAT_STATE 4
    else failPin (putF (testSaved s (testRecOf s ms fail)) SD SD_STAT_STATE 4)

/-- A direct self-test has ended: its result, the first failing index, and the region's contents where they are not kept. -/
def testEnded (s : State) (die : Nat) (fail : Option Nat) : State :=
  let p := stPage die
  let r := getF s p ST_CMD_REGION
  let s := putF (putFlag s p ST_STAT_BUSY false) p ST_STAT_RESULT (if fail.isNone then 1 else 2)
  let s := match fail with
    | some i => if flag s p ST_FAIL_VALID then s
        else putF (putF (putFlag s p ST_FAIL_VALID true) p ST_FAIL_REGION r) p ST_FAIL_INDEX i
    | none => s
  let s := keysZero s die r
  evtPulse (if flag s p ST_CMD_SAVE then s else regionFree s die r) p 0

/-- A direct self-test completes (R557): RESULT, the first failure, DONE. Without SAVE the region's contents are undefined:
free contents where the model holds them (log 5). -/
def execSelftestDone (die : Nat) (fail : Option Nat) (s : State) : Host.Outcome State Fault Refusal :=
  .next (if flag s (stPage die) ST_STAT_BUSY then testEnded s die fail else s)

/-- ARM is 1 and CORE has no vote: torpor entry begins (18_power.md R480). -/
def execTorporEntry (s : State) : Host.Outcome State Fault Refusal := .next (torporBegin s)

/-- The hub PLLs and both spines stop, and every clock domain but CD0 and CD60 (03_clocks.md R73, R85). -/
def clocksOff (s : State) : State :=
  let s := (List.range 8).foldl (fun s j =>
    pllLock (putFlag (putFlag s (pllPage 8 j) PG_CTRL_ENABLE false) (pllPage 8 j) PLL_STAT_COAST false) 8 j false) s
  let s := putFlag (putFlag s CU CU_SPINE_STAT_SPINE_A_ON false) CU CU_SPINE_STAT_SPINE_B_ON false
  let s := ((List.range 64).filter fun k => k != 0 && k != 60).foldl (fun s k =>
    putF (putFlag s (cdPage k) CD_STAT_RUNNING false) (cdPage k) CD_FREQ_FREQ 0) s
  { s with clk := { rtc := s.clk.rtc } }

/-- Every power domain but AON is switched off (18_power.md R480). -/
def domsOff (s : State) : State :=
  (List.range 15).foldl (fun s d => (List.range (domCount d)).foldl (fun s i =>
    if d = 8 && i = 0 then s else setDom s d i { domOf s d i with state := 2 }) s) s

/-- The device is in torpor (18_power.md R480): supplies other than VCC_AON are no longer monitored, so that the start that
ends it waits for them (23_pins.md R590). -/
def torporOn (s : State) : State :=
  let s := domsOff (clocksOff { s with pin := { s.pin with supplies := false } })
  dbgDrop { s with shut := { s.shut with way := .none, step := 0 }, pow := { s.pow with torpor := true } } 3

/-- Only AON runs: the device is in torpor, and leaves it at once where an end of torpor has already come (18_power.md
R481). -/
def execTorporEntered (s : State) : Host.Outcome State Fault Refusal :=
  .next <|
    if s.shut.way != .torpor || s.shut.step != 10 then s
    else
      match (torporOn s).pow.exitAtEntry with
      | some why => torporExit (torporOn s) why
      | none =>
        if flag (torporOn s) (pdPage 8 0) PD_ALARM_CTRL_ALARM_EN && decide (alarmTime (torporOn s) ≤ (torporOn s).pow.rtc)
        then torporExit (torporOn s) 1 else torporOn s

end Sys2Proof.Machine
end

