-- ==== Sys2Proof/Machine/Views.lean ====
section
/-! DEFINITION. Registers that show state held elsewhere: PG_STAT, and the fields of each page that no register word stores. A
view is a list of fields, each with its lowest bit, its width and its value, laid over the stored word. -/

namespace Sys2Proof.Machine

/-! ### PG_STAT (02_register_pages.md R10, R43; each page's chapter) -/

/-- The power domain of a page's block is on: it has none that drops, or its domain is ON. -/
def pageOn (s : State) (p : Page) (die blk : Nat) : Bool :=
  match pageDomain p die blk with
  | none => true
  | some i => (domOf s die i).state != 2 && (domOf s die i).state != 3

/-- PG_STAT.BUSY. Of a page whose chapter names no work it is 0 (DESIGN CHOICE, log 21). -/
def pageBusy (s : State) (p : Page) (die blk : Nat) : Bool :=
  let inst := blk % 4096
  pageOn s p die blk &&
  (match p with
  | .cu => flag s CU CU_SPINE_STAT_SPINE_A_ON
  | .cf => ((tabGet s.fab.cap die).join).isSome || ((tabGet s.fab.rb die).join).isSome
  | .ic => (icpLoad s die).isSome || partBusy s die
  | .le => leBusy (engOf s die inst)
  | .nr => flag s (pg die blk) NR_STAT_DRAINING
  | .sm =>
    let st := seamState s die inst
    (1 ≤ st && decide (st ≤ 5)) || (epOf s die inst).step != .none
  | .lq => (List.range 4).any fun k => laneShown s (laneNo die (4 * inst + k)) != 0
  | .lb => (List.range 16).any fun k => bundleState s die k != 0 && bundleState s die k != 4
  | .ax => (axOf s die).state = 1 || (axOf s die).state = 2
  | .bg | .dm => s.start.phase = .s5
  | _ => false)

/-- PG_STAT.READY. Of a page whose chapter does not say when it rises it is 1 (DESIGN CHOICE, log 21). -/
def pageReady (s : State) (p : Page) (die blk : Nat) : Bool :=
  let inst := blk % 4096
  pageOn s p die blk &&
  (match p with
  | .cf | .bg | .dm => cfReady s
  | .le => leReady (engOf s die inst)
  | .nr => routersUp s
  | .sm => seamReady s die inst
  | .lq => enabled s (pg die blk) && (List.range 4).all fun k =>
      laneShown s (laneNo die (4 * inst + k)) = 0 || nBit (getF s (pg die blk) LQ_QSTAT_SYN_LOCK) k
  | .fs => cfReady s
  | .mc => mcState s (if die = 3 then inst else 2 + inst) = 2
  | .pd => (domOf s die inst).state = 0
  | _ => true)

/-- A block runs: ENABLE or BUSY (R10); ENABLE of the clock unit has no effect (03_clocks.md R86). -/
def pageRuns (s : State) (p : Page) (die blk : Nat) : Bool :=
  (p != .cu && enabled s (pg die blk)) || pageBusy s p die blk

/-- The STOPPED fields of the register at `off` reject changes: the page's block runs, with the exceptions that chapters
make: a DMA channel of its own, a PCIe controller from its release (17_processors.md R466, R470), the clock unit and
PLLs as R10 has them. -/
def fieldRuns (s : State) (p : Page) (die blk off : Nat) : Bool :=
  match p with
  | .hd => 0x100 ≤ off && dmaRuns s ((off - 0x100) / 32)
  | .pc => pcRuns s die
  | _ => pageRuns s p die blk

/-- A page whose soft reset is in progress. -/
def inSoftReset (s : State) (page : Nat) : Bool := s.pg.srst.contains page

/-- The fields of PG_STAT. -/
def statView (s : State) (p : Page) (die blk : Nat) : List (Nat × Nat × Nat) :=
  let page := pg die blk
  [(8, 1, ofBool (retainPend s page)), (7, 1, ofBool (inSoftReset s page)),
   (6, 1, ofBool (p = .le && leFrozen s die (blk % 4096))), (5, 1, getF s page PG_LOCK_LOCK),
   (4, 1, ofBool (shadowPend s page)), (2, 1, ofBool (pageOn s p die blk)), (1, 1, ofBool (pageBusy s p die blk)),
   (0, 1, ofBool (pageReady s p die blk))]

/-! ### Views of the pages -/

/-- A whole register as one field. -/
def whole (v : Nat) : List (Nat × Nat × Nat) := [(0, 32, v)]

/-- BG_QSTAT of bank memory `b`: flags and occupancy (R205, R206, R215). -/
def bankQstat (s : State) (die b : Nat) : List (Nat × Nat × Nat) :=
  let x := bankMem s die b
  if soloMode s die b = 3 then [(28, 4, bankFlags s die b), (0, 22, x.tok)]
  else if isFifo s die b then
    let e := queueEnds s die b
    [(28, 4, bankFlags s die b), (0, 22, if e.2 = b then queueOcc s die e else x.q.length)]
  else whole 0

/-- Quotas of the bridge of a node over every target, and the credits it holds (12_noc.md R307, R333). -/
def quotaSum (s : State) (n : Nat) : Nat × Nat :=
  match nodeIni n with
  | none => (0, 0)
  | some i =>
    let tgts := allRouters.flatMap fun r => (endpoints (nodeDie r) (nodeRtr r)).map fun e => r + e
    (((tgts.map fun t => quotaOf s i t).sum), ((tgts.map fun t => creditsHeld s i t).sum))

/-- The bridge window of a node (12_noc.md R333). -/
def bridgeView (s : State) (n e : Nat) : List (Nat × Nat × Nat) :=
  match e with
  | 0x08 =>
    (match nodeIni n with
    | none => [(0, 3, 7), (16, 10, 0), (26, 1, 0)]
    | some i =>
      let ids := if epKind n = .cluster then [0, 1, 2, 3] else [i]
      [(0, 3, iniClass i), (16, 10, i), (26, 1, ofBool (ids.any (quenched s))),
       (8, 8, (s.noc.outst.filter fun o => iniNode o.ini == n).length)])
  | 0x40 => let q := quotaSum s n; [(16, 16, q.1), (0, 16, q.2)]
  | 0x44 => [(16, 16, targetSlots n), (0, 16, (s.noc.slots.filter fun x => x.1 == n).length)]
  | 0x54 => [(0, 8, staleCount s n)]
  | _ => []

/-- NR_ page. -/
def nrView (s : State) (die r off : Nat) : List (Nat × Nat × Nat) :=
  let n := mkNode die r 0
  if off = 0x044 then [(2, 1, ofBool (routersUp s && (routeTab s n).isNone))]
  else if 0x100 ≤ off && off < 0x140 then
    let k := (off - 0x100) / 8
    let h := fun c => if isLink die r k then hopHeld s n k c else 0
    if off % 8 = 0 then [(24, 8, h 3), (16, 8, h 2), (8, 8, h 1), (0, 8, h 0)] else [(0, 8, h 4)]
  else if 0x400 ≤ off then bridgeView s (windowNode die r off) (off % 256)
  else []

/-- SM_ page. -/
def smView (s : State) (die seam off : Nat) : List (Nat × Nat × Nat) :=
  let x := epOf s die seam
  if off = 0x048 then [(16, 13, x.inReq.length + x.inCnt.length), (0, 13, x.outReq.length + x.outCnt.length)]
  else if off = 0x04C then [(0, 13, x.staleReq.length + x.staleCnt.length)]
  else if off = 0x050 then [(0, 7, (x.links.map fun (e : Nat × SeamLink) => e.2.replay.length).foldl max 0)]
  else if 0x080 ≤ off && off < 0x0F8 then
    let k := (off - 0x080) / 4
    [(0, 7, if !seamReady s die seam then 0 else seamSq (k % 5) - tabOr 0 (epLink x (k / 5)).away (k % 5))]
  else []

/-- LE_ page. -/
def leView (s : State) (die e off : Nat) : List (Nat × Nat × Nat) :=
  let x := engOf s die e
  match off with
  | 0x040 => whole (leStat s die e)
  | 0x044 => [(16, 8, x.ctx.toNat), (0, 11, x.pc.toNat)]
  | 0x068 => [(0, 13, x.flags.toNat)]
  | 0x0A0 => whole (leGsum s die e 0)
  | 0x0A4 => whole (leGsum s die e 1)
  | 0x0A8 => whole (leGsum s die e 2)
  | _ => []

/-- KP_ page. -/
def kpView (s : State) (off : Nat) : List (Nat × Nat × Nat) :=
  if off = 0x040 then [(16, 11, s.keep.windows.length), (1, 1, ofBool (xferBusy s))] else []

/-- FS_ and FE_ pages (15_flow_slices.md R398, R418, R420). -/
def fsView (s : State) (die off : Nat) : List (Nat × Nat × Nat) :=
  let x := sliceOf s die
  match off with
  | 0x048 => [(0, 18, x.free)]
  | 0x04C => [(0, 18, tokRsv x)]
  | 0x050 => [(0, 18, tokHeld x)]
  | 0x054 => [(0, 18, (sharedFree s die).toNat)]
  | _ => []
@[inherit_doc fsView] def feView (s : State) (die port off : Nat) : List (Nat × Nat × Nat) :=
  if off = 0x04C then [(2, 1, ofBool (coasting s))]
  else if 0x08C ≤ off && off < 0x10C && (off - 0x08C) % 16 = 0 then
    [(0, 18, qHeld (sliceOf s die) port ((off - 0x08C) / 16))]
  else []

/-- PD_ pages (18_power.md R490). -/
def pdView (s : State) (die i off : Nat) : List (Nat × Nat × Nat) :=
  let kind := domKind die i
  if off = 0x040 then [(8, 4, holdBits s die i), (0, 3, (domOf s die i).state)]
  else if off = 0x048 then
    let idx := match kind with
      | 0x09 => i - 16
      | 0x0C => if die = 3 then i - 22 else i - 20
      | 0x12 => i - 2
      | _ => if isFabric die && i < 16 then i else 0
    [(16, 16, if droppable die i then wakeLimit kind else 0), (8, 8, idx), (0, 8, kind)]
  else if die = 8 && i = 0 && off = 0x060 then whole (s.pow.rtc % 2 ^ 32)
  else if die = 8 && i = 0 && off = 0x064 then [(0, 16, s.pow.rtc / 2 ^ 32)]
  else []

/-- GV_ page (18_power.md R491). -/
def gvView (s : State) (off : Nat) : List (Nat × Nat × Nat) :=
  match off with
  | 0x04C => [(16, 11, s.pow.target), (0, 11, s.pow.pool)]
  | 0x050 => [(16, 11, heldSum s), (0, 11, s.pow.free)]
  | 0x054 => [(16, 11, s.pow.bud), (0, 11, s.pow.debt)]
  | _ => []

/-- DS_ page (18_power.md R486, R492). -/
def dsView (s : State) (off : Nat) : List (Nat × Nat × Nat) :=
  let x := descOf s (getF s DS DS_DSEL_INDEX)
  let n := fun st => (s.pow.desc.filter fun (e : Nat × Desc) => e.2.state == st).length
  match off with
  | 0x044 => whole x.w0.toNat
  | 0x048 => whole x.w1.toNat
  | 0x04C => whole x.w2.toNat
  | 0x050 => whole (x.state + x.status * 16 + ofBool x.revoked * 64 + ofBool x.throttled * 128 + x.held * 256)
  | 0x0A0 => [(16, 13, n 2), (0, 13, n 1)]
  | _ => []

/-- SC_ page (19_security.md R509). -/
def scView (s : State) (off : Nat) : List (Nat × Nat × Nat) :=
  if off = 0x040 then [(5, 1, ofBool s.sec.entryDone), (4, 1, ofBool s.sec.recordOk), (0, 3, s.sec.lc)]
  else if off = 0x044 then
    [(4, 4, ofBits ((List.range 4).filter fun i => (signerOf s i).revoked)),
     (0, 4, ofBits ((List.range 4).filter fun i => (signerOf s i).valid))]
  else if 0x050 ≤ off && off < 0x070 then
    let hash := match s.sec.idPub with | some p => (Config.shake256 p).toNat | none => 0
    whole (nGet hash (8 * (off - 0x050)) 32)
  else []

/-- ER_, AX_ and BB_ pages (20_errors.md R534 to R536). -/
def erView (s : State) (off : Nat) : List (Nat × Nat × Nat) :=
  if off = 0x048 then [(31, 1, ofBool s.err.handling), (30, 1, ofBool s.err.fatal)]
  else if 0x050 ≤ off && off < 0x064 then whole ((errWords s.err.first).getD ((off - 0x050) / 4) 0)
  else if 0x070 ≤ off && off < 0x084 then whole ((errWords s.err.next).getD ((off - 0x070) / 4) 0)
  else []
@[inherit_doc erView] def axView (s : State) (die off : Nat) : List (Nat × Nat × Nat) :=
  if off = 0x044 then [(0, 3, if isolated s die then 4 else (axOf s die).state)]
  else if off = 0x060 then [(0, 19, (axOf s die).pos)]
  else []
@[inherit_doc erView] def bbView (s : State) (off : Nat) : List (Nat × Nat × Nat) :=
  let c := copySel s
  let f := fun (g : BbCopy → Nat) => match c with | some c => g c | none => 0
  match off with
  | 0x040 => [(0, 12, s.err.head)]
  | 0x044 => whole s.err.seq
  | 0x054 => [(31, 1, ofBool c.isSome), (24, 4, f (·.reason)), (0, 12, f (·.head))]
  | 0x058 => whole (f (·.seq))
  | 0x05C => whole (f fun c => c.time % 2 ^ 32)
  | 0x060 => whole (f fun c => c.time / 2 ^ 32)
  | _ => []

/-- The fields of the register at `off` of a page that are views. -/
def viewOf (s : State) (p : Page) (die blk off : Nat) : List (Nat × Nat × Nat) :=
  let inst := blk % 4096
  if off = 0x00C then statView s p die blk
  else if off = 0x010 then (if pageOn s p die blk then [] else whole 0)
  else if off = 0x008 then (if p = .le || p = .sm then [(4, 1, ofBool (inSoftReset s (pg die blk)))] else [])
  else match p with
  | .nr => nrView s die inst off
  | .sm => smView s die inst off
  | .le => leView s die inst off
  | .bg =>
    if off = 0x054 then whole (ofBits ((List.range 32).filter fun r => cascErr s die (32 * inst + r)))
    else if 0x080 ≤ off && off < 0x100 then bankQstat s die (32 * inst + (off - 0x080) / 4)
    else []
  | .dm =>
    let j := inst - 256
    if off = 0x054 then
      (if deepFifo s die j then
        [(28, 4, queueFlags (deepWriteView s die j) (deepReadView s die j) 131072 (deepCfg s die j 1 0 18) (deepCfg s die j 2 0 18)),
         (0, 18, (deepMem s die j).q.length)]
      else whole 0)
    else []
  | .kp => kpView s off
  | .lq =>
    if off = 0x040 then [(4, 4, ofBits ((List.range 4).filter fun k => pcieOwns s (laneNo die (4 * inst + k))))]
    else if 0x100 ≤ off && off % 0x80 = 0x18 then
      let lane := laneNo die (4 * inst + (off - 0x100) / 0x80)
      (13, 2, laneOwner s lane) ::
        (if pcieOwns s lane then [(8, 5, pcieLaneRate s lane), (0, 3, laneShown s lane)] else [])
    else []
  | .fs => fsView s die off
  | .fe => feView s die (inst - 256) off
  | .mc => if off = 0x040 then [(4, 2, ddrIlv s)] else []
  | .cl => if off = 0x040 then [(8, 4, haltedBits s), (4, 4, wfiBits s)] else []
  | .tb => if off = 0x044 then whole (s.hub.now % 2 ^ 32) else if off = 0x048 then whole s.hub.nowHi else []
  | .pd => pdView s die inst off
  | .gv => gvView s off
  | .ds => dsView s off
  | .sc => scView s off
  | .er => erView s off
  | .ax => axView s die off
  | .bb => bbView s off
  | .db => if 0x050 ≤ off && off < 0x060 then [(31, 1, ofBool (hartOf s ((off - 0x050) / 4)).halted)] else []
  | .tr => if 0x050 ≤ off && off < 0x060 then whole (traceWord s ((off - 0x050) / 4)) else []
  | .io =>
    if off = 0x050 then whole (ioAct s die (inst - 16) % 2 ^ 32)
    else if off = 0x054 then [(0, 16, ioAct s die (inst - 16) / 2 ^ 32)]
    else []
  | _ => []

/-- Fields of a register whose value at a read the manual leaves open here, because they measure or count time: lowest bit
and width (log 13): voltages and currents, and a checker's counts. -/
def openOf (s : State) (p : Page) (die blk off : Nat) : List (Nat × Nat) :=
  let inst := blk % 4096
  match p with
  | .io => if off = 0x058 then [(16, 16), (0, 1)] else []
  | .su => if 0x080 ≤ off && off < 0x0A0 then [(16, 16), (0, 16)] else []
  | .mc =>
    let ch := if die = 3 then inst else 2 + inst
    if 0x100 ≤ off && off < 0x300 && off % 32 = 16 && (tabOr { } s.ddr.chans ch).init.contains ((off - 0x100) / 32) then [(0, 32)]
    else []
  | .lq =>
    let e := off % 0x80
    if 0x100 ≤ off && 0x38 ≤ e && e ≤ 0x48 && (laneOf s (laneNo die (4 * inst + (off - 0x100) / 0x80))).counted then [(0, 32)]
    else []
  | _ => []

end Sys2Proof.Machine
end

