-- ==== Sys2Proof/Machine/RegRules.lean ====
section
/-! DEFINITION. The checks a register write passes before it takes effect, in the order of 02_register_pages.md R39: size,
lock, PG_COMMIT, reserved bits, ranges, STOPPED and ONCE fields, and the block faults of the chapters. -/

namespace Sys2Proof.Machine

/-! ### Locks (R50, R51, R53) -/

/-- The lock of the page bars a write of initiator `ini` at `off`. -/
def lockBars (s : State) (ini page off : Nat) : Bool :=
  let other := ini != getF s page PG_LOCK_OWNER
  flag s page PG_LOCK_LOCK &&
    (if off = 0x02C then flag s page PG_LOCK_STICKY || (other && iniClass ini != 5)
     else other && ([0x008, 0x014, 0x01C, 0x030, 0x034].contains off || decide (0x040 ≤ off)))

/-! ### Reserved bits (R38) -/

/-- Fields of the register at `off`, none where no map names it. -/
def fieldsAt (p : Page) (die blk off : Nat) : List Fld :=
  match regDef p die blk off with
  | none => []
  | some d => d.flds

/-- Bits of the fields that `sel` selects. -/
def bitsWhere (fs : List Fld) (sel : Fld → Bool) : Word :=
  fs.foldl (fun m f => if sel f then m ||| wMask f.lsb f.wid else m) 0

/-- The low `n` bits of a word. -/
def lowBits (n : Nat) : Word := BitVec.ofNat 32 (2 ^ n - 1)

/-- Bits a write may set, by the maps and by what a page leaves unimplemented: bits of PG_CTRL without their capability,
event bits at or above EVT_COUNT, PG_RETAIN bits at or above RETAIN_COUNT, IDs that are not assigned (12_noc.md R335),
DI_CFG bit 8 (13_seams.md R356) and the own-slice trunk registers (15_flow_slices.md R411). -/
def writable (p : Page) (die blk off : Nat) : Word :=
  let i := pageInfo p die blk
  let all := bitsWhere (fieldsAt p die blk off) fun _ => true
  match off with
  | 0x008 => all &&& ((if i.hasSrst then 0x10 else 0) ||| (if i.hasFreeze then 0xE else 0) ||| 1)
  | 0x010 => lowBits i.evts
  | 0x014 => lowBits i.evts
  | 0x018 => lowBits i.evts
  | 0x01C => lowBits i.evts
  | 0x034 => lowBits i.retain
  | _ =>
    match p with
    | .qu => if 0x040 ≤ off then all &&& BitVec.ofNat 32 (quMask ((off - 0x040) / 4)) else all
    | .di => if off = 0x044 then all &&& ~~~(BitVec.ofNat 32 256) else all
    | .fs => if fsReserved die off then 0 else all
    | _ => all

/-! ### Fields that a page makes read-only -/

/-- Bits of the register at `off` that ignore writes on this page alone: CD_CFG of a fixed domain (03_clocks.md R84), the
M0 selector of host mailboxes and the whole MB_MEMB of mailboxes 40 to 63 (17_processors.md R453), and MC_CFG.ILV away from
M0 (16_external_memory.md R444). -/
def fixedBits (p : Page) (die blk off : Nat) : Word :=
  match p with
  | .cd => if off = 0x040 && !cdSelectable (blk % 4096 - 256) then BitVec.ofNat 32 (2 ^ 32 - 1) else 0
  | .mbh => if 0x100 ≤ off && off % 64 = 0x2C then wMask 30 2 ||| wMask 16 10 else 0
  | .mb =>
    match mbAt die blk off with
    | some m => if 40 ≤ m && off % 64 = 0x2C then BitVec.ofNat 32 (2 ^ 32 - 1) else 0
    | none => 0
  | .mc => if off = 0x040 && !(die = 3 && blk % 4096 = 0) then wMask 4 2 else 0
  | _ => 0

/-- A field takes written values: read-write and not fixed on this page. -/
def takes (fixed : Word) (f : Fld) : Bool := f.acc == .rw && (fixed &&& wMask f.lsb f.wid) == 0

/-! ### Ranges (R13) -/

/-- A field's own range is broken by `w`. -/
def fieldRange (fixed : Word) (fs : List Fld) (w : Word) : Bool :=
  fs.any fun f => (takes fixed f || f.acc == .wo) && (wGet w f.lsb f.wid < f.lo || f.hi < wGet w f.lsb f.wid)

/-- Two of the bits 29 to 31 are set. -/
def twoCommands (w : Word) : Bool := 1 < (bitsOf 3 (wGet w 29 3)).length

/-- IC_PSRC as the write would leave it lies outside the Keep's user area and is not 0 (09_partitions.md R234). -/
def psrcRange (s : State) (die off : Nat) (w : Word) : Bool :=
  let p := icPage die
  let lo := if off = 0x058 then wGet w 12 20 else getF s p IC_PSRC_LO_ADDR
  let hi := if off = 0x05C then wGet w 0 10 else getF s p IC_PSRC_HI_ADDR
  let a := lo * 4096 + hi * 2 ^ 32
  (off = 0x058 || off = 0x05C) && a != 0 && (a < 0x32000000000 || 0x3207FFFFFFF < a)

/-- A value out of range by a rule of the page's chapter that no single field's range holds. -/
def extraRange (s : State) (p : Page) (die blk off : Nat) (w : Word) : Bool :=
  let i := blk % 4096
  if off = 0x02C then wGet w 0 2 = 2
  else
    match p with
    | .kp => kpRange s off w
    | .hp | .fp | .cd => clkRange s p die blk off w
    | .lq => lqRange s die i off w
    | .mc => off = 0x044 && wGet w 4 2 = 3 && wGet w 3 1 = 1
    | .le => off = 0x04C && twoCommands w
    | .sd => off = 0x040 && twoCommands w
    | .ic => (off = 0x050 && (wGet w 8 3 = 0 || 5 < wGet w 8 3)) || psrcRange s die off w
    | .di => diRange off w
    | .db => dbRange off w
    | .bk => bkRange off w
    | .pd => pdRange s die i off w
    | .gv => gvRange off w
    | .ds => dsRange s off w
    | .ev => evRange s off w
    | .tb => tbRange off w
    | .hd => hdRange off w
    | .cl => clRange s off w
    | .st => off = 0x040 && !(stRegions die).contains (wGet w 0 6)
    | .fs => off = 0x044 && poolRange s die (fsPage die + off) w
    | .fe => (off = 0x040 && 0xA ≤ wGet w 0 4) ||
        (0x084 ≤ off && off < 0x100 && off % 16 = 4 && poolRange s die (pg die blk + off) w)
    | .wd => (0x050 ≤ off && off < 0x090 && off % 16 = 4 && w != 0xA5) || (off = 0x094 && w != 0xA5)
    | _ => false

/-! ### STOPPED and ONCE (R10) -/

/-- A STOPPED field would change while the block runs. -/
def stoppedBars (s : State) (p : Page) (die blk off : Nat) (fixed : Word) (fs : List Fld) (cur w : Word) : Bool :=
  let m := bitsWhere fs fun f => f.cls == .stopped && takes fixed f
  ((cur ^^^ w) &&& m) != 0 && fieldRuns s p die blk off

/-- A ONCE field would change after its one write. -/
def onceBars (s : State) (a : Nat) (fs : List Fld) (cur w : Word) : Bool :=
  let m := bitsWhere fs fun f => f.cls == .once && f.acc == .rw
  ((cur ^^^ w) &&& m &&& tabOr 0 s.pg.onceDone a) != 0

/-! ### Block faults -/

/-- Channel of an MC_ page. -/
def mcChan (die blk : Nat) : Nat := if die = 3 then blk % 4096 else 2 + blk % 4096

/-- The block fault of a write to an MC_ page (16_external_memory.md R425, R426, R431, R432). -/
def mcFault (s : State) (ini die blk off : Nat) (w : Word) : Option Nat :=
  let ch := mcChan die blk
  let j := (off - 0x100) / 32
  let closed := fun j => rangeOn s ch j || (chanOf s ch).init.contains j
  if off = 0x008 then
    if wGet w 0 1 = 1 && !enabled s (mcPage ch) && s.ddr.formed && (chanOf s ch).cm = 0 then some 0x0104 else none
  else if off = 0x040 && ch = 0 then
    if wGet w 4 2 != ddrIlv s && (List.range 4).any fun m => enabled s (mcPage m) then some 0x0103 else none
  else if off = 0x074 || off = 0x078 then
    if ini != 4 then some 0x0102
    else if off = 0x074 && closed (getF s (mcPage ch) MC_KEY_SEL_RANGE) then some 0x0101
    else none
  else if 0x100 ≤ off && off < 0x300 then
    match off % 32 with
    | 0x00 => if wGet w 31 1 = 1 && !rangeOn s ch j && !rangeOk s ch j then some 0x0100 else none
    | 0x04 => if closed j then some 0x0101 else none
    | 0x08 => if closed j then some 0x0101 else none
    | 0x0C => if closed j then some 0x0101 else none
    | _ => none
  else none

/-- The block fault of a write to an LE_ page: a refused start, or an access of the state map that fails. -/
def leFault (s : State) (die e off : Nat) (w : Word) : Option Nat :=
  match off with
  | 0x04C => leCmdFault s die e w
  | 0x064 =>
    let p := lePage die e
    mapFault (engOf s die e) (enabled s p || leBusy (engOf s die e)) (getF s p LE_MADDR_ADDR) w.toNat
  | _ => none

/-- The block fault of ST_CMD with GO (21_shutdown.md R554). -/
def stFault (s : State) (die off : Nat) (w : Word) : Option Nat :=
  if off = 0x040 && wGet w 31 1 = 1 then
    if s.sec.lc != 1 && s.sec.lc != 4 then some 0x0100
    else if stBusy s die (wGet w 0 6) (fun d b => match pageOf d b with | some p => pageRuns s p d b | none => false) then
      some 0x0101
    else if flag s (stPage die) ST_STAT_BUSY then some 0x0102
    else none
  else none

/-- The first block fault of a write, none where the page's chapter states none. -/
def blockFault (s : State) (ini : Nat) (bar0 : Bool) (p : Page) (die blk off : Nat) (w : Word) : Option Nat :=
  let i := blk % 4096
  match p with
  | .hp | .fp | .cd => clkFault s p die blk off w
  | .nr => nrFault s die i off w
  | .rt => rtFault s off w
  | .sm => smFault s die i off w
  | .di => diFault s off w
  | .kp => kpFault s ini off w
  | .er => erFault s off w
  | .bb => bbFault s off w
  | .cf => cfFault s die off w
  | .ic => if off = 0x050 && wGet w 31 1 = 1 then partCmdFault s die (wGet w 8 3) (wGet w 0 6) else none
  | .le => leFault s die i off w
  | .lb => lbFault s die off w
  | .lq => lqFault s die i off w
  | .fs => fsFault s ini die off w
  | .mc => mcFault s ini die blk off w
  | .cl => clFault s off w
  | .hd => hdFault s off w
  | .mb | .mbh => mbFault s ini bar0 true false die blk off w
  | .lk => lkFault s ini off w
  | .pc => pcFault s die off w
  | .gv => gvFault s off w
  | .ds => dsFault s off w
  | .sc => scFault s ini off
  | .sd => sdFault s off w
  | .st => stFault s die off w
  | .db => dbFault s off w
  | .wd => wdFault s off w
  | _ => none

/-- The fault code a write is rejected with, none where it is accepted (R39). -/
def writeFault (s : State) (ini : Nat) (bar0 : Bool) (p : Page) (die blk off : Nat) (w : Word) : Option Nat :=
  let page := pg die blk
  let fs := fieldsAt p die blk off
  let fixed := fixedBits p die blk off
  let cur := getReg s (page + off)
  if off % 4 != 0 then some 0x0006
  else if lockBars s ini page off then some 0x0004
  else if off = 0x030 && !(pageInfo p die blk).hasShadow then some 0x0007
  else if w &&& ~~~writable p die blk off != 0 then some 0x0005
  else if fieldRange fixed fs w || extraRange s p die blk off w then some 0x0001
  else if stoppedBars s p die blk off fixed fs cur w then some 0x0002
  else if onceBars s (page + off) fs cur w then some 0x0003
  else blockFault s ini bar0 p die blk off w

end Sys2Proof.Machine
end

