-- ==== Sys2Proof/Machine/RegHooks.lean ====
section
/-! DEFINITION. What an accepted register write does beside storing its fields: the header registers (02_register_pages.md R43
to R57) and the effects each page's chapter gives its registers. -/

namespace Sys2Proof.Machine

/-! ### PG_VOTE (R49, 18_power.md R474) -/

/-- Vote client of an initiator on a domain's page. -/
def voteClient (s : State) (ini : Nat) : Option Nat :=
  if ini < 5 then some ini
  else if 16 ≤ ini && ini < 24 then some (5 + (ini - 16))
  else if ini = 7 || ini = 8 then some (13 + (ini - 7))
  else if 128 ≤ ini && ini < 512 then
    (ownerAt s ((ini - 128) / 48) (portCol ((ini - 128) % 48))).map (·.client)
  else none

/-- The hardware holds the bit of `client` in a domain: a partition of that client that is not OFF (09_partitions.md R222). -/
def voteHeld (s : State) (die i client : Nat) : Bool :=
  (dieParts s die).any fun e => e.client = client && (partDoms e).contains i && clientHeld s e i

/-- PG_VOTE of domain `i` written: the writer's own bit. -/
def voteWritten (s : State) (ini die i : Nat) (w : Word) : State :=
  match voteClient s ini with
  | none => s
  | some c => voteSet s die i c (nBit w.toNat c || (16 ≤ c && voteHeld s die i c))

/-! ### PG_LOCK (R50) -/

/-- PG_LOCK written by `ini`; OWNER names the one who set LOCK. -/
def lockWritten (s : State) (ini page : Nat) (w : Word) : State :=
  let was := flag s page PG_LOCK_LOCK
  let on := wGet w 0 1 = 1
  let s := if on && !was then putF s page PG_LOCK_OWNER ini else s
  putFlag (putFlag s page PG_LOCK_LOCK on) page PG_LOCK_STICKY (on && wGet w 1 1 = 1)

/-! ### PG_COMMIT (R54, R55) -/

/-- PG_COMMIT written: DISCARD, then COMMIT; on a page that does not run the committed values take effect at once. -/
def commitWritten (s : State) (p : Page) (die blk : Nat) (w : Word) : State :=
  let page := pg die blk
  let s := if wGet w 1 1 = 1 then shadowDiscard s page else s
  if wGet w 0 1 = 1 then
    let s := shadowCommit s page
    if p = .fe then feCommitted s die (blk % 4096 - 256)
    else if p = .lq then quadSettle (if pageRuns s p die blk then s else shadowApply s page) die (blk % 4096)
    else if pageRuns s p die blk then s else shadowApply s page
  else s

/-! ### PG_CTRL (R43, R45) -/

/-- ENABLE of a page has changed to `on`: what its chapter makes of it. -/
def enableWritten (s : State) (p : Page) (die blk : Nat) (on : Bool) : State :=
  let i := blk % 4096
  match p with
  | .sm => smEnabled s die i on
  | .lb => holdsWake (lbEnable s die on) die
  | .lq => if on then quadOn s die i else quadOff s die i
  | .fe =>
    let s := feEnable s die (i - 256) on
    if on then holdsWake s die
    else if flag s (pg die blk) FE_GCL_STAT_PENDING then gclApply s die (i - 256) else s
  | .mc => if on then holdsWake (mcStart s (mcChan die blk)) die else mcStop s (mcChan die blk)
  | .hp | .fp => pllEnabled s die (pllOf die blk) on
  | _ => s

/-- A soft reset begins (R45): held and committed values go; an engine is aborted and OFF (10_loop_engines.md R260), a seam
endpoint returns to RESET (13_seams.md R342). -/
def softResetBegin (s : State) (p : Page) (die blk : Nat) : State :=
  let page := pg die blk
  let s : State := { s with pg := { s.pg with
    srst := setAdd s.pg.srst page, held := notPage s.pg.held page, committed := notPage s.pg.committed page } }
  match p with
  | .le => engHold s die (blk % 4096)
  | .sm => seamRetrain s die (blk % 4096)
  | _ => s

/-- PG_CTRL written; `old`: the register before. A block that stops running applies its committed values (R55). -/
def ctrlWritten (s : State) (p : Page) (die blk : Nat) (old w : Word) : State :=
  let page := pg die blk
  let on := wGet w 0 1 == 1
  let s := if on != (wGet old 0 1 == 1) then enableWritten s p die blk on else s
  let s := if p = .le then leFreezeFollow s else s
  let s := if pageRuns s p die blk then s else shadowApply s page
  if wGet w 4 1 = 1 then softResetBegin s p die blk else s

/-! ### Header registers -/

/-- What a write of a header register does beside its fields. -/
def headerWritten (s : State) (ini : Nat) (p : Page) (die blk off : Nat) (old w : Word) : State :=
  let page := pg die blk
  match off with
  | 0x008 => ctrlWritten s p die blk old w
  | 0x014 => pageOut s page
  | 0x018 => pageOut s page
  | 0x01C => evtPulses s page (bitsOf (pageInfo p die blk).evts w.toNat)
  | 0x020 => if wGet w 31 1 = 1 then putF s page PG_FAULT_CODE 0 else s
  | 0x028 => if (pageInfo p die blk).hasVote then voteWritten (setReg s (page + off) old) ini die (blk % 4096) w else s
  | 0x02C => lockWritten (setReg s (page + off) old) ini page w
  | 0x030 => commitWritten s p die blk w
  | 0x034 => if (pageInfo p die blk).retain = 0 then s else journalRequest s page
  | _ => s

/-! ### Records that clear with their VALID -/

/-- Offset of the record of a page whose fields clear with its VALID bit. -/
def firstRecord (p : Page) : Option Nat :=
  match p with
  | .bg => some 0x040
  | .dm => some 0x048
  | .nr => some 0x04C
  | .mc => some 0x050
  | .cf => some 0x094
  | .sc => some 0x078
  | .ax => some 0x05C
  | .st => some 0x048
  | _ => none

/-- A record whose VALID is cleared loses its fields; MC_ERR_LINE goes with MC_ERR_FIRST (16_external_memory.md R444). -/
def recordCleared (s : State) (p : Page) (page off : Nat) (w : Word) : State :=
  if firstRecord p = some off && wGet w 31 1 = 1 then
    let s := setReg s (page + off) 0
    if p = .mc then setReg s (page + 0x054) 0 else s
  else s

/-! ### Pages of this file's own -/

/-- An accepted write to an MC_ page (16_external_memory.md R426, R431 to R433, R440). -/
def mcWritten (s : State) (die blk off : Nat) (old w : Word) (tags : Nat × Nat) : State :=
  let ch := mcChan die blk
  let j := (off - 0x100) / 32
  if off = 0x040 then (if ch = 0 && wGet old 4 2 != wGet w 4 2 then ilvWritten s else s)
  else if off = 0x074 then keyWritten s ch w
  else if off = 0x078 then (if wGet w 31 1 = 1 then isoLeave s (iniNode (wGet w 0 10)) 5 true false else s)
  else if 0x100 ≤ off && off < 0x300 && off % 32 = 0 then
    if wGet w 31 1 = 1 && wGet old 31 1 = 0 then holdsWake (rangeStart s ch j) die
    else if wGet w 31 1 = 0 && wGet old 31 1 = 1 then rangeStop s ch j tags
    else s
  else s

/-- An accepted write to an LE_ page (10_loop_engines.md R240, R255, R257, R260). -/
def leWritten (s : State) (die e off : Nat) (old w : Word) : State :=
  if off = 0x04C then leCmd s die e w
  else if off = 0x064 then mdataPut (setReg s (lePage die e + off) old) die e w.toNat
  else if off = 0x068 then leFlagsClear s die e w
  else s

/-- What an accepted write of a block register does beside its fields; `s0`: the state before the write, `old`: the register
before it. -/
def blockWritten (s0 s : State) (ini : Nat) (p : Page) (die blk off : Nat) (old w : Word) : State :=
  let i := blk % 4096
  let page := pg die blk
  let s := recordCleared s p page off w
  match p with
  | .cu | .cd => clkWritten s p die blk off old
  | .nr => nrWritten s die i off old w
  | .qu => quWritten s off
  | .rt => rtWritten s off w
  | .sm => smWritten s die i off old w
  | .di => diWritten s off w
  | .kp => kpWritten s off old w
  | .er => erWritten s off w
  | .ax => if off = 0x040 then axWritten s die else s
  | .bb => bbWritten s off w
  | .cf => cfWritten s die off old w
  | .ic => if off = 0x050 && wGet w 31 1 = 1 then partCommand s die (wGet w 8 3) (wGet w 0 6) else s
  | .le => leWritten s die i off old w
  | .lq => lqWritten s die i off w
  | .lb => holdsWake (lbWritten s die off old w) die
  | .fs => fsWritten s ini die off old w
  | .fe => feWritten s die (i - 256) off
  | .mc => mcWritten s die blk off old w (tagSpan s0 (mcChan die blk) ((off - 0x100) / 32))
  | .cl => clWritten s off old w
  | .hd => hdWritten s off w
  | .tb => tbWritten s off w
  | .mb | .mbh => mbWritten s ini die blk off w
  | .lk => lkWritten s off w
  | .ev => evWritten (if off = 0x044 || off = 0x048 then setReg s (page + off) old else s) off w
  | .pc => pcWritten s ini die off old w
  | .pd => pdWritten s die i off old w
  | .ds => dsWritten s off old w
  | .sc => scWritten s off w
  | .sd => sdWritten s off w
  | .st => if off = 0x040 && wGet w 31 1 = 1 then stStart s die else s
  | .db => dbWritten s off w
  | .bk => if 0x100 ≤ off then bkWritten s (i - 16) off else s
  | .tr => trWritten s off old w
  | .wd => wdWritten s off old w
  | .io => if off < 0x04C then pinsLatch s die else s
  | _ => s

/-! ### A write -/

/-- The register word that an accepted write of `w` leaves where `cur` stood: read-write fields but SHADOW take the value,
W1C bits clear (R10, R11). -/
def written (fixed : Word) (fs : List Fld) (cur w : Word) : Word :=
  let set := bitsWhere fs fun f => takes fixed f && f.cls != .shadow
  let clear := bitsWhere fs fun f => f.acc == .w1c
  mix (cur &&& ~~~(w &&& clear)) w set

/-- An accepted write stores: fields, held SHADOW values, ONCE marks, and the journal's request for a block register that
keeps its value (R39, R54, R56). -/
def writeStore (s : State) (p : Page) (die blk off : Nat) (w : Word) : State :=
  let page := pg die blk
  let a := page + off
  let fs := fieldsAt p die blk off
  let fixed := fixedBits p die blk off
  let s := setReg s a (written fixed fs (getReg s a) w)
  let s : State := if s.pg.fromTable.contains a then { s with pg := { s.pg with fromTable := setDel s.pg.fromTable a } } else s
  let s : State :=
    if fs.any fun f => f.cls == .shadow && f.acc == .rw then { s with pg := { s.pg with held := tabPut s.pg.held a w } } else s
  let once := bitsWhere fs fun f => f.cls == .once && f.acc == .rw
  let s : State :=
    if once = 0 then s else { s with pg := { s.pg with onceDone := tabPut s.pg.onceDone a (tabOr 0 s.pg.onceDone a ||| once) } }
  if 0x040 ≤ off && fs.any fun f => f.g && takes fixed f && f.cls != .shadow then retained s page off else s

/-- An accepted write: what it stores, and what it does besides. -/
def writeDo (s0 : State) (ini : Nat) (p : Page) (die blk off : Nat) (w : Word) : State :=
  let old := getReg s0 (pg die blk + off)
  let s := writeStore s0 p die blk off w
  if off < 0x040 then headerWritten s ini p die blk off old w else blockWritten s0 s ini p die blk off old w

/-- A rejected write: counted under R47, and nothing else but the RESULT a table command leaves. -/
def writeReject (s : State) (p : Page) (die blk off code : Nat) : State :=
  pageFault (if p = .fs then fsRejected s die off code else s) (pg die blk) code

/-- A write that reaches a page: accepted whole or rejected whole, with its response code (R37, R39). -/
def regWrite (s : State) (ini : Nat) (bar0 : Bool) (p : Page) (die blk off : Nat) (w : Word) : State × Nat :=
  match writeFault s ini bar0 p die blk off w with
  | some code => (writeReject s p die blk off code, 4)
  | none => (writeDo s ini p die blk off w, 0)

end Sys2Proof.Machine
end

