-- ==== Sys2Proof/Machine/RegAccess.lean ====
section
/-! DEFINITION. Accesses to register space: reads with their effects (00_scope.md R11, R12; 02_register_pages.md R41), where an
access stalls (R43, R45; 01_package.md R31), what answers it (R29, R30), and broadcast writes (R58, R59). -/

namespace Sys2Proof.Machine

/-! ### Reads -/

/-- The word a read of a register gives, apart from queues and commands: stored fields, views over them, free values for
the fields the manual leaves open, 0 for reserved and write-only bits. -/
def readWord (s : State) (p : Page) (die blk off : Nat) : State × Nat :=
  let fs := fieldsAt p die blk off
  let seen := bitsWhere fs fun f => f.acc != .wo && f.acc != .w1s && f.acc != .pop
  let w := getReg s (pg die blk + off) &&& seen
  let w := (viewOf s p die blk off).foldl (fun w v => wPut w v.1 v.2.1 v.2.2) w
  let r := (openOf s p die blk off).foldl (fun (r : State × Word) (o : Nat × Nat) =>
    let v := freeVal r.1 o.2
    (v.2, wPut r.2 o.1 o.2 v.1)) (s, w)
  (r.1, r.2.toNat)

/-- RC fields of a register clear (R11). -/
def readClear (s : State) (p : Page) (die blk off : Nat) : State :=
  let rc := bitsWhere (fieldsAt p die blk off) fun f => f.acc == .rc
  if rc = 0 then s else setReg s (pg die blk + off) (getReg s (pg die blk + off) &&& ~~~rc)

/-- A read of DS_CQ: the oldest completion, removed unless it peeks (R488). -/
def cqPop (s : State) (peek : Bool) : State × Nat :=
  match s.pow.cq with
  | [] => (s, 0)
  | (d, st) :: r => (if peek then s else dsEvents { s with pow := { s.pow with cq := r } }, 2 ^ 31 + st * 65536 + d)

/-- A read of DS_MQ of core `c`. -/
def mqPop (s : State) (c : Nat) (peek : Bool) : State × Nat :=
  match tabOr [] s.pow.mq c with
  | [] => (s, 0)
  | d :: r => (if peek then s else dsEvents { s with pow := { s.pow with mq := tabPutD [] s.pow.mq c r } }, 2 ^ 31 + d)

/-- A read of DS_PQ of die `n`. -/
def pqPop (s : State) (n : Nat) (peek : Bool) : State × Nat :=
  match tabOr [] s.pow.pq n with
  | [] => (s, 0)
  | d :: r => (if peek then s else { s with pow := { s.pow with pq := tabPutD [] s.pow.pq n r } }, 2 ^ 31 + d)

/-- A read of a dispatcher queue (18_power.md R487, R488, R492). -/
def dsRead (s : State) (peek : Bool) (off : Nat) : Option (State × Nat) :=
  if off = 0x060 then some (cqPop s peek)
  else if 0x070 ≤ off && off < 0x080 then some (mqPop s ((off - 0x070) / 4) peek)
  else if 0x080 ≤ off && off < 0x0A0 then some (pqPop s ((off - 0x080) / 4) peek)
  else none

/-- A read of FE_TXTS (15_flow_slices.md R407, R420): the head, whose stamp FE_TXTS_LO and HI then show. -/
def txtsRead (s : State) (die port : Nat) (peek : Bool) : State × Nat :=
  match tabOr [] (sliceOf s die).txts port with
  | [] => (s, 0)
  | e :: r =>
    let p := fePage die port
    let s := setReg (setReg s (p + 0x124) (BitVec.ofNat 32 e.ts)) (p + 0x128) (BitVec.ofNat 32 (e.ts / 2 ^ 32))
    (if peek then s else updSlice s die fun x => { x with txts := tabPutD [] x.txts port r },
     2 ^ 31 + ofBool e.ok * 2 ^ 30 + e.seqId % 65536)

/-- Reads that pop a queue, take, claim or step something: the state after and the word; none for the other registers. -/
def specialRead (s : State) (ini : Nat) (peek : Bool) (p : Page) (die blk off : Nat) : Option (State × Nat) :=
  match p with
  | .mb | .mbh =>
    (match mbAt die blk off with
    | some m => mbRead s ini peek m (off % 64)
    | none => none)
  | .lk => lkRead s ini peek off
  | .ev => evRead s peek off
  | .ds => dsRead s peek off
  | .fe => if off = 0x120 then some (txtsRead s die (blk % 4096 - 256) peek) else none
  | .tb =>
    if off = 0x044 then some (tbLatch s, s.hub.now % 2 ^ 32) else none
  | .tr =>
    if off = 0x05C then
      let v := traceWord s 3
      some (if flag s TR TR_RIDX_INC then putF s TR TR_RIDX_IDX ((getF s TR TR_RIDX_IDX + 1) % 65536) else s, v)
    else none
  | _ => none

/-- The fault of a read, and the state it leaves. -/
def readFault (s : State) (ini : Nat) (bar0 peek : Bool) (p : Page) (die blk off : Nat) : Option Nat :=
  if off % 4 != 0 then some 0x0006
  else
    match p with
    | .mb | .mbh => mbFault s ini bar0 false peek die blk off 0
    | _ => none

/-- A read that reaches a page: state, response code and data. -/
def regRead (s : State) (ini : Nat) (bar0 peek : Bool) (p : Page) (die blk off : Nat) : State × Nat × Nat :=
  match readFault s ini bar0 peek p die blk off with
  | some code => (pageFault s (pg die blk) code, 4, 0)
  | none =>
    if p = .le && off = 0x064 then
      let r := mdataGet s die (blk % 4096)
      match r.2.2 with
      | some code => (pageFault r.1 (pg die blk) code, 4, 0)
      | none => (r.1, 0, r.2.1)
    else
      match specialRead s ini peek p die blk off with
      | some (s', v) => (s', 0, v)
      | none =>
        let r := readWord s p die blk off
        (if peek then r.1 else readClear r.1 p die blk off, 0, r.2)

/-! ### Where an access goes (R29 to R31, R43, R45) -/

/-- The clock domain that clocks the block of a page by the use R72 of 03_clocks.md states, where it can be gated; a level-4
function of a fabric die that no use names is taken with its die manager (DEDUCED, log 77). -/
def pageClock (p : Page) (die blk : Nat) : Option Nat :=
  let k := match p with
    | .dmgr | .ic | .bg | .dm => if isFabric die then some (8 + die) else if isKeep die then some (44 + die - 13) else none
    | .cl => some 1 | .sc => some 3 | .hd => some 5 | .ev => some 6
    | .db | .tr | .bk => some 7
    | .nr => if isFabric die then some (8 + die) else if isLane die then some (32 + die - 9)
        else if isKeep die then some (44 + die - 13) else some 4
    | .le => some (16 + die)
    | .cf | .ax => some (24 + die)
    | .fs | .fm => some (32 + die - 9)
    | .fe => some (36 + die - 9)
    | .mc => some (40 + mcChan die blk)
    | .kd => some (44 + die - 13)
    | .pc => some (46 + pcAt die)
    | .sm => ((List.range 8).find? fun n => (groupSeams n).contains (blk % 4096)).map (48 + ·)
    | .st => some 63
    | _ => none
  k.filter cdGateable

/-- An access reaches the block of a page: a gated clock domain re-opens (03_clocks.md R83). -/
def clockTouch (s : State) (p : Page) (die blk : Nat) : State :=
  match pageClock p die blk with
  | some k => cdReopen s k
  | none => s

/-- The access needs the block itself, not its header alone (R43). -/
def needsBlock (off : Nat) (wr : Bool) : Bool := 0x040 ≤ off || (wr && (off = 0x008 || off = 0x030))

/-- The access is served while a soft reset of the page runs (R45). -/
def servedInReset (off : Nat) (wr : Bool) : Bool := !wr && off ≤ 0x00C

/-- How an access to a page of a joined die goes on: it stalls, or is served, in the state given. -/
inductive Arrive where
  | stalls (s : State)
  | served (s : State)

/-- The clock of a page's block switches (03_clocks.md R80). -/
def clockSwitches (s : State) (p : Page) (die blk : Nat) : Bool :=
  (pageClock p die blk).any fun k => flag s (cdPage k) CD_STAT_SWITCHING

/-- The domain of a page is touched, which wakes it (R31). -/
def pageTouch (s : State) (p : Page) (die blk : Nat) : State :=
  match pageDomain p die blk with
  | none => s
  | some i => domTouch s die i

/-- The domain of a page is dropped or waking. -/
def pageAsleep (s : State) (p : Page) (die blk : Nat) : Bool :=
  (pageDomain p die blk).any fun i => (domOf s die i).state = 2 || (domOf s die i).state = 3

/-- An earlier access of the initiator to the page still stalls (R37). -/
def waitsBefore (s : State) (ini page : Nat) : Bool := s.pg.stalled.any fun x => x.ini = ini && x.reg / 4096 == page / 4096

/-- An access arrives at a page: it stalls behind an earlier one of its initiator, on a soft reset, on a dropped domain,
which it wakes, or while the clock of the block switches (R31, R37, R45; 03_clocks.md R80). -/
def arrive (s : State) (ini : Nat) (p : Page) (die blk off : Nat) (wr : Bool) : Arrive :=
  if waitsBefore s ini (pg die blk) || (inSoftReset s (pg die blk) && !servedInReset off wr) then .stalls s
  else if !needsBlock off wr then .served s
  else
    let s := pageTouch s p die blk
    if pageAsleep s p die blk then .stalls s
    else
      let s := clockTouch s p die blk
      if clockSwitches s p die blk then .stalls s else .served s

/-- An access that stalls waits behind those before it. -/
def stallHold (s : State) (x : Stall) : State := { s with pg := { s.pg with stalled := s.pg.stalled ++ [x] } }

/-- Register accesses can be made: the device has its supplies and is not in torpor. -/
def busUp (s : State) : Bool := s.pin.supplies && !s.pow.torpor

/-- The page an offset of a die's block names. -/
def pageAt (die blk off : Nat) : Option Page := if off < 4096 then pageOf die blk else none

/-- The register target of a die answers for its pages with 0x2: the die is isolated, or the target in autotomy (R30; 12_noc.md
R319, R320). -/
def regCut (s : State) (die : Nat) : Bool := isolated s die || causesT s (regNode die) != []

/-- A write to one page by address, `x` its form as it stalls: the state and the code, none while it stalls. -/
def accWrite (s : State) (x : Stall) : State × Option Nat :=
  let die := regDie x.reg
  let blk := regBlk x.reg
  let off := regOff x.reg
  match pageOf die blk with
  | none => (s, some 1)
  | some p =>
    if regCut s die then (s, some 2)
    else
      match arrive s x.ini p die blk off true with
      | .stalls s => (stallHold s x, none)
      | .served s => let r := regWrite s x.ini x.bar0 p die blk off x.val; (r.1, some r.2)

/-- A read of one page by address: the state, and code and data, none while it stalls. -/
def accRead (s : State) (x : Stall) : State × Option (Nat × Nat) :=
  let die := regDie x.reg
  let blk := regBlk x.reg
  let off := regOff x.reg
  match pageOf die blk with
  | none => (s, some (1, 0))
  | some p =>
    if regCut s die then (s, some (2, 0))
    else
      match arrive s x.ini p die blk off false with
      | .stalls s => (stallHold s x, none)
      | .served s => let r := regRead s x.ini x.bar0 (x.val = 1) p die blk off; (r.1, some r.2)

/-- Dies that carry a block. -/
def carriers (blk off : Nat) : List Nat := (List.range 15).filter fun d => (pageAt d blk off).isSome

/-- A number no broadcast in progress carries. -/
def bcastNext (s : State) : Nat := s.pg.bcasts.foldl (fun m b => max m (b.no + 1)) 0

/-- The copies of a broadcast write are made in order: the state, the code of those that ended, and how many stall. -/
def bcastCopies (s : State) (no ini blk off : Nat) (w : Word) : State × Nat × Nat :=
  (carriers blk off).foldl (fun (r : State × Nat × Nat) (d : Nat) =>
    let x := accWrite r.1 { ini := ini, reg := pg d blk + off, wr := true, val := w, bcast := some no }
    match x.2 with
    | some c => (x.1, bcastCode r.2.1 c, r.2.2)
    | none => (x.1, r.2.1, r.2.2 + 1)) (s, 0, 0)

/-- A broadcast write: a copy to every joined die that carries the block; the code of R59, none while a copy stalls: then the
one response follows the last copy (R58). `pkt`: the packet it came in. -/
def bcastWrite (s : State) (ini blk off : Nat) (w : Word) (pkt : Option (Nat × Packet)) : State × Option Nat :=
  if carriers blk off = [] then (s, some 1)
  else
    let r := bcastCopies s (bcastNext s) ini blk off w
    if r.2.2 = 0 then (r.1, some r.2.1)
    else
      let b : Bcast := { no := bcastNext s, left := r.2.2, code := r.2.1, ini := ini, reg := pg 15 blk + off, pkt := pkt }
      ({ r.1 with pg := { r.1.pg with bcasts := r.1.pg.bcasts ++ [b] } }, none)

/-- An access of another size or alignment than a word's: the page that holds the offset records 0x0006, on every die a
broadcast would reach; the code (R36, R59). -/
def wrongSize (s : State) (die blk off : Nat) : State × Nat :=
  let one := fun (s : State) d => if regCut s d then (s, 2) else (pageFault s (pg d blk) 0x0006, 4)
  if die = 15 then
    if carriers blk off = [] then (s, 1)
    else (carriers blk off).foldl (fun (r : State × Nat) d => ((one r.1 d).1, bcastCode r.2 (one r.1 d).2)) (s, 0)
  else if (pageAt die blk off).isNone then (s, 1)
  else one s die

/-- A write to register space: die 15 is the broadcast. -/
def anyWrite (s : State) (ini : Nat) (bar0 : Bool) (die blk off : Nat) (w : Word) : State × Option Nat :=
  if die = 15 then bcastWrite s ini blk off w none
  else if 4096 ≤ off then (s, some 1)
  else accWrite s { ini := ini, bar0 := bar0, reg := pg die blk + off, wr := true, val := w }

/-- A read of register space. -/
def anyRead (s : State) (ini : Nat) (bar0 : Bool) (die blk off : Nat) (peek : Bool) : State × Option (Nat × Nat) :=
  if 4096 ≤ off then (s, some (1, 0))
  else accRead s { ini := ini, bar0 := bar0, reg := pg die blk + off, wr := false, val := if peek then 1 else 0 }

/-- Answers a write of `ini` at offset `a` once it has completed. -/
def answerW (r : State × Option Nat) (ini a : Nat) : State :=
  match r.2 with
  | some code => regAnswer r.1 ini a true code 0
  | none => r.1

/-- Answers a read of `ini` at offset `a` once it has completed. -/
def answerR (r : State × Option (Nat × Nat)) (ini a : Nat) : State :=
  match r.2 with
  | some (code, v) => regAnswer r.1 ini a false code v
  | none => r.1

/-- Register target of a die; broadcasts go to the hub's (R58). -/
def regTarget (die : Nat) : Nat := if die < 15 then regNode die else regNode 8

/-- The initiator's bridge has no credit counter for the register target of a page that exists (12_noc.md R305). -/
def regNoReach (s : State) (ini die blk off : Nat) : Bool :=
  ((pageAt die blk off).isSome || die = 15) && quotaOf s ini (regTarget die) = 0

/-- How an access of initiator `ini` to register space goes on: nothing where no initiator has that ID or the device is down,
held by the bridge where the ID is quenched, 0x3 where the bridge has no counter, else as `f` makes it (12_noc.md R305, R317). -/
def cmdAccess (s : State) (ini die blk off : Nat) (a : Access) (f : State) : State :=
  if !iniAssigned ini || !busUp s then s
  else if quenched s ini then accessTake s a false
  else if regNoReach s ini die blk off then regAnswer s ini (pg die blk + off) (a.kind != 0) 3 0
  else f

/-- An access of `n` bytes of initiator `ini` at an offset of register space, as its bridge sees it. -/
def regAccess (ini kind die blk off n : Nat) (data : List Byte) (peek : Bool) : Access :=
  { ini := ini, kind := kind, addr := 0x3FF00000000 + pg die blk + off, size := n, data := data, peek := peek }

/-- A write by a command. -/
def cmdWrite (s : State) (ini : Nat) (bar0 : Bool) (die blk off : Nat) (w : Word) : State :=
  cmdAccess s ini die blk off (regAccess ini 1 die blk off 4 (toBytes 4 w.toNat) false)
    (answerW (anyWrite s ini bar0 die blk off w) ini (pg die blk + off))

/-- A read by a command. -/
def cmdRead (s : State) (ini : Nat) (bar0 : Bool) (die blk off : Nat) (peek : Bool) : State :=
  cmdAccess s ini die blk off (regAccess ini 0 die blk off 4 [] peek)
    (answerR (anyRead s ini bar0 die blk off peek) ini (pg die blk + off))

/-- A write by a command to a register offset of register space. -/
def cmdWriteAt (s : State) (ini a : Nat) (w : Word) : State := cmdWrite s ini false (regDie a) (regBlk a) (regOff a) w

/-- An access that stalled is tried again: it ends with its response, or stalls behind those before it. -/
def stalledRun (s : State) (x : Stall) : State :=
  if x.wr then
    match accWrite s x with
    | (s, some code) => stallEnd s x code 0
    | (s, none) => s
  else
    match accRead s x with
    | (s, some (code, v)) => stallEnd s x code v
    | (s, none) => s

/-- Every access that stalls is tried again, oldest first. -/
def stallRetry (s : State) : State :=
  s.pg.stalled.foldl stalledRun { s with pg := { s.pg with stalled := [] } }

/-! ### Commands of the register pages -/

/-- REGISTER_WRITE (R37 to R39). -/
def execRegisterWrite (ini : Nat) (bar0 : Bool) (die blk off : Nat) (val : Word) (s : State) : Host.Outcome State Fault Refusal :=
  .next (cmdWrite s ini bar0 die blk off val)

/-- REGISTER_READ_CLEAR (R11, R12). -/
def execRegisterReadClear (ini : Nat) (bar0 : Bool) (die blk off : Nat) (peek : Bool) (s : State) :
    Host.Outcome State Fault Refusal := .next (cmdRead s ini bar0 die blk off peek)

/-- WRONG_SIZE_ACCESS: code 0x4, and the page that holds the offset records 0x0006 (R36). -/
def execWrongSizeAccess (ini die blk off : Nat) (s : State) : Host.Outcome State Fault Refusal :=
  .next <|
    let r := wrongSize s die blk off
    cmdAccess s ini die blk off (regAccess ini 0 die blk off 1 [] false)
      (regAnswer r.1 ini (pg die blk + off) false r.2 0)

/-- BLOCK_ENABLE (R43). -/
def execBlockEnable (ini die blk : Nat) (en : Bool) (frz : Nat) (s : State) : Host.Outcome State Fault Refusal :=
  .next (cmdWrite s ini false die blk 0x008 (BitVec.ofNat 32 (frz % 8 * 2 + ofBool en)))

/-- SOFT_RESET (R45): PG_CTRL keeps its other fields. -/
def execSoftReset (ini die blk : Nat) (s : State) : Host.Outcome State Fault Refusal :=
  .next (cmdWrite s ini false die blk 0x008 (wPut (getReg s (pg die blk + 0x008)) 4 1 1))

/-- COMMIT (R54). -/
def execCommit (ini die blk : Nat) (disc : Bool) (s : State) : Host.Outcome State Fault Refusal :=
  .next (cmdWrite s ini false die blk 0x030 (if disc then 3 else 1))

/-- DISCARD (R54). -/
def execDiscard (ini die blk : Nat) (s : State) : Host.Outcome State Fault Refusal :=
  .next (cmdWrite s ini false die blk 0x030 2)

/-- COMMIT_POINT: the committed values of a page take effect together (R54, R55); none occurs while the block is frozen
(R44), and pages whose chapter gives their commit point an event of its own have it there. -/
def execCommitPoint (die blk : Nat) (s : State) : Host.Outcome State Fault Refusal :=
  .next <|
    match pageOf die blk with
    | none => s
    | some p =>
      if !busUp s || isolated s die then s
      else
        match p with
        | .le | .lq | .fe | .gv => s
        | _ => shadowApply s (pg die blk)

/-- EVT_FORCE (R46). -/
def execEvtForce (ini die blk : Nat) (val : Word) (s : State) : Host.Outcome State Fault Refusal :=
  .next (cmdWrite s ini false die blk 0x01C val)

/-- PG_VOTE_WRITE (R49). -/
def execPgVoteWrite (ini die blk : Nat) (val : Word) (s : State) : Host.Outcome State Fault Refusal :=
  .next (cmdWrite s ini false die blk 0x028 val)

/-- PG_LOCK_WRITE (R50). -/
def execPgLockWrite (ini die blk : Nat) (val : Word) (s : State) : Host.Outcome State Fault Refusal :=
  .next (cmdWrite s ini false die blk 0x02C val)

/-- PG_RETAIN_WRITE (R56). -/
def execPgRetainWrite (ini die blk : Nat) (val : Word) (s : State) : Host.Outcome State Fault Refusal :=
  .next (cmdWrite s ini false die blk 0x034 val)

/-- BROADCAST_WRITE (R58, R59). -/
def execBroadcastWrite (ini blk off : Nat) (val : Word) (s : State) : Host.Outcome State Fault Refusal :=
  .next (cmdWrite s ini false 15 blk off val)

end Sys2Proof.Machine
end

