-- ==== Sys2Proof/Machine/Start.lean ====
section
/-! DEFINITION. The start from its triggers to the header of the image (04_start.md R89 to R96, R103, R112 to R116; R600) and
the records of load failures (05_images.md R130, R133). -/

namespace Sys2Proof.Machine

/-! ### Triggers and pins (R89, R90, R112) -/

/-- A device reset that keeps what R112 keeps: whether the start it ends was abandoned. -/
def startAgain (s : State) (abandoned : Bool) : State :=
  let s := startTrigger s
  { s with start := { s.start with abandoned := abandoned } }

/-- A start that RESET_N or PFW_N abandoned is waiting for its pin. -/
def startWaits (s : State) : Bool := s.start.phase = .resetHeld || s.start.phase = .pfwHeld

/-- SUPPLIES_VALID (R89): a start begins, or one that S0's count had held back goes on; a last-gasp that a brown-out began
completes first, as when PFW_N rises (21_shutdown.md R541, log 114). -/
def execSuppliesValid (s : State) : Host.Outcome State Fault Refusal :=
  .next <|
    if s.pin.supplies || s.pow.torpor then s
    else
      let s : State := { s with pin := { s.pin with supplies := true, railsOut := [], tripHold := false } }
      if s.start.phase = .off then deviceReset s false
      else if s.shut.way = .lastGasp then pfwRestart s
      else startAgain s (startWaits s && s.start.abandoned)

/-- RESET_N_LOW: the device is held in reset; a start in progress is abandoned (R112, 23_pins.md R593). -/
def execResetNLow (s : State) : Host.Outcome State Fault Refusal :=
  .next <|
    let s : State := { s with pin := { s.pin with resetN := false, tripHold := false } }
    if s.pow.torpor || !s.pin.supplies then s
    else startAgain s (starting s.start.phase || (startWaits s && s.start.abandoned))

/-- RESET_N_HIGH: a start begins, and a torpor ends (R89, 18_power.md R481). -/
def execResetNHigh (s : State) : Host.Outcome State Fault Refusal :=
  .next <|
    let s : State := { s with pin := { s.pin with resetN := true } }
    if s.pow.torpor then torporExit s 2
    else if s.start.phase = .resetHeld then startAgain s s.start.abandoned
    else s

/-- DEVICE_RESET_INTERNAL (R89, R110). -/
def execDeviceResetInternal (s : State) : Host.Outcome State Fault Refusal :=
  .next <| if s.pin.supplies && s.pin.resetN && s.pin.pfwN && !s.pow.torpor && !s.pin.tripHold then startTrigger s else s

/-- SRC_SEL_CHANGE: only the level at the end of S0 counts (R90). -/
def execSrcSelChange (sel : Nat) (s : State) : Host.Outcome State Fault Refusal :=
  .next { s with pin := { s.pin with srcSel := sel % 4 } }

/-- SRC_SEL_LATCH: S0 ends and S1 begins (R88, R90; 23_pins.md R596). -/
def execSrcSelLatch (s : State) : Host.Outcome State Fault Refusal :=
  .next <|
    if s.start.phase != .s0 then s
    else
      let s := stageEnd (putF (putF s SQ SQ_STAT_SOURCE s.pin.srcSel) SU SU_STAT_RAIL_OK 0xFF) 0
      let s := setStage { s with start := { s.start with phase := .s1 }, pin := { s.pin with xspiResetN := true } } 1
      xoVerdict s

/-- MGMT_PATH_TIMEOUT (R67). -/
def execMgmtPathTimeout (seam : Nat) (s : State) : Host.Outcome State Fault Refusal :=
  .next <|
    let d := seamDies seam
    if s.start.phase != .s2Records || (seamReady s d.1 seam && seamReady s d.2 seam) then s
    else if seam = 8 || seam = 16 then { s with start := { s.start with k0Lost := true } }
    else if seam = 10 || seam = 17 then { s with start := { s.start with k1Lost := true } }
    else if (seam = 0 || seam = 12) && 2 ≤ getF s SQ SQ_STAT_SOURCE then { s with start := { s.start with srcLost := true } }
    else s

/-! ### Failures (R103, R104, R118, R130) -/

/-- A load failure is recorded: stream, detail, and the group and frame it names, where it names one (05_images.md R131,
R133). -/
def ilFail (s : State) (stream detail : Nat) (group frame : Option Nat) : State :=
  let s := putFlag (putF (putF s IL IL_STAT_STREAM stream) IL IL_STAT_DETAIL detail) IL IL_STAT_FAIL true
  let s := putF (putF s IL IL_FAIL_GROUP_GROUP (group.getD 0xFFFFFFFF)) IL IL_FAIL_FRAME_FRAME (frame.getD 0xFFFFFFFF)
  evtPulse s IL 0

/-- The first cause of this start; a start that follows an abandoned one shows 0x11 (R112, R118). -/
def firstCause (s : State) (cause : Nat) : State :=
  let s := if getF s SQ SQ_CAUSE_FIRST_CAUSE = 0 then
      putF (putF s SQ SQ_CAUSE_FIRST_CAUSE cause) SQ SQ_CAUSE_FIRST_SLOT s.start.slot else s
  if s.start.abandoned then putF s SQ SQ_CAUSE_FIRST_CAUSE 0x11 else s

/-- FALLBACK sets (R103). -/
def fallBack (s : State) (cause : Nat) : State :=
  evtPulse (putFlag (firstCause s cause) SQ SQ_STAT_FALLBACK true) SQ 1

/-- A check of S2, S3 or S4 fails with `cause`: GOLDEN follows, or the safe state where GOLDEN itself failed (R103, R104). -/
def startFail (s : State) (cause : Nat) : State :=
  let s : State := { s with load := { s.load with stopped := true } }
  if s.start.golden || s.start.slot = 3 then safeEnter (finalCause s cause s.start.slot)
  else
    let s := fallBack s cause
    { s with start := { s.start with phase := .clearing } }

/-- A cause that leads directly to the safe state (R104). -/
def startSafe (s : State) (cause : Nat) : State := safeEnter (finalCause s cause s.start.slot)

/-- The image source times out (R114, R115, R130). -/
def sourceFail (s : State) : State := startFail (ilFail s 0x1F 0xA none none) 0x0F

/-- A slot is loaded from: SLOT and ACTIVE_SLOT name it (R117, 06_keep.md R152). -/
def slotUse (s : State) (slot : Nat) : State :=
  let s := putF (putF s SQ SQ_STAT_SLOT slot) KP KP_STAT_ACTIVE_SLOT slot
  { s with start := { s.start with slot := slot, source := 0 } }

/-- CONFIG_CLEARED: GOLDEN runs from step 6 (R103). -/
def execConfigCleared (s : State) : Host.Outcome State Fault Refusal :=
  .next <|
    if s.start.phase != .clearing then s
    else
      let s := slotUse (configClear s) 3
      let s : State := { s with load := { hostNext := s.load.hostNext }
                                start := { s.start with golden := true, phase := .s2Header, table := [], idx := 0 } }
      setStage s 2

/-! ### S2 steps 1 to 5 (R91 to R95, R99) -/

/-- Step 5: a pin-safe record is applied to the banks (R99). -/
def pinStep (s : State) : State :=
  let s := match pinBest s with
    | none => s
    | some r =>
      let put := fun (s : State) (d a w : Nat) =>
        setReg s (ioPage d a + 0x040 + 4 * w) (r.safe.getD (3 * (firstBank d + a) + w) 0)
      let s := (List.range 8).foldl (fun s d => (List.range (ioBanks d)).foldl (fun s a =>
        put (put (put s d a 0) d a 1) d a 2) s) s
      let s := putFlag s SQ SQ_STAT_PIN_REC true
      (List.range 8).foldl pinsLatch s
  let s : State := { s with start := { s.start with phase := .s2Header } }
  if 2 ≤ getF s SQ SQ_STAT_SOURCE && s.start.srcLost then sourceFail s else s

/-- A boot record whose tag verifies and whose fields are valid (R94). -/
def bootValid (r : BootRec) : Bool :=
  r.tagOk && (r.primary = 1 || r.primary = 2) && r.trial ≤ 2 && r.trial != r.primary && r.flags < 2

/-- Slot selection of a Keep start (R95, 06_keep.md R140). -/
def slotSelect (s : State) : State :=
  match bootPick s bootValid with
  | none =>
    let s := fallBack s 0x05
    slotUse { s with start := { s.start with golden := true } } 3
  | some r =>
    let worn := (keepReach s 13 && unitReadOnly s 13 (recUnit 0)) || (keepReach s 14 && unitReadOnly s 14 (recUnit 0))
    if r.trial != 0 && 0 < r.trialLeft && !worn then
      slotUse (putFlag (bootWrite s { r with trialLeft := r.trialLeft - 1 }) SQ SQ_STAT_TRIAL true) r.trial
    else slotUse s r.primary

/-- The counter write and the entry actions that an interrupted transition left are completed (19_security.md R498). -/
def lcComplete (s : State) : State :=
  let ctr := (ctrValue s 15).getD 0
  if s.sec.recordOk && (!s.sec.entryDone || decide (ctr < s.sec.lc)) then
    let s := lcEntry (if ctr < s.sec.lc then lcCount s ctr s.sec.lc else s) s.sec.lc
    evtPulse (lcWrite s (lcRecNow s s.sec.lc true)) SC 1
  else s

/-- What follows step 3: the wait for a source, or steps 4 and 5 (R91, R116). -/
def afterQuick (s : State) : State :=
  let s := lcComplete s
  match getF s SQ SQ_STAT_SOURCE with
  | 0 => pinStep (slotSelect s)
  | 1 => pinStep { s with start := { s.start with source := 1 } }
  | 2 => pinStep { s with start := { s.start with source := 2 } }
  | _ => if s.start.srcLost then pinStep s else { s with start := { s.start with phase := .s2HostHold } }

/-- The self-test record as SD_REC0 to SD_REC3 show it (21_shutdown.md R552, R556). -/
def testShow (s : State) (r : TestRec) : State :=
  let s := putFlag (putFlag s SD SD_REC0_PRESENT true) SD SD_REC0_TAG_OK r.tagOk
  let s := putF (putF s SD SD_REC0_RESULT r.result) SD SD_REC0_VARIANT r.variant
  let s := putF (putF s SD SD_REC0_DIE (if 15 < r.die then 0xF else r.die)) SD SD_REC0_REGION r.region
  putF (putF (putF s SD SD_REC1_INDEX r.index) SD SD_REC2_RTC (r.rtc % 2 ^ 32)) SD SD_REC3_RTC (r.rtc / 2 ^ 32)

/-- The life-cycle record read with the other records: the copy of larger STATE among those that verify (19_security.md
R496, R508). -/
def lcRead (s : State) : State :=
  let copy := fun (die : Nat) (r : Option LcRec) => if recReadable s die 2 then r.filter (·.tagOk) else none
  let r := match copy 13 s.sec.rec0, copy 14 s.sec.rec1 with
    | some a, some b => if a.state < b.state then some b else some a
    | some a, none => some a
    | none, b => b
  let ctr := (ctrValue s 15).getD 0
  match r with
  | some r =>
    { s with sec := { s.sec with lc := max ctr r.state, entryDone := r.entryDone, recordOk := true, slots := r.slots
                                 idPub := r.idPub, idKey := r.idKey } }
  | none =>
    let s : State := { s with sec := { s.sec with lc := ctr, recordOk := false, slots := [], idPub := none, idKey := [] } }
    if 0 < ctr then alarm s 4 8 4 else s

/-- The records units of a keep die are readable, or not, in this start (06_keep.md R135). -/
def recMark (s : State) (die : Nat) (ok : Bool) : State :=
  ([0, 1, 2, 3] ++ (List.range 32).map (16 + ·)).foldl (fun s u =>
    if ok == !unreadable s die (recUnit u) then s else errsMark s [(die, recUnit u, if ok then 0 else 41)]) s

/-- The records of both keep dies are read: what needs correction counts (06_keep.md R135, R153). -/
def recordsRead (s : State) : State :=
  [13, 14].foldl (fun s die =>
    if if die = 13 then s.start.k0Lost else s.start.k1Lost then s
    else ([0, 1, 2, 3] ++ (List.range 16).map (16 + ·)).foldl (fun s u => unitRead s die (recUnit u)) s) s

/-- The seams of a keep die's management path have reached MGMT, or their limit has passed. -/
def pathKnown (s : State) (lost : Bool) (seams : List Nat) : Bool :=
  lost || seams.all fun m => seamReady s (seamDies m).1 m && seamReady s (seamDies m).2 m

/-- Step 2 after the records have been read: the self-test record decides (R92). -/
def selftestStep (s : State) : State :=
  let always := match bootPick s bootValid with | some r => r.flags = 1 | none => false
  match testBest s with
  | none => { s with start := { s.start with phase := .s2Quick } }
  | some r =>
    if r.tagOk && r.result = 2 then startSafe s 0x02
    else
      let s := testPut s none
      if r.tagOk && r.result = 1 && !always then afterQuick s else { s with start := { s.start with phase := .s2Quick } }

/-- Step 1 can be taken: both management paths are known, and that to the source where the start needs it (R91, R600). -/
def recordsDue (s : State) : Bool :=
  s.start.phase = .s2Records && pathKnown s s.start.k0Lost [8, 16] && pathKnown s s.start.k1Lost [10, 17] &&
    (getF s SQ SQ_STAT_SOURCE < 2 || pathKnown s s.start.srcLost [0, 12])

/-- No keep die gives a directory (R93). -/
def dirsLost (s : State) (read0 read1 : Bool) : Bool :=
  !(s.keep.dir0 && read0 && !s.start.k0Lost) && !(s.keep.dir1 && read1 && !s.start.k1Lost)

/-- What the records read show in the registers: FROZEN, the counters, the boot record and the self-test record (06_keep.md
R150, R152). A counter of which no copy verifies shows 0 (log 85). -/
def recordsShow (s : State) : State :=
  let s := putFlag s KP KP_STAT_FROZEN (getF s (pg 13 0xE000) KD_FREE_FREE = 0 || getF s (pg 14 0xE000) KD_FREE_FREE = 0)
  let s := match bootPick s bootValid with | some r => bootShow s r | none => s
  let s := (List.range 16).foldl (fun s k => putF s KP (KP_CTR_VALUE.nth k) ((ctrValue s k).getD 0)) s
  match testBest s with
  | some r => testShow { s with sec := { s.sec with testRead := some r } } r
  | none => s

/-- KEEP_RECORDS_READ: the keys of R493, then steps 1 and 2 (R91 to R93, R600; 06_keep.md R150); `errs`: bit errors that
units of the Keep have come to hold (06_keep.md R135). -/
def execKeepRecordsRead (read0 read1 : Bool) (errs : List (Nat × Nat × Nat)) (s : State) :
    Host.Outcome State Fault Refusal :=
  .next <|
    if !recordsDue s then s
    else
      let s := recordsRead (recMark (recMark (errsMark (keysDerive s) errs) 13 read0) 14 read1)
      if dirsLost s read0 read1 then startSafe s 0x04 else selftestStep (lcRead (recordsShow s))

/-- QUICK_SELFTEST_DONE (R92). -/
def execQuickSelftestDone (pass : Bool) (s : State) : Host.Outcome State Fault Refusal :=
  .next <|
    if s.start.phase != .s2Quick then s
    else
      let s := putFlag s SQ SQ_STAT_QUICK_TEST true
      if pass then afterQuick s else startSafe s 0x03

/-- HOLD_START_CMD (R116). -/
def execHoldStartCmd (w1 : Nat) (s : State) : Host.Outcome State Fault Refusal :=
  .next <|
    if s.start.phase != .s2HostHold then s
    else
      let s := if (mboxOf s 64).full then mbTaken s 64 else s
      match w1 with
      | 1 => pinStep (slotUse s 1)
      | 2 => pinStep (slotUse s 2)
      | 3 => pinStep (slotUse s 3)
      | 4 => pinStep { s with start := { s.start with source := 2 } }
      | _ => putF s SQ SQ_CAUSE_FINAL_CAUSE 0x12

/-! ### Steps 6 to 8 begin (R91, R121, R127) -/

/-- Size of the slot or source an image comes from: a Keep slot has 1,280 MiB; what flash or host has the manual does not
state (06_keep.md R137, 05_images.md R121). -/
def sourceRoom (s : State) : Nat :=
  match s.start.source with
  | 0 => 1342177280
  | 1 => Config.flashBytes
  | _ => Config.hostBytes

/-- The load of an image whose header has passed: root, COMPRESSED and frame counts describe it from now on (05_images.md
R133). -/
def loadBegin (s : State) (hdr : Header) (nodes : List (BitVec 256)) : State :=
  let free := fun (e : Nat × Domain) =>
    let d : Domain := { e.2 with staticHold := false }
    if d = { } then none else some (e.1, d)
  let s : State := { s with load := { s.load with hdr := hdr, nodes := nodes, trusted := [], prog := [], tableFrames := []
                                                  stopped := false, bankInit := [] } }
  let s : State := { s with pow := { s.pow with doms := s.pow.doms.filterMap free } }
  let s := (List.range 8).foldl (fun s k => putF s IL (IL_ROOT_ROOT.nth k) (nGet hdr.root (32 * k) 32)) s
  let s := (List.range 17).foldl (fun s k => putF s IL (IL_FRAMES_COUNT.nth k) 0) s
  putFlag s IL IL_STAT_COMPRESSED (hdr.flags = 1)

/-- The header of the slot that the start uses is verified (19_security.md R507). -/
def slotVerified (s : State) (hdr : Header) : State :=
  { s with sec := { s.sec with verified := tabPut s.sec.verified s.start.slot hdr } }

/-- SIGNATURE_VERIFIED: steps 6 and 7, and the node table of step 8 (R91, R121, R122, R127; R600). -/
def execSignatureVerified (hdr : Header) (pad : Nat) (readOk : Bool) (keyHash : Nat) (sigOk : Bool) (nodesOk : Bool)
    (nodes : List (BitVec 256)) (s : State) : Host.Outcome State Fault Refusal :=
  .next <|
    let keep := s.start.source = 0
    let head := if keep then slotRead s 0 4097 else (s, true)
    let cause := headerCause s hdr pad (sourceRoom s) (readOk && head.2) keyHash sigOk
    let need := if cause.isSome then 4097 else hdr.nodeOff + 32 * hdr.nodeCount
    if s.start.phase != .s2Header || (s.start.source = 2 && s.load.hostNext < need) then s
    else
      match cause with
      | some c => startFail head.1 c
      | none =>
        let tab := if keep then slotRead head.1 hdr.nodeOff (32 * hdr.nodeCount) else (s, true)
        let s := if keep then slotVerified tab.1 hdr else tab.1
        let s := loadBegin s hdr nodes
        if !nodesOk || !tab.2 || nodes.length != hdr.nodeCount then startFail (ilFail s 16 6 none none) 0x0A
        else { s with start := { s.start with phase := .s2Tables } }

/-! ### Sources (R114, R115, R132) -/

/-- Bytes are awaited from a source that is not the Keep. -/
def sourceWaits (s : State) : Bool :=
  (s.start.source = 1 || s.start.source = 2) &&
    (s.start.phase = .s2Header || s.start.phase = .s2Tables || s.start.phase = .s3 || s.start.phase = .s4)

/-- SOURCE_TIMEOUT. -/
def execSourceTimeout (s : State) : Host.Outcome State Fault Refusal := .next (if sourceWaits s then sourceFail s else s)

/-- Bytes of the load window (17_processors.md R469). -/
def loadWindow : Nat := 16777216

/-- HOST_PUSH_WRITE. A write that comes before step 6 of S2, or after the last stream, finds no load that takes it and is
dropped (log 86). -/
def execHostPushWrite (addr len : Nat) (s : State) : Host.Outcome State Fault Refusal :=
  .next <|
    if s.start.source != 2 || !sourceWaits s then s
    else if addr = s.load.hostNext % loadWindow then { s with load := { s.load with hostNext := s.load.hostNext + len } }
    else startFail (ilFail s 0x1F 9 none none) 0x0D

end Sys2Proof.Machine
end

