-- ==== Sys2Proof/Machine/Images.lean ====
section
/-! DEFINITION. The frames of an image and its tables: S2 step 8 and S4 (04_start.md R96, R102; 05_images.md R123 to R132;
09_partitions.md R217; 12_noc.md R312 to R314). -/

namespace Sys2Proof.Machine

/-! ### Reading tables -/

/-- The number that `n` bytes at `o` spell. -/
def bytesAt (bs : List Byte) (o n : Nat) : Nat := ofBytes ((bs.drop o).take n)

/-- The bytes of the decompressed table stream. -/
def tableBytes (s : State) : List Byte := s.load.tableFrames.flatMap frameBytes

/-- A region of them. -/
def tableRegion (s : State) (off len : Nat) : List Byte := ((tableBytes s).drop off).take len

/-! ### The partition table (R217) -/

/-- Entry `e` of the table. -/
def partEntryOf (bs : List Byte) (e : Nat) : PartEntry :=
  let o := 16 + 16 * e
  { no := bytesAt bs o 1, die := bytesAt bs (o + 1) 1, cFirst := bytesAt bs (o + 2) 2, cLast := bytesAt bs (o + 4) 2
    client := bytesAt bs (o + 6) 1, flags := bytesAt bs (o + 7) 1 }

/-- The fields of an entry keep their rules. -/
def partEntryOk (bs : List Byte) (e : Nat) : Bool :=
  let x := partEntryOf bs e
  x.no < 64 && x.die < 8 && x.cFirst ≤ x.cLast && x.cLast < 750 && 16 ≤ x.client && x.client < 32 && x.flags < 4
    && bytesAt bs (24 + 16 * e) 8 = 0

/-- Two entries share a column of a die. -/
def partsOverlap (a b : PartEntry) : Bool := a.die = b.die && a.cFirst ≤ b.cLast && b.cFirst ≤ a.cLast

/-- Entries in ascending number, none sharing a column with a later one. -/
def partsOrdered (l : List PartEntry) : Bool :=
  match l with
  | [] => true
  | a :: r => r.all (fun b => a.no < b.no && !partsOverlap a b) && partsOrdered r

/-- The partition table: entries and ICP_GCK; none where it fails validation. -/
def partTable (bs : List Byte) : Option (List PartEntry × List Nat) :=
  let n := bytesAt bs 4 1
  let parts := (List.range n).map (partEntryOf bs)
  let gck := (List.range 8).map fun d => bytesAt bs (8 + d) 1
  if bytesAt bs 0 4 = 0x50544231 && n ≤ 64 && bytesAt bs 5 3 = 0 && bs.length = 16 + 16 * n
      && gck.all (fun g => nGet g 5 2 = 0) && (List.range n).all (partEntryOk bs) && partsOrdered parts then
    some (parts, gck)
  else none

/-! ### The sequence table (R96) -/

/-- Entry `i` of the table. -/
def seqEntryOf (bs : List Byte) (i : Nat) : SeqEntry :=
  let w := fun k => bytesAt bs (16 * i + 4 * k) 4
  { blk := nGet (w 0) 12 16, die := nGet (w 0) 8 4, action := nGet (w 0) 4 4, stage := nGet (w 0) 0 4
    timeout := nGet (w 1) 16 16, off := nGet (w 1) 0 12, value := BitVec.ofNat 32 (w 2), mask := BitVec.ofNat 32 (w 3) }

/-- Reserved bits of an entry are 0, as its format has them (log 79). -/
def seqEntryRsv (bs : List Byte) (i : Nat) : Bool :=
  nGet (bytesAt bs (16 * i) 4) 28 4 = 0 && nGet (bytesAt bs (16 * i + 4) 4) 12 4 = 0

/-- The pages an entry addresses exist: on the die, or for a broadcast on some die. -/
def seqAssigned (e : SeqEntry) : Bool :=
  if e.die = 15 then (List.range 15).any fun d => (pageOf d e.blk).isSome else (pageOf e.die e.blk).isSome

/-- An entry is valid (R96). TIMEOUT not 0 on WRITE or RELEASE_PART, or 0 on WAIT, fails it too, as do its reserved bits
(`seqEntryRsv`): the rule's list of failures names neither (log 79). -/
def seqEntryOk (parts : List PartEntry) (e : SeqEntry) : Bool :=
  (e.stage = 3 || e.stage = 7) &&
  match e.action with
  | 1 => seqAssigned e && e.timeout = 0 && (e.stage = 7 || e.blk / 4096 = 3 || e.blk = 0xC100)
  | 2 => e.die != 15 && seqAssigned e && 1 ≤ e.timeout && (e.stage = 7 || e.blk / 4096 = 3 || e.blk = 0xC100)
  | 3 =>
    e.stage = 7 && e.die = 0 && e.blk = 0 && e.off = 0 && e.timeout = 0 &&
      (wGet e.value 0 7 = 64 || parts.any fun p => p.no = wGet e.value 0 7)
  | _ => false

/-- Entries from `i` up to the END entry, whose STAGE is defined as that of any other; none where an entry is invalid or no END
comes within `fuel` entries. -/
def seqEntries (bs : List Byte) (parts : List PartEntry) (i fuel : Nat) : Option (List SeqEntry) :=
  match fuel with
  | 0 => none
  | f + 1 =>
    let e := seqEntryOf bs i
    if bs.length < 16 * i + 16 then none
    else if e.action = 0 then (if e.stage = 3 || e.stage = 7 then some [] else none)
    else if seqEntryOk parts e && seqEntryRsv bs i then (seqEntries bs parts (i + 1) f).map (e :: ·)
    else none

/-! ### The route tables (R312, R313) -/

/-- Reach blocks from offset `o`: (initiator, target, quota, CHK) of their entries; none where one is malformed. -/
def reachBlocks (bs : List Byte) (o n : Nat) : Option (List (Nat × Nat × Nat × Nat)) :=
  match n with
  | 0 => if o = bs.length then some [] else none
  | k + 1 =>
    let ini := bytesAt bs o 2
    let c := bytesAt bs (o + 2) 2
    let ent := fun i => bytesAt bs (o + 4 + 4 * i) 4
    let ok := fun i =>
      let e := ent i
      targetSlots (nGet e 0 12) != 0 && 1 ≤ nGet e 12 6 && [0, 4, 5, 6, 7].contains (nGet e 18 3) && nGet e 21 11 = 0
    if bs.length < o + 4 + 4 * c || c = 0 || 32 < c || !iniAssigned ini || iniGeneral ini || ini = 72 || ini = 73
        || !(List.range c).all ok then none
    else
      (reachBlocks bs (o + 4 + 4 * c) k).map fun r =>
        (List.range c).map (fun i => (ini, nGet (ent i) 0 12, nGet (ent i) 12 6, nGet (ent i) 18 3)) ++ r

/-- No target's quotas exceed its slots less the 33 of the general initiators. -/
def quotasOk (l : List (Nat × Nat × Nat × Nat)) : Bool :=
  l.all fun e => ((l.filter fun x => x.2.1 = e.2.1).map (·.2.2.1)).sum + 33 ≤ targetSlots e.2.1

/-- The route tables of an image: router blocks and reach entries; none where their form fails. -/
def routeTables (bs : List Byte) : Option (List RouteTab × List (Nat × Nat × Nat × Nat)) :=
  let blocks := routeBlocks (bs.drop 16) 218
  let form := bytesAt bs 0 4 = 0x52544231 && bytesAt bs 4 2 = 218 && bytesAt bs 8 8 = 0 && 16 + 128 * 218 ≤ bs.length
    && blocks.all (fun t => t.rsv = 0 && t.rest = 0) && allRouters.all fun r => blocks.any fun t => t.node = r
  if !form then none
  else
    match reachBlocks bs (16 + 128 * 218) (bytesAt bs 6 2) with
    | some l => if quotasOk l then some (blocks, l) else none
    | none => none

/-- The route tables of the image in the load. -/
def imageRoutes (s : State) : Option (List RouteTab × List (Nat × Nat × Nat × Nat)) :=
  routeTables (tableRegion s s.load.hdr.routeOff s.load.hdr.routeLen)

/-! ### Step 8 ends: the tables are validated and S3 begins -/

/-- Partitions of the image: HELD with their clients; those of an image loaded before are gone (R221, R222). -/
def partsInstall (s : State) (parts : List PartEntry) (gck : List Nat) : State :=
  let s := s.part.parts.foldl (fun s e => setReg s (icPage e.die + 0x100 + 4 * e.no) 0) s
  let s : State := { s with part := { s.part with parts := parts, icpGck := gck } }
  parts.foldl (fun s e => partSet (putF s (icPage e.die) (IC_PSTAT_CLIENT.nth e.no) e.client) e pHeld) s

/-- S3 begins: the seam endpoints that are still OFF and the fabric PLLs are enabled (R88; 03_clocks.md R67, 13_seams.md
R341). -/
def stage3 (s : State) : State :=
  let s := setStage (stageEnd { s with start := { s.start with phase := .s3, idx := 0 } } 2) 3
  let s := (List.range 18).foldl seamEnable s
  (List.range 8).foldl (fun s d => (List.range 4).foldl (fun s j => putFlag s (pllPage d j) PG_CTRL_ENABLE true) s) s

/-- The tables of the image are validated (R96, R217, R314; 05_images.md R130). -/
def tablesCheck (s : State) : State :=
  let h := s.load.hdr
  match partTable (tableRegion s h.partOff h.partLen) with
  | none => startFail s 0x0A
  | some (parts, gck) =>
    match seqEntries (tableRegion s h.seqOff h.seqLen) parts 0 4096 with
    | none => startFail s 0x0A
    | some seq =>
      match imageRoutes s with
      | none => startFail s 0x0A
      | some (blocks, _) =>
        if (routeVerdict [] blocks).1 != 0 then startFail s 0x0A
        else
          let s := partsInstall s parts gck
          stage3 { s with start := { s.start with table := seq } }

/-! ### Frames (R102, R123 to R131) -/

/-- Limits of stream `st` of the image: 16 is the table stream. -/
def streamInfo (h : Header) (st : Nat) : StreamInfo :=
  if st = 16 then
    { st := 16, frames := h.tableFrames, stored := h.tableStored, firstGroup := 0, compressed := h.flags = 1 }
  else
    let x := hdrStream h st
    { st := st, frames := x.frames, stored := x.stored, firstGroup := x.firstGroup, compressed := h.flags = 1 }

/-- First stored byte of a stream in the image. -/
def streamOff (h : Header) (st : Nat) : Nat := if st = 16 then h.tableOff else (hdrStream h st).offset

/-- Progress of a stream. -/
def progOf (s : State) (st : Nat) : StreamProg := tabOr { } s.load.prog st
/-- `s` with the progress of a stream set. -/
def setProg (s : State) (st : Nat) (p : StreamProg) : State :=
  { s with load := { s.load with prog := tabPut s.load.prog st p } }

/-- Every frame of a stream has been decoded. -/
def streamDone (s : State) (st : Nat) : Bool := (progOf s st).frames = (streamInfo s.load.hdr st).frames

/-- A failure of a stream: its detail, and the frame it names, if any (R130, R133). A group that fails names no frame, and
surplus stored bytes none (log 32). -/
structure StreamBad where
  detail : Nat
  frame : Option Nat
  group : Nat
  deriving DecidableEq, Repr

/-- A frame of a rejoining die goes to its configuration engine in a CFG packet, on VC0 from the store port of the keep die that
holds it (13_seams.md R353 step 3; 12_noc.md R296). The header names no target space: frames for targets 0x02 and 0x03 are
written without one (log 97). -/
def cfgSend (s : State) (die a : Nat) (f : Frame) : State :=
  let p := progOf s die
  let k := ((hdrStream s.load.hdr die).offset + p.bytes) / 4096 % 2
  let dst := if isFabric die then mkNode die 11 7 else regNode die
  vc0Send s { cmd := 8, len := 1, src := 72 + k, srcNode := iniNode (72 + k), dst := dst, addr := a, cls := iniClass (72 + k)
              data := frameBytes f }

/-- A frame that has passed goes where it belongs: the table area, or its address, after the contention check (R125, R127,
R129); none: the check rejects it. -/
def framePlace (s : State) (st : Nat) (f : Frame) (k : FrameKind) : Option State :=
  match k with
  | .table => some { s with load := { s.load with tableFrames := s.load.tableFrames ++ [f] } }
  | .desc => some s
  | .write t a =>
    if t = 1 && (contention a f).isSome then none
    else if isolated s st && getF s DI (DI_STAT_STATE.nth st) = 1 then some s
    else if s.start.phase = .ready && (t = 1 || t = 4) then some (cfgSend s st a f)
    else some (staticMark (frameWrite s st t a f) st t a f)

/-- The group that the last frame of `p` completes is verified (R126, R127). -/
def groupCheck (s : State) (i : StreamInfo) (p : StreamProg) : StreamBad ⊕ State :=
  if p.frames % 256 != 0 && p.frames != i.frames then .inr (setProg s i.st p)
  else
    let g := i.firstGroup + (p.frames - 1) / 256
    let h := s.load.hdr
    match verifyGroup h.groupCount h.root s.load.nodes s.load.trusted g (leafOf g i.st p.group) with
    | .inl d => .inl ⟨d, none, g⟩
    | .inr t => .inr (setProg { s with load := { s.load with trusted := t } } i.st { p with group := [] })

/-- Stored bytes end before the next frame, or go on after the last (R128). -/
def lengthCheck (i : StreamInfo) (p : StreamProg) : Option StreamBad :=
  match lengthDetail i p with
  | some 7 => some ⟨7, some p.frames, i.firstGroup + p.frames / 256⟩
  | some d => some ⟨d, none, i.firstGroup + (p.frames - 1) / 256⟩
  | none => none

/-- The stored bytes of the next frame of a stream can be read; in the load of a start from the Keep alone (06_keep.md
R135). -/
def recordRead (s : State) (st : Nat) (r : ImgRec) : State × Bool :=
  if s.start.source = 0 && (s.start.phase = .s2Tables || s.start.phase = .s4) then
    slotRead s (streamOff s.load.hdr st + (progOf s st).bytes) (recLen (s.load.hdr.flags = 1) r)
  else (s, true)

/-- A decoded frame of a die stream goes into the segment map and the group index of its newt core; the stream's first frame
begins them anew (20_errors.md R520). -/
def mapNote (s : State) (i : StreamInfo) (p q : StreamProg) (k : FrameKind) : State :=
  if i.st = 16 then s
  else
    let old := if p.frames = 0 then [] else tabOr [] s.load.segMap i.st
    let segs := if k == .desc then old ++ [⟨q.frames, q.target, q.addr, q.left⟩] else old
    let idx := s.load.groupIdx
    let idx := if p.frames % 256 = 0 then tabPut idx (i.firstGroup + p.frames / 256) ⟨p.bytes, p.prev⟩ else idx
    { s with load := { s.load with segMap := tabPut s.load.segMap i.st segs, groupIdx := idx } }

/-- The next stored frame of a stream is decoded, checked and written; the state with what was counted and written, and the
failure, if any. -/
def streamFrame (s : State) (st : Nat) (r : ImgRec) : State × Option StreamBad :=
  let i := streamInfo s.load.hdr st
  let p := progOf s st
  match lengthCheck i p with
  | some b => (s, some b)
  | none =>
    let bad := fun (d : Nat) => some (⟨d, some p.frames, i.firstGroup + p.frames / 256⟩ : StreamBad)
    let load := s.start.phase = .s2Tables || s.start.phase = .s4
    let stored := recordRead s st r
    if !stored.2 then (stored.1, bad 1) else
    let s := stored.1
    let count := fun (s : State) => if load then putF s IL (IL_FRAMES_COUNT.nth st) (p.frames + 1) else s
    match frameStep i st p r with
    | .bad d passed => (if passed then count s else s, bad d)
    | .ok f k q =>
      let s := mapNote (count s) i p q k
      match framePlace s st f k with
      | none => (s, bad 3)
      | some s =>
        match groupCheck s i q with
        | .inl b => (s, some b)
        | .inr s => (s, lengthCheck i q)

/-- The next stored bytes of the stream are there: all streams at once from the Keep, one after the other from elsewhere
(R132). -/
def bytesCome (s : State) (st : Nat) (r : ImgRec) : Bool :=
  let h := s.load.hdr
  s.start.source = 0 ||
    (((headerDies h).all fun d => st = 16 || st ≤ d || streamDone s d) &&
      (s.start.source = 1 ||
        streamOff h st + (progOf s st).bytes + recLen (h.flags = 1) r ≤ s.load.hostNext))

/-- Cause of a failure of S4 (R130). -/
def detailCause (d : Nat) : Nat := if d ≤ 4 then 0x0B else if d ≤ 6 then 0x0C else 0x0D

/-- A frame of the table stream arrives in S2 (R91 step 8). -/
def tableFrame (s : State) (r : ImgRec) : State :=
  if streamDone s 16 || !bytesCome s 16 r then s
  else
    let x := streamFrame s 16 r
    match x.2 with
    | some b => startFail (ilFail x.1 16 b.detail (some b.group) b.frame) 0x0A
    | none => if streamDone x.1 16 then tablesCheck x.1 else x.1

/-- A frame of a die stream arrives in S4; with the last of all, S5 begins. -/
def dieFrame (s : State) (st : Nat) (r : ImgRec) : State :=
  if streamDone s st || !bytesCome s st r then s
  else
    let x := streamFrame s st r
    match x.2 with
    | some b => startFail (ilFail x.1 st b.detail (some b.group) b.frame) (detailCause b.detail)
    | none =>
      let s := x.1
      if (headerDies s.load.hdr).all (streamDone s) then
        setStage (stageEnd { s with start := { s.start with phase := .s5 } } 4) 5
      else s

end Sys2Proof.Machine
end

