-- ==== Sys2Proof/Machine/Sequence.lean ====
section
/-! DEFINITION. The table engine of the start: entries of S3 and S7 (04_start.md R96 to R98, R107, R109) and the ends of those
stages, with READY (R88, R110, R113). -/

namespace Sys2Proof.Machine

/-- The stage whose entries run. -/
def seqStage (s : State) : Nat :=
  match s.start.phase with
  | .s3 => 3
  | .s7 => 7
  | _ => 0

/-- The entry the engine stands at, with its index: the next one of the stage. -/
def seqCur (s : State) : Option (SeqEntry × Nat) :=
  (s.start.table.zipIdx.drop s.start.idx).find? fun e => e.1.stage = seqStage s

/-- The engine goes on past entry `i`. -/
def seqNext (s : State) (i : Nat) : State := { s with start := { s.start with idx := i + 1 } }

/-- Entry `i` fails: in S3 the image, in S7 the entry alone (R98, R118). -/
def seqFail (s : State) (i : Nat) : State :=
  let s := if flag s SQ SQ_ENTRY_VALID then s else putF (putFlag s SQ SQ_ENTRY_VALID true) SQ SQ_ENTRY_INDEX i
  let s := evtPulse s SQ 2
  if s.start.phase = .s3 then startFail s 0x0E
  else
    let s := if getF s SQ SQ_CAUSE_FIRST_CAUSE = 0 then
        putF (putF s SQ SQ_CAUSE_FIRST_CAUSE 0x10) SQ SQ_CAUSE_FIRST_SLOT s.start.slot else s
    seqNext (raise s 2 8 1 0x0201 i) i

/-! ### WRITE (R96, R97) -/

/-- PG_VOTE of a domain: the bits of MASK, for every client; what the hardware holds stays (R97, 18_power.md R475). -/
def tableVote (s : State) (die i : Nat) (value mask : Word) : State :=
  (bitsOf 32 mask.toNat).foldl (fun s c => voteSet s die i c (nBit value.toNat c || (16 ≤ c && voteHeld s die i c))) s

/-- A change that requests no journal record: open windows and RETAIN_STALE of the page stay as they are (R97, 06_keep.md
R144). -/
def unjournaled (s : State) (page : Nat) (f : State → State × Nat) : State × Nat :=
  let k := s.keep.windows
  let stale := flag s page PG_STAT_RETAIN_STALE
  let r := f { s with keep := { s.keep with windows := [page] } }
  (putFlag { r.1 with keep := { r.1.keep with windows := k } } page PG_STAT_RETAIN_STALE stale, r.2)

/-- The write of one page: (old & ~MASK) | (VALUE & MASK), the gecko fields of a restored register as they are. -/
def tableWriteOne (s : State) (p : Page) (die blk off : Nat) (value mask : Word) : State × Nat :=
  if off = 0x028 && (pageInfo p die blk).hasVote then (tableVote s die (blk % 4096) value mask, 0)
  else
    let a := pg die blk + off
    let r := if off % 4 != 0 then (s, 0, 0) else regRead s 4 false true p die blk off
    if r.2.1 != 0 then (r.1, r.2.1)
    else
      let w := (BitVec.ofNat 32 r.2.2 &&& ~~~mask) ||| (value &&& mask)
      let w := if s.start.restored.contains a then mix w (getReg s a) (gMask a) else w
      let x := unjournaled r.1 (pg die blk) fun s => regWrite s 4 false p die blk off w
      let waits := (tabGet x.1.pg.held a).isSome || (tabGet x.1.pg.committed a).isSome
      (if waits && x.2 = 0 then tableMark x.1 a true else x.1, x.2)

/-- Dies an entry addresses. -/
def seqDies (e : SeqEntry) : List Nat :=
  if e.die = 15 then (List.range 15).filter fun d => (pageOf d e.blk).isSome else [e.die]

/-- The pages of the entry can be reached now: a dropped domain wakes first, a soft reset ends first (R31, R45). -/
def seqArrive (s : State) (e : SeqEntry) (wr : Bool) : State × Bool :=
  (seqDies e).foldl (fun (r : State × Bool) (d : Nat) =>
    match pageOf d e.blk with
    | none => r
    | some p =>
      if isolated r.1 d then r
      else
        match arrive r.1 4 p d e.blk e.off wr with
        | .stalls s => (s, false)
        | .served s => (s, r.2)) (s, true)

/-- The WRITE entry is made: the state and the code of the first copy that fails. -/
def seqWriteAll (s : State) (e : SeqEntry) : State × Nat :=
  (seqDies e).foldl (fun (r : State × Nat) (d : Nat) =>
    match pageOf d e.blk with
    | none => (r.1, if r.2 = 0 then 1 else r.2)
    | some p =>
      if isolated r.1 d then (r.1, if r.2 = 0 then 2 else r.2)
      else
        let x := tableWriteOne r.1 p d e.blk e.off e.value e.mask
        (x.1, if r.2 = 0 then x.2 else r.2)) (s, 0)

/-- SEQ_WRITE. -/
def execSeqWrite (s : State) : Host.Outcome State Fault Refusal :=
  .next <|
    match seqCur s with
    | none => s
    | some (e, i) =>
      if e.action != 1 then s
      else
        let r := seqArrive s e true
        if !r.2 then r.1
        else
          let x := seqWriteAll r.1 e
          if x.2 = 0 then seqNext x.1 i else seqFail x.1 i

/-! ### WAIT (R96, R98) -/

/-- SEQ_WAIT: one read of the register. -/
def execSeqWait (s : State) : Host.Outcome State Fault Refusal :=
  .next <|
    match seqCur s with
    | none => s
    | some (e, i) =>
      if e.action != 2 then s
      else
        let r := seqArrive s e false
        if !r.2 then r.1
        else
          match anyRead r.1 4 false e.die e.blk e.off false with
          | (s, none) => s
          | (s, some (code, v)) =>
            if code != 0 then seqFail s i
            else if BitVec.ofNat 32 v &&& e.mask = e.value then seqNext s i else s

/-- SEQ_WAIT_TIMEOUT. -/
def execSeqWaitTimeout (s : State) : Host.Outcome State Fault Refusal :=
  .next <|
    match seqCur s with
    | none => s
    | some (e, i) => if e.action = 2 then seqFail s i else s

/-! ### RELEASE_PART (R96, R98, R100) -/

/-- The static region of a die is released: engines leave their hold, ports and pins follow. -/
def staticRelease (s : State) (die : Nat) : State :=
  if isolated s die || s.fab.staticOn.contains die then s
  else
    let s := relBegin { s with fab := { s.fab with staticOn := setAdd s.fab.staticOn die } } die 64
    let s := (staticEngs s die).foldl (fun s x => engRelease s die x) s
    pinsLatch (portsFollow s die) die

/-- Partition `n` resumed from a snapshot in this start (21_shutdown.md R548). -/
def partResumed (s : State) (n : Nat) : Bool := nBit (getReg s (SD + 0x074 + 4 * (n / 32))).toNat (n % 32)

/-- A partition is released by an entry; a resumed one keeps the flip-flop values the snapshot gave it (R100). -/
def tableRelease (s : State) (e : PartEntry) : State :=
  if partResumed s e.no then
    relBegin { s with part := { s.part with releasing := setAdd s.part.releasing e.no } } e.die e.no
  else partRelease s e

/-- RELEASE_PART. -/
def execReleasePart (s : State) : Host.Outcome State Fault Refusal :=
  .next <|
    match seqCur s with
    | none => s
    | some (e, i) =>
      if e.action != 3 then s
      else
        let n := wGet e.value 0 7
        if n = 64 then seqNext ((List.range 8).foldl staticRelease s) i
        else if s.shut.heldBySnap.contains n then seqNext s i
        else
          match partEntry s n with
          | none => seqFail s i
          | some x =>
            if isolated s x.die then seqFail s i
            else if partStateOn s x.die n = pHeld then seqNext (tableRelease s x) i
            else if partStateOn s x.die n = pLive then seqNext s i
            else seqFail s i

/-! ### The ends of S3 and S7 -/

/-- Every enabled fabric PLL of the joined dies has locked. -/
def fabricLocked (s : State) : Bool :=
  (joinedFabric s).all fun d => (List.range 4).all fun j => !enabled s (pllPage d j) || flag s (pllPage d j) PLL_STAT_LOCK

/-- Seams S3 waits for: all but those of a management path that is given up (R600; 03_clocks.md R67). -/
def seamsAwaited (s : State) : List Nat :=
  (List.range 18).filter fun m =>
    !((s.start.k0Lost && (m = 8 || m = 16)) || (s.start.k1Lost && (m = 10 || m = 17)) || (s.start.srcLost && (m = 0 || m = 12)))

/-- A seam has reached MGMT at both ends. -/
def seamUp (s : State) (m : Nat) : Bool := seamReady s (seamDies m).1 m && seamReady s (seamDies m).2 m

/-- A path that has come up since is no longer lost, once the start is over. -/
def pathsNow (s : State) : State :=
  { s with start := { s.start with k0Lost := s.start.k0Lost && !(seamUp s 8 && seamUp s 16)
                                   k1Lost := s.start.k1Lost && !(seamUp s 10 && seamUp s 17) } }

/-- S8: READY rises (R88, R107 step 3, R110, R112, R113, R118; 18_power.md R480, 21_shutdown.md R543). -/
def readyRise (s : State) : State :=
  let s := putFlag (putFlag s (pcPage 0) PC_STAT_RELEASED true) (pcPage 1) PC_STAT_RELEASED true
  let s := stageEnd (setStage (stageEnd s 7) 8) 8
  let s := putF (putF s SQ SQ_CAUSE_FINAL_CAUSE 0) SQ SQ_CAUSE_FINAL_SLOT s.start.slot
  let s := pathsNow { s with start := { s.start with ready := true, phase := .ready }, sec := { s.sec with active := true } }
  let s := snapConsume (evtPulse s SQ 0)
  let s := if flag s SD SD_CFG_ARM_AUTO then armStart s else s
  if s.start.shdnHeld then orderlyBegin { s with start := { s.start with shdnHeld := false } } else torporBegin s

/-- SEQ_END: no entry of the stage is left. -/
def execSeqEnd (s : State) : Host.Outcome State Fault Refusal :=
  .next <|
    match seqCur s with
    | some _ => s
    | none =>
      match s.start.phase with
      | .s3 =>
        if fabricLocked s && (seamsAwaited s).all (seamUp s) then
          setStage (stageEnd { s with start := { s.start with phase := .s4 } } 3) 4
        else s
      | .s7 => readyRise s
      | _ => s

end Sys2Proof.Machine
end

