-- ==== Sys2Proof/Machine/StartEnd.lean ====
section
/-! DEFINITION. S5 and S6 of the start: memory clear, initial values and resume (04_start.md R105), and the restore of
retained settings (04_start.md R106; 06_keep.md R147; 02_register_pages.md R57). -/

namespace Sys2Proof.Machine

/-! ### S5 -/

/-- Bank and deep memories after the memory clear: those filled in S4 keep their contents, every queue is empty (R105,
08_memories.md R201). -/
def memClear (s : State) : State :=
  let bank := fun (e : Nat × Bank) =>
    if filled s (e.1 / 2048) (e.1 % 2048) then some (e.1, ({ rows := e.2.rows } : Bank)) else none
  let deep := fun (e : Nat × Deep) =>
    if filled s (e.1 / 32) (65536 + e.1 % 32) then some (e.1, ({ words := e.2.words } : Deep)) else none
  let s := { s with mem := { banks := s.mem.banks.filterMap bank, deeps := s.mem.deeps.filterMap deep, waits := s.mem.waits } }
  let banks := s.load.bankInit.filter fun k => k % 1048576 < 65536
  let s := banks.foldl (fun s k => bankRecheck s (k / 1048576) (k % 1048576)) s
  (List.range 8).foldl (fun s d => (List.range 2048).foldl (fun s b => bankPool s d b) s) s

/-- The engines of `dies` start a scan where EN stands (20_errors.md R517). -/
def scansStart (s : State) (dies : List Nat) : State :=
  dies.foldl (fun s d => if axVote (axOf s d) then scanStart s d else s) s

/-- The work of S5: memories hold their initial contents or zero, hub SRAM is clear, and partitions resume from a snapshot;
S6 follows (R105, 21_shutdown.md R548). -/
def s5Work (s : State) (snapOk : List Nat) : State :=
  let s := initLoadAll (memClear s)
  let s := resumeS5 { s with hub := { s.hub with sram := [], sramBad := [] } } snapOk
  { s with load := { s.load with bankInit := [] }, start := { s.start with phase := .s6 } }

/-- MEMORY_CLEAR_DONE: S5 ends; `snapOk`: partitions whose snapshot data could be read and verifies. -/
def execMemoryClearDone (snapOk : List Nat) (s : State) : Host.Outcome State Fault Refusal :=
  .next <|
    if s.start.phase != .s5 then s
    else scansStart (setStage (stageEnd (s5Work s snapOk) 5) 6) (joinedFabric (s5Work s snapOk))

/-! ### The restore of R147 -/

/-- Unit `j` of the journal holds a record that counts. -/
def journalValid (s : State) (j : Nat) (r : JUnit) : Bool :=
  let u := striped 2024 j
  let page := r.page * 4096
  keepReach s u.1 && !unreadable s u.1 u.2 && r.readable && r.committed && r.magicOk && r.tagOk
    && r.entries.length ≤ 32 && regDie page < 15 && (pageOf (regDie page) (regBlk page)).isSome && r.pageId = getReg s page

/-- The records that count, by unit. -/
def journalRecords (s : State) : List (Nat × JUnit) :=
  s.keep.journal.filterMap fun (e : Nat × Option JUnit) =>
    match e.2 with
    | some r => if e.1 < 16384 && journalValid s e.1 r then some (e.1, r) else none
    | none => none

/-- The newest record of every page; a tie leaves the lower unit. -/
def journalBest (rs : List (Nat × JUnit)) : Tab JUnit :=
  rs.foldl (fun t e =>
    match tabGet t e.2.page with
    | some x => if x.seq < e.2.seq then tabPut t e.2.page e.2 else t
    | none => tabPut t e.2.page e.2) []

/-- A restored value leaves its register at the hardware defaults: out of range (R147), or a bundle that R365 of 14_lanes.md
does not let run. -/
def restoreBad (s : State) (p : Page) (die blk off : Nat) (w : Word) : Bool :=
  fieldRange 0 ((fieldsAt p die blk off).filter (·.g)) w || extraRange s p die blk off w ||
    (p == .lb && 0x080 ≤ off && off < 0x100 && off % 8 = 0 && wGet w 8 1 = 1 && bundleBad s die ((off - 0x080) / 8) w)

/-- /G fields of the register at `off` are written with `v`, without class rules, locks or a journal request; what they
change takes effect (R57, R106; 02_register_pages.md R52). -/
def restoreReg (s : State) (p : Page) (die blk off : Nat) (v : Word) : State :=
  let page := pg die blk
  let a := page + off
  let cur := getReg s a
  let w := mix cur v (gMask a)
  if restoreBad s p die blk off w then pageFault (setReg s a (mix cur (regRst a) (gMask a))) page 0x0001
  else
    let r := unjournaled s page fun s => (blockWritten s (setReg s a w) 4 p die blk off cur w, 0)
    { r.1 with start := { r.1.start with restored := setAdd r.1.start.restored a } }

/-- A curve that breaks its rule takes its hardware defaults, as a whole (18_power.md R483). -/
def curveRestored (s : State) (c : Nat) : State :=
  let offs := (List.range 8).map (curveOff c)
  if curveOk (offs.map fun o => getReg s (GV + o)) then s
  else
    let s := offs.foldl (fun s o =>
      { setReg s (GV + o) (regRst (GV + o)) with
        start := { s.start with restored := setDel s.start.restored (GV + o) } }) s
    pageFault s GV 0x0100

/-- The newest record of a page is restored: PG_RETAIN, then the registers it names and selects. -/
def restorePage (s : State) (r : JUnit) : State :=
  let page := r.page * 4096
  let die := regDie page
  let blk := regBlk page
  match pageOf die blk with
  | none => s
  | some p =>
    let s := setReg s (page + 0x034) (r.sel &&& lowBits (pageInfo p die blk).retain)
    let offs := retainables p die blk
    let s := r.entries.foldl (fun s e =>
      if offs.contains e.1 && selected s page e.1 then restoreReg s p die blk e.1 e.2 else s) s
    if p = .gv then curveRestored (curveRestored s 0) 1 else s

/-- The seeds of the lanes stand as they were restored. -/
def seedsStand (s : State) : State :=
  { s with lane := { s.lane with lanes := s.lane.lanes.map fun (e : Nat × Lane) => (e.1, { e.2 with fresh := false }) } }

/-- The records of the dies that `sel` names are restored, pages ascending. -/
def restoreAll (s : State) (sel : Nat → Bool) : State × Nat :=
  let best := (journalBest (journalRecords s)).filter fun (e : Nat × JUnit) => sel (e.1 / 65536)
  (seedsStand (best.foldl (fun s e => restorePage s e.2) s), best.length)

/-- The unit of the highest SEQ, and that SEQ: 16,383 and 0 in an empty journal. -/
def journalTop (rs : List (Nat × JUnit)) : Nat × Nat :=
  rs.foldl (fun m e => if m.2 < e.2.seq then (e.1, e.2.seq) else m) (16383, 0)

/-! ### S6 ends and S7 begins -/

/-- The image's route tables are applied and its reach tables stand (R107; 12_noc.md R313, R332). -/
def routesApply (s : State) : State :=
  match imageRoutes s with
  | none => s
  | some (blocks, reach) =>
    let s := blocks.foldl (fun s t =>
      if isolated s (nodeDie t.node) then s
      else
        let page := nrPage (nodeDie t.node) (nodeRtr t.node)
        let s := putF s page NR_STAT_EPOCH ((getF s page NR_STAT_EPOCH + 1) % 4096)
        { s with noc := { s.noc with routes := tabPut s.noc.routes t.node (some t) } }) s
    let put := fun (t : Tab Nat) (e : Nat × Nat × Nat × Nat) => tabPut t (pairKey e.1 e.2.1) (e.2.2.1 + 64 * e.2.2.2)
    { s with noc := { s.noc with reach := reach.foldl put [] } }

/-- The units of the journal are read: what needs correction counts (06_keep.md R135, R153). -/
def journalRead (s : State) : State :=
  s.keep.bitErr.foldl (fun s e =>
    let u := e.1 % 1048576
    if 2024 * 256 ≤ u && u < 2056 * 256 && keepReach s (e.1 / 1048576) then unitRead s (e.1 / 1048576) u else s) s

/-- The scan of S6: every page takes its newest valid record, and the Keep's registers show what was found (06_keep.md
R147). -/
def journalScan (s : State) : State :=
  let rs := journalRecords s
  let top := journalTop rs
  let bad := 16384 - rs.length
  let r := restoreAll s fun _ => true
  let s := putF (putF r.1 KP KP_RESTORE_BAD bad) KP KP_RESTORE_PAGES r.2
  let s := putSeq (putF s KP KP_LIVE_PAGES r.2) (top.2 + 1)
  let s := { s with keep := { s.keep with head := (top.1 + 1) % 16384 } }
  if bad = 0 then s else evtPulse s KP 4

/-- JOURNAL_RESTORE: the scan of S6 completes, the settings take effect, and S7 begins. -/
def execJournalRestore (s : State) : Host.Outcome State Fault Refusal :=
  .next <|
    if s.start.phase != .s6 then s
    else
      let s := journalScan (journalRead s)
      let s := if flag s CU CU_OSC_CTRL_XO_PREF && flag s CU CU_OSC_STAT_XO_B_OK then xoSwitchStart s true else s
      routesApply (setStage (stageEnd { s with start := { s.start with phase := .s7, idx := 0 } } 6) 7)

end Sys2Proof.Machine
end

