-- ==== Sys2Proof/Machine/Rejoin.lean ====
section
/-! DEFINITION. Frames as they arrive, at the start and at a rejoin (04_start.md R102), the steps of a rejoin (13_seams.md
R353, R354), and the failure of a seam's training (R341). -/

namespace Sys2Proof.Machine

/-! ### A rejoin -/

/-- The die whose rejoin carries `d`: itself, or the die it depends on (R350 cause 5). -/
def rejoinLead (s : State) (d : Nat) : Nat :=
  if getF s DI (DI_STAT_CAUSE.nth d) = 5 then ((List.range 8).find? fun x => (dependents x).contains d).getD d else d

/-- A die rejoins and stands at step `k`. -/
def rejoinAt (s : State) (d k : Nat) : Bool :=
  d < 15 && d != 8 && getF s DI (DI_STAT_STATE.nth d) = 2 && getF s DI (DI_STAT_STEP.nth d) = k

/-- Seams of the dies of a rejoin whose both ends are not isolated. -/
def rejoinSeams (s : State) (d : Nat) : List Nat :=
  (List.range 18).filter fun m =>
    let x := seamDies m
    ((rejoinGroup s d).any fun g => seamOn g m) && getF s DI (DI_STAT_STATE.nth x.1) != 1
      && getF s DI (DI_STAT_STATE.nth x.2) != 1

/-- A rejoin stops with its dies still isolated. -/
def rejoinFail (s : State) (d : Nat) : State :=
  let step := getF s DI (DI_STAT_STEP.nth d)
  let g := rejoinGroup s d
  let s := putFlag (rejoinShow s d 1 step) DI (DI_STAT_REJOIN_FAIL.nth d) true
  let s := g.foldl (fun s x => if isFabric x then partsOff s x else s) s
  let s := g.foldl (fun s x => (dieSeams x).foldl (fun s m => seamTo (seamTo s x m 8) (seamFar x m) m 8) s) s
  evtPulse { s with seam := { s.seam with rejoinFailed := setAdd s.seam.rejoinFailed d } } DI 2

/-- Step 2 begins: the seams train (R353). -/
def rejoinTrain (s : State) (d : Nat) : State :=
  (rejoinSeams s d).foldl (fun s m =>
    let up := fun (s : State) (x : Nat) => seamTo (putFlag s (smPage x m) PG_CTRL_ENABLE true) x m 1
    up (up s (seamDies m).1) (seamDies m).2) s

/-- Every seam of the rejoin, one at least, is in one of `states` at both ends. -/
def rejoinSeamsIn (s : State) (d : Nat) (states : List Nat) : Bool :=
  rejoinSeams s d != [] && (rejoinSeams s d).all fun m => states.contains (seamState s (seamDies m).1 m) && states.contains (seamState s (seamDies m).2 m)

/-- Dies of a rejoin with a stream in the image. -/
def rejoinStreams (s : State) (d : Nat) : List Nat := (rejoinGroup s d).filter (headerDies s.load.hdr).contains

/-- Step 3 begins: the streams of the dies are read from their first frame. -/
def rejoinLoad (s : State) (d : Nat) : State :=
  (rejoinStreams s d).foldl (fun s x => { s with load := { s.load with prog := tabDel s.load.prog x } }) s

/-- Step 3 ends: the partitions of the dies hold valid contents. -/
def rejoinHeld (s : State) (d : Nat) : State :=
  (rejoinGroup s d).foldl (fun s x =>
    (dieParts s x).foldl (fun s e => partSet (putF s (icPage x) (IC_PSTAT_CLIENT.nth e.no) e.client) e pHeld) s) s

/-- Step 5 begins: the seams retrain with VC_EN set. -/
def rejoinJoin (s : State) (d : Nat) : State :=
  (rejoinSeams s d).foldl (fun s m =>
    let up := fun (s : State) (x : Nat) => seamRetrain (putFlag s (smPage x m) SM_CTRL_VC_EN true) x m
    up (up s (seamDies m).1) (seamDies m).2) s

/-- Step 6: both ends record the epoch of the die. -/
def rejoinEpoch (s : State) (d : Nat) : State :=
  (rejoinSeams s d).foldl (fun s m =>
    let e := (epochWanted s m).getD 0
    putF (putF s (smPage (seamDies m).1 m) SM_STAT_EPOCH e) (smPage (seamDies m).2 m) SM_STAT_EPOCH e) s

/-- RELEASE_PART entries of the active image name partition `n` (64: the static region). -/
def tableReleases (s : State) (n : Nat) : Bool :=
  s.start.table.any fun e => e.stage = 7 && e.action = 3 && wGet e.value 0 7 = n

/-- Step 8: the dies are joined, autotomy cause 4 ends, and what the image releases is released. -/
def rejoinEnd (s : State) (d : Nat) : State :=
  let g := rejoinGroup s d
  let s := rejoinShow s d 0 8
  let s : State := { s with start := { s.start with k0Lost := s.start.k0Lost && !g.contains 13
                                                    k1Lost := s.start.k1Lost && !g.contains 14 } }
  let s := g.foldl (fun s x => (dieNodes x).foldl (fun s n => isoLeave s n 4 true true) s) s
  let s := (g.filter isFabric).foldl (fun s x =>
    let s := (dieParts s x).foldl (fun s e => if tableReleases s e.no then partRelease s e else s) s
    pinsLatch (if tableReleases s 64 then staticRelease (initLoad s x 0 749) x else s) x) s
  let s := (g.filter isLane).foldl lanesRestart s
  evtPulse (scansStart (trunksRewalk s) (g.filter isFabric)) DI 1

/-- What step `k` of a rejoin needs before it can complete (R353): the seams of its dies are up, their streams are loaded. -/
def rejoinStepReady (s : State) (die k : Nat) : Bool :=
  match k with
  | 2 => rejoinSeamsIn s die [6, 7]
  | 3 => (rejoinStreams s die).all (streamDone s) && !(s.noc.vc0.any fun v => (rejoinGroup s die).contains (nodeDie v.2.1))
  | 5 => rejoinSeamsIn s die [7]
  | _ => true

/-- Step `k` of a rejoin completes, and the next begins (R353). -/
def rejoinStep (s : State) (die k : Nat) : State :=
  let go := fun (s : State) => rejoinShow s die 2 (k + 1)
  match k with
  | 1 => rejoinTrain (go s) die
  | 2 => rejoinLoad (go s) die
  | 3 => go (rejoinHeld s die)
  | 4 => rejoinJoin (go (restoreAll s fun d => (rejoinGroup s die).contains d).1) die
  | 5 => go s
  | 6 => go (rejoinEpoch s die)
  | 7 => go (audit s 7 DI die true)
  | 8 => rejoinEnd s die
  | _ => s

/-- REJOIN_STEP_DONE: the step of a die's rejoin completes, or fails. -/
def execRejoinStepDone (die : Nat) (ok : Bool) (s : State) : Host.Outcome State Fault Refusal :=
  .next <|
    let k := getF s DI (DI_STAT_STEP.nth die)
    if !rejoinAt s die k || rejoinLead s die != die then s
    else if ok then (if rejoinStepReady s die k then rejoinStep s die k else s)
    else if 2 ≤ k && k ≤ 6 then rejoinFail s die
    else if k = 7 then audit s 7 DI die false
    else s

/-! ### Frames -/

/-- The Keep slot of the active image can be read while dies rejoin: no keep die is isolated otherwise. -/
def rejoinReads (s : State) : Bool :=
  s.start.slot != 0 && getF s DI (DI_STAT_STATE.nth 13) != 1 && getF s DI (DI_STAT_STATE.nth 14) != 1

/-- A frame of a rejoining die's stream arrives (R353 step 3); a failing one stops the rejoin. -/
def rejoinFrame (s : State) (st : Nat) (r : ImgRec) : State :=
  if streamDone s st || !rejoinReads s then s
  else
    let x := streamFrame s st r
    match x.2 with
    | some _ => rejoinFail x.1 (rejoinLead x.1 st)
    | none => x.1

/-- MRSP reaches the sender of the request: the route loader goes on, and a frame that was not written stops the rejoin it
was sent in (R298, R315; 13_seams.md R353). -/
def execMrsp (p : Packet) (s : State) : Host.Outcome State Fault Refusal :=
  .next <|
    if !inFlight s p || p.cmd != 10 then s
    else
      let die := nodeDie p.srcNode
      let s := drainAnswered (mrspTaken s p) p
      if (p.src = 72 || p.src = 73) && p.code != 0 && rejoinAt s die 3 then rejoinFail s (rejoinLead s die) else s

/-- FRAME_ARRIVAL: the next stored frame of a stream. -/
def execFrameArrival (stream : Nat) (rec : ImgRec) (s : State) : Host.Outcome State Fault Refusal :=
  .next <|
    match s.start.phase with
    | .s2Tables => if stream = 16 then tableFrame s rec else s
    | .s4 => if (headerDies s.load.hdr).contains stream then dieFrame s stream rec else s
    | .ready => if rejoinAt s stream 3 && (headerDies s.load.hdr).contains stream then rejoinFrame s stream rec else s
    | _ => s

/-! ### Training that fails -/

/-- A seam of the management path of this start (03_clocks.md R67). -/
def mgmtSeam (s : State) (m : Nat) : Bool :=
  m = 8 || m = 16 || m = 10 || m = 17 || ((m = 0 || m = 12) && 2 ≤ getF s SQ SQ_STAT_SOURCE)

/-- SEAM_TRAIN_FAIL (R341). -/
def execSeamTrainFail (die seam : Nat) (s : State) : Host.Outcome State Fault Refusal :=
  .next <|
    let st := seamState s die seam
    if !seamOn die seam || st < 2 || 4 < st then s
    else
      let page := smPage die seam
      let s := raiseFrom (evtPulse (seamTo s die seam 1) page 3) page 0 0x0601 seam
      if s.start.phase = .s3 && !mgmtSeam s seam then startFail s 0x0E else s

end Sys2Proof.Machine
end

