-- ==== Sys2Proof/Machine/Targets.lean ====
section
/-! DEFINITION. Requests at their targets: RD, WR, PWR, STRM and CFG packets (12_noc.md R298 to R325), the accesses that wait
there for a domain, a soft reset or a channel's training (01_package.md R31; 02_register_pages.md R45; 16_external_memory.md
R422; 18_power.md R477), and debug accesses (22_debug.md R560). -/

namespace Sys2Proof.Machine

/-- How a target takes a request: it holds it and answers later, or is done with it. -/
inductive Served where
  | hold (s : State)
  | done (r : PktRes)

/-- A broadcast write that came in packet `p` at node `n`: it is made once, and held until its last copy has ended (R58). -/
def pktBcast (s : State) (n : Nat) (p : Packet) (w : Word) : Served :=
  if s.pg.bcasts.any fun b => b.pkt == some (n, p) then .hold s
  else
    let a := p.addr % 0x100000000
    match bcastWrite s p.src (regBlk a) (regOff a) w (some (n, p)) with
    | (s, some code) => .done { s := s, code := code }
    | (s, none) => .hold s

/-- An earlier request of the same initiator to the same page waits at a register target: `q`, the requests before it
(02_register_pages.md R37). -/
def pktBefore (q : List (Nat × Packet)) (p : Packet) : Bool :=
  q.any fun x => x.2.src = p.src && epKind x.1 == .regs && x.2.addr / 4096 == p.addr / 4096

/-- A request for register space at the register target of its die, `q` the requests held before it
(02_register_pages.md R36 to R39). Whether it came through BAR0 of a PCIe function no header says: REGISTER_WRITE and
REGISTER_READ_CLEAR carry that; a packet did not. -/
def pktRegs (s : State) (n : Nat) (q : List (Nat × Packet)) (p : Packet) : Served :=
  let a := p.addr % 0x100000000
  let die := regDie a
  let blk := regBlk a
  let wr := p.cmd != 0
  let w := BitVec.ofNat 32 (ofBytes p.data)
  if p.size != 4 || a % 4 != 0 then
    let r := wrongSize s die blk (regOff a)
    .done { s := r.1, code := r.2 }
  else if die = 15 then
    (if pktBefore q p then .hold s else pktBcast s n p w)
  else
    match pageOf die blk with
    | none => .done { s := s, code := 1 }
    | some pgk =>
      if pktBefore q p then .hold s
      else
        match arrive s p.src pgk die blk (regOff a) wr with
        | .stalls s => .hold s
        | .served s =>
          if wr then
            let r := regWrite s p.src false pgk die blk (regOff a) w
            .done { s := r.1, code := r.2 }
          else
            let r := regRead s p.src false p.peek pgk die blk (regOff a)
            .done { s := r.1, code := r.2.1, bytes := toBytes 4 r.2.2 }

/-- The clock domains of the target's routers and of the target itself re-open for a request (03_clocks.md R83). -/
def nodeClock (s : State) (n : Nat) : State :=
  let s := nocClock s (nodeDie n)
  match epKind n with
  | .ddr ch => cdReopen s (40 + ch)
  | .pcie c => cdReopen s (46 + c)
  | _ => s

/-- A request is passed to the fabric design of port `i`, on TQ (R326, R327). -/
def pktPort (s : State) (die i : Nat) (p : Packet) : State :=
  let x := nocPort s die i
  let b : PortBeat :=
    { kind := p.cmd, tag := p.arg0, addr := p.addr % 0x80000000, size := p.size, src := p.src, cls := p.cls }
  setNocPort s die i { x with tq := x.tq ++ beatsOf b p.chk p.addr p.data }

/-- A target serves a request; `q`: the requests held before it. -/
def serve (s : State) (n : Nat) (q : List (Nat × Packet)) (p : Packet) : Served :=
  let s := nodeTouch s n
  if nodeAsleep s n then .hold s
  else
    let s := nodeClock s n
    let mem := if p.cmd = 0 then memRd s n p.src p.addr p.size p.peek else memWr s n p.src p.addr p.data p.poison
    match epKind n with
    | .regs => pktRegs s n q p
    | .ddr ch => if mcState s ch = 1 then .hold s else .done mem
    | .deep _ | .sram | .store | .pcie _ => .done mem
    | .fport i => .hold (pktPort s (nodeDie n) i p)
    | .slice _ => if p.cmd = 3 then .done { s := streamPacket s (nodeDie n) p, code := 0 } else .done { s := s, code := 4 }
    | _ => .done { s := s, code := 4 }

/-- A PWR or STRM that is absorbed in autotomy is counted (R320). -/
def absorbed (s : State) (n : Nat) (p : Packet) : State :=
  if p.cmd < 2 then s else countWrap s (nodePage n) (brF NR_BR_DROP_COUNT n)

/-- A write with POISON of a DDR line is the channel's to judge (16_external_memory.md R436, R441); any other request with
POISON, or whose user field fails, is refused at the bridge (R325). -/
def pktBad (n : Nat) (p : Packet) : Bool :=
  p.chkBad || (p.poison &&
    match epKind n with
    | .ddr _ => p.cmd = 0
    | _ => true)

/-- A request arrives at its target bridge. Requests to fabric ports take the next TQ_TAG as ARG0 of their slot. -/
def arrival (s : State) (p : Packet) : State :=
  let n := p.dst
  let s := flightDel s p
  if causesT s n != [] || portShut s n || isolated s (nodeDie n) then targetAnswer (absorbed s n p) n p 2 [] false
  else if pktBad n p then targetAnswer (brUp s n NR_BR_CHK_COUNT 1) n p 6 [] false
  else
    let r : State × Packet :=
      match epKind n with
      | .fport i =>
        let x := nocPort s (nodeDie n) i
        (setNocPort s (nodeDie n) i { x with nextTag := (x.nextTag + 1) % 256 }, { p with arg0 := x.nextTag })
      | _ => (s, p)
    match serve r.1 n r.1.noc.slots r.2 with
    | .hold s => { s with noc := { s.noc with slots := s.noc.slots ++ [(n, r.2)] } }
    | .done r => targetAnswer r.s n p r.code r.bytes r.poison

/-- Requests a die's targets hold are tried again, oldest first; those of fabric ports wait for their design. -/
def heldServe (s : State) (die : Nat) : State :=
  (s.noc.slots.filter fun x => nodeDie x.1 == die).foldl (fun s x =>
    match epKind x.1 with
    | .fport _ => s
    | _ =>
      match serve s x.1 (s.noc.slots.takeWhile (· != x)) x.2 with
      | .hold s => s
      | .done r => targetAnswer r.s x.1 x.2 r.code r.bytes r.poison) s

/-! ### Packets -/

/-- RD arrives, in its turn (R301). -/
def execRd (p : Packet) (s : State) : Host.Outcome State Fault Refusal :=
  .next (if inFlight s p && inOrder s p && p.cmd = 0 then arrival s p else s)

/-- WR arrives, in its turn (R301). -/
def execWr (p : Packet) (s : State) : Host.Outcome State Fault Refusal :=
  .next (if inFlight s p && inOrder s p && p.cmd = 1 then arrival s p else s)

/-- PWR arrives, in its turn (R301). -/
def execPwr (p : Packet) (s : State) : Host.Outcome State Fault Refusal :=
  .next (if inFlight s p && inOrder s p && p.cmd = 2 then arrival s p else s)

/-- STRM arrives, in its turn (R301). -/
def execStrm (p : Packet) (s : State) : Host.Outcome State Fault Refusal :=
  .next (if inFlight s p && inOrder s p && p.cmd = 3 then arrival s p else s)

/-- A configuration frame, or a CAPTURE frame (07_fabric.md R184), is written where it may be: the code of the answer. A frame for
target 0x01 passes the contention check of 05_images.md R129 or none of its bits is written; a loop engine's is written only
while the engine is OFF (10_loop_engines.md R266). A frame that cannot be written is answered with 0x4 (log 88). -/
def cfgFrame (s : State) (die a : Nat) (f : Frame) : State × Nat :=
  let target := if isFabric die then 1 else 4
  if isFabric die && 0x68000 ≤ a && a < 0x68BB8 then
    (capFrameWrite s die (a - 0x68000) f, if heldAt s die ((a - 0x68000) / 4) then 0 else 4)
  else if isFabric die && 0x54000 ≤ a && a < 0x66000
      && !engFrameOpen s die ((a - 0x54000) / 256) ((a - 0x54000) % 256) f then (s, 4)
  else if segmentOk die target a 1 && !(target = 1 && (contention a f).isSome) then
    (staticMark (frameWrite s die target a f) die target a f, 0)
  else (s, 4)

/-- CFG: the frame that the packet carries is written, and the packet answered (R298). A die that is isolated and not at its
rejoin answers 0x2. -/
def execCfg (p : Packet) (s : State) : Host.Outcome State Fault Refusal :=
  .next <|
    if !inFlight s p || p.cmd != 8 then s
    else
      let s := flightDel s p
      let die := nodeDie p.dst
      let s := if isFabric die then cdReopen s (24 + die) else if isLane die then cdReopen s (32 + die - 9) else s
      if isolated s die && getF s DI (DI_STAT_STATE.nth die) = 1 then flightAdd s (mrspPkt p 2)
      else if p.poison || p.chkBad then flightAdd s (mrspPkt p 6)
      else
        let r := cfgFrame s die p.addr (BitVec.ofNat 2048 (ofBytes p.data))
        flightAdd r.1 (mrspPkt p r.2)

/-! ### What waits at a target -/

/-- Domain `idx` of `die` is the one the request waits for. -/
def waitsFor (die idx : Nat) (n : Nat) (p : Packet) : Bool :=
  match epKind n with
  | .regs =>
    let a := p.addr % 0x100000000
    regDie a = die && (pageOf die (regBlk a)).any fun pgk => pageDomain pgk die (regBlk a) == some idx
  | _ => nodeDomain n == some (die, idx)

/-- A NoC access to a deep memory is made (08_memories.md R210, R211); one whose form the memory's mode does not take is no
access of this memory. -/
def deepAccess (s : State) (die j : Nat) (op : DmOp) : State :=
  match op with
  | .access we off len bytes =>
    if deepFifo s die j || (we && bytes.length != len) then s
    else
      let r := deepNoc s die j we off len bytes
      answer r.1 r.2.1 (ofBytes r.2.2)
  | .push off bytes =>
    if !deepFifo s die j then s
    else
      let r := deepNocPush s die j off bytes
      answer r.1 r.2 0
  | .pop off len peek =>
    if !deepFifo s die j then s
    else
      let r := deepNocPop s die j off len peek
      answer r.1 r.2.1 (ofBytes r.2.2)

/-- Domain of the band of deep memory `j` (08_memories.md R213). -/
def deepDomain (j : Nat) : Nat := 4 * (j / 8) + 3

/-- A NoC access arrives at deep memory `j`: an isolated die answers 0x2; a dropped band wakes and the access stalls
(01_package.md R30, R31; 08_memories.md R213). -/
def deepArrive (s : State) (die j : Nat) (op : DmOp) : State :=
  if !isFabric die || 32 ≤ j then s
  else if isolated s die then answer s 2 0
  else
    let s := domTouch (nocClock s die) die (deepDomain j)
    if 2 ≤ (domOf s die (deepDomain j)).state then { s with mem := { s.mem with waits := s.mem.waits ++ [(die, j, op)] } }
    else deepAccess s die j op

/-- DM_NOC_ACCESS (R210). -/
def execDmNocAccess (die mem : Nat) (we : Bool) (off len : Nat) (bytes : List (BitVec 8)) (s : State) :
    Host.Outcome State Fault Refusal := .next (deepArrive s die mem (.access we off len bytes))

/-- DM_NOC_PUSH (R211). -/
def execDmNocPush (die mem off : Nat) (bytes : List (BitVec 8)) (s : State) : Host.Outcome State Fault Refusal :=
  .next (deepArrive s die mem (.push off bytes))

/-- DM_NOC_POP (R211). -/
def execDmNocPop (die mem off len : Nat) (peek : Bool) (s : State) : Host.Outcome State Fault Refusal :=
  .next (deepArrive s die mem (.pop off len peek))

/-- A target whose owner has brought it back, its domain on and its channel trained, ends its time-out (12_noc.md R322); that
of a fabric port ends with its partition's. -/
def targetsBack (s : State) : State :=
  (s.noc.causeT.map (·.1)).foldl (fun s n =>
    match epKind n with
    | .fport _ => s
    | .ddr ch => if nodeAsleep s n || mcState s ch = 1 then s else isoLeave s n 2 false true
    | _ => if nodeAsleep s n then s else isoLeave s n 2 false true) s

/-- Everything that waits for a domain, a channel, a soft reset or a clock is tried again, oldest first: accesses to pages,
NoC accesses to deep memories, the route loader, punted frames, and the requests that targets hold. -/
def waitsRetry (s : State) : State :=
  let s := stallRetry s
  let s := s.mem.waits.foldl (fun s x => deepArrive s x.1 x.2.1 x.2.2) { s with mem := { s.mem with waits := [] } }
  (List.range 15).foldl heldServe (targetsBack (unitsGo s))

/-- A domain is on again, its accesses that stalled still to be made (R475, R478). -/
def domOn (s : State) (die idx us : Nat) : State :=
  let page := pdPage die idx
  let s := setDom s die idx { domOf s die idx with state := 0 }
  evtPulse (wakeStart (putF (countWrap s page PD_WAKES_COUNT) page PD_WAKE_US_US (min us 65535)) die idx) page 1

/-- WOKEN (R477, R478): a waking domain is ON; the accesses that stalled are made. Gecko fields have kept their values. -/
def execWoken (die idx us : Nat) (s : State) : Host.Outcome State Fault Refusal :=
  .next <|
    if !droppable die idx || (domOf s die idx).state != 3 || isolated s die then s else waitsRetry (domOn s die idx us)

/-- The debug access in progress waits for a domain. -/
def dbgWaits (s : State) (die idx : Nat) : Bool :=
  s.dbg.acc.any fun x => (destOf s x.1).any fun n => waitsFor die idx n.1 { cmd := 0, addr := x.1 }
/-- The debug access in progress ends with the code of a wake that failed (R478). -/
def dbgGivenUp (s : State) : State := { s with dbg := { s.dbg with acc := none, rdata := 0, code := 8 } }

/-- A stalled access waits for domain `idx` of `die`. -/
def stallWaits (die idx : Nat) (x : Stall) : Bool :=
  regDie x.reg = die && (pageOf die (regBlk x.reg)).any fun p => pageDomain p die (regBlk x.reg) == some idx

/-- The oldest access that waits for the domain completes with code 0x8. -/
def wakeGivesUp (s : State) (die idx : Nat) : State :=
  match s.pg.stalled.find? (stallWaits die idx) with
  | some x => stallEnd { s with pg := { s.pg with stalled := s.pg.stalled.erase x } } x 8 0
  | none =>
    match s.mem.waits.find? fun x => x.1 = die && deepDomain x.2.1 = idx with
    | some x => answer { s with mem := { s.mem with waits := s.mem.waits.erase x } } 8 0
    | none =>
      match s.noc.slots.find? fun x => waitsFor die idx x.1 x.2 with
      | some x => targetAnswer s x.1 x.2 8 [] false
      | none => if dbgWaits s die idx then dbgGivenUp s else s

/-- WAKE_TIMEOUT (R477): the oldest access that waits for the domain completes with code 0x8. -/
def execWakeTimeout (die idx : Nat) (s : State) : Host.Outcome State Fault Refusal :=
  .next (if (domOf s die idx).state != 3 then s else wakeGivesUp s die idx)

/-- Bits of the register at `a` that a soft reset keeps: kept and /G fields, and read-clear PG_FAULT_CNT with its kin of
R45. STATE of a seam endpoint follows the endpoint, which its reset has retrained (13_seams.md R342). -/
def softKeeps (a : Nat) : Word :=
  if [0x008, 0x020, 0x024, 0x028, 0x02C, 0x034].contains (regOff a) then BitVec.ofNat 32 (2 ^ 32 - 1)
  else fieldMask a fun f => f.kept || f.g || (regOff a = 0x044 && f.lo = 28 && pageOf (regDie a) (regBlk a) = some .sm)

/-- Every field of a page that a soft reset does not keep takes its After reset value, and the reset of the page ends. -/
def softResetFields (s : State) (page : Nat) : State :=
  let regs := s.pg.regs.filterMap fun (e : Nat × Word) =>
    if e.1 / 4096 != page / 4096 then some e
    else
      let w := mix (regRst e.1) e.2 (softKeeps e.1)
      if w = regRst e.1 then none else some (e.1, w)
  { s with pg := { s.pg with regs := regs, srst := setDel s.pg.srst page } }

/-- The block after its soft reset: an engine that is not held is IDLE again, a seam endpoint that is not isolated stands in
RESET, or OFF where it is not enabled (13_seams.md R342). -/
def softResetBlock (s : State) (die blk : Nat) : State :=
  match pageOf die blk with
  | some .le => if heldAt s die (engCol (blk % 4096)) then s else engRelease s die (blk % 4096)
  | some .sm =>
    if seamState s die (blk % 4096) = 8 then s else seamTo s die (blk % 4096) (ofBool (enabled s (pg die blk)))
  | _ => s

/-- SOFT_RESET_DONE (R45): the fields and the block are reset, and the accesses that stalled are made. -/
def execSoftResetDone (die blk : Nat) (s : State) : Host.Outcome State Fault Refusal :=
  .next <|
    let page := pg die blk
    if !inSoftReset s page then s
    else
      let s := softResetFields s page
      waitsRetry (softResetBlock (pageOut s page) die blk)

/-- CLOCK_SWITCH_DONE (03_clocks.md R80): the accesses that stalled on the switch go on. -/
def execClockSwitchDone (sw : ClkSwitch) (s : State) : Host.Outcome State Fault Refusal :=
  .next <| if !clkUp s then s else match sw with
    | .xo => match s.clk.xoSwitch with
      | some b => xoSwitched s b false
      | none => s
    | .cd k => if flag s (cdPage k) CD_STAT_SWITCHING then waitsRetry (cdSwitched s k false) else s

/-- SWITCH_FORCED (03_clocks.md R81). -/
def execSwitchForced (sw : ClkSwitch) (s : State) : Host.Outcome State Fault Refusal :=
  .next <| if !clkUp s then s else match sw with
    | .xo => match s.clk.xoSwitch with
      | some b => xoSwitched s b true
      | none => s
    | .cd k => if flag s (cdPage k) CD_STAT_SWITCHING then waitsRetry (cdSwitched s k true) else s

/-- DDR_TRAIN_DONE (16_external_memory.md R422): READY serves the accesses that waited; a failure completes them. -/
def execDdrTrainDone (ch : Nat) (ok : Bool) (ms : Nat) (s : State) : Host.Outcome State Fault Refusal :=
  .next <|
    if !chanHere s ch || mcState s ch != 1 || !(chanOf s ch).capSet then s
    else
      let s := putF s (mcPage ch) MC_STAT_TRAIN_MS (min ms 255)
      if ok then waitsRetry (putF s (mcPage ch) MC_STAT_STATE 2) else mcFail s ch 4

/-! ### The debug access port -/

/-- The debug access in progress ends with a code and a word (22_debug.md R560). -/
def accEnd (s : State) (code v : Nat) : State :=
  { s with dbg := { s.dbg with acc := none, rdata := BitVec.ofNat 32 v, code := code } }

/-- The debug access as a packet to node `n`. -/
def accPacket (x : Nat × Bool × Bool × Word) (n : Nat) : Packet :=
  { cmd := if x.2.1 then 1 else 0, src := 6, srcNode := iniNode 6, dst := n, addr := x.1, size := 4, cls := 5
    peek := !x.2.1 && !x.2.2.1, data := if x.2.1 then toBytes 4 x.2.2.2.toNat else [] }

/-- The debug access at its target: a fabric port's word is not the spec's to give (log 5). -/
def accServed (s : State) (x : Nat × Bool × Bool × Word) (n : Nat) : State :=
  match epKind n with
  | .fport _ => accEnd (freeVal s 32).2 0 (if x.2.1 then 0 else (freeVal s 32).1)
  | _ =>
    match serve s n s.noc.slots (accPacket x n) with
    | .hold u => u
    | .done r => accEnd r.s (if r.code = 0 && r.poison then 6 else r.code)
        (if x.2.1 || r.code != 0 || r.poison then 0 else ofBytes r.bytes)

/-- DBG_ACC_DONE (22_debug.md R560): the access is made as ID 6. In torpor nothing completes; an access that stalls stays in
progress; one whose connection has dropped completes without being made. -/
def execDbgAccDone (s : State) : Host.Outcome State Fault Refusal :=
  .next <|
    match s.dbg.acc with
    | none => s
    | some x =>
      if !busUp s then s
      else if s.dbg.lost then { s with dbg := { s.dbg with acc := none } }
      else
        match destOf s x.1 with
        | none => accEnd s 1 0
        | some n =>
          if !accessOk s x.1 4 x.2.1 then accEnd s 1 0
          else if quenched s 6 then s
          else if causesT s n.1 != [] || portShut s n.1 || isolated s (nodeDie n.1) then accEnd s 2 0
          else accServed s x n.1

end Sys2Proof.Machine
end

