-- ==== Sys2Proof/Machine/WriteRows.lean ====
section
/-! DEFINITION. The commands that are one access to one register: each makes the access its row names, with every rule of
02_register_pages.md R36 to R60 that any access meets, and the register's own effects (RegRules, RegHooks, RegAccess). A
row that names one field of a register of several writes the others with what they hold. -/

namespace Sys2Proof.Machine

/-- A word for the register that holds the fields `sets` of a page: those fields as given, other read-write fields as they
stand, and 0 elsewhere. -/
def setWord (s : State) (page : Nat) (sets : List (FieldRef × Nat)) : Word :=
  let off := match sets with | [] => 0 | (f, _) :: _ => f.off
  let fs := match pageOf (regDie page) (regBlk page) with
    | some p => fieldsAt p (regDie page) (regBlk page) off
    | none => []
  sets.foldl (fun w x => wPut w x.1.lsb x.1.wid x.2) (getReg s (page + off) &&& bitsWhere fs fun f => f.acc == .rw)

/-- A write that sets the fields `sets`, all of one register of a page. -/
def cmdSet (s : State) (ini page : Nat) (sets : List (FieldRef × Nat)) : State :=
  let off := match sets with | [] => 0 | (f, _) :: _ => f.off
  cmdWriteAt s ini (page + off) (setWord s page sets)

/-- A read by a command at a register offset of register space. -/
def cmdReadAt (s : State) (ini a : Nat) (peek : Bool) : State := cmdRead s ini false (regDie a) (regBlk a) (regOff a) peek

/-- Offset in its page of register `e` of the window of mailbox `m` (17_processors.md R452). -/
def mbOff (m e : Nat) : Nat := 0x100 + 64 * (m % 8) + e
/-- A write to register `e` of the window of mailbox `m`. -/
def mbWrite (s : State) (ini m e : Nat) (w : Word) (bar0 : Bool) : State :=
  cmdWrite s ini bar0 (regDie (mbPage m)) (regBlk (mbPage m)) (mbOff m e) w

/-- IC_PCMD with GO. -/
def partWord (op part : Nat) : Word := BitVec.ofNat 32 (2 ^ 31 + op * 256 + part)
/-- FS_EM_CMD or FS_ADM_CMD with GO. -/
def flowWord (op ctx : Nat) : Word := BitVec.ofNat 32 (2 ^ 31 + op * 2 ^ 28 + ctx % 65536)
/-- FS_TBL_CMD with GO. -/
def tblWord (op table index : Nat) : Word := BitVec.ofNat 32 (2 ^ 31 + op * 2 ^ 24 + table % 16 * 2 ^ 20 + index % 2 ^ 18)
/-- DB_LE with GO. -/
def dbLeWord (op die eng : Nat) : Word := BitVec.ofNat 32 (2 ^ 31 + op * 2 ^ 28 + die % 16 * 2 ^ 21 + eng % 512)

/-! ### Clocks (03_clocks.md) -/

/-- CD_CFG_WRITE (R84). -/
def execCdCfgWrite (ini k : Nat) (val : Word) (s : State) : Host.Outcome State Fault Refusal :=
  .next (if k < 64 then cmdWriteAt s ini (cdPage k + 0x040) (val) else s)

/-- XO_PREF_WRITE (R78). -/
def execXoPrefWrite (ini : Nat) (val : Word) (s : State) : Host.Outcome State Fault Refusal :=
  .next (cmdWriteAt s ini (CU + 0x044) (val))

/-- GATE_REQUEST (R82). -/
def execGateRequest (ini k : Nat) (s : State) : Host.Outcome State Fault Refusal :=
  .next (if k < 64 then cmdWriteAt s ini (cdPage k + 0x044) (1) else s)

/-! ### Keep (06_keep.md) -/

/-- BOOT_RECORD_WRITE (R140). -/
def execBootRecordWrite (ini : Nat) (val : Word) (s : State) : Host.Outcome State Fault Refusal :=
  .next (cmdWriteAt s ini (KP + 0x054) (val))

/-- COUNTER_WRITE (R141). -/
def execCounterWrite (ini k : Nat) (val : Word) (s : State) : Host.Outcome State Fault Refusal :=
  .next (if k < 16 then cmdWriteAt s ini (KP + 0x080 + 4 * k) (val) else s)

/-- XFER_GO (R142). -/
def execXferGo (ini : Nat) (val : Word) (s : State) : Host.Outcome State Fault Refusal :=
  .next (cmdWriteAt s ini (KP + 0x068) (val ||| 0x80000000))

/-! ### Fabric (07_fabric.md) -/

/-- NETWORK_ENABLE_WRITE (R174). -/
def execNetworkEnableWrite (ini die reg : Nat) (val : Word) (s : State) : Host.Outcome State Fault Refusal :=
  .next (if reg < 3 then cmdWriteAt s ini (cfPage die + 0x0A0 + 4 * reg) (val) else s)

/-- CAPTURE_GO (R185). -/
def execCaptureGo (ini die : Nat) (val : Word) (s : State) : Host.Outcome State Fault Refusal :=
  .next (cmdWriteAt s ini (cfPage die + 0x040) (val ||| 0x80000000))

/-- READBACK_GO (R187). -/
def execReadbackGo (ini die : Nat) (s : State) : Host.Outcome State Fault Refusal :=
  .next (cmdWriteAt s ini (cfPage die + 0x080) (0x80000000))

/-! ### Partitions (09_partitions.md) -/

/-- FENCE (R223). -/
def execFence (ini die part : Nat) (s : State) : Host.Outcome State Fault Refusal :=
  .next (if part < 64 then cmdWriteAt s ini (icPage die + 0x050) (partWord 1 part) else s)

/-- UNFENCE (R223). -/
def execUnfence (ini die part : Nat) (s : State) : Host.Outcome State Fault Refusal :=
  .next (if part < 64 then cmdWriteAt s ini (icPage die + 0x050) (partWord 2 part) else s)

/-- HOLD (R223). -/
def execHold (ini die part : Nat) (s : State) : Host.Outcome State Fault Refusal :=
  .next (if part < 64 then cmdWriteAt s ini (icPage die + 0x050) (partWord 3 part) else s)

/-- RELEASE (R224). -/
def execRelease (ini die part : Nat) (s : State) : Host.Outcome State Fault Refusal :=
  .next (if part < 64 then cmdWriteAt s ini (icPage die + 0x050) (partWord 4 part) else s)

/-- RELOAD (R223). -/
def execReload (ini die part : Nat) (s : State) : Host.Outcome State Fault Refusal :=
  .next (if part < 64 then cmdWriteAt s ini (icPage die + 0x050) (partWord 5 part) else s)

/-! ### Loop engines (10_loop_engines.md) -/

/-- LE_MDATA_WRITE (R240). -/
def execLeMdataWrite (ini die eng : Nat) (val : Word) (s : State) : Host.Outcome State Fault Refusal :=
  .next (if eng < 288 then cmdWriteAt s ini (lePage die eng + 0x064) (val) else s)

/-- LE_MDATA_READ (R240). -/
def execLeMdataRead (ini die eng : Nat) (s : State) : Host.Outcome State Fault Refusal :=
  .next (if eng < 288 then cmdReadAt s ini (lePage die eng + 0x064) false else s)

/-- LE_START (R257). -/
def execLeStart (ini die eng vec : Nat) (s : State) : Host.Outcome State Fault Refusal :=
  .next (if eng < 288 then cmdWriteAt s ini (lePage die eng + 0x04C) (BitVec.ofNat 32 (2 ^ 31 + vec % 8)) else s)

/-- LE_ABORT (R260). -/
def execLeAbort (ini die eng : Nat) (s : State) : Host.Outcome State Fault Refusal :=
  .next (if eng < 288 then cmdWriteAt s ini (lePage die eng + 0x04C) (0x40000000) else s)

/-- LE_CLEAR (R255). -/
def execLeClear (ini die eng : Nat) (s : State) : Host.Outcome State Fault Refusal :=
  .next (if eng < 288 then cmdWriteAt s ini (lePage die eng + 0x04C) (0x20000000) else s)

/-! ### Packet network (12_noc.md) -/

/-- ROUTE_CHECK (R315). -/
def execRouteCheck (ini : Nat) (s : State) : Host.Outcome State Fault Refusal :=
  .next (cmdWriteAt s ini (RT + 0x04C) (0x80000000))

/-- ROUTE_INSTALL (R315). -/
def execRouteInstall (ini : Nat) (s : State) : Host.Outcome State Fault Refusal :=
  .next (cmdWriteAt s ini (RT + 0x04C) (0x80000001))

/-- QUENCH_WRITE (R317). -/
def execQuenchWrite (ini k : Nat) (val : Word) (s : State) : Host.Outcome State Fault Refusal :=
  .next (if k < 32 then cmdWriteAt s ini (QU + 0x040 + 4 * k) (val) else s)

/-- BRIDGE_ISOLATE (R322). -/
def execBridgeIsolate (ini node : Nat) (on : Bool) (s : State) : Host.Outcome State Fault Refusal :=
  .next (if nodeOk node then cmdSet s ini (nodePage node) [(brF NR_BR_CTRL_ISOLATE node, ofBool on)] else s)

/-- STAT_CLR (R328). -/
def execStatClr (ini node : Nat) (s : State) : Host.Outcome State Fault Refusal :=
  .next (if nodeOk node then cmdSet s ini (nodePage node) [(brF NR_BR_CTRL_STAT_CLR node, 1)] else s)

/-! ### Seams and dies (13_seams.md) -/

/-- RETRAIN (R342). -/
def execRetrain (ini die seam : Nat) (s : State) : Host.Outcome State Fault Refusal :=
  .next (if seamOn die seam then cmdSet s ini (smPage die seam) [(SM_CTRL_RETRAIN, 1)] else s)

/-- VC_EN_WRITE (R341). -/
def execVcEnWrite (ini die seam : Nat) (on : Bool) (s : State) : Host.Outcome State Fault Refusal :=
  .next (if seamOn die seam then cmdSet s ini (smPage die seam) [(SM_CTRL_VC_EN, ofBool on)] else s)

/-- WIDTH_REQ_WRITE (R345). -/
def execWidthReqWrite (ini die seam : Nat) (half : Bool) (s : State) : Host.Outcome State Fault Refusal :=
  .next (if seamOn die seam then cmdSet s ini (smPage die seam) [(SM_CTRL_WIDTH_REQ, ofBool half)] else s)

/-- DIE_ISOLATE_WRITE (R350). -/
def execDieIsolateWrite (ini die : Nat) (s : State) : Host.Outcome State Fault Refusal :=
  .next (cmdWriteAt s ini (DI + 0x040) (BitVec.ofNat 32 (2 ^ 31 + die % 16)))

/-- REJOIN (R353). -/
def execRejoin (ini die : Nat) (s : State) : Host.Outcome State Fault Refusal :=
  .next (cmdWriteAt s ini (DI + 0x040) (BitVec.ofNat 32 (2 ^ 30 + die % 16)))

/-! ### Lanes (14_lanes.md) -/

/-- BUNDLE_EN_WRITE (R365). -/
def execBundleEnWrite (ini die k : Nat) (on : Bool) (s : State) : Host.Outcome State Fault Refusal :=
  .next (if k < 16 then cmdSet s ini (lbPage die) [(LB_BCFG_EN.nth k, ofBool on)] else s)

/-- BUNDLE_RETRAIN (R366). -/
def execBundleRetrain (ini die k : Nat) (s : State) : Host.Outcome State Fault Refusal :=
  .next (if k < 16 then cmdSet s ini (lbPage die) [(LB_BCFG_RETRAIN.nth k, 1)] else s)

/-- BUNDLE_IDLE_WRITE (R370). -/
def execBundleIdleWrite (ini die k : Nat) (on : Bool) (s : State) : Host.Outcome State Fault Refusal :=
  .next (if k < 16 then cmdSet s ini (lbPage die) [(LB_BCFG_IDLE.nth k, ofBool on)] else s)

/-- SEED_SAVE (R363). -/
def execSeedSave (ini lane : Nat) (s : State) : Host.Outcome State Fault Refusal :=
  .next (if lane < 128 then cmdSet s ini (laneQuad lane) [(lf LQ_CTRL_SEED_SAVE lane, 1)] else s)

/-- SEED_CLR (R363). -/
def execSeedClr (ini lane : Nat) (s : State) : Host.Outcome State Fault Refusal :=
  .next (if lane < 128 then cmdSet s ini (laneQuad lane) [(lf LQ_CTRL_SEED_CLR lane, 1)] else s)

/-- CHECKER_CLEAR (R374). -/
def execCheckerClear (ini lane : Nat) (s : State) : Host.Outcome State Fault Refusal :=
  .next (if lane < 128 then cmdSet s ini (laneQuad lane) [(lf LQ_PCHK_CLR lane, 1)] else s)

/-- INJ_GO (R375). -/
def execInjGo (ini lane : Nat) (s : State) : Host.Outcome State Fault Refusal :=
  .next (if lane < 128 then cmdSet s ini (laneQuad lane) [(lf LQ_PGEN_INJ_GO lane, 1)] else s)

/-! ### Flow slices (15_flow_slices.md) -/

/-- LOOKUP (R387). -/
def execLookup (ini die : Nat) (s : State) : Host.Outcome State Fault Refusal :=
  .next (cmdWriteAt s ini (fsPage die + 0x0C0) (flowWord 0 0))

/-- INSERT (R387). -/
def execInsert (ini die ctx : Nat) (s : State) : Host.Outcome State Fault Refusal :=
  .next (cmdWriteAt s ini (fsPage die + 0x0C0) (flowWord 1 ctx))

/-- DELETE (R387). -/
def execDelete (ini die : Nat) (s : State) : Host.Outcome State Fault Refusal :=
  .next (cmdWriteAt s ini (fsPage die + 0x0C0) (flowWord 2 0))

/-- TBL_READ (R417). -/
def execTblRead (ini die table index : Nat) (s : State) : Host.Outcome State Fault Refusal :=
  .next (cmdWriteAt s ini (fsPage die + 0x060) (tblWord 0 table index))

/-- TBL_WRITE (R390). -/
def execTblWrite (ini die table index : Nat) (s : State) : Host.Outcome State Fault Refusal :=
  .next (cmdWriteAt s ini (fsPage die + 0x060) (tblWord 1 table index))

/-- WRITE_CFG (R390). -/
def execWriteCfg (ini die table index : Nat) (s : State) : Host.Outcome State Fault Refusal :=
  .next (cmdWriteAt s ini (fsPage die + 0x060) (tblWord 2 table index))

/-- ZERO (R417). -/
def execZero (ini die table index : Nat) (s : State) : Host.Outcome State Fault Refusal :=
  .next (cmdWriteAt s ini (fsPage die + 0x060) (tblWord 3 table index))

/-- ADMIT_CTX (R413). -/
def execAdmitCtx (ini die ctx : Nat) (s : State) : Host.Outcome State Fault Refusal :=
  .next (cmdWriteAt s ini (fsPage die + 0x100) (flowWord 0 ctx))

/-- WITHDRAW (R413). -/
def execWithdraw (ini die ctx : Nat) (s : State) : Host.Outcome State Fault Refusal :=
  .next (cmdWriteAt s ini (fsPage die + 0x100) (flowWord 1 ctx))

/-- TRUNK_RESERVE (R411). -/
def execTrunkReserve (ini die i : Nat) (s : State) : Host.Outcome State Fault Refusal :=
  .next (if i < 16 then cmdSet s ini (fsPage die) [(FS_TRUNK_RESERVE.nth i, 1)] else s)

/-- TRUNK_RELEASE (R411). -/
def execTrunkRelease (ini die i : Nat) (s : State) : Host.Outcome State Fault Refusal :=
  .next (if i < 16 then cmdSet s ini (fsPage die) [(FS_TRUNK_RESERVE.nth i, 0)] else s)

/-- INJ_HEAD_WRITE (R416). -/
def execInjHeadWrite (ini die : Nat) (val : Word) (s : State) : Host.Outcome State Fault Refusal :=
  .next (cmdWriteAt s ini (fsPage die + 0x1AC) (val))

/-- TXTS_POP (R407). -/
def execTxtsPop (ini die port : Nat) (peek : Bool) (s : State) : Host.Outcome State Fault Refusal :=
  .next (if port < 16 then cmdReadAt s ini (fePage die port + 0x120) peek else s)

/-! ### External memory (16_external_memory.md) -/

/-- DDR_ENABLE (R422). -/
def execDdrEnable (ini ch : Nat) (s : State) : Host.Outcome State Fault Refusal :=
  .next (if ch < 4 then cmdSet s ini (mcPage ch) [(PG_CTRL_ENABLE, 1)] else s)

/-- DDR_DISABLE (R422). -/
def execDdrDisable (ini ch : Nat) (s : State) : Host.Outcome State Fault Refusal :=
  .next (if ch < 4 then cmdSet s ini (mcPage ch) [(PG_CTRL_ENABLE, 0)] else s)

/-- ILV_WRITE (R426). -/
def execIlvWrite (ini ilv : Nat) (s : State) : Host.Outcome State Fault Refusal :=
  .next (cmdSet s ini (mcPage 0) [(MC_CFG_ILV, ilv % 4)])

/-- RANGE_ENABLE (R432). -/
def execRangeEnable (ini ch range : Nat) (s : State) : Host.Outcome State Fault Refusal :=
  .next (if ch < 4 && decide (range < 16) then cmdSet s ini (mcPage ch) [(RNG_CTRL_EN.nth range, 1)] else s)

/-- RANGE_DISABLE (R432). -/
def execRangeDisable (ini ch range : Nat) (s : State) : Host.Outcome State Fault Refusal :=
  .next (if ch < 4 && decide (range < 16) then cmdSet s ini (mcPage ch) [(RNG_CTRL_EN.nth range, 0)] else s)

/-- KEY_DATA_WRITE (R431). -/
def execKeyDataWrite (ini ch : Nat) (val : Word) (s : State) : Host.Outcome State Fault Refusal :=
  .next (if ch < 4 then cmdWriteAt s ini (mcPage ch + 0x074) (val) else s)

/-- MC_RELEASE (R440). -/
def execMcRelease (ini ch id : Nat) (s : State) : Host.Outcome State Fault Refusal :=
  .next (if ch < 4 then cmdWriteAt s ini (mcPage ch + 0x078) (BitVec.ofNat 32 (2 ^ 31 + id % 1024)) else s)

/-! ### Processors and hub services (17_processors.md) -/

/-- HART_EN_WRITE (R447). -/
def execHartEnWrite (ini en : Nat) (s : State) : Host.Outcome State Fault Refusal :=
  .next (cmdWriteAt s ini (CL + 0x040) (BitVec.ofNat 32 (en % 16)))

/-- CMO_CLEAN (R465). -/
def execCmoClean (ini : Nat) (s : State) : Host.Outcome State Fault Refusal :=
  .next (cmdWriteAt s ini (CL + 0x04C) (BitVec.ofNat 32 (2 ^ 31 + 0)))

/-- CMO_INVALIDATE (R465). -/
def execCmoInvalidate (ini : Nat) (s : State) : Host.Outcome State Fault Refusal :=
  .next (cmdWriteAt s ini (CL + 0x04C) (BitVec.ofNat 32 (2 ^ 31 + 1)))

/-- CMO_CLEAN_INVALIDATE (R465). -/
def execCmoCleanInvalidate (ini : Nat) (s : State) : Host.Outcome State Fault Refusal :=
  .next (cmdWriteAt s ini (CL + 0x04C) (BitVec.ofNat 32 (2 ^ 31 + 2)))

/-- DMA_GO (R450). -/
def execDmaGo (ini ch : Nat) (s : State) : Host.Outcome State Fault Refusal :=
  .next (if ch < 8 then cmdSet s ini (HD) [(HD_CTRL_GO.nth ch, 1)] else s)

/-- DMA_ABORT (R450). -/
def execDmaAbort (ini ch : Nat) (s : State) : Host.Outcome State Fault Refusal :=
  .next (if ch < 8 then cmdSet s ini (HD) [(HD_CTRL_ABORT.nth ch, 1)] else s)

/-- TIME_SET (R451). -/
def execTimeSet (ini : Nat) (s : State) : Host.Outcome State Fault Refusal :=
  .next (cmdSet s ini (TB) [(TB_CTRL_SET, 1)])

/-- TIME_STEP (R451). -/
def execTimeStep (ini : Nat) (s : State) : Host.Outcome State Fault Refusal :=
  .next (cmdSet s ini (TB) [(TB_CTRL_STEP, 1)])

/-- TB_NOW_READ (R451). -/
def execTbNowRead (ini : Nat) (s : State) : Host.Outcome State Fault Refusal :=
  .next (cmdReadAt s ini (TB + 0x044) false)

/-- SEND (R454). -/
def execSend (ini m : Nat) (bar0 : Bool) (s : State) : Host.Outcome State Fault Refusal :=
  .next (if m < 96 then mbWrite s ini m 0x020 1 bar0 else s)

/-- TAKE (R454). -/
def execTake (ini m : Nat) (bar0 peek : Bool) (s : State) : Host.Outcome State Fault Refusal :=
  .next (if m < 96 then cmdRead s ini bar0 (regDie (mbPage m)) (regBlk (mbPage m)) (mbOff m 0x024) peek else s)

/-- MB_WITHDRAW (R454). -/
def execMbWithdraw (ini m : Nat) (bar0 : Bool) (s : State) : Host.Outcome State Fault Refusal :=
  .next (if m < 96 then mbWrite s ini m 0x034 1 bar0 else s)

/-- LOCK_READ (R459). -/
def execLockRead (ini k : Nat) (peek : Bool) (s : State) : Host.Outcome State Fault Refusal :=
  .next (if k < 256 then cmdReadAt s ini (LK + 0x100 + 4 * k) peek else s)

/-- LOCK_RELEASE (R459). -/
def execLockRelease (ini k : Nat) (val : Word) (s : State) : Host.Outcome State Fault Refusal :=
  .next (if k < 256 then cmdWriteAt s ini (LK + 0x100 + 4 * k) (val) else s)

/-- LOCK_FORCE (R461). -/
def execLockForce (ini k : Nat) (s : State) : Host.Outcome State Fault Refusal :=
  .next (cmdWriteAt s ini (LK + 0x040) (BitVec.ofNat 32 (2 ^ 31 + k % 256)))

/-- EV_ROUTE_WRITE (R463). -/
def execEvRouteWrite (ini word : Nat) (val : Word) (s : State) : Host.Outcome State Fault Refusal :=
  .next (if word < 2 then cmdWriteAt s ini (EV + 0x044 + 4 * word) (val) else s)

/-- EV_CLAIM (R463). -/
def execEvClaim (ini c : Nat) (peek : Bool) (s : State) : Host.Outcome State Fault Refusal :=
  .next (if c < 4 then cmdReadAt s ini (EV + 0x070 + 4 * c) peek else s)

/-- EV_DONE (R463). -/
def execEvDone (ini c v : Nat) (s : State) : Host.Outcome State Fault Refusal :=
  .next (if c < 4 then cmdWriteAt s ini (EV + 0x080 + 4 * c) (BitVec.ofNat 32 (v % 1024)) else s)

/-- MSI_SEND (R467). -/
def execMsiSend (ini pc fn : Nat) (val : Word) (s : State) : Host.Outcome State Fault Refusal :=
  .next (if pc < 2 && decide (fn < 2) then cmdWriteAt s ini (pcPage pc + 0x080 + 4 * fn) (val) else s)

/-! ### Power (18_power.md) -/

/-- TORPOR_ARM (R480). -/
def execTorporArm (ini : Nat) (val : Word) (s : State) : Host.Outcome State Fault Refusal :=
  .next (cmdWriteAt s ini (pdPage 8 1 + 0x060) (val))

/-- RTC_HI_WRITE (R490). -/
def execRtcHiWrite (ini : Nat) (val : Word) (s : State) : Host.Outcome State Fault Refusal :=
  .next (cmdWriteAt s ini (pdPage 8 0 + 0x064) (val))

/-- DS_SUBMIT (R486). -/
def execDsSubmit (ini d : Nat) (s : State) : Host.Outcome State Fault Refusal :=
  .next (cmdWriteAt s ini (DS + 0x054) (BitVec.ofNat 32 (d % 4096)))

/-- DS_DONE (R488). -/
def execDsDone (ini d status : Nat) (s : State) : Host.Outcome State Fault Refusal :=
  .next (cmdWriteAt s ini (DS + 0x058) (BitVec.ofNat 32 (status % 4 * 65536 + d % 4096)))

/-- DS_REL (R488). -/
def execDsRel (ini d count : Nat) (s : State) : Host.Outcome State Fault Refusal :=
  .next (cmdWriteAt s ini (DS + 0x05C) (BitVec.ofNat 32 (count % 2048 * 65536 + d % 4096)))

/-- DS_CQ_POP (R488). -/
def execDsCqPop (ini : Nat) (peek : Bool) (s : State) : Host.Outcome State Fault Refusal :=
  .next (cmdReadAt s ini (DS + 0x060) peek)

/-- DS_MQ_POP (R487). -/
def execDsMqPop (ini c : Nat) (peek : Bool) (s : State) : Host.Outcome State Fault Refusal :=
  .next (if c < 4 then cmdReadAt s ini (DS + 0x070 + 4 * c) peek else s)

/-- DS_PQ_POP (R487). -/
def execDsPqPop (ini n : Nat) (peek : Bool) (s : State) : Host.Outcome State Fault Refusal :=
  .next (if n < 8 then cmdReadAt s ini (DS + 0x080 + 4 * n) peek else s)

/-! ### Security, errors, black box (19_security.md, 20_errors.md) -/

/-- TEST_WINDOW_GO (19_security.md R505). -/
def execTestWindowGo (ini : Nat) (s : State) : Host.Outcome State Fault Refusal :=
  .next (cmdWriteAt s ini (SC + 0x0A0) (1))

/-- ERROR_DONE (20_errors.md R514). -/
def execErrorDone (ini : Nat) (val : Word) (s : State) : Host.Outcome State Fault Refusal :=
  .next (cmdWriteAt s ini (ER + 0x040) (val ||| 0x80000000))

/-- AX_EN_WRITE (20_errors.md R524). -/
def execAxEnWrite (ini die : Nat) (val : Word) (s : State) : Host.Outcome State Fault Refusal :=
  .next (cmdWriteAt s ini (axPage die + 0x040) (val))

/-- BB_MARK (20_errors.md R529). -/
def execBbMark (ini : Nat) (val : Word) (s : State) : Host.Outcome State Fault Refusal :=
  .next (cmdWriteAt s ini (BB + 0x04C) (val))

/-- BB_XFER_GO (20_errors.md R533). -/
def execBbXferGo (ini : Nat) (s : State) : Host.Outcome State Fault Refusal :=
  .next (cmdSet s ini (BB) [(BB_XFER_CTRL_GO, 1)])

/-! ### Shut-down and self-test (21_shutdown.md) -/

/-- SD_ARM (R542). -/
def execSdArm (ini : Nat) (s : State) : Host.Outcome State Fault Refusal :=
  .next (cmdWriteAt s ini (SD + 0x040) (0x40000000))

/-- DISARM (R543). -/
def execDisarm (ini : Nat) (s : State) : Host.Outcome State Fault Refusal :=
  .next (cmdWriteAt s ini (SD + 0x040) (0x20000000))

/-- SHDN (R549). -/
def execShdn (ini : Nat) (s : State) : Host.Outcome State Fault Refusal :=
  .next (cmdWriteAt s ini (SD + 0x040) (0x80000000))

/-- SELFTEST_GO (R554). -/
def execSelftestGo (ini die : Nat) (val : Word) (s : State) : Host.Outcome State Fault Refusal :=
  .next (cmdWriteAt s ini (stPage die + 0x040) (val ||| 0x80000000))

/-! ### Debug (22_debug.md) -/

/-- HALT_REQ (R563). -/
def execHaltReq (ini cores : Nat) (s : State) : Host.Outcome State Fault Refusal :=
  .next (cmdSet s ini (DB) [(DB_HALT_HALT_REQ, cores % 16)])

/-- RESUME_REQ (R566). -/
def execResumeReq (ini cores : Nat) (s : State) : Host.Outcome State Fault Refusal :=
  .next (cmdSet s ini (DB) [(DB_HALT_RESUME_REQ, cores % 16)])

/-- STEP (R566). -/
def execStep (ini cores : Nat) (s : State) : Host.Outcome State Fault Refusal :=
  .next (cmdSet s ini (DB) [(DB_HALT_STEP, cores % 16)])

/-- DB_REGCMD (R566). -/
def execDbRegcmd (ini : Nat) (val : Word) (s : State) : Host.Outcome State Fault Refusal :=
  .next (cmdWriteAt s ini (DB + 0x060) (val ||| 0x80000000))

/-- LE_HALT (R570). -/
def execLeHalt (ini die eng : Nat) (s : State) : Host.Outcome State Fault Refusal :=
  .next (cmdWriteAt s ini (DB + 0x070) (dbLeWord 1 die eng))

/-- LE_RESUME (R570). -/
def execLeResume (ini die eng : Nat) (s : State) : Host.Outcome State Fault Refusal :=
  .next (cmdWriteAt s ini (DB + 0x070) (dbLeWord 2 die eng))

/-- LE_STEP (R570). -/
def execLeStep (ini die eng : Nat) (s : State) : Host.Outcome State Fault Refusal :=
  .next (cmdWriteAt s ini (DB + 0x070) (dbLeWord 3 die eng))

/-- WATCHDOG_KICK (R572). -/
def execWatchdogKick (ini c : Nat) (val : Word) (s : State) : Host.Outcome State Fault Refusal :=
  .next (if c < 4 then cmdWriteAt s ini (WD + 0x054 + 16 * c) (val) else s)

/-- SENTINEL_START (R573). -/
def execSentinelStart (ini : Nat) (val : Word) (s : State) : Host.Outcome State Fault Refusal :=
  .next (cmdWriteAt s ini (WD + 0x090) (val))

/-- SENTINEL_KICK (R573). -/
def execSentinelKick (ini : Nat) (val : Word) (s : State) : Host.Outcome State Fault Refusal :=
  .next (cmdWriteAt s ini (WD + 0x094) (val))

/-! ### Pins (23_pins.md) -/

/-- IO_SAFE_WRITE (R584). -/
def execIoSafeWrite (ini die a i : Nat) (val : Word) (s : State) : Host.Outcome State Fault Refusal :=
  .next (if i < 3 then cmdWriteAt s ini (ioPage die a + 0x040 + 4 * i) (val) else s)

end Sys2Proof.Machine
end

