-- ==== Sys2Proof/Machine/Dispatch.lean ====
section
/-! DEFINITION. The meaning of each command, one arm a constructor. -/

namespace Sys2Proof.Machine

/-- What command `i` does to everything but the queue of commands. -/
def exec (i : Instr) (s : State) : Host.Outcome State Fault Refusal :=
  match i with
  | .registerWrite ini bar0 die blk off val => Sys2Proof.Machine.execRegisterWrite ini bar0 die blk off val s
  | .registerReadClear ini bar0 die blk off peek => Sys2Proof.Machine.execRegisterReadClear ini bar0 die blk off peek s
  | .wrongSizeAccess ini die blk off => Sys2Proof.Machine.execWrongSizeAccess ini die blk off s
  | .blockEnable ini die blk en frz => Sys2Proof.Machine.execBlockEnable ini die blk en frz s
  | .softReset ini die blk => Sys2Proof.Machine.execSoftReset ini die blk s
  | .softResetDone die blk => Sys2Proof.Machine.execSoftResetDone die blk s
  | .commit ini die blk disc => Sys2Proof.Machine.execCommit ini die blk disc s
  | .discard ini die blk => Sys2Proof.Machine.execDiscard ini die blk s
  | .commitPoint die blk => Sys2Proof.Machine.execCommitPoint die blk s
  | .evtForce ini die blk val => Sys2Proof.Machine.execEvtForce ini die blk val s
  | .pgVoteWrite ini die blk val => Sys2Proof.Machine.execPgVoteWrite ini die blk val s
  | .pgLockWrite ini die blk val => Sys2Proof.Machine.execPgLockWrite ini die blk val s
  | .pgRetainWrite ini die blk val => Sys2Proof.Machine.execPgRetainWrite ini die blk val s
  | .broadcastWrite ini blk off val => Sys2Proof.Machine.execBroadcastWrite ini blk off val s
  | .xoQualified b rc => Sys2Proof.Machine.execXoQualified b rc s
  | .xoQualTimeout b => Sys2Proof.Machine.execXoQualTimeout b s
  | .rtcQualified rc => Sys2Proof.Machine.execRtcQualified rc s
  | .rtcQualTimeout => Sys2Proof.Machine.execRtcQualTimeout s
  | .xoEdgeTimeout b => Sys2Proof.Machine.execXoEdgeTimeout b s
  | .xoWindowCheck b count => Sys2Proof.Machine.execXoWindowCheck b count s
  | .rtcEdgeTimeout => Sys2Proof.Machine.execRtcEdgeTimeout s
  | .rtcWindowCheck count => Sys2Proof.Machine.execRtcWindowCheck count s
  | .pllLocked die pll => Sys2Proof.Machine.execPllLocked die pll s
  | .pllRefLost die pll => Sys2Proof.Machine.execPllRefLost die pll s
  | .fpllRefDeviation die pll => Sys2Proof.Machine.execFpllRefDeviation die pll s
  | .clockSwitchDone sw => Sys2Proof.Machine.execClockSwitchDone sw s
  | .switchForced sw => Sys2Proof.Machine.execSwitchForced sw s
  | .cdCfgWrite ini k val => Sys2Proof.Machine.execCdCfgWrite ini k val s
  | .xoPrefWrite ini val => Sys2Proof.Machine.execXoPrefWrite ini val s
  | .gateRequest ini k => Sys2Proof.Machine.execGateRequest ini k s
  | .gateClosed k => Sys2Proof.Machine.execGateClosed k s
  | .gateDenied k => Sys2Proof.Machine.execGateDenied k s
  | .gateReopen k => Sys2Proof.Machine.execGateReopen k s
  | .cdFreqUpdate k khz toggled => Sys2Proof.Machine.execCdFreqUpdate k khz toggled s
  | .suppliesValid => Sys2Proof.Machine.execSuppliesValid s
  | .resetNLow => Sys2Proof.Machine.execResetNLow s
  | .resetNHigh => Sys2Proof.Machine.execResetNHigh s
  | .deviceResetInternal => Sys2Proof.Machine.execDeviceResetInternal s
  | .srcSelLatch => Sys2Proof.Machine.execSrcSelLatch s
  | .mgmtPathTimeout seam => Sys2Proof.Machine.execMgmtPathTimeout seam s
  | .keepRecordsRead read0 read1 errs => Sys2Proof.Machine.execKeepRecordsRead read0 read1 errs s
  | .quickSelftestDone pass => Sys2Proof.Machine.execQuickSelftestDone pass s
  | .signatureVerified hdr pad readOk keyHash sigOk nodesOk nodes => Sys2Proof.Machine.execSignatureVerified hdr pad readOk keyHash sigOk nodesOk nodes s
  | .seqWrite => Sys2Proof.Machine.execSeqWrite s
  | .seqWait => Sys2Proof.Machine.execSeqWait s
  | .seqWaitTimeout => Sys2Proof.Machine.execSeqWaitTimeout s
  | .releasePart => Sys2Proof.Machine.execReleasePart s
  | .seqEnd => Sys2Proof.Machine.execSeqEnd s
  | .frameArrival stream rec => Sys2Proof.Machine.execFrameArrival stream rec s
  | .configCleared => Sys2Proof.Machine.execConfigCleared s
  | .sourceTimeout => Sys2Proof.Machine.execSourceTimeout s
  | .hostPushWrite addr len => Sys2Proof.Machine.execHostPushWrite addr len s
  | .holdStartCmd w1 => Sys2Proof.Machine.execHoldStartCmd w1 s
  | .memoryClearDone snapOk => Sys2Proof.Machine.execMemoryClearDone snapOk s
  | .journalRestore => Sys2Proof.Machine.execJournalRestore s
  | .bootRecordWrite ini val => Sys2Proof.Machine.execBootRecordWrite ini val s
  | .bootRecordDone worn => Sys2Proof.Machine.execBootRecordDone worn s
  | .counterWrite ini k val => Sys2Proof.Machine.execCounterWrite ini k val s
  | .xferGo ini val => Sys2Proof.Machine.execXferGo ini val s
  | .xferDone units result errs => Sys2Proof.Machine.execXferDone units result errs s
  | .journalWindowEnd die blk => Sys2Proof.Machine.execJournalWindowEnd die blk s
  | .journalCommit => Sys2Proof.Machine.execJournalCommit s
  | .userAreaWrite off bytes => Sys2Proof.Machine.execUserAreaWrite off bytes s
  | .userUnitProgram unit errs => Sys2Proof.Machine.execUserUnitProgram unit errs s
  | .contentionDetected die addr bit => Sys2Proof.Machine.execContentionDetected die addr bit s
  | .networkEnableWrite ini die reg val => Sys2Proof.Machine.execNetworkEnableWrite ini die reg val s
  | .xgTrained die side g => Sys2Proof.Machine.execXgTrained die side g s
  | .xgTrainTimeout die side g => Sys2Proof.Machine.execXgTrainTimeout die side g s
  | .captureGo ini die val => Sys2Proof.Machine.execCaptureGo ini die val s
  | .capTrig die => Sys2Proof.Machine.execCapTrig die s
  | .haltTrigger die => Sys2Proof.Machine.execHaltTrigger die s
  | .captureEdge die net => Sys2Proof.Machine.execCaptureEdge die net s
  | .captureAbandon die net => Sys2Proof.Machine.execCaptureAbandon die net s
  | .readbackGo ini die => Sys2Proof.Machine.execReadbackGo ini die s
  | .readbackDone die frames busError pfw => Sys2Proof.Machine.execReadbackDone die frames busError pfw s
  | .evoToggle die j => Sys2Proof.Machine.execEvoToggle die j s
  | .bankAccess die mem portB en we addr din srst coll => Sys2Proof.Machine.execBankAccess die mem portB en we addr din srst coll s
  | .fifoPush die mem din popToo => Sys2Proof.Machine.execFifoPush die mem din popToo s
  | .fifoPop die mem => Sys2Proof.Machine.execFifoPop die mem s
  | .tokenGive die mem => Sys2Proof.Machine.execTokenGive die mem s
  | .tokenTake die mem giveToo => Sys2Proof.Machine.execTokenTake die mem giveToo s
  | .cascadeForward die mem => Sys2Proof.Machine.execCascadeForward die mem s
  | .queueViewSync die mem deep toRead => Sys2Proof.Machine.execQueueViewSync die mem deep toRead s
  | .queueAudit die mem deep => Sys2Proof.Machine.execQueueAudit die mem deep s
  | .dmFabricRequest die mem we addr data be => Sys2Proof.Machine.execDmFabricRequest die mem we addr data be s
  | .dmFabricResponse die mem => Sys2Proof.Machine.execDmFabricResponse die mem s
  | .dmNocAccess die mem we off len bytes => Sys2Proof.Machine.execDmNocAccess die mem we off len bytes s
  | .dmNocPush die mem off bytes => Sys2Proof.Machine.execDmNocPush die mem off bytes s
  | .dmNocPop die mem off len peek => Sys2Proof.Machine.execDmNocPop die mem off len peek s
  | .dmWriteback die mem => Sys2Proof.Machine.execDmWriteback die mem s
  | .dmPatrolRead die mem => Sys2Proof.Machine.execDmPatrolRead die mem s
  | .fence ini die part => Sys2Proof.Machine.execFence ini die part s
  | .unfence ini die part => Sys2Proof.Machine.execUnfence ini die part s
  | .hold ini die part => Sys2Proof.Machine.execHold ini die part s
  | .release ini die part => Sys2Proof.Machine.execRelease ini die part s
  | .reload ini die part => Sys2Proof.Machine.execReload ini die part s
  | .releaseComplete die part => Sys2Proof.Machine.execReleaseComplete die part s
  | .icpWord die word last => Sys2Proof.Machine.execIcpWord die word last s
  | .icpAbort die => Sys2Proof.Machine.execIcpAbort die s
  | .icpDataTimeout die => Sys2Proof.Machine.execIcpDataTimeout die s
  | .icpHeaderChecked die hdr keyHash sigOk nodes => Sys2Proof.Machine.execIcpHeaderChecked die hdr keyHash sigOk nodes s
  | .icpGroupWrite die => Sys2Proof.Machine.execIcpGroupWrite die s
  | .reloadGroup die recs => Sys2Proof.Machine.execReloadGroup die recs s
  | .setGateRequest die set => Sys2Proof.Machine.execSetGateRequest die set s
  | .leMdataWrite ini die eng val => Sys2Proof.Machine.execLeMdataWrite ini die eng val s
  | .leMdataRead ini die eng => Sys2Proof.Machine.execLeMdataRead ini die eng s
  | .leStart ini die eng vec => Sys2Proof.Machine.execLeStart ini die eng vec s
  | .leAbort ini die eng => Sys2Proof.Machine.execLeAbort ini die eng s
  | .leClear ini die eng => Sys2Proof.Machine.execLeClear ini die eng s
  | .fabricStart die eng vec arg => Sys2Proof.Machine.execFabricStart die eng vec arg s
  | .startDequeue die eng => Sys2Proof.Machine.execStartDequeue die eng s
  | .runComplete die eng => Sys2Proof.Machine.execRunComplete die eng s
  | .stallTimeout die eng => Sys2Proof.Machine.execStallTimeout die eng s
  | .cNop die eng => Sys2Proof.Machine.execCNop die eng s
  | .endOp die eng => Sys2Proof.Machine.execEndOp die eng s
  | .trap die eng => Sys2Proof.Machine.execTrap die eng s
  | .br die eng t => Sys2Proof.Machine.execBr die eng t s
  | .bz die eng t => Sys2Proof.Machine.execBz die eng t s
  | .bnz die eng t => Sys2Proof.Machine.execBnz die eng t s
  | .bn die eng t => Sys2Proof.Machine.execBn die eng t s
  | .bnn die eng t => Sys2Proof.Machine.execBnn die eng t s
  | .bsl die eng t => Sys2Proof.Machine.execBsl die eng t s
  | .call die eng t => Sys2Proof.Machine.execCall die eng t s
  | .ret die eng => Sys2Proof.Machine.execRet die eng s
  | .lexit die eng t => Sys2Proof.Machine.execLexit die eng t s
  | .loopd die eng r len => Sys2Proof.Machine.execLoopd die eng r len s
  | .loopi die eng len n => Sys2Proof.Machine.execLoopi die eng len n s
  | .movto die eng reg r => Sys2Proof.Machine.execMovto die eng reg r s
  | .movfrom die eng reg r => Sys2Proof.Machine.execMovfrom die eng reg r s
  | .setr die eng reg imm => Sys2Proof.Machine.execSetr die eng reg imm s
  | .ngo die eng k => Sys2Proof.Machine.execNgo die eng k s
  | .nwait die eng mask => Sys2Proof.Machine.execNwait die eng mask s
  | .clrf die eng mask => Sys2Proof.Machine.execClrf die eng mask s
  | .xyNop die eng y => Sys2Proof.Machine.execXyNop die eng y s
  | .pop die eng y port g => Sys2Proof.Machine.execPop die eng y port g s
  | .push die eng y port g last => Sys2Proof.Machine.execPush die eng y port g last s
  | .ld die eng y j am r q => Sys2Proof.Machine.execLd die eng y j am r q s
  | .st die eng y j am r q => Sys2Proof.Machine.execSt die eng y j am r q s
  | .pmod die eng y j am => Sys2Proof.Machine.execPmod die eng y j am s
  | .mNop die eng => Sys2Proof.Machine.execMNop die eng s
  | .mul die eng f => Sys2Proof.Machine.execMul die eng f s
  | .mac die eng f => Sys2Proof.Machine.execMac die eng f s
  | .msu die eng f => Sys2Proof.Machine.execMsu die eng f s
  | .clr die eng f => Sys2Proof.Machine.execClr die eng f s
  | .lda die eng f => Sys2Proof.Machine.execLda die eng f s
  | .ada die eng f => Sys2Proof.Machine.execAda die eng f s
  | .sba die eng f => Sys2Proof.Machine.execSba die eng f s
  | .aadd die eng f => Sys2Proof.Machine.execAadd die eng f s
  | .asub die eng f => Sys2Proof.Machine.execAsub die eng f s
  | .acpy die eng f => Sys2Proof.Machine.execAcpy die eng f s
  | .aneg die eng f => Sys2Proof.Machine.execAneg die eng f s
  | .amin die eng f => Sys2Proof.Machine.execAmin die eng f s
  | .amax die eng f => Sys2Proof.Machine.execAmax die eng f s
  | .ext die eng f => Sys2Proof.Machine.execExt die eng f s
  | .smax die eng f => Sys2Proof.Machine.execSmax die eng f s
  | .smin die eng f => Sys2Proof.Machine.execSmin die eng f s
  | .rmax die eng f => Sys2Proof.Machine.execRmax die eng f s
  | .rmin die eng f => Sys2Proof.Machine.execRmin die eng f s
  | .streamBeatIn die eng port data last => Sys2Proof.Machine.execStreamBeatIn die eng port data last s
  | .streamBeatOut die eng port => Sys2Proof.Machine.execStreamBeatOut die eng port s
  | .nocDescriptorDone die eng k => Sys2Proof.Machine.execNocDescriptorDone die eng k s
  | .directOp die eng a b op hi => Sys2Proof.Machine.execDirectOp die eng a b op hi s
  | .breakpointHit die eng => Sys2Proof.Machine.execBreakpointHit die eng s
  | .dataWatchHit die eng => Sys2Proof.Machine.execDataWatchHit die eng s
  | .rd p => Sys2Proof.Machine.execRd p s
  | .wr p => Sys2Proof.Machine.execWr p s
  | .pwr p => Sys2Proof.Machine.execPwr p s
  | .strm p => Sys2Proof.Machine.execStrm p s
  | .rsp p lat => Sys2Proof.Machine.execRsp p lat s
  | .crd p => Sys2Proof.Machine.execCrd p s
  | .cfg p => Sys2Proof.Machine.execCfg p s
  | .mgmt p => Sys2Proof.Machine.execMgmt p s
  | .mrsp p => Sys2Proof.Machine.execMrsp p s
  | .accessInject a => Sys2Proof.Machine.execAccessInject a s
  | .headArrival node port p flaw => Sys2Proof.Machine.execHeadArrival node port p flaw s
  | .urgencyAge node => Sys2Proof.Machine.execUrgencyAge node s
  | .linkAudit node port lane onLink inBuffer returning => Sys2Proof.Machine.execLinkAudit node port lane onLink inBuffer returning s
  | .pairAudit ini target => Sys2Proof.Machine.execPairAudit ini target s
  | .routeCheck ini => Sys2Proof.Machine.execRouteCheck ini s
  | .routeInstall ini => Sys2Proof.Machine.execRouteInstall ini s
  | .drain node => Sys2Proof.Machine.execDrain node s
  | .drainComplete node => Sys2Proof.Machine.execDrainComplete node s
  | .drainTimeout node => Sys2Proof.Machine.execDrainTimeout node s
  | .quenchWrite ini k val => Sys2Proof.Machine.execQuenchWrite ini k val s
  | .bridgeIsolate ini node on => Sys2Proof.Machine.execBridgeIsolate ini node on s
  | .statClr ini node => Sys2Proof.Machine.execStatClr ini node s
  | .targetTimeout node => Sys2Proof.Machine.execTargetTimeout node s
  | .responseTimeout ini tag => Sys2Proof.Machine.execResponseTimeout ini tag s
  | .rqBeat die port b => Sys2Proof.Machine.execRqBeat die port b s
  | .rsBeat die port => Sys2Proof.Machine.execRsBeat die port s
  | .tqBeat die port => Sys2Proof.Machine.execTqBeat die port s
  | .trBeat die port b => Sys2Proof.Machine.execTrBeat die port b s
  | .seamData die seam link ch seq flit crcOk flaw => Sys2Proof.Machine.execSeamData die seam link ch seq flit crcOk flaw s
  | .seamAck die seam acks crcOk => Sys2Proof.Machine.execSeamAck die seam acks crcOk s
  | .seamScred die seam counters crcOk => Sys2Proof.Machine.execSeamScred die seam counters crcOk s
  | .seamHcred die seam counters crcOk => Sys2Proof.Machine.execSeamHcred die seam counters crcOk s
  | .seamTrain die seam fromDie seamNo widthReq vcEn epoch crcOk => Sys2Proof.Machine.execSeamTrain die seam fromDie seamNo widthReq vcEn epoch crcOk s
  | .seamWidth die seam widthReq reply crcOk => Sys2Proof.Machine.execSeamWidth die seam widthReq reply crcOk s
  | .seamIdle die seam crcOk => Sys2Proof.Machine.execSeamIdle die seam crcOk s
  | .counterFrameDue die seam kind => Sys2Proof.Machine.execCounterFrameDue die seam kind s
  | .replayTimeout die seam link => Sys2Proof.Machine.execReplayTimeout die seam link s
  | .seamCrcSilence die seam => Sys2Proof.Machine.execSeamCrcSilence die seam s
  | .seamTrainStepDone die seam => Sys2Proof.Machine.execSeamTrainStepDone die seam s
  | .seamTrainFail die seam => Sys2Proof.Machine.execSeamTrainFail die seam s
  | .creditConditionsMet die seam us => Sys2Proof.Machine.execCreditConditionsMet die seam us s
  | .retrain ini die seam => Sys2Proof.Machine.execRetrain ini die seam s
  | .vcEnWrite ini die seam on => Sys2Proof.Machine.execVcEnWrite ini die seam on s
  | .widthReqWrite ini die seam half => Sys2Proof.Machine.execWidthReqWrite ini die seam half s
  | .widthStepTimeout die seam => Sys2Proof.Machine.execWidthStepTimeout die seam s
  | .seamCreditAudit die seam link ch => Sys2Proof.Machine.execSeamCreditAudit die seam link ch s
  | .dieIsolateWrite ini die => Sys2Proof.Machine.execDieIsolateWrite ini die s
  | .heartbeatTimeout die => Sys2Proof.Machine.execHeartbeatTimeout die s
  | .seamsDownTimeout die => Sys2Proof.Machine.execSeamsDownTimeout die s
  | .dieResetRequest die => Sys2Proof.Machine.execDieResetRequest die s
  | .rejoin ini die => Sys2Proof.Machine.execRejoin ini die s
  | .autoRejoin die => Sys2Proof.Machine.execAutoRejoin die s
  | .rejoinStepDone die ok => Sys2Proof.Machine.execRejoinStepDone die ok s
  | .synthLocked lane => Sys2Proof.Machine.execSynthLocked lane s
  | .signalDetect lane => Sys2Proof.Machine.execSignalDetect lane s
  | .signalLoss lane together => Sys2Proof.Machine.execSignalLoss lane together s
  | .lfmWindow lane eyes above cfg ms => Sys2Proof.Machine.execLfmWindow lane eyes above cfg ms s
  | .seedRejectTimeout lane => Sys2Proof.Machine.execSeedRejectTimeout lane s
  | .bundleTrainTimeout die k => Sys2Proof.Machine.execBundleTrainTimeout die k s
  | .pcsAligned die k logical inverted skew => Sys2Proof.Machine.execPcsAligned die k logical inverted skew s
  | .alignmentLoss die k => Sys2Proof.Machine.execAlignmentLoss die k s
  | .bundleEnWrite ini die k on => Sys2Proof.Machine.execBundleEnWrite ini die k on s
  | .bundleRetrain ini die k => Sys2Proof.Machine.execBundleRetrain ini die k s
  | .bundleIdleWrite ini die k on => Sys2Proof.Machine.execBundleIdleWrite ini die k on s
  | .idleReturnCheck die k => Sys2Proof.Machine.execIdleReturnCheck die k s
  | .seedSave ini lane => Sys2Proof.Machine.execSeedSave ini lane s
  | .seedClr ini lane => Sys2Proof.Machine.execSeedClr ini lane s
  | .checkerLock lane => Sys2Proof.Machine.execCheckerLock lane s
  | .checkerClear ini lane => Sys2Proof.Machine.execCheckerClear ini lane s
  | .injGo ini lane => Sys2Proof.Machine.execInjGo ini lane s
  | .rxFrame die port bytes fcsOk sec ended => Sys2Proof.Machine.execRxFrame die port bytes fcsOk sec ended s
  | .txFrameStart die port queue => Sys2Proof.Machine.execTxFrameStart die port queue s
  | .seqRecovery die id => Sys2Proof.Machine.execSeqRecovery die id s
  | .streamPacketTimeout die id => Sys2Proof.Machine.execStreamPacketTimeout die id s
  | .meterSweep die ctx => Sys2Proof.Machine.execMeterSweep die ctx s
  | .cbResetTimeout die ctx => Sys2Proof.Machine.execCbResetTimeout die ctx s
  | .gateEntryAdvance die port => Sys2Proof.Machine.execGateEntryAdvance die port s
  | .gclSwitch die port => Sys2Proof.Machine.execGclSwitch die port s
  | .tokenAudit die => Sys2Proof.Machine.execTokenAudit die s
  | .lookup ini die => Sys2Proof.Machine.execLookup ini die s
  | .insert ini die ctx => Sys2Proof.Machine.execInsert ini die ctx s
  | .delete ini die => Sys2Proof.Machine.execDelete ini die s
  | .tblRead ini die table index => Sys2Proof.Machine.execTblRead ini die table index s
  | .tblWrite ini die table index => Sys2Proof.Machine.execTblWrite ini die table index s
  | .writeCfg ini die table index => Sys2Proof.Machine.execWriteCfg ini die table index s
  | .zero ini die table index => Sys2Proof.Machine.execZero ini die table index s
  | .admitCtx ini die ctx => Sys2Proof.Machine.execAdmitCtx ini die ctx s
  | .withdraw ini die ctx => Sys2Proof.Machine.execWithdraw ini die ctx s
  | .trunkReserve ini die j => Sys2Proof.Machine.execTrunkReserve ini die j s
  | .trunkRelease ini die j => Sys2Proof.Machine.execTrunkRelease ini die j s
  | .injHeadWrite ini die val => Sys2Proof.Machine.execInjHeadWrite ini die val s
  | .injectSlot die => Sys2Proof.Machine.execInjectSlot die s
  | .txtsPop ini die port peek => Sys2Proof.Machine.execTxtsPop ini die port peek s
  | .ddrEnable ini ch => Sys2Proof.Machine.execDdrEnable ini ch s
  | .spdReadDone ch cause ranks dens => Sys2Proof.Machine.execSpdReadDone ch cause ranks dens s
  | .ddrTrainDone ch ok ms => Sys2Proof.Machine.execDdrTrainDone ch ok ms s
  | .ddrDisable ini ch => Sys2Proof.Machine.execDdrDisable ini ch s
  | .ilvWrite ini ilv => Sys2Proof.Machine.execIlvWrite ini ilv s
  | .ddrRead ch line ini errs hit tagBad => Sys2Proof.Machine.execDdrRead ch line ini errs hit tagBad s
  | .lateTagCheck ch => Sys2Proof.Machine.execLateTagCheck ch s
  | .ddrWrite ch line off ini bytes poison errs hit tagBad => Sys2Proof.Machine.execDdrWrite ch line off ini bytes poison errs hit tagBad s
  | .ddrWriteback ch line => Sys2Proof.Machine.execDdrWriteback ch line s
  | .ddrPatrolRead ch errs hit tagBad => Sys2Proof.Machine.execDdrPatrolRead ch errs hit tagBad s
  | .rangeEnable ini ch range => Sys2Proof.Machine.execRangeEnable ini ch range s
  | .rangeInitDone ch range => Sys2Proof.Machine.execRangeInitDone ch range s
  | .rangeDisable ini ch range => Sys2Proof.Machine.execRangeDisable ini ch range s
  | .keyDataWrite ini ch val => Sys2Proof.Machine.execKeyDataWrite ini ch val s
  | .mcRelease ini ch id => Sys2Proof.Machine.execMcRelease ini ch id s
  | .hartEnWrite ini en => Sys2Proof.Machine.execHartEnWrite ini en s
  | .cmoClean ini => Sys2Proof.Machine.execCmoClean ini s
  | .cmoInvalidate ini => Sys2Proof.Machine.execCmoInvalidate ini s
  | .cmoCleanInvalidate ini => Sys2Proof.Machine.execCmoCleanInvalidate ini s
  | .cmoDone => Sys2Proof.Machine.execCmoDone s
  | .dmaGo ini ch => Sys2Proof.Machine.execDmaGo ini ch s
  | .dmaAbort ini ch => Sys2Proof.Machine.execDmaAbort ini ch s
  | .dmaDone ch bytes result => Sys2Proof.Machine.execDmaDone ch bytes result s
  | .timeSet ini => Sys2Proof.Machine.execTimeSet ini s
  | .timeStep ini => Sys2Proof.Machine.execTimeStep ini s
  | .timeCompare => Sys2Proof.Machine.execTimeCompare s
  | .tbNowRead ini => Sys2Proof.Machine.execTbNowRead ini s
  | .send ini m bar0 => Sys2Proof.Machine.execSend ini m bar0 s
  | .take ini m bar0 peek => Sys2Proof.Machine.execTake ini m bar0 peek s
  | .mbWithdraw ini m bar0 => Sys2Proof.Machine.execMbWithdraw ini m bar0 s
  | .mbTimeout m => Sys2Proof.Machine.execMbTimeout m s
  | .mailboxAudit m => Sys2Proof.Machine.execMailboxAudit m s
  | .msixUnmask pc fn vec => Sys2Proof.Machine.execMsixUnmask pc fn vec s
  | .newtRequestTake m => Sys2Proof.Machine.execNewtRequestTake m s
  | .diePowerReport n => Sys2Proof.Machine.execDiePowerReport n s
  | .scrubReport n => Sys2Proof.Machine.execScrubReport n s
  | .lockRead ini k peek => Sys2Proof.Machine.execLockRead ini k peek s
  | .lockRelease ini k val => Sys2Proof.Machine.execLockRelease ini k val s
  | .lockForce ini k => Sys2Proof.Machine.execLockForce ini k s
  | .eventArrival v level => Sys2Proof.Machine.execEventArrival v level s
  | .evRouteWrite ini word val => Sys2Proof.Machine.execEvRouteWrite ini word val s
  | .evClaim ini c peek => Sys2Proof.Machine.execEvClaim ini c peek s
  | .evDone ini c v => Sys2Proof.Machine.execEvDone ini c v s
  | .eviToggle die line => Sys2Proof.Machine.execEviToggle die line s
  | .perstAssert pc => Sys2Proof.Machine.execPerstAssert pc s
  | .perstDeassert pc => Sys2Proof.Machine.execPerstDeassert pc s
  | .pcieLinkUp pc width gen flit => Sys2Proof.Machine.execPcieLinkUp pc width gen flit s
  | .pcieLinkDown pc => Sys2Proof.Machine.execPcieLinkDown pc s
  | .msiSend ini pc fn val => Sys2Proof.Machine.execMsiSend ini pc fn val s
  | .doorbell ini pc val => Sys2Proof.Machine.execDoorbell ini pc val s
  | .dropStart die idx => Sys2Proof.Machine.execDropStart die idx s
  | .dropped die idx => Sys2Proof.Machine.execDropped die idx s
  | .dropDenied die idx => Sys2Proof.Machine.execDropDenied die idx s
  | .domainWake die idx => Sys2Proof.Machine.execDomainWake die idx s
  | .woken die idx us => Sys2Proof.Machine.execWoken die idx us s
  | .wakeTimeout die idx => Sys2Proof.Machine.execWakeTimeout die idx s
  | .torporArm ini val => Sys2Proof.Machine.execTorporArm ini val s
  | .torporEntry => Sys2Proof.Machine.execTorporEntry s
  | .torporEntered => Sys2Proof.Machine.execTorporEntered s
  | .rtcAlarm => Sys2Proof.Machine.execRtcAlarm s
  | .rtcHiWrite ini val => Sys2Proof.Machine.execRtcHiWrite ini val s
  | .vccAonLoss => Sys2Proof.Machine.execVccAonLoss s
  | .governorSample temps milliwatts => Sys2Proof.Machine.execGovernorSample temps milliwatts s
  | .revokeTimeout d => Sys2Proof.Machine.execRevokeTimeout d s
  | .budgetAudit => Sys2Proof.Machine.execBudgetAudit s
  | .dsSubmit ini d => Sys2Proof.Machine.execDsSubmit ini d s
  | .descriptorIssue => Sys2Proof.Machine.execDescriptorIssue s
  | .refusalPauseEnd q => Sys2Proof.Machine.execRefusalPauseEnd q s
  | .reserveTimeout q => Sys2Proof.Machine.execReserveTimeout q s
  | .dsDone ini d status => Sys2Proof.Machine.execDsDone ini d status s
  | .dsRel ini d count => Sys2Proof.Machine.execDsRel ini d count s
  | .dsCqPop ini peek => Sys2Proof.Machine.execDsCqPop ini peek s
  | .dsMqPop ini c peek => Sys2Proof.Machine.execDsMqPop ini c peek s
  | .dsPqPop ini n peek => Sys2Proof.Machine.execDsPqPop ini n peek s
  | .attest m bufOk => Sys2Proof.Machine.execAttest m bufOk s
  | .getCert m bufOk => Sys2Proof.Machine.execGetCert m bufOk s
  | .commitVersion m keepOk => Sys2Proof.Machine.execCommitVersion m keepOk s
  | .setCtr m keepOk => Sys2Proof.Machine.execSetCtr m keepOk s
  | .signerAdd m bufOk keepOk => Sys2Proof.Machine.execSignerAdd m bufOk keepOk s
  | .signerRevoke m keepOk => Sys2Proof.Machine.execSignerRevoke m keepOk s
  | .lcAdvance m token bufOk keepOk => Sys2Proof.Machine.execLcAdvance m token bufOk keepOk s
  | .returnNonce m nonce bufOk => Sys2Proof.Machine.execReturnNonce m nonce bufOk s
  | .provision m pub bufOk keepOk => Sys2Proof.Machine.execProvision m pub bufOk keepOk s
  | .certWrite m bufOk keepOk => Sys2Proof.Machine.execCertWrite m bufOk keepOk s
  | .clearStest m keepOk => Sys2Proof.Machine.execClearStest m keepOk s
  | .unknownCommand m => Sys2Proof.Machine.execUnknownCommand m s
  | .testWindowGo ini => Sys2Proof.Machine.execTestWindowGo ini s
  | .errorReport cls die src code info => Sys2Proof.Machine.execErrorReport cls die src code info s
  | .fatalHoldExpiry => Sys2Proof.Machine.execFatalHoldExpiry s
  | .errorDone ini val => Sys2Proof.Machine.execErrorDone ini val s
  | .scrubFrameRead die errs => Sys2Proof.Machine.execScrubFrameRead die errs s
  | .regenDone die reads => Sys2Proof.Machine.execRegenDone die reads s
  | .axEnWrite ini die val => Sys2Proof.Machine.execAxEnWrite ini die val s
  | .scrubHeartbeatMiss die => Sys2Proof.Machine.execScrubHeartbeatMiss die s
  | .bbEntryWrite => Sys2Proof.Machine.execBbEntryWrite s
  | .bbMark ini val => Sys2Proof.Machine.execBbMark ini val s
  | .bbCopy reason ok => Sys2Proof.Machine.execBbCopy reason ok s
  | .bbXferGo ini => Sys2Proof.Machine.execBbXferGo ini s
  | .bbXferDone ok => Sys2Proof.Machine.execBbXferDone ok s
  | .pfwFall => Sys2Proof.Machine.execPfwFall s
  | .pfwRise => Sys2Proof.Machine.execPfwRise s
  | .lastGaspStepDone => Sys2Proof.Machine.execLastGaspStepDone s
  | .captureStopTimeout die net late => Sys2Proof.Machine.execCaptureStopTimeout die net late s
  | .sdArm ini => Sys2Proof.Machine.execSdArm ini s
  | .armDone => Sys2Proof.Machine.execArmDone s
  | .disarm ini => Sys2Proof.Machine.execDisarm ini s
  | .shdn ini => Sys2Proof.Machine.execShdn ini s
  | .shdnReqNLow => Sys2Proof.Machine.execShdnReqNLow s
  | .shutdownSelftestDone ms fail => Sys2Proof.Machine.execShutdownSelftestDone ms fail s
  | .selftestGo ini die val => Sys2Proof.Machine.execSelftestGo ini die val s
  | .selftestDone die fail => Sys2Proof.Machine.execSelftestDone die fail s
  | .testLogicReset => Sys2Proof.Machine.execTestLogicReset s
  | .extest => Sys2Proof.Machine.execExtest s
  | .samplePreload sampled preload => Sys2Proof.Machine.execSamplePreload sampled preload s
  | .idcode => Sys2Proof.Machine.execIdcode s
  | .clamp => Sys2Proof.Machine.execClamp s
  | .highz => Sys2Proof.Machine.execHighz s
  | .bypass ir => Sys2Proof.Machine.execBypass ir s
  | .dbgAcc dr => Sys2Proof.Machine.execDbgAcc dr s
  | .dbgAccDone => Sys2Proof.Machine.execDbgAccDone s
  | .dbgStat dr => Sys2Proof.Machine.execDbgStat dr s
  | .haltReq ini cores => Sys2Proof.Machine.execHaltReq ini cores s
  | .resumeReq ini cores => Sys2Proof.Machine.execResumeReq ini cores s
  | .step ini cores => Sys2Proof.Machine.execStep ini cores s
  | .coreHalt c cause hit regs => Sys2Proof.Machine.execCoreHalt c cause hit regs s
  | .dbRegcmd ini val => Sys2Proof.Machine.execDbRegcmd ini val s
  | .leHalt ini die eng => Sys2Proof.Machine.execLeHalt ini die eng s
  | .leResume ini die eng => Sys2Proof.Machine.execLeResume ini die eng s
  | .leStep ini die eng => Sys2Proof.Machine.execLeStep ini die eng s
  | .traceEntryWrite => Sys2Proof.Machine.execTraceEntryWrite s
  | .watchdogKick ini c val => Sys2Proof.Machine.execWatchdogKick ini c val s
  | .watchdogExpiry c => Sys2Proof.Machine.execWatchdogExpiry c s
  | .sentinelStart ini val => Sys2Proof.Machine.execSentinelStart ini val s
  | .sentinelKick ini val => Sys2Proof.Machine.execSentinelKick ini val s
  | .sentinelBite => Sys2Proof.Machine.execSentinelBite s
  | .brownOut rail => Sys2Proof.Machine.execBrownOut rail s
  | .thermalTrip => Sys2Proof.Machine.execThermalTrip s
  | .ioSafeWrite ini die a j val => Sys2Proof.Machine.execIoSafeWrite ini die a j val s
  | .oscEdgesReturn o => Sys2Proof.Machine.execOscEdgesReturn o s
  | .srcSelChange sel => Sys2Proof.Machine.execSrcSelChange sel s
  | .patternCheckerLockLoss lane => Sys2Proof.Machine.execPatternCheckerLockLoss lane s
  | .synthesiserUnlock lane => Sys2Proof.Machine.execSynthesiserUnlock lane s
  | .txFrameEnd die port => Sys2Proof.Machine.execTxFrameEnd die port s
  | .vccAonValid => Sys2Proof.Machine.execVccAonValid s

end Sys2Proof.Machine
end

