-- ==== Sys2Proof/Machine/Tick.lean ====
section
/-! DEFINITION. What passes with time while no command waits: one cycle of the time-base clock, 1 ns (17_processors.md R451,
18_power.md R490, 07_fabric.md R158; log 1). -/

namespace Sys2Proof.Machine

/-- One CD62 cycle of the time base: 1 ns and TB_RATE × 2⁻³² ns, and CMP where TB_CMP has been reached (R451). -/
def tbTick (s : State) : State :=
  if !s.hub.tbOn || s.pow.torpor then s
  else
    let t := ((s.hub.now * 2 ^ 32 + s.hub.frac + 2 ^ 32 : Nat) : Int) + signed 32 (getF s TB TB_RATE_RATE)
    let n := (t % 2 ^ 96).toNat
    let s : State := { s with hub := { s.hub with now := n / 2 ^ 32, frac := n % 2 ^ 32 } }
    if flag s TB TB_CTRL_CMP_EN && decide (tbCmp s ≤ s.hub.now) then tbFire s else s

/-- 1 ns of the real-time clock of 32,768 Hz; it counts in torpor too. -/
def rtcTick (s : State) : State :=
  if !flag s CU CU_OSC_STAT_RTC_OK then s
  else
    let f := s.pow.rtcFrac + 32768
    if f < 1000000000 then { s with pow := { s.pow with rtcFrac := f } }
    else { s with pow := { s.pow with rtcFrac := f - 1000000000, rtc := (s.pow.rtc + 1) % 2 ^ 48 } }

/-- What is left of pulses after 1 ns. -/
def pulsesLeft (t : Tab Nat) : Tab Nat := t.filterMap fun e => if e.2 ≤ 1 then none else some (e.1, e.2 - 1)

/-- 1 ns of the pulses that are stretched on EVT_OUT. -/
def pulseTick (s : State) : State := { s with hub := { s.hub with evtPulse := pulsesLeft s.hub.evtPulse } }

/-- One nanosecond: the time base and the RTC count, pulses on EVT_OUT run out, every lane that is not OFF sends a symbol, and the fabric takes an edge of
one of its networks; the security core takes a request that waits (19_security.md
R505), and the watchdogs and the sentinel count (22_debug.md R572, R573). -/
def tick (s : State) : State := wdTick (secTake (fabTick (laneTick (pulseTick (rtcTick (tbTick s))))))

end Sys2Proof.Machine
end

