-- ==== Sys2Proof/Machine/Pins.lean ====
section
/-! DEFINITION. What the device's output pins show (23_pins.md R576, R578, R582 to R584, R588; 22_debug.md R559). -/

namespace Sys2Proof.Machine

/-! ### Control and status outputs (R576, R578) -/

/-- A control or status output. -/
inductive CtrlPin where
  | ready
  | failN
  | alarmN
  | shdnDone
  | evtOut (k : Nat)
  deriving DecidableEq, Repr

/-- VCC_AON and VCCIO_CTL are in range, so that the outputs are driven; else the pull-downs hold them low. -/
def ctrlDriven (s : State) : Bool := !s.pin.railsOut.contains 2 && !s.pin.railsOut.contains 7

/-- The start is before S2: ALARM_N is driven high. -/
def beforeS2 (s : State) : Bool :=
  match s.start.phase with
  | .off | .resetHeld | .s0 | .s1 | .s1Hold => true
  | _ => false

/-- The level the rules give an output from S0 on. -/
def ctrlLevel (s : State) (p : CtrlPin) : Bool :=
  match p with
  | .ready => s.start.ready
  | .failN => !s.start.failLow
  | .alarmN => beforeS2 s || alarmN s
  | .shdnDone => s.shut.done
  | .evtOut k => evtOut s k

/-- Cell of the boundary-scan register by a number of its pin: user pins by 48 × bank + pin, outputs from 1,152 on. -/
def ctrlCell (p : CtrlPin) : Nat :=
  match p with
  | .ready => 1152
  | .failN => 1153
  | .alarmN => 1154
  | .shdnDone => 1155
  | .evtOut k => 1156 + k

/-- What the boundary-scan register drives on a pin; none: it leaves the pin undriven (22_debug.md R559; log 115). -/
def scanLevel (s : State) (n : Nat) : Option Bool :=
  if s.dbg.bsr.getD (Config.scanCells n).2 false then some (s.dbg.bsr.getD (Config.scanCells n).1 false) else none

/-- The level of an output's pin: low where nothing drives it. -/
def ctrlOut (s : State) (p : CtrlPin) : Bool :=
  ctrlDriven s && (if tapDrives s then (scanLevel s (ctrlCell p)).getD false else ctrlLevel s p)

/-! ### User pins (R583, R584) -/

/-- What a user pin does: 0 to 3 of PULL and its driver with level, drive in mA and slew, as one of a differential pair or not. -/
inductive PadState where
  /-- tri-state, with pull 0 none, 1 down, 2 up, 3 keeper -/
  | high (pull : Nat)
  /-- driven single-ended -/
  | drive (level : Bool) (ma : Nat) (fast : Bool)
  /-- driven as a half of an LVDS pair -/
  | lvds (level : Bool)
  deriving DecidableEq, Repr

/-- The safe state latched for pin `p` of the die's bank `a` (R584). -/
def safePad (s : State) (die a p : Nat) : PadState :=
  match wGet (tabOr 0 s.pin.latch (latchKey die a (p / 16))) (2 * (p % 16)) 2 with
  | 0 => .high 1
  | 1 => .high 2
  | 2 => .drive false 8 false
  | _ => .drive true 8 false

/-- What the fabric design brings to pin `p` of the die's bank `a`: the output of a multiplexer of the tile it joins. -/
def pinFabric (s : State) (die a p : Nat) : Bool :=
  let k := 256 * die + 48 * a + p
  muxVal s (level s) die (Config.pinColumn k) (Config.pinMux k).1 (Config.pinMux k).2

/-- A released pin as its word of the bank's frame configures it (R583): an LVDS complement shows its partner's opposite. -/
def designPad (s : State) (die a p : Nat) : PadState :=
  let f := cfgSeen s die (0x53940 + 16 * a)
  let fld := fun q i n => frGet f (32 * q + i) n
  if fld p 9 1 = 0 || pinStd f p = 0 then .high (fld p 7 2)
  else if pinStd f p = 6 then .lvds (pinFabric s die a p)
  else if pinStd f p = 7 then .lvds (!pinFabric s die a (p - 1))
  else .drive (pinFabric s die a p) (4 * (fld p 4 2 + 1)) (fld p 6 1 = 1)

/-- What pin `p` of the die's bank `a` does: the test access port first, then its safe state, then the design. -/
def userPad (s : State) (die a p : Nat) : PadState :=
  if tapFloats s then .high 0
  else if tapDrives s then
    match scanLevel s (48 * (firstBank die + a) + p) with
    | some b => .drive b 8 false
    | none => .high 0
  else if pinSafe s die a p then safePad s die a p
  else designPad s die a p

end Sys2Proof.Machine
end

