-- ==== Sys2Proof/WellFormed.lean ====
section
/-! DEFINITION. Well-formed commands: every operand in the range its rule gives it. A command that is not well-formed names
nothing the device has; the meanings leave the state as it is. -/

namespace Sys2Proof

open Machine

/-- An initiator ID of 12_noc.md R302. -/
def iniOk (i : Nat) : Bool := i < 11 || (16 ≤ i && decide (i < 74)) || (128 ≤ i && decide (i < 512))

/-- A packet whose header fields fit (12_noc.md R297). -/
def pktOk (p : Packet) : Bool := p.cmd < 16 && iniOk p.src && decide (p.size ≤ 256) && decide (p.tag < 4096)

/-- An access (12_noc.md R299): its initiator and its bytes. -/
def accOk (a : Access) : Bool :=
  iniOk a.ini && decide (a.kind < 4) && a.use != .fill && a.use != .wback && (a.use == .plain || decide (a.ini < 4))

/-- A loop engine (10_loop_engines.md R234). -/
def engOk (die eng : Nat) : Bool := decide (die < 8) && decide (eng < 288)

/-- An operation of a slot of a loop engine that some word encodes (11_loop_programs.md R272 to R285). -/
def cOk (die eng : Nat) (o : COp) : Bool := engOk die eng && o.wf
@[inherit_doc cOk] def xyOk (die eng : Nat) (o : XOp) : Bool := engOk die eng && o.wf
@[inherit_doc cOk] def mOk (die eng mop : Nat) (f : MFields) : Bool := engOk die eng && ({ mop := mop, f := f } : MOp).wf

/-- The command's operands are in range. -/
def Instr.wf (i : Instr) : Bool :=
  match i with
  | .registerWrite ini _ die blk off _ => iniOk ini && decide (die < 15) && decide (blk < 65536) && decide (off < 4096)
  | .registerReadClear ini _ die blk off _ => iniOk ini && decide (die < 15) && decide (blk < 65536) && decide (off < 4096)
  | .wrongSizeAccess ini die blk off => iniOk ini && decide (die < 15) && decide (blk < 65536) && decide (off < 4096)
  | .blockEnable ini die blk _ frz => iniOk ini && decide (die < 15) && decide (blk < 65536) && decide (frz < 16)
  | .softReset ini die blk => iniOk ini && decide (die < 15) && decide (blk < 65536)
  | .softResetDone die blk => decide (die < 15) && decide (blk < 65536)
  | .commit ini die blk _ => iniOk ini && decide (die < 15) && decide (blk < 65536)
  | .discard ini die blk => iniOk ini && decide (die < 15) && decide (blk < 65536)
  | .commitPoint die blk => decide (die < 15) && decide (blk < 65536)
  | .evtForce ini die blk _ => iniOk ini && decide (die < 15) && decide (blk < 65536)
  | .pgVoteWrite ini die blk _ => iniOk ini && decide (die < 15) && decide (blk < 65536)
  | .pgLockWrite ini die blk _ => iniOk ini && decide (die < 15) && decide (blk < 65536)
  | .pgRetainWrite ini die blk _ => iniOk ini && decide (die < 15) && decide (blk < 65536)
  | .broadcastWrite ini blk off _ => iniOk ini && decide (blk < 65536) && decide (off < 4096)
  | .xoQualified _ _ => true
  | .xoQualTimeout _ => true
  | .rtcQualified _ => true
  | .rtcQualTimeout => true
  | .xoEdgeTimeout _ => true
  | .xoWindowCheck _ _ => true
  | .rtcEdgeTimeout => true
  | .rtcWindowCheck _ => true
  | .pllLocked die pll => decide (die < 15) && decide (pll < 8)
  | .pllRefLost die pll => decide (die < 15) && decide (pll < 8)
  | .fpllRefDeviation die pll => decide (die < 8) && decide (pll < 4)
  | .clockSwitchDone _ => true
  | .switchForced _ => true
  | .cdCfgWrite ini k _ => iniOk ini && decide (k < 64)
  | .xoPrefWrite ini _ => iniOk ini
  | .gateRequest ini k => iniOk ini && decide (k < 64)
  | .gateClosed k => k < 640
  | .gateDenied k => k < 640
  | .gateReopen k => k < 64
  | .cdFreqUpdate k _ _ => k < 64
  | .suppliesValid => true
  | .resetNLow => true
  | .resetNHigh => true
  | .deviceResetInternal => true
  | .srcSelLatch => true
  | .mgmtPathTimeout seam => seam < 18
  | .keepRecordsRead _ _ _ => true
  | .quickSelftestDone _ => true
  | .signatureVerified _ _ _ _ _ _ _ => true
  | .seqWrite => true
  | .seqWait => true
  | .seqWaitTimeout => true
  | .releasePart => true
  | .seqEnd => true
  | .frameArrival stream _ => stream < 17
  | .configCleared => true
  | .sourceTimeout => true
  | .hostPushWrite _ _ => true
  | .holdStartCmd _ => true
  | .memoryClearDone _ => true
  | .journalRestore => true
  | .bootRecordWrite ini _ => iniOk ini
  | .bootRecordDone _ => true
  | .counterWrite ini k _ => iniOk ini && decide (k < 16)
  | .xferGo ini _ => iniOk ini
  | .xferDone units _ _ => units ≤ 327680
  | .journalWindowEnd die blk => decide (die < 15) && decide (blk < 65536)
  | .journalCommit => true
  | .userAreaWrite _ _ => true
  | .userUnitProgram _ _ => true
  | .contentionDetected die _ bit => decide (die < 8) && decide (bit < 2048)
  | .networkEnableWrite ini die reg _ => iniOk ini && decide (die < 8) && decide (reg < 3)
  | .xgTrained die side g => decide (die < 8) && decide (side < 2) && decide (g < 64)
  | .xgTrainTimeout die side g => decide (die < 8) && decide (side < 2) && decide (g < 64)
  | .captureGo ini die _ => iniOk ini && decide (die < 8)
  | .capTrig die => die < 8
  | .haltTrigger die => die < 8
  | .captureEdge die net => decide (die < 8) && decide (net < 96)
  | .captureAbandon die net => decide (die < 8) && decide (net < 96)
  | .readbackGo ini die => iniOk ini && decide (die < 8)
  | .readbackDone die frames _ _ => decide (die < 8) && decide (frames < 524288)
  | .evoToggle die i => decide (die < 8) && decide (i < 16)
  | .bankAccess die mem _ _ _ _ _ _ _ => decide (die < 8) && decide (mem < 2048)
  | .fifoPush die mem _ _ => decide (die < 8) && decide (mem < 2048)
  | .fifoPop die mem => decide (die < 8) && decide (mem < 2048)
  | .tokenGive die mem => decide (die < 8) && decide (mem < 2048)
  | .tokenTake die mem _ => decide (die < 8) && decide (mem < 2048)
  | .cascadeForward die mem => decide (die < 8) && decide (mem < 2048)
  | .queueViewSync die mem _ _ => decide (die < 8) && decide (mem < 2048)
  | .queueAudit die mem _ => decide (die < 8) && decide (mem < 2048)
  | .dmFabricRequest die mem _ _ _ _ => decide (die < 8) && decide (mem < 32)
  | .dmFabricResponse die mem => decide (die < 8) && decide (mem < 32)
  | .dmNocAccess die mem _ off _ _ => decide (die < 8) && decide (mem < 32) && decide (off < 1048576)
  | .dmNocPush die mem off _ => decide (die < 8) && decide (mem < 32) && decide (off < 1048576)
  | .dmNocPop die mem off _ _ => decide (die < 8) && decide (mem < 32) && decide (off < 1048576)
  | .dmWriteback die mem => decide (die < 8) && decide (mem < 32)
  | .dmPatrolRead die mem => decide (die < 8) && decide (mem < 32)
  | .fence ini die part => iniOk ini && decide (die < 8) && decide (part < 64)
  | .unfence ini die part => iniOk ini && decide (die < 8) && decide (part < 64)
  | .hold ini die part => iniOk ini && decide (die < 8) && decide (part < 64)
  | .release ini die part => iniOk ini && decide (die < 8) && decide (part < 64)
  | .reload ini die part => iniOk ini && decide (die < 8) && decide (part < 64)
  | .releaseComplete die part => decide (die < 8) && decide (part < 64)
  | .icpWord die _ _ => die < 8
  | .icpAbort die => die < 8
  | .icpDataTimeout die => die < 8
  | .icpHeaderChecked die _ _ _ _ => die < 8
  | .icpGroupWrite die => die < 8
  | .reloadGroup die _ => die < 8
  | .setGateRequest die set => decide (die < 8) && decide (set < 4)
  | .leMdataWrite ini die eng _ => iniOk ini && engOk die eng
  | .leMdataRead ini die eng => iniOk ini && engOk die eng
  | .leStart ini die eng vec => iniOk ini && engOk die eng && decide (vec < 8)
  | .leAbort ini die eng => iniOk ini && engOk die eng
  | .leClear ini die eng => iniOk ini && engOk die eng
  | .fabricStart die eng vec _ => engOk die eng && decide (vec < 8)
  | .startDequeue die eng => engOk die eng
  | .runComplete die eng => engOk die eng
  | .stallTimeout die eng => engOk die eng
  | .cNop die eng => cOk die eng .nop
  | .endOp die eng => cOk die eng .end_
  | .trap die eng => cOk die eng .trap
  | .br die eng t => cOk die eng (.br 0 t)
  | .bz die eng t => cOk die eng (.br 1 t)
  | .bnz die eng t => cOk die eng (.br 2 t)
  | .bn die eng t => cOk die eng (.br 3 t)
  | .bnn die eng t => cOk die eng (.br 4 t)
  | .bsl die eng t => cOk die eng (.br 5 t)
  | .call die eng t => cOk die eng (.call t)
  | .ret die eng => cOk die eng .ret
  | .lexit die eng t => cOk die eng (.lexit t)
  | .loopd die eng r len => cOk die eng (.loopd r len)
  | .loopi die eng len n => cOk die eng (.loopi len n)
  | .movto die eng reg r => cOk die eng (.movto reg r)
  | .movfrom die eng reg r => cOk die eng (.movfrom reg r)
  | .setr die eng reg imm => cOk die eng (.setr reg imm)
  | .ngo die eng k => cOk die eng (.ngo k)
  | .nwait die eng mask => cOk die eng (.nwait mask)
  | .clrf die eng mask => cOk die eng (.clrf mask)
  | .xyNop die eng _ => engOk die eng
  | .pop die eng _ port g => xyOk die eng (.pop port g)
  | .push die eng _ port g last => xyOk die eng (.push port g last)
  | .ld die eng _ i am r q => xyOk die eng (.ld i am r q)
  | .st die eng _ i am r q => xyOk die eng (.st i am r q)
  | .pmod die eng _ i am => xyOk die eng (.pmod i am)
  | .mNop die eng => engOk die eng
  | .mul die eng f => mOk die eng 1 f
  | .mac die eng f => mOk die eng 2 f
  | .msu die eng f => mOk die eng 3 f
  | .clr die eng f => mOk die eng 4 f
  | .lda die eng f => mOk die eng 5 f
  | .ada die eng f => mOk die eng 6 f
  | .sba die eng f => mOk die eng 7 f
  | .aadd die eng f => mOk die eng 8 f
  | .asub die eng f => mOk die eng 9 f
  | .acpy die eng f => mOk die eng 10 f
  | .aneg die eng f => mOk die eng 11 f
  | .amin die eng f => mOk die eng 12 f
  | .amax die eng f => mOk die eng 13 f
  | .ext die eng f => mOk die eng 14 f
  | .smax die eng f => mOk die eng 15 f
  | .smin die eng f => mOk die eng 16 f
  | .rmax die eng f => mOk die eng 17 f
  | .rmin die eng f => mOk die eng 18 f
  | .streamBeatIn die eng port _ _ => engOk die eng && decide (port < 2)
  | .streamBeatOut die eng port => engOk die eng && decide (port < 2)
  | .nocDescriptorDone die eng k => engOk die eng && decide (k < 4)
  | .directOp die eng _ _ op _ => engOk die eng && decide (op < 8)
  | .breakpointHit die eng => engOk die eng
  | .dataWatchHit die eng => engOk die eng
  | .rd p => pktOk p
  | .wr p => pktOk p
  | .pwr p => pktOk p
  | .strm p => pktOk p
  | .rsp p _ => pktOk p
  | .crd p => pktOk p
  | .cfg p => pktOk p
  | .mgmt p => pktOk p
  | .mrsp p => pktOk p
  | .accessInject a => accOk a
  | .headArrival node port p flaw => decide (node < 3840) && decide (port < 8) && pktOk p && decide (flaw < 4)
  | .urgencyAge node => node < 3840
  | .linkAudit node port lane _ _ _ => decide (node < 3840) && decide (port < 8) && decide (lane < 5)
  | .pairAudit ini target => iniOk ini && decide (target < 3840)
  | .routeCheck ini => iniOk ini
  | .routeInstall ini => iniOk ini
  | .drain node => node < 3840
  | .drainComplete node => node < 3840
  | .drainTimeout node => node < 3840
  | .quenchWrite ini k _ => iniOk ini && decide (k < 32)
  | .bridgeIsolate ini node _ => iniOk ini && decide (node < 3840)
  | .statClr ini node => iniOk ini && decide (node < 3840)
  | .targetTimeout node => node < 3840
  | .responseTimeout ini tag => iniOk ini && decide (tag < 4096)
  | .rqBeat die port _ => decide (die < 8) && decide (port < 48)
  | .rsBeat die port => decide (die < 8) && decide (port < 48)
  | .tqBeat die port => decide (die < 8) && decide (port < 48)
  | .trBeat die port _ => decide (die < 8) && decide (port < 48)
  | .seamData die seam link ch _ _ _ flaw => decide (die < 15) && decide (seam < 18) && decide (link < 6) && decide (ch < 5) && decide (flaw < 4)
  | .seamAck die seam _ _ => decide (die < 15) && decide (seam < 18)
  | .seamScred die seam counters _ => decide (die < 15) && decide (seam < 18) && decide (counters.length ≤ 30)
  | .seamHcred die seam counters _ => decide (die < 15) && decide (seam < 18) && decide (counters.length ≤ 30)
  | .seamTrain die seam fromDie seamNo _ _ _ _ => decide (die < 15) && decide (seam < 18) && decide (fromDie < 15) && decide (seamNo < 18)
  | .seamWidth die seam _ _ _ => decide (die < 15) && decide (seam < 18)
  | .seamIdle die seam _ => decide (die < 15) && decide (seam < 18)
  | .counterFrameDue die seam kind => decide (die < 15) && decide (seam < 18) && (decide (2 ≤ kind) && decide (kind ≤ 4))
  | .replayTimeout die seam link => decide (die < 15) && decide (seam < 18) && decide (link < 6)
  | .seamCrcSilence die seam => decide (die < 15) && decide (seam < 18)
  | .seamTrainStepDone die seam => decide (die < 15) && decide (seam < 18)
  | .seamTrainFail die seam => decide (die < 15) && decide (seam < 18)
  | .creditConditionsMet die seam _ => decide (die < 15) && decide (seam < 18)
  | .retrain ini die seam => iniOk ini && decide (die < 15) && decide (seam < 18)
  | .vcEnWrite ini die seam _ => iniOk ini && decide (die < 15) && decide (seam < 18)
  | .widthReqWrite ini die seam _ => iniOk ini && decide (die < 15) && decide (seam < 18)
  | .widthStepTimeout die seam => decide (die < 15) && decide (seam < 18)
  | .seamCreditAudit die seam link ch => decide (die < 15) && decide (seam < 18) && decide (link < 6) && decide (ch < 5)
  | .dieIsolateWrite ini die => iniOk ini && (decide (die < 15) && die != 8)
  | .heartbeatTimeout die => (decide (die < 15) && die != 8)
  | .seamsDownTimeout die => (decide (die < 15) && die != 8)
  | .dieResetRequest die => (decide (die < 15) && die != 8)
  | .rejoin ini die => iniOk ini && (decide (die < 15) && die != 8)
  | .autoRejoin die => (decide (die < 15) && die != 8)
  | .rejoinStepDone die _ => (decide (die < 15) && die != 8)
  | .synthLocked lane => lane < 128
  | .signalDetect lane => lane < 128
  | .signalLoss lane _ => lane < 128
  | .lfmWindow lane _ _ _ _ => lane < 128
  | .seedRejectTimeout lane => lane < 128
  | .bundleTrainTimeout die k => isLane die && decide (k < 16)
  | .pcsAligned die k _ _ _ => isLane die && decide (k < 16)
  | .alignmentLoss die k => isLane die && decide (k < 16)
  | .bundleEnWrite ini die k _ => iniOk ini && isLane die && decide (k < 16)
  | .bundleRetrain ini die k => iniOk ini && isLane die && decide (k < 16)
  | .bundleIdleWrite ini die k _ => iniOk ini && isLane die && decide (k < 16)
  | .idleReturnCheck die k => isLane die && decide (k < 16)
  | .seedSave ini lane => iniOk ini && decide (lane < 128)
  | .seedClr ini lane => iniOk ini && decide (lane < 128)
  | .checkerLock lane => lane < 128
  | .checkerClear ini lane => iniOk ini && decide (lane < 128)
  | .injGo ini lane => iniOk ini && decide (lane < 128)
  | .rxFrame die port _ _ _ _ => isLane die && decide (port < 16)
  | .txFrameStart die port queue => isLane die && decide (port < 16) && decide (queue < 8)
  | .seqRecovery die _ => isLane die
  | .streamPacketTimeout die _ => isLane die
  | .meterSweep die ctx => isLane die && decide (ctx < 65536)
  | .cbResetTimeout die ctx => isLane die && decide (ctx < 65536)
  | .gateEntryAdvance die port => isLane die && decide (port < 16)
  | .gclSwitch die port => isLane die && decide (port < 16)
  | .tokenAudit die => isLane die
  | .lookup ini die => iniOk ini && isLane die
  | .insert ini die ctx => iniOk ini && isLane die && decide (ctx < 65536)
  | .delete ini die => iniOk ini && isLane die
  | .tblRead ini die table index => iniOk ini && isLane die && decide (table < 10) && decide (index < 262144)
  | .tblWrite ini die table index => iniOk ini && isLane die && decide (table < 10) && decide (index < 262144)
  | .writeCfg ini die table index => iniOk ini && isLane die && decide (table < 10) && decide (index < 262144)
  | .zero ini die table index => iniOk ini && isLane die && decide (table < 10) && decide (index < 262144)
  | .admitCtx ini die ctx => iniOk ini && isLane die && decide (ctx < 65536)
  | .withdraw ini die ctx => iniOk ini && isLane die && decide (ctx < 65536)
  | .trunkReserve ini die i => iniOk ini && isLane die && decide (i < 16)
  | .trunkRelease ini die i => iniOk ini && isLane die && decide (i < 16)
  | .injHeadWrite ini die _ => iniOk ini && isLane die
  | .injectSlot die => isLane die
  | .txtsPop ini die port _ => iniOk ini && isLane die && decide (port < 16)
  | .ddrEnable ini ch => iniOk ini && decide (ch < 4)
  | .spdReadDone ch _ _ _ => ch < 4
  | .ddrTrainDone ch _ _ => ch < 4
  | .ddrDisable ini ch => iniOk ini && decide (ch < 4)
  | .ilvWrite ini ilv => iniOk ini && decide (ilv < 4)
  | .ddrRead ch line ini _ _ _ => decide (ch < 4) && decide (line < 2147483648) && iniOk ini
  | .lateTagCheck ch => ch < 4
  | .ddrWrite ch line off ini _ _ _ _ _ => decide (ch < 4) && decide (line < 2147483648) && decide (off < 64) && iniOk ini
  | .ddrWriteback ch line => decide (ch < 4) && decide (line < 2147483648)
  | .ddrPatrolRead ch _ _ _ => ch < 4
  | .rangeEnable ini ch range => iniOk ini && decide (ch < 4) && decide (range < 16)
  | .rangeInitDone ch range => decide (ch < 4) && decide (range < 16)
  | .rangeDisable ini ch range => iniOk ini && decide (ch < 4) && decide (range < 16)
  | .keyDataWrite ini ch _ => iniOk ini && decide (ch < 4)
  | .mcRelease ini ch id => iniOk ini && decide (ch < 4) && decide (id < 1024)
  | .hartEnWrite ini en => iniOk ini && decide (en < 16)
  | .cmoClean ini => iniOk ini
  | .cmoInvalidate ini => iniOk ini
  | .cmoCleanInvalidate ini => iniOk ini
  | .cmoDone => true
  | .dmaGo ini ch => iniOk ini && decide (ch < 8)
  | .dmaAbort ini ch => iniOk ini && decide (ch < 8)
  | .dmaDone ch _ _ => ch < 8
  | .timeSet ini => iniOk ini
  | .timeStep ini => iniOk ini
  | .timeCompare => true
  | .tbNowRead ini => iniOk ini
  | .send ini m _ => iniOk ini && decide (m < 96)
  | .take ini m _ _ => iniOk ini && decide (m < 96)
  | .mbWithdraw ini m _ => iniOk ini && decide (m < 96)
  | .mbTimeout m => m < 96
  | .mailboxAudit m => m < 96
  | .msixUnmask pc fn vec => decide (pc < 2) && decide (fn < 2) && decide (vec < 16)
  | .newtRequestTake m => (decide (48 ≤ m) && decide (m < 64))
  | .diePowerReport n => n < 8
  | .scrubReport n => n < 8
  | .lockRead ini k _ => iniOk ini && decide (k < 256)
  | .lockRelease ini k _ => iniOk ini && decide (k < 256)
  | .lockForce ini k => iniOk ini && decide (k < 256)
  | .eventArrival v _ => v < 640
  | .evRouteWrite ini word _ => iniOk ini && decide (word < 2)
  | .evClaim ini c _ => iniOk ini && decide (c < 4)
  | .evDone ini c v => iniOk ini && decide (c < 4) && decide (v < 640)
  | .eviToggle die line => decide (die < 8) && decide (line < 64)
  | .perstAssert pc => pc < 2
  | .perstDeassert pc => pc < 2
  | .pcieLinkUp pc _ _ _ => pc < 2
  | .pcieLinkDown pc => pc < 2
  | .msiSend ini pc fn _ => iniOk ini && decide (pc < 2) && decide (fn < 2)
  | .doorbell ini pc _ => iniOk ini && decide (pc < 2)
  | .dropStart die idx => decide (die < 15) && decide (idx < 24)
  | .dropped die idx => decide (die < 15) && decide (idx < 24)
  | .dropDenied die idx => decide (die < 15) && decide (idx < 24)
  | .domainWake die idx => decide (die < 15) && decide (idx < 24)
  | .woken die idx _ => decide (die < 15) && decide (idx < 24)
  | .wakeTimeout die idx => decide (die < 15) && decide (idx < 24)
  | .torporArm ini _ => iniOk ini
  | .torporEntry => true
  | .torporEntered => true
  | .rtcAlarm => true
  | .rtcHiWrite ini _ => iniOk ini
  | .vccAonLoss => true
  | .governorSample _ _ => true
  | .revokeTimeout d => d < 4096
  | .budgetAudit => true
  | .dsSubmit ini d => iniOk ini && decide (d < 4096)
  | .descriptorIssue => true
  | .refusalPauseEnd q => q < 8
  | .reserveTimeout q => q < 8
  | .dsDone ini d status => iniOk ini && decide (d < 4096) && decide (status < 4)
  | .dsRel ini d _ => iniOk ini && decide (d < 4096)
  | .dsCqPop ini _ => iniOk ini
  | .dsMqPop ini c _ => iniOk ini && decide (c < 4)
  | .dsPqPop ini n _ => iniOk ini && decide (n < 8)
  | .attest m _ => (decide (40 ≤ m) && decide (m < 48) || decide (m = 127))
  | .getCert m _ => (decide (40 ≤ m) && decide (m < 48) || decide (m = 127))
  | .commitVersion m _ => (decide (40 ≤ m) && decide (m < 48) || decide (m = 127))
  | .setCtr m _ => (decide (40 ≤ m) && decide (m < 48) || decide (m = 127))
  | .signerAdd m _ _ => (decide (40 ≤ m) && decide (m < 48) || decide (m = 127))
  | .signerRevoke m _ => (decide (40 ≤ m) && decide (m < 48) || decide (m = 127))
  | .lcAdvance m _ _ _ => (decide (40 ≤ m) && decide (m < 48) || decide (m = 127))
  | .returnNonce m _ _ => (decide (40 ≤ m) && decide (m < 48) || decide (m = 127))
  | .provision m _ _ _ => (decide (40 ≤ m) && decide (m < 48) || decide (m = 127))
  | .certWrite m _ _ => (decide (40 ≤ m) && decide (m < 48) || decide (m = 127))
  | .clearStest m _ => (decide (40 ≤ m) && decide (m < 48) || decide (m = 127))
  | .unknownCommand m => (decide (40 ≤ m) && decide (m < 48) || decide (m = 127))
  | .testWindowGo ini => iniOk ini
  | .errorReport cls die _ _ _ => decide (cls < 4) && decide (die < 15)
  | .fatalHoldExpiry => true
  | .errorDone ini _ => iniOk ini
  | .scrubFrameRead die _ => die < 8
  | .regenDone die _ => die < 8
  | .axEnWrite ini die _ => iniOk ini && decide (die < 8)
  | .scrubHeartbeatMiss die => die < 8
  | .bbEntryWrite => true
  | .bbMark ini _ => iniOk ini
  | .bbCopy reason _ => (decide (1 ≤ reason) && decide (reason ≤ 5))
  | .bbXferGo ini => iniOk ini
  | .bbXferDone _ => true
  | .pfwFall => true
  | .pfwRise => true
  | .lastGaspStepDone => true
  | .captureStopTimeout die net _ => decide (die < 8) && decide (net < 96)
  | .sdArm ini => iniOk ini
  | .armDone => true
  | .disarm ini => iniOk ini
  | .shdn ini => iniOk ini
  | .shdnReqNLow => true
  | .shutdownSelftestDone _ _ => true
  | .selftestGo ini die _ => iniOk ini && decide (die < 15)
  | .selftestDone die _ => die < 15
  | .testLogicReset => true
  | .extest => true
  | .samplePreload _ _ => true
  | .idcode => true
  | .clamp => true
  | .highz => true
  | .bypass ir => ir < 256
  | .dbgAcc _ => true
  | .dbgAccDone => true
  | .dbgStat _ => true
  | .haltReq ini cores => iniOk ini && decide (cores < 16)
  | .resumeReq ini cores => iniOk ini && decide (cores < 16)
  | .step ini cores => iniOk ini && decide (cores < 16)
  | .coreHalt c _ _ _ => c < 4
  | .dbRegcmd ini _ => iniOk ini
  | .leHalt ini die eng => iniOk ini && engOk die eng
  | .leResume ini die eng => iniOk ini && engOk die eng
  | .leStep ini die eng => iniOk ini && engOk die eng
  | .traceEntryWrite => true
  | .watchdogKick ini c _ => iniOk ini && decide (c < 4)
  | .watchdogExpiry c => c < 4
  | .sentinelStart ini _ => iniOk ini
  | .sentinelKick ini _ => iniOk ini
  | .sentinelBite => true
  | .brownOut rail => rail ≤ 8
  | .thermalTrip => true
  | .ioSafeWrite ini die a i _ => iniOk ini && decide (die < 15) && decide (a < 4) && decide (i < 3)
  | .oscEdgesReturn _ => true
  | .srcSelChange sel => sel < 4
  | .patternCheckerLockLoss lane => lane < 128
  | .synthesiserUnlock lane => lane < 128
  | .txFrameEnd die port => isLane die && decide (port < 16)
  | .vccAonValid => true

end Sys2Proof
end

