-- ==== Sys2Proof/Safety.lean ====
section
/-! DEFINITION. What counts as a safe step, and the terms in which claims speak of accesses to registers and of running
engines. -/

namespace Sys2Proof

open Machine

/-- A step has gone on: it ended in a next state, not in a fault or a refusal. -/
def goesOn (o : Host.Outcome State Fault Refusal) : Prop :=
  match o with
  | .next _ => True
  | .fault _ => False
  | .refused _ => False

/-- Every command waiting is well-formed. -/
def queueWf (s : State) : Bool := s.pending.all Instr.wf

/-- The byte memory of hub SRAM and the register store are in canonical form. -/
def storesWf (s : State) : Bool := memWf s.hub.sram && tabSorted s.pg.regs

/-! ### Accesses to registers -/

/-- The state in which an access at offset `off` of block `blk` of `die` reaches the register: a gated clock has re-opened and
a power-down in progress has ended (03_clocks.md R83, 18_power.md R477). -/
def reach (s : State) (die blk off : Nat) (wr : Bool) : State :=
  match pageOf die blk with
  | none => s
  | some p =>
    if needsBlock off wr then clockTouch (pageTouch s p die blk) p die blk else s

/-- An access of an assigned initiator that is not quenched reaches a page that exists, its register target joined and not in
autotomy, and does not stall (01_package.md R29 to R31, 02_register_pages.md R37 and R45, 03_clocks.md R80, 12_noc.md R305 and
R317). -/
def reaches (s : State) (ini die blk off : Nat) (wr : Bool) : Bool :=
  iniAssigned ini && busUp s && !quenched s ini && !regNoReach s ini die blk off && decide (die < 15) && decide (off < 4096) &&
    match pageOf die blk with
    | none => false
    | some p =>
      !regCut s die &&
        match arrive s ini p die blk off wr with
        | .stalls _ => false
        | .served _ => true

/-- A write that reaches its page and passes every check of 02_register_pages.md R39. -/
def writeOk (s : State) (ini : Nat) (bar0 : Bool) (die blk off : Nat) (w : Word) : Bool :=
  reaches s ini die blk off true &&
    match pageOf die blk with
    | none => false
    | some p => (writeFault (reach s die blk off true) ini bar0 p die blk off w).isNone

/-- The state after the fields of an accepted write stand, before what the write does besides. -/
def stored (s : State) (die blk off : Nat) (w : Word) : State :=
  match pageOf die blk with
  | none => s
  | some p => writeStore (reach s die blk off true) p die blk off w

/-- `writeOk` at a register offset of register space. -/
def writeOkAt (s : State) (ini a : Nat) (w : Word) : Bool := writeOk s ini false (regDie a) (regBlk a) (regOff a) w

/-- `stored` at a register offset of register space. -/
def storedAt (s : State) (a : Nat) (w : Word) : State := stored s (regDie a) (regBlk a) (regOff a) w

/-- `reach` for a write at a register offset of register space. -/
def reachAt (s : State) (a : Nat) : State := reach s (regDie a) (regBlk a) (regOff a) true

/-- A read at a register offset of register space that reaches its page and passes its checks. -/
def readOkAt (s : State) (ini : Nat) (bar0 peek : Bool) (a : Nat) : Bool :=
  reaches s ini (regDie a) (regBlk a) (regOff a) false &&
    match pageOf (regDie a) (regBlk a) with
    | none => false
    | some p => (readFault (reach s (regDie a) (regBlk a) (regOff a) false) ini bar0 peek p (regDie a) (regBlk a) (regOff a)).isNone

/-! ### Instructions of loop engines -/

/-- The state once engine `e` has fetched the word at its PC: a corrected word counts, unless the engine already waits on
it (10_loop_engines.md R267). -/
def leFetched (s : State) (die e : Nat) : State :=
  let x := engOf s die e
  if (eccRead (imemWord x x.pc.toNat)).2 = 1 && x.stall = 0 then
    evtPulse (countUp s (lePage die e) LE_ERR_SBE 1) (lePage die e) 3
  else s

/-- Engine `e` runs, and the word at its PC is instruction `i`. -/
def atInstr (s : State) (die e : Nat) (i : LeInstr) : Bool :=
  let x := engOf s die e
  x.mode = .run && x.ending.isNone && !x.watchHit && !gateShut s (16 + die) && !bpHere s (lePage die e) x &&
    (eccRead (imemWord x x.pc.toNat)).2 != 2 && decWord (eccRead (imemWord x x.pc.toNat)).1 = some i

/-- Instruction `i` at PC issues: it raises no exception, waits for nothing and reads no word that fails its parity
(11_loop_programs.md R288). -/
def issues (s : State) (die e : Nat) (i : LeInstr) : Bool :=
  let u := leFetched s die e
  atInstr s die e i && leIssueExc u die e (engOf u die e) i = 0 && leStall (engOf u die e) i = 0 &&
    leParity (engOf u die e) i = 0

/-- The state after instruction `i` has issued: every slot has taken effect on the engine, the issue counter has counted, a
data watch is noted, a step halts, and NGO has started its descriptor. -/
def issued (s : State) (die e : Nat) (i : LeInstr) : State :=
  let u := leFetched s die e
  let x0 := engOf u die e
  let x := leHazards x0 (leEffect (leMd u (lePage die e)) x0 i) i
  let hit := dbgActs u (lePage die e) x0 && (watchMatch u (lePage die e) x0 x i.x || watchMatch u (lePage die e) x0 x i.y)
  let y := { x with watchHit := hit, mode := if x0.stepping && i.c != .end_ then .halt else x.mode, stepping := false }
  let t := countWrap (setEng u die e y) (lePage die e) LE_ISSUE_COUNT
  match cGo x0 i.c with
  | some (k, _) => descGo t die e k true
  | none => t

end Sys2Proof
end

