-- ==== Sys2Proof/Certificates/Slice0/Obligations.lean ====
section
/-! DEFINITION. The statements for the provers. -/

section

open Sys2Proof Sys2Proof.Machine

/-- A step runs the command at the front of the queue (INDEX.md). -/
def Obligations.StepTakesFront : Prop :=
  ∀ (s : State) (c : Instr) (rest : List Instr), s.pending = c :: rest →
    step s = exec c { s with pending := rest } ∧ ∀ nbits w, decodeTableWord nbits w = none ∧ s.withFetchWord nbits w = s

/-- Every command ends in a next state (01_package.md, 02_register_pages.md). -/
def Obligations.NoCommandStops : Prop :=
  ∀ (c : Instr) (s : State), goesOn (exec c s)

/-- A step on an empty queue lets one nanosecond pass on the clocks, one symbol on the lanes and one edge in the fabric (17_processors.md, 18_power.md, 19_security.md, 22_debug.md). -/
def Obligations.IdleStepCountsTime : Prop :=
  ∀ (s t : State), s.pending = [] → t = pulseTick (rtcTick (tbTick s)) → step s = .next (wdTick (secTake (fabTick (laneTick t)))) ∧
    (∀ u : State, (∀ d, d < 8 → cfgGet u d 0x53900 = 0) → fabTick u = u) ∧
    (∀ u : State, (∀ e ∈ u.lane.lanes, e.2.on = false) → laneTick u = u) ∧
    (∀ u : State, u.sec.run.isSome = true ∨ reqFirst u = none → secTake u = u) ∧
    (∀ u : State, (∀ c, c < 4 → wdRuns u c = false) → sentRuns u = false → wdTick u = u) ∧
    (∀ (l : Tab Nat) (k n : Nat), (k, n) ∈ pulsesLeft l ↔ n ≠ 0 ∧ (k, n + 1) ∈ l) ∧
    (flag s TB TB_CTRL_CMP_EN = false →
      (s.hub.tbOn = true → s.pow.torpor = false → getF s TB TB_RATE_RATE = 0 → s.hub.now + 1 < 2 ^ 64 → s.hub.frac < 2 ^ 32 →
        t.hub = { s.hub with now := s.hub.now + 1, evtPulse := pulsesLeft s.hub.evtPulse }) ∧
      (s.hub.tbOn = false ∨ s.pow.torpor = true → t.hub = { s.hub with evtPulse := pulsesLeft s.hub.evtPulse }) ∧
      (flag s CU CU_OSC_STAT_RTC_OK = true → s.pow.rtc + 1 < 2 ^ 48 →
        t.pow.rtc * 1000000000 + t.pow.rtcFrac = s.pow.rtc * 1000000000 + s.pow.rtcFrac + 32768) ∧
      (flag s CU CU_OSC_STAT_RTC_OK = false → t.pow = s.pow) ∧
      t = { s with hub := t.hub, pow := { s.pow with rtc := t.pow.rtc, rtcFrac := t.pow.rtcFrac } })

/-- Reset: the values the register tables give, page by page (02_register_pages.md, 04_start.md, 10_loop_engines.md, 13_seams.md, 14_lanes.md, 16_external_memory.md, 17_processors.md). -/
def Obligations.ResetRegisterValues : Prop :=
  State.reset.start.phase = .s0 ∧ State.reset.pending = [] ∧ State.reset.hub.now = 0 ∧ State.reset.hub.tbOn = false ∧
  (∀ m < 96, mboxOf State.reset m = { } ∧ wGet (getReg State.reset (mbWord m 12 - 4)) 30 2 = (if m < 64 then 2 else 1) ∧
    wGet (getReg State.reset (mbWord m 12 - 4)) 14 2 = (if m < 40 then 0 else if m < 64 then 1 else 3) ∧
    wGet (getReg State.reset (mbWord m 12)) 0 20 = 1000) ∧
  (∀ k, lockOf State.reset k = none) ∧ (∀ d < 15, isolated State.reset d = false) ∧
  (∀ lane < 128, getF State.reset (laneQuad lane) (lf LQ_STAT_STATE lane) = 0) ∧
  (∀ ch < 4, getF State.reset (mcPage ch) MC_STAT_STATE = 0) ∧
  (∀ die e, (engOf State.reset die e).mode = .off) ∧
  ∀ die blk p, die < 15 → pageOf die blk = some p → ∀ f ∈ [PG_FAULT_VALID, PG_FAULT_CODE, PG_FAULT_CNT_COUNT,
    PG_EVT_RAW_RAW, PG_EVT_EN_EN, PG_EVT_PEND_PEND], getF State.reset (pg die blk) f = 0

/-- A page fault counts, saturating, and latches the first code; nothing else changes (R47, R39). -/
def Obligations.FaultRegistersLatch : Prop :=
  (∀ (s : State) (page code : Nat), code < 65536 →
    getF (pageFault s page code) page PG_FAULT_CNT_COUNT = min (getF s page PG_FAULT_CNT_COUNT + 1) 65535 ∧
    getF (pageFault s page code) page PG_FAULT_VALID = 1 ∧
    (getF s page PG_FAULT_VALID = 0 → getF (pageFault s page code) page PG_FAULT_CODE = code) ∧
    (getF s page PG_FAULT_VALID = 1 → getF (pageFault s page code) page PG_FAULT_CODE = getF s page PG_FAULT_CODE) ∧
    (∀ a, a ≠ page + 0x020 → a ≠ page + 0x024 → getReg (pageFault s page code) a = getReg s a) ∧
    pageFault s page code = { s with pg := { s.pg with regs := (pageFault s page code).pg.regs } }) ∧
  ∀ (s : State) (ini die blk off code : Nat) (bar0 : Bool) (w : Word) (p : Page), pageOf die blk = some p → p ≠ .fs →
    reaches s ini die blk off true = true → writeFault (reach s die blk off true) ini bar0 p die blk off w = some code →
    exec (.registerWrite ini bar0 die blk off w) s = .next
      (regAnswer (pageFault (reach s die blk off true) (pg die blk) code) ini (pg die blk + off) true 4 0)

/-- POP registers: VALID at bit 31, and a read of an empty queue (R41). -/
def Obligations.PopReadsEmpty : Prop :=
  (∀ f ∈ [FE_TXTS_VALID, MB_TAKE_VALID, EV_CLAIM_VALID, DS_CQ_VALID, DS_MQ_VALID, DS_PQ_VALID], f.lsb = 31 ∧ f.wid = 1) ∧
  (∀ (s : State) (ini die blk : Nat) (peek : Bool),
    (s.pow.cq = [] → specialRead s ini peek .ds die blk DS_CQ_VALID.off = some (s, 0)) ∧
    (∀ c < 4, tabOr [] s.pow.mq c = [] → specialRead s ini peek .ds die blk (DS_MQ_VALID.nth c).off = some (s, 0)) ∧
    (∀ n < 8, tabOr [] s.pow.pq n = [] → specialRead s ini peek .ds die blk (DS_PQ_VALID.nth n).off = some (s, 0)) ∧
    (tabOr [] (sliceOf s die).txts (blk % 4096 - 256) = [] → specialRead s ini peek .fe die blk FE_TXTS_VALID.off = some (s, 0)) ∧
    (∀ c < 4, claimSource s c = none → specialRead s ini peek .ev die blk (EV_CLAIM_VALID.nth c).off = some (s, 0)) ∧
    ∀ i < 8, ∀ m, mbAt die blk (MB_TAKE_VALID.nth i).off = some m → (mboxOf s m).full = false →
      specialRead s ini peek .mb die blk (MB_TAKE_VALID.nth i).off = some (s, 0) ∧
      specialRead s ini peek .mbh die blk (MB_TAKE_VALID.nth i).off = some (s, 0)) ∧
  ∀ (s u : State) (ini die blk off : Nat) (bar0 peek : Bool) (p : Page), pageOf die blk = some p →
    reaches s ini die blk off false = true → u = reach s die blk off false → (p = .le → off ≠ 0x064) →
    readFault u ini bar0 peek p die blk off = none → specialRead u ini peek p die blk off = some (u, 0) →
    exec (.registerReadClear ini bar0 die blk off peek) s = .next (answer u 0 0)

/-- Endpoint blocks of seams (R22). -/
def Obligations.SeamEndpointPages : Prop :=
  (∀ die m : Nat, m < 4096 → (pageOf die (0x2000 + m) = some .sm ↔ m < 18 ∧ ((seamDies m).1 = die ∨ (seamDies m).2 = die))) ∧
  (∀ m < 18, (seamDies m).1 ≠ (seamDies m).2 ∧ (seamDies m).1 < 15 ∧ (seamDies m).2 < 15) ∧
  ∀ die : Nat, pageOf die 0x200A = some .sm ↔ die = 8 ∨ die = 5

/-- The window of each fabric die in 64 slots of 2 GiB (R27). -/
def Obligations.FabricPortSlots : Prop :=
  (∀ (s : State) (n p x : Nat), n < 8 → p < 64 → x < 0x80000000 →
    destOf s (0x20000000000 + n * 0x2000000000 + p * 0x80000000 + x) =
      if p < 48 then some (portNode n p, 0x20000000000 + n * 0x2000000000 + (p + 1) * 0x80000000) else none) ∧
  ∀ n p n' p', n < 8 → p < 48 → n' < 8 → p' < 48 → portNode n p = portNode n' p' → n = n' ∧ p = p'

/-- What an instruction of a loop engine leaves unchanged (10_loop_engines.md, 11_loop_programs.md). -/
def Obligations.LeInstructionFrame : Prop :=
  ∀ (md : LeMd) (x0 : Engine) (i : LeInstr) (x : Engine) (ws : List Nat), i.wf = true → x = leHazards x0 (leEffect md x0 i) i →
    ws = cWrites i.c ++ xWrites i.x ++ xWrites i.y ++ mWrites i.m →
    (∀ j, j ∉ ws → dReg x j = dReg x0 j) ∧ (∀ j, 16 + j ∉ ws → tabOr 0 x.p j = tabOr 0 x0.p j) ∧
    (∀ j, 24 + j ∉ ws → aReg x j = aReg x0 j) ∧ (∀ j, 32 + j ∉ ws → tabOr 0 x.ix j = tabOr 0 x0.ix j) ∧
    (∀ j, 64 + j ∉ ws → tabOr 0 x.b j = tabOr 0 x0.b j) ∧ (∀ j, 72 + j ∉ ws → tabOr 0 x.l j = tabOr 0 x0.l j) ∧
    (∀ j, 80 + j ∉ ws → tabOr 0 x.m j = tabOr 0 x0.m j) ∧
    (∀ a < 8192, (∀ w ∈ xStored x0 i.x ++ xStored x0 i.y, w < 8192) → a ∉ xStored x0 i.x ++ xStored x0 i.y →
      bankAt x a = bankAt x0 a) ∧
    (xyPort i.x ≠ some 0 → xyPort i.y ≠ some 0 → x.si0 = x0.si0) ∧ (xyPort i.x ≠ some 1 → xyPort i.y ≠ some 1 → x.si1 = x0.si1) ∧
    (xyPort i.x ≠ some 2 → xyPort i.y ≠ some 2 → x.so0 = x0.so0) ∧ (xyPort i.x ≠ some 3 → xyPort i.y ≠ some 3 → x.so1 = x0.so1) ∧
    x.imem = x0.imem ∧ x.startq = x0.startq ∧ x.cur = x0.cur ∧ x.ctx = x0.ctx ∧ x.dirY = x0.dirY ∧ x.mode = x0.mode

/-- An accumulator lane keeps the exact result, clamps or wraps it, and flags overflow (R241, R242). -/
def Obligations.LeAccumulation : Prop :=
  (∀ (md : LeMd) (mop : Nat) (sa sb : Bool) (t o : BitVec 56) (a b : BitVec 24), md.packed = false →
    let arg := accArg md mop sa sb (reading sa 24 a.toNat) (reading sb 24 b.toNat)
    let exact := accOp mop t.toInt o.toInt arg.1
    let r := laneAcc md mop sa sb t o a b
    (-(2 ^ 55) ≤ exact ∧ exact ≤ 2 ^ 55 - 1 → r.1.toInt = exact ∧ r.2 = arg.2) ∧
    (exact < -(2 ^ 55) → r.2 = true ∧ (md.asat = true → r.1.toInt = -(2 ^ 55)) ∧ (md.asat = false → r.1 = BitVec.ofInt 56 exact)) ∧
    (2 ^ 55 - 1 < exact → r.2 = true ∧ (md.asat = true → r.1.toInt = 2 ^ 55 - 1) ∧ (md.asat = false → r.1 = BitVec.ofInt 56 exact))) ∧
  ∀ (md : LeMd) (sa sb : Bool) (ps : List (BitVec 24 × BitVec 24)), md.packed = false → md.frac = false →
    ps.length ≤ (if sa || sb then 256 else 128) →
    let run := ps.foldl (fun (acc : BitVec 56 × Bool) p =>
      let r := laneAcc md 2 sa sb acc.1 0 p.1 p.2
      (r.1, acc.2 || r.2)) (0, false)
    run.2 = false ∧ run.1.toInt = (ps.map fun p => reading sa 24 p.1.toNat * reading sb 24 p.2.toNat).sum

/-- Extraction rounds as RND says, then clamps or wraps (R244). -/
def Obligations.LeExtraction : Prop :=
  (∀ (rnd : Nat) (v : Int), leRound rnd 0 v = v) ∧
  (∀ (sh : Nat) (v : Int), 0 < sh → leRound 0 sh v * 2 ^ sh ≤ v ∧ v < (leRound 0 sh v + 1) * 2 ^ sh) ∧
  (∀ (sh : Nat) (v : Int), 0 < sh → -(2 ^ sh) ≤ 2 * (v - leRound 1 sh v * 2 ^ sh) ∧ 2 * (v - leRound 1 sh v * 2 ^ sh) < 2 ^ sh) ∧
  (∀ (sh : Nat) (v : Int), 0 < sh → -(2 ^ sh) ≤ 2 * (v - leRound 2 sh v * 2 ^ sh) ∧ 2 * (v - leRound 2 sh v * 2 ^ sh) ≤ 2 ^ sh ∧
    (2 * (v - leRound 2 sh v * 2 ^ sh) = 2 ^ sh ∨ 2 * (v - leRound 2 sh v * 2 ^ sh) = -(2 ^ sh) → leRound 2 sh v % 2 = 0)) ∧
  ∀ (n rnd sh : Nat) (esat sgn : Bool) (v lo hi : Int), 0 < n → lo = (if sgn then -(2 ^ (n - 1)) else 0) →
    hi = (if sgn then 2 ^ (n - 1) - 1 else 2 ^ n - 1) →
    (lo ≤ leRound rnd sh v ∧ leRound rnd sh v ≤ hi →
      (leExtractN n rnd sh esat sgn v).2 = false ∧ reading sgn n (leExtractN n rnd sh esat sgn v).1 = leRound rnd sh v) ∧
    (leRound rnd sh v < lo ∨ hi < leRound rnd sh v → (leExtractN n rnd sh esat sgn v).2 = true ∧
      (esat = true → reading sgn n (leExtractN n rnd sh esat sgn v).1 = if leRound rnd sh v < lo then lo else hi) ∧
      (esat = false → ((leExtractN n rnd sh esat sgn v).1 : Int) = leRound rnd sh v % 2 ^ n))

/-- Addresses of circular buffers (R247). -/
def Obligations.LeModuloAddress : Prop :=
  (∀ (p b : BitVec 16) (m : Int), leMod p b 0 m = BitVec.ofInt 16 (p.toNat + m)) ∧
  ∀ (p b : BitVec 16) (l : BitVec 13) (m : Int), l ≠ 0 → ∃ k q : Int, 0 ≤ k ∧ k < l.toNat ∧
    (p.toNat : Int) - b.toNat + m = q * l.toNat + k ∧ leMod p b l m = BitVec.ofInt 16 (b.toNat + k) ∧
    (b.toNat + l.toNat ≤ 65536 → b.toNat ≤ (leMod p b l m).toNat ∧ (leMod p b l m).toNat < b.toNat + l.toNat)

/-- The winner of a reduce (R250). -/
def Obligations.LeReduceWinner : Prop :=
  ∀ (isMax : Bool) (v : Nat → Int) (ix : Nat → Nat), leWinner isMax v ix < 4 ∧ ∀ k < 4,
    (if isMax then v k ≤ v (leWinner isMax v ix) else v (leWinner isMax v ix) ≤ v k) ∧
    (v k = v (leWinner isMax v ix) → ix (leWinner isMax v ix) ≤ ix k ∧ (ix k = ix (leWinner isMax v ix) → leWinner isMax v ix ≤ k))

/-- The SEC-DED code corrects every single error and detects every double error (R196). -/
def Obligations.SecDedCode : Prop :=
  (eccCols.length = 64 ∧ (eccCols.take 56).Pairwise (· < ·) ∧ (eccCols.drop 56).Pairwise (· < ·) ∧
    (∀ v < 256, weight v = 3 ↔ v ∈ eccCols.take 56) ∧ (∀ v ∈ eccCols.drop 56, weight v = 5) ∧
    (∀ v < 256, weight v = 5 → v ∉ eccCols → ∀ u ∈ eccCols.drop 56, u < v)) ∧
  ∀ d : Nat,
    eccDecode d (eccCheck d) = .clean ∧
    (∀ i < 64, eccDecode (d ^^^ 2 ^ i) (eccCheck d) = .corrected d) ∧
    (∀ c < 8, eccDecode d (eccCheck d ^^^ 2 ^ c) = .corrected d) ∧
    (∀ i < 64, ∀ j < 64, i ≠ j → eccDecode (d ^^^ 2 ^ i ^^^ 2 ^ j) (eccCheck d) = .uncorrectable) ∧
    (∀ i < 64, ∀ c < 8, eccDecode (d ^^^ 2 ^ i) (eccCheck d ^^^ 2 ^ c) = .uncorrectable) ∧
    (∀ c < 8, ∀ e < 8, c ≠ e → eccDecode d (eccCheck d ^^^ 2 ^ c ^^^ 2 ^ e) = .uncorrectable)

/-- Hub SRAM: a write is read back, changes no other byte and keeps the canonical form (17_processors.md). -/
def Obligations.MemoryBytes : Prop :=
  ∀ (m : List Host.Cell) (a : Nat) (bs : List Byte),
    memRead (memWrite m a bs) a bs.length = bs ∧
    (∀ c, c < a ∨ a + bs.length ≤ c → memGet (memWrite m a bs) c = memGet m c) ∧
    (memWf m = true → memWf (memWrite m a bs) = true) ∧
    ∀ n : List Host.Cell, memWf m = true → memWf n = true → (∀ c, memGet m c = memGet n c) → m = n

/-- Sending, taking and withdrawing keep every mailbox's count (R454, R456). -/
def Obligations.MailboxLedger : Prop :=
  ∀ (s : State) (m ini : Nat) (b : Mbox), b = mboxOf s m → b.seq < 65536 →
    let bal := fun x : Mbox => x.seq = (x.taken + x.wdraw + ofBool x.full) % 65536
    (b.full = false → bal b → bal (mboxOf (mbSend s m ini) m)) ∧
    (mboxOf (mbSend s m ini) m).full = true ∧ (mboxOf (mbSend s m ini) m).sender = ini ∧
    (mboxOf (mbSend s m ini) m).seq = (b.seq + 1) % 65536 ∧
    (b.full = true → bal b → bal (mboxOf (mbTaken s m) m) ∧ bal (mboxOf (mbWithdrawn s m) m)) ∧
    (∀ t ∈ [mbTaken s m, mbWithdrawn s m], (mboxOf t m).full = false ∧ (mboxOf t m).seq = b.seq) ∧
    ∀ t ∈ [mbSend s m ini, mbTaken s m, mbWithdrawn s m], (mboxOf t m).timeout = false ∧ ∀ k, k ≠ m → mboxOf t k = mboxOf s k

/-- Lock words: a read of a free lock acquires it, only its holder releases it (R459). -/
def Obligations.LockWords : Prop :=
  pageOf 8 0xC020 = some .lk ∧ ∀ (s : State) (ini k : Nat) (w : Word), k < 256 →
    (lockOf s k = none →
      ∃ t, specialRead s ini false .lk 8 0xC020 (0x100 + 4 * k) = some (t, 0) ∧ lockOf t k = some ini ∧
        (∀ j, j ≠ k → lockOf t j = lockOf s j) ∧ t = { s with hub := { s.hub with locks := t.hub.locks } }) ∧
    (lockOf s k = none → specialRead s ini true .lk 8 0xC020 (0x100 + 4 * k) = some (s, 0)) ∧
    (lockOf s k = some ini → specialRead s ini false .lk 8 0xC020 (0x100 + 4 * k) = some (s, 0)) ∧
    (∀ h, lockOf s k = some h → h ≠ ini → specialRead s ini false .lk 8 0xC020 (0x100 + 4 * k) = some (s, 0x80000000 + h)) ∧
    (∀ h, lockOf s k = some h → specialRead s ini true .lk 8 0xC020 (0x100 + 4 * k) = some (s, 0x80000000 + h)) ∧
    (lkFault s ini (0x100 + 4 * k) w =
      if w ≠ 0 then some 0x0001 else if lockOf s k = some ini then none else some 0x0100) ∧
    ∀ s0 old, blockWritten s0 s ini .lk 8 0xC020 (0x100 + 4 * k) old 0 = setLock s k none ∧
      lockOf (setLock s k none) k = none ∧ ∀ j, j ≠ k → lockOf (setLock s k none) j = lockOf s j

/-- Sequence recovery never lets one number pass twice in a row (R395). -/
def Obligations.RecoveryDropsDuplicates : Prop :=
  ∀ (x : Slice) (c seq : Nat), c < 65536 → seq < 65536 → (recover x c seq).2 = false →
    (recover (recover x c seq).1 c seq).2 = true ∧
    (wGet (tblGet x 0 c 11) 21 1 = 1 ∨ wGet (tblGet x 0 c 11) 22 1 = 1 ∨
        0 < signed 16 (seq + 65536 - wGet (tblGet x 0 c 11) 0 16) → wGet (tblGet (recover x c seq).1 0 c 11) 0 16 = seq) ∧
    ∀ t e w, (t, e, w) ≠ (0, c, 11) → (t, e, w) ≠ (0, c, 12) → w < 16 → e < 65536 →
      tblGet (recover x c seq).1 t e w = tblGet x t e w

/-- A meter's buckets stay within their bursts, and a frame pays from one of them (R392). -/
def Obligations.MeterBuckets : Prop :=
  ∀ (x : Slice) (c t l : Nat), c < 65536 → t < 2 ^ 32 →
    let f := meterFill x c t
    let d := (t + 2 ^ 32 - (tblGet x 0 c 10).toNat) % 2 ^ 32
    let fill := (tblGet x 0 c 8).toNat + wGet (tblGet x 0 c 4) 0 20 * d * 256 / 8000
    let cbs := wGet (tblGet x 0 c 6) 0 24 * 256
    let ebs := wGet (tblGet x 0 c 7) 0 24 * 256
    let r := meterColour f c l
    (tblGet f 0 c 8).toNat = min fill cbs ∧
    (tblGet f 0 c 9).toNat = min ebs ((tblGet x 0 c 9).toNat + wGet (tblGet x 0 c 5) 0 20 * d * 256 / 8000 +
      (if wGet (tblGet x 0 c 6) 24 1 = 1 then fill - cbs else 0)) ∧
    (tblGet f 0 c 10).toNat = t ∧
    (r.2 = 0 → l * 256 ≤ (tblGet f 0 c 8).toNat ∧ (tblGet r.1 0 c 8).toNat = (tblGet f 0 c 8).toNat - l * 256 ∧
      tblGet r.1 0 c 9 = tblGet f 0 c 9) ∧
    (r.2 = 1 → (tblGet f 0 c 8).toNat < l * 256 ∧ (tblGet r.1 0 c 9).toNat = (tblGet f 0 c 9).toNat - l * 256 ∧
      tblGet r.1 0 c 8 = tblGet f 0 c 8) ∧
    (r.2 = 2 → tblGet r.1 0 c 8 = tblGet f 0 c 8 ∧ tblGet r.1 0 c 9 = tblGet f 0 c 9) ∧ r.2 < 3

/-- System cores: what an access does in the caches, which accesses are forbidden, and the record of one that fails (17_processors.md R446, 17_processors.md R448). -/
def Obligations.CoreAccesses : Prop :=
  (∀ (s : State) (c code a k : Nat) (b : Bool), c < 4 → code < 16 → a < 2 ^ 42 →
    (flag s CL (CL_BERR_VALID.nth c) = false → ∀ t, t = berrNote s c code a b →
      flag t CL (CL_BERR_VALID.nth c) = true ∧ getF t CL (CL_BERR_CODE.nth c) = code ∧ flag t CL (CL_BERR_ASYNC.nth c) = b ∧
      getF t CL (CL_BERRA_LO_ADDR.nth c) + getF t CL (CL_BERRA_HI_ADDR.nth c) * 2 ^ 32 = a) ∧
    (flag s CL (CL_BERR_VALID.nth c) = true → berrNote s c code a b = putFlag s CL (CL_BERR_OVF.nth c) true) ∧
    coreBerr s c code a k true = evtPulse (berrNote s c code a true) CL c ∧
    coreBerr s c code a k false =
      setHart (berrNote s c code a false) c { hartOf (berrNote s c code a false) c with faultTaken := k }) ∧
  (∀ (s : State) (x : Access), mayAccess s x = true → x.ini < 4 → useForbidden x = true →
    exec (.accessInject x) s = .next (coreEnd (coreBegun s x.ini) x 1 [])) ∧
  (∀ (s : State) (x : Access), x.use = .plain → (∀ l ∈ accLines x, (lineAt s l).isSome = true) →
    (x.kind = 0 → coreTry s x = coreEnd s x 0 (cacheRead s x)) ∧
    (x.kind ≠ 0 → keepArea x.addr = false → coreTry s x = coreEnd (cacheWrite s x x.data true) x 0 [])) ∧
  (∀ (s : State) (x : Access) (e : CacheLine), 0 < x.size → x.addr % 64 + x.size ≤ 64 → x.data.length = x.size →
    lineAt s (x.addr / 64) = some e → cacheRead (cacheWrite s x x.data true) x = x.data) ∧
  ∀ (s : State) (x : Access), x.use = .sc → (hartOf s x.ini).resv ≠ some (x.addr / 64) → coreTry s x = scFailed s x

/-- Every loop-engine instruction is decoded from its word as it was encoded (11_loop_programs.md). -/
def Obligations.LeWordsDecodeBack : Prop :=
  ∀ i : LeInstr, i.wf = true → encWord i < 2 ^ 64 ∧ decWord (encWord i) = some i

/-- A word that decodes to a loop-engine instruction is that instruction's own word (11_loop_programs.md). -/
def Obligations.LeWordsHaveOneReading : Prop :=
  ∀ (w : Nat) (i : LeInstr), w < 2 ^ 64 → decWord w = some i → i.wf = true ∧ encWord i = w

/-- The symbol code: what the writer sends is clean, and any one failed device of a beat is put right and named (R428, R429). -/
def Obligations.SymbolCodeHolds : Prop :=
  (∀ d : List Nat, d.length = 8 → (∀ x ∈ d, x < 16) →
    let c := [(rsCheck d).2, (rsCheck d).1] ++ d
    (c.foldl (· ^^^ ·) 0 = 0 ∧ (c.zipIdx.foldl (fun n e => n ^^^ gfPow e.1 e.2) 0) = 0) ∧ (rsCheck d).1 < 16 ∧ (rsCheck d).2 < 16) ∧
  (∀ j < 10, ∀ v < 16, 0 < v → rsDecode [(j, v)] = some (some (j, v)))

/-- An accepted write completes: the general register write and the writes of PG_CTRL, PG_COMMIT, PG_EVT_FORCE, PG_VOTE, PG_LOCK and PG_RETAIN (02_register_pages.md). -/
def Obligations.HeaderWritesComplete : Prop :=
  (∀ (s : State) (p : Page) (ini die blk off : Nat) (bar0 : Bool) (w : Word), pageOf die blk = some p → writeOk s ini bar0 die blk off w = true → 
    exec (.registerWrite ini bar0 die blk off w) s = .next (answer (if off < 0x040 then
        headerWritten (stored s die blk off w) ini p die blk off (getReg (reach s die blk off true) (pg die blk + off)) w
      else blockWritten (reach s die blk off true) (stored s die blk off w) ini p die blk off
        (getReg (reach s die blk off true) (pg die blk + off)) w) 0 0)) ∧
  (∀ (s : State) (p : Page) (ini die blk frz : Nat) (en : Bool) (w : Word), pageOf die blk = some p → w = BitVec.ofNat 32 (frz % 8 * 2 + ofBool en) → writeOk s ini false die blk 0x008 w = true → 
    exec (.blockEnable ini die blk en frz) s = .next (answer (ctrlWritten (stored s die blk 0x008 w) p die blk (getReg (reach s die blk 0x008 true) (pg die blk + 0x008)) w) 0 0)) ∧
  (∀ (s : State) (p : Page) (ini die blk : Nat) (w : Word), pageOf die blk = some p → w = wPut (getReg s (pg die blk + 0x008)) 4 1 1 → writeOk s ini false die blk 0x008 w = true → 
    exec (.softReset ini die blk) s = .next (answer (ctrlWritten (stored s die blk 0x008 w) p die blk (getReg (reach s die blk 0x008 true) (pg die blk + 0x008)) w) 0 0)) ∧
  (∀ (s : State) (p : Page) (ini die blk : Nat) (disc : Bool) (w : Word), pageOf die blk = some p → w = (if disc then 3 else 1) → writeOk s ini false die blk 0x030 w = true → 
    exec (.commit ini die blk disc) s = .next (answer (commitWritten (stored s die blk 0x030 w) p die blk w) 0 0)) ∧
  (∀ (s : State) (p : Page) (ini die blk : Nat), pageOf die blk = some p → writeOk s ini false die blk 0x030 2 = true → 
    exec (.discard ini die blk) s = .next (answer (shadowDiscard (stored s die blk 0x030 2) (pg die blk)) 0 0)) ∧
  (∀ (s : State) (p : Page) (ini die blk : Nat) (w : Word), pageOf die blk = some p → writeOk s ini false die blk 0x01C w = true → 
    exec (.evtForce ini die blk w) s = .next (answer (evtPulses (stored s die blk 0x01C w) (pg die blk) (bitsOf (pageInfo p die blk).evts w.toNat)) 0 0)) ∧
  (∀ (s : State) (p : Page) (ini die blk : Nat) (w : Word), pageOf die blk = some p → writeOk s ini false die blk 0x028 w = true → 
    exec (.pgVoteWrite ini die blk w) s = .next (answer (if (pageInfo p die blk).hasVote then
        voteWritten (setReg (stored s die blk 0x028 w) (pg die blk + 0x028)
          (getReg (reach s die blk 0x028 true) (pg die blk + 0x028))) ini die (blk % 4096) w
      else stored s die blk 0x028 w) 0 0)) ∧
  (∀ (s : State) (p : Page) (ini die blk : Nat) (w : Word), pageOf die blk = some p → writeOk s ini false die blk 0x02C w = true → 
    exec (.pgLockWrite ini die blk w) s = .next (answer (lockWritten (setReg (stored s die blk 0x02C w) (pg die blk + 0x02C)
        (getReg (reach s die blk 0x02C true) (pg die blk + 0x02C))) ini (pg die blk) w) 0 0)) ∧
  (∀ (s : State) (p : Page) (ini die blk : Nat) (w : Word), pageOf die blk = some p → (pageInfo p die blk).retain ≠ 0 → writeOk s ini false die blk 0x034 w = true → 
    exec (.pgRetainWrite ini die blk w) s = .next (answer (journalRequest (stored s die blk 0x034 w) (pg die blk)) 0 0))

/-- Reads, wrong-size accesses, broadcasts, the end of a soft reset and commit points complete (00_scope.md, 02_register_pages.md). -/
def Obligations.PageAccessComplete : Prop :=
  (∀ (s : State) (p : Page) (ini die blk off : Nat) (bar0 peek : Bool), pageOf die blk = some p → reaches s ini die blk off false = true → 
    exec (.registerReadClear ini bar0 die blk off peek) s = .next (regAnswer (regRead (reach s die blk off false) ini bar0 peek p die blk off).1 ini (pg die blk + off) false
        (regRead (reach s die blk off false) ini bar0 peek p die blk off).2.1
        (regRead (reach s die blk off false) ini bar0 peek p die blk off).2.2)) ∧
  (∀ (s : State) (ini die blk off : Nat), iniAssigned ini = true → busUp s = true → off < 4096 → die < 15 → (pageOf die blk).isSome = true → regCut s die = false → quenched s ini = false → regNoReach s ini die blk off = false → 
    exec (.wrongSizeAccess ini die blk off) s = .next (regAnswer (pageFault s (pg die blk) 0x0006) ini (pg die blk + off) false 4 0)) ∧
  (∀ (s : State) (ini blk off : Nat) (w : Word), iniAssigned ini = true → busUp s = true → quenched s ini = false → regNoReach s ini 15 blk off = false → 
    exec (.broadcastWrite ini blk off w) s = .next (answerW (bcastWrite s ini blk off w none) ini (pg 15 blk + off))) ∧
  (∀ (s : State) (die blk : Nat), inSoftReset s (pg die blk) = true → 
    exec (.softResetDone die blk) s = .next (waitsRetry (softResetBlock (pageOut (softResetFields s (pg die blk)) (pg die blk)) die blk))) ∧
  (∀ (s : State) (p : Page) (die blk : Nat), pageOf die blk = some p → p ≠ .le ∧ p ≠ .lq ∧ p ≠ .fe ∧ p ≠ .gv → busUp s = true → isolated s die = false → 
    exec (.commitPoint die blk) s = .next (shadowApply s (pg die blk)))

/-- Oscillator monitor events: qualification, timeouts, edge and window checks, and returning edges (03_clocks.md). -/
def Obligations.OscillatorEventsComplete : Prop :=
  (∀ (s : State) (b : Bool) (rc : Nat), xoPhase s b = .counting → 26214 ≤ rc ∧ rc ≤ 39322 → clkUp s = true → 
    exec (.xoQualified b rc) s = .next (xoPass s b rc)) ∧
  (∀ (s : State) (b : Bool) (rc : Nat), xoPhase s b = .counting → rc < 26214 ∨ 39322 < rc → clkUp s = true → 
    exec (.xoQualified b rc) s = .next (xoVerdict (evtPulse (putFlag (putF s CU (xoMeas b) rc) CU (xoFail b) true) CU (ofBool b)))) ∧
  (∀ (s : State) (b : Bool), xoPhase s b = .counting → clkUp s = true → 
    exec (.xoQualTimeout b) s = .next (xoVerdict (evtPulse (putFlag (putF s CU (xoMeas b) 0xFFFF) CU (xoFail b) true) CU (ofBool b)))) ∧
  (∀ (s : State) (rc : Nat), s.clk.rtc = .counting → 20000000 ≤ rc ∧ rc ≤ 30000000 → 
    exec (.rtcQualified rc) s = .next (putFlag { s with clk := { s.clk with rtc := .running } } CU CU_OSC_STAT_RTC_OK true)) ∧
  (∀ (s : State) (rc : Nat), s.clk.rtc = .counting → rc < 20000000 ∨ 30000000 < rc → 
    exec (.rtcQualified rc) s = .next (evtPulse (putFlag s CU CU_OSC_STAT_RTC_FAIL true) CU 3)) ∧
  (∀ (s : State), s.clk.rtc = .counting → 
    exec (.rtcQualTimeout) s = .next (evtPulse (putFlag s CU CU_OSC_STAT_RTC_FAIL true) CU 3)) ∧
  (∀ (s : State) (b : Bool), xoPhase s b = .running → clkUp s = true → 
    exec (.xoEdgeTimeout b) s = .next (xoLost s b false)) ∧
  (∀ (s : State) (b : Bool) (n : Nat), xoPhase s b = .running → n < 640 ∨ 1600 < n → clkUp s = true → 
    exec (.xoWindowCheck b n) s = .next (xoLost s b true)) ∧
  (∀ (s : State) (b : Bool) (n : Nat), xoPhase s b = .running → 640 ≤ n ∧ n ≤ 1600 → clkUp s = true → 
    exec (.xoWindowCheck b n) s = .next (s)) ∧
  (∀ (s : State), s.clk.rtc = .running → 
    exec (.rtcEdgeTimeout) s = .next (rtcLost s false)) ∧
  (∀ (s : State) (n : Nat), s.clk.rtc = .running → n < 1100 ∨ 1760 < n → 
    exec (.rtcWindowCheck n) s = .next (rtcLost s true)) ∧
  (∀ (s : State), s.clk.xoA = .stopped → clkUp s = true → 
    exec (.oscEdgesReturn .xoA) s = .next ({ s with clk := { s.clk with xoA := .counting } })) ∧
  (∀ (s : State), s.clk.xoB = .stopped → clkUp s = true → 
    exec (.oscEdgesReturn .xoB) s = .next ({ s with clk := { s.clk with xoB := .counting } })) ∧
  (∀ (s : State), s.clk.rtc = .stopped → 
    exec (.oscEdgesReturn .rtc) s = .next ({ s with clk := { s.clk with rtc := .counting } }))

/-- PLL and clock-domain events: lock, lost reference, switches, gates and measured frequency (03_clocks.md). -/
def Obligations.ClockDomainEventsComplete : Prop :=
  (∀ (s : State) (die j : Nat), isPll die j = true → enabled s (pllPage die j) = true → flag s (pllPage die j) PLL_STAT_LOCK = false → die ≠ 8 → clkUp s = true → pllRefOn s die j = true → 
    exec (.pllLocked die j) s = .next (evtPulse (pllLock (putFlag s (pllPage die j) PLL_STAT_COAST false) die j true) (pllPage die j) 2)) ∧
  (∀ (s : State) (j : Nat), j < 8 → enabled s (pllPage 8 j) = true → flag s (pllPage 8 j) PLL_STAT_LOCK = false → clkUp s = true → pllRefOn s 8 j = true → 
    exec (.pllLocked 8 j) s = .next (hubLockEffects (evtPulse (pllLock (putFlag s (pllPage 8 j) PLL_STAT_COAST false) 8 j true) (pllPage 8 j) 2) j)) ∧
  (∀ (s : State) (die j : Nat), isPll die j = true → enabled s (pllPage die j) = true → flag s (pllPage die j) PLL_STAT_COAST = false → clkUp s = true → 
    exec (.pllRefLost die j) s = .next (pllCoast s die j)) ∧
  (∀ (s : State) (die j : Nat), isFabric die = true → j < 4 → enabled s (pllPage die j) = true → flag s (pllPage die j) PLL_STAT_COAST = false → clkUp s = true → 
    exec (.fpllRefDeviation die j) s = .next (pllCoast s die j)) ∧
  (∀ (s : State) (b : Bool), s.clk.xoSwitch = some b → clkUp s = true → 
    exec (.clockSwitchDone .xo) s = .next (xoSwitched s b false)) ∧
  (∀ (s : State) (k : Nat), flag s (cdPage k) CD_STAT_SWITCHING = true → clkUp s = true → 
    exec (.clockSwitchDone (.cd k)) s = .next (waitsRetry (cdSwitched s k false))) ∧
  (∀ (s : State) (b : Bool), s.clk.xoSwitch = some b → clkUp s = true → 
    exec (.switchForced .xo) s = .next (xoSwitched s b true)) ∧
  (∀ (s : State) (k : Nat), flag s (cdPage k) CD_STAT_SWITCHING = true → clkUp s = true → 
    exec (.switchForced (.cd k)) s = .next (waitsRetry (cdSwitched s k true))) ∧
  (∀ (s : State) (k : Nat), flag s (cdPage k) CD_STAT_QUIESCING = true → gateAcks s k = true → clkUp s = true → k < 64 → 
    exec (.gateClosed k) s = .next (if 56 ≤ k ∧ k < 60 then xgFollow (putFlag (putFlag s (cdPage k) CD_STAT_QUIESCING false) (cdPage k) CD_STAT_GATED true)
      else putFlag (putFlag s (cdPage k) CD_STAT_QUIESCING false) (cdPage k) CD_STAT_GATED true)) ∧
  (∀ (s : State) (g : Nat), s.le.gateReq.contains g = true → setIdle s (g / 72) (g % 72) = true → 
    exec (.gateClosed (64 + g)) s = .next ({ s with le := { s.le with gateReq := setDel s.le.gateReq g, gated := setAdd s.le.gated g } })) ∧
  (∀ (s : State) (k : Nat), flag s (cdPage k) CD_STAT_QUIESCING = true → clkUp s = true → k < 64 → 
    exec (.gateDenied k) s = .next (raiseFrom (evtPulse (putFlag (putFlag (putFlag s (cdPage k) CD_STAT_QUIESCING false) (cdPage k) CD_STAT_GATE_DENIED true)
        (cdPage k) CD_GATE_GATE_REQ false) (cdPage k) 2) (cdPage k) 0 0x0106 (0x3100 + k))) ∧
  (∀ (s : State) (g : Nat), 
    exec (.gateDenied (64 + g)) s = .next ({ s with le := { s.le with gateReq := setDel s.le.gateReq g } })) ∧
  (∀ (s : State) (k : Nat), flag s (cdPage k) CD_GATE_GATE_REQ = true → clkUp s = true → 
    exec (.gateReopen k) s = .next (cdReopen s k)) ∧
  (∀ (s : State) (k khz : Nat) (toggled : Bool), k < 64 → clkUp s = true ∨ k = 0 ∨ k = 60 → 
    exec (.cdFreqUpdate k khz toggled) s = .next (if 56 ≤ k ∧ k < 60 then xgFollow (putFlag (putF s (cdPage k) CD_FREQ_FREQ khz) (cdPage k) CD_STAT_RUNNING toggled)
      else putFlag (putF s (cdPage k) CD_FREQ_FREQ khz) (cdPage k) CD_STAT_RUNNING toggled))

/-- The clock registers' commands: CD_CFG, XO preference and gate request (03_clocks.md). -/
def Obligations.ClockWritesComplete : Prop :=
  (∀ (s : State) (ini k : Nat) (w : Word), k < 64 → writeOkAt s ini (cdPage k + 0x040) w = true → 
    exec (.cdCfgWrite ini k w) s = .next (answer (cdCfgWritten (storedAt s (cdPage k + 0x040) w) k (getReg (reachAt s (cdPage k + 0x040)) (cdPage k + 0x040))) 0 0)) ∧
  (∀ (s : State) (ini : Nat) (w : Word), writeOkAt s ini (CU + 0x044) w = true → 
    exec (.xoPrefWrite ini w) s = .next (answer (clkWritten (storedAt s (CU + 0x044) w) .cu 8 0x3000 0x044 (getReg (reachAt s (CU + 0x044)) (CU + 0x044))) 0 0)) ∧
  (∀ (s : State) (ini k : Nat), k < 64 → writeOkAt s ini (cdPage k + 0x044) 1 = true → 
    exec (.gateRequest ini k) s = .next (answer (gateWritten (storedAt s (cdPage k + 0x044) 1) k
        (wGet (getReg (reachAt s (cdPage k + 0x044)) (cdPage k + 0x044)) 0 1 = 1)
        (wGet (getReg (storedAt s (cdPage k + 0x044) 1) (cdPage k + 0x044)) 0 1 = 1)) 0 0))

/-- Supplies, reset pins and the first stages of the start (03_clocks.md, 04_start.md, 23_pins.md). -/
def Obligations.StartPinEventsComplete : Prop :=
  (∀ (s u : State), s.pin.supplies = false → s.pow.torpor = false → u = { s with pin := { s.pin with supplies := true, railsOut := [], tripHold := false } } → 
    exec (.suppliesValid) s = .next (if u.start.phase = .off then deviceReset u false
      else if u.shut.way = .lastGasp then pfwRestart u
      else startAgain u (startWaits u && u.start.abandoned))) ∧
  (∀ (s : State) (u : State), s.pow.torpor = false → s.pin.supplies = true → u = { s with pin := { s.pin with resetN := false, tripHold := false } } → 
    exec (.resetNLow) s = .next (startAgain u (starting u.start.phase || (startWaits u && u.start.abandoned)))) ∧
  (∀ (s : State), s.start.phase = .resetHeld → s.pow.torpor = false → 
    exec (.resetNHigh) s = .next (startAgain { s with pin := { s.pin with resetN := true } } s.start.abandoned)) ∧
  (∀ (s : State), s.pow.torpor = true → 
    exec (.resetNHigh) s = .next (torporExit { s with pin := { s.pin with resetN := true } } 2)) ∧
  (∀ (s : State), s.pin.supplies = true → s.pin.resetN = true → s.pin.pfwN = true → s.pow.torpor = false → s.pin.tripHold = false → 
    exec (.deviceResetInternal) s = .next (startTrigger s)) ∧
  (∀ (s u : State), s.start.phase = .s0 → u = stageEnd (putF (putF s SQ SQ_STAT_SOURCE s.pin.srcSel) SU SU_STAT_RAIL_OK 0xFF) 0 → 
    exec (.srcSelLatch) s = .next (xoVerdict (setStage { u with
        start := { u.start with phase := .s1 }, pin := { u.pin with xspiResetN := true } } 1))) ∧
  (∀ (s : State) (sel : Nat), sel < 4 → 
    exec (.srcSelChange sel) s = .next ({ s with pin := { s.pin with srcSel := sel } })) ∧
  (∀ (s : State) (m : Nat), s.start.phase = .s2Records → m = 8 ∨ m = 16 → (seamReady s (seamDies m).1 m && seamReady s (seamDies m).2 m) = false → 
    exec (.mgmtPathTimeout m) s = .next ({ s with start := { s.start with k0Lost := true } })) ∧
  (∀ (s : State) (m : Nat), s.start.phase = .s2Records → m = 10 ∨ m = 17 → (seamReady s (seamDies m).1 m && seamReady s (seamDies m).2 m) = false → 
    exec (.mgmtPathTimeout m) s = .next ({ s with start := { s.start with k1Lost := true } })) ∧
  (∀ (s u : State) (r0 r1 : Bool) (errs : List (Nat × Nat × Nat)), recordsDue s = true → u = recordsRead (recMark (recMark (errsMark (keysDerive s) errs) 13 r0) 14 r1) → dirsLost u r0 r1 = true → 
    exec (.keepRecordsRead r0 r1 errs) s = .next (startSafe u 0x04)) ∧
  (∀ (s u : State) (r0 r1 : Bool) (errs : List (Nat × Nat × Nat)), recordsDue s = true → u = recordsRead (recMark (recMark (errsMark (keysDerive s) errs) 13 r0) 14 r1) → dirsLost u r0 r1 = false → 
    exec (.keepRecordsRead r0 r1 errs) s = .next (selftestStep (lcRead (recordsShow u)))) ∧
  (∀ (s : State), s.start.phase = .s2Quick → 
    exec (.quickSelftestDone true) s = .next (afterQuick (putFlag s SQ SQ_STAT_QUICK_TEST true))) ∧
  (∀ (s : State), s.start.phase = .s2Quick → 
    exec (.quickSelftestDone false) s = .next (startSafe (putFlag s SQ SQ_STAT_QUICK_TEST true) 0x03))

/-- The table engine of the start: write, wait, release and the end of a stage (04_start.md). -/
def Obligations.TableEngineComplete : Prop :=
  (∀ (s : State) (e : SeqEntry) (i : Nat), seqCur s = some (e, i) → e.action = 1 → (seqArrive s e true).2 = true → (seqWriteAll (seqArrive s e true).1 e).2 = 0 → 
    exec (.seqWrite) s = .next (seqNext (seqWriteAll (seqArrive s e true).1 e).1 i)) ∧
  (∀ (s : State) (e : SeqEntry) (i : Nat), seqCur s = some (e, i) → e.action = 1 → (seqArrive s e true).2 = true → (seqWriteAll (seqArrive s e true).1 e).2 ≠ 0 → 
    exec (.seqWrite) s = .next (seqFail (seqWriteAll (seqArrive s e true).1 e).1 i)) ∧
  (∀ (s : State) (e : SeqEntry) (i x : Nat) (r : State × Option (Nat × Nat)), seqCur s = some (e, i) → e.action = 2 → (seqArrive s e false).2 = true → r = anyRead (seqArrive s e false).1 4 false e.die e.blk e.off false → r.2 = some (0, x) → BitVec.ofNat 32 x &&& e.mask = e.value → 
    exec (.seqWait) s = .next (seqNext r.1 i)) ∧
  (∀ (s : State) (e : SeqEntry) (i x : Nat) (r : State × Option (Nat × Nat)), seqCur s = some (e, i) → e.action = 2 → (seqArrive s e false).2 = true → r = anyRead (seqArrive s e false).1 4 false e.die e.blk e.off false → r.2 = some (0, x) → BitVec.ofNat 32 x &&& e.mask ≠ e.value → 
    exec (.seqWait) s = .next (r.1)) ∧
  (∀ (s : State) (e : SeqEntry) (i : Nat), seqCur s = some (e, i) → e.action = 2 → 
    exec (.seqWaitTimeout) s = .next (seqFail s i)) ∧
  (∀ (s : State) (e : SeqEntry) (i : Nat), seqCur s = some (e, i) → e.action = 3 → wGet e.value 0 7 = 64 → 
    exec (.releasePart) s = .next (seqNext ((List.range 8).foldl staticRelease s) i)) ∧
  (∀ (s : State) (e : SeqEntry) (i : Nat) (x : PartEntry), seqCur s = some (e, i) → e.action = 3 → wGet e.value 0 7 ≠ 64 → s.shut.heldBySnap.contains (wGet e.value 0 7) = false → partEntry s (wGet e.value 0 7) = some x → isolated s x.die = false → partStateOn s x.die (wGet e.value 0 7) = pHeld → 
    exec (.releasePart) s = .next (seqNext (tableRelease s x) i)) ∧
  (∀ (s : State), seqCur s = none → s.start.phase = .s3 → fabricLocked s = true → (seamsAwaited s).all (seamUp s) = true → 
    exec (.seqEnd) s = .next (setStage (stageEnd { s with start := { s.start with phase := .s4 } } 3) 4)) ∧
  (∀ (s : State), seqCur s = none → s.start.phase = .s7 → 
    exec (.seqEnd) s = .next (readyRise s))

/-- Header, frames and sources of an image load, and the last stages of the start (04_start.md, 05_images.md). -/
def Obligations.ImageLoadComplete : Prop :=
  (∀ (s : State) (h : Header) (pad k : Nat) (readOk sigOk nodesOk : Bool) (nodes : List (BitVec 256)) (c : Nat) (v : State × Bool), s.start.phase = .s2Header → (s.start.source = 2 → 4097 ≤ s.load.hostNext) → v = (if s.start.source = 0 then slotRead s 0 4097 else (s, true)) → headerCause s h pad (sourceRoom s) (readOk && v.2) k sigOk = some c → 
    exec (.signatureVerified h pad readOk k sigOk nodesOk nodes) s = .next (startFail v.1 c)) ∧
  (∀ (s : State) (h : Header) (k : Nat) (readOk sigOk : Bool) (nodes : List (BitVec 256)) (v w : State × Bool) (u : State), s.start.phase = .s2Header → (s.start.source = 2 → h.nodeOff + 32 * h.nodeCount ≤ s.load.hostNext) → v = (if s.start.source = 0 then slotRead s 0 4097 else (s, true)) → headerCause s h 0 (sourceRoom s) (readOk && v.2) k sigOk = none → w = (if s.start.source = 0 then slotRead v.1 h.nodeOff (32 * h.nodeCount) else (s, true)) → w.2 = true → nodes.length = h.nodeCount → u = loadBegin (if s.start.source = 0 then slotVerified w.1 h else w.1) h nodes → 
    exec (.signatureVerified h 0 readOk k sigOk true nodes) s = .next ({ u with start := { u.start with phase := .s2Tables } })) ∧
  (∀ (s : State) (r : ImgRec), s.start.phase = .s2Tables → 
    exec (.frameArrival 16 r) s = .next (tableFrame s r)) ∧
  (∀ (s : State) (st : Nat) (r : ImgRec), s.start.phase = .s4 → (headerDies s.load.hdr).contains st = true → 
    exec (.frameArrival st r) s = .next (dieFrame s st r)) ∧
  (∀ (s : State) (st : Nat) (r : ImgRec), s.start.phase = .ready → rejoinAt s st 3 = true → (headerDies s.load.hdr).contains st = true → 
    exec (.frameArrival st r) s = .next (rejoinFrame s st r)) ∧
  (∀ (s u : State), s.start.phase = .clearing → u = slotUse (configClear s) 3 → 
    exec (.configCleared) s = .next (setStage { u with
        load := { hostNext := u.load.hostNext }
        start := { u.start with golden := true, phase := .s2Header, table := [], idx := 0 } } 2)) ∧
  (∀ (s : State), s.start.source = 1 ∨ s.start.source = 2 → s.start.phase = .s2Header ∨ s.start.phase = .s2Tables ∨ s.start.phase = .s3 ∨ s.start.phase = .s4 → 
    exec (.sourceTimeout) s = .next (startFail (ilFail s 0x1F 0xA none none) 0x0F)) ∧
  (∀ (s : State) (n : Nat), s.start.source = 2 → sourceWaits s = true → 
    exec (.hostPushWrite (s.load.hostNext % loadWindow) n) s = .next ({ s with load := { s.load with hostNext := s.load.hostNext + n } })) ∧
  (∀ (s : State) (a n : Nat), s.start.source = 2 → sourceWaits s = true → a ≠ s.load.hostNext % loadWindow → 
    exec (.hostPushWrite a n) s = .next (startFail (ilFail s 0x1F 9 none none) 0x0D)) ∧
  (∀ (s u : State) (k : Nat), s.start.phase = .s2HostHold → u = (if (mboxOf s 64).full then mbTaken s 64 else s) → 1 ≤ k ∧ k ≤ 3 → 
    exec (.holdStartCmd k) s = .next (pinStep (slotUse u k))) ∧
  (∀ (s u : State), s.start.phase = .s2HostHold → u = (if (mboxOf s 64).full then mbTaken s 64 else s) → 
    exec (.holdStartCmd 4) s = .next (pinStep { u with start := { u.start with source := 2 } })) ∧
  (∀ (s u : State) (k : Nat), s.start.phase = .s2HostHold → u = (if (mboxOf s 64).full then mbTaken s 64 else s) → k = 0 ∨ 4 < k → 
    exec (.holdStartCmd k) s = .next (putF u SQ SQ_CAUSE_FINAL_CAUSE 0x12)) ∧
  (∀ (s : State) (ps : List Nat), s.start.phase = .s5 → 
    exec (.memoryClearDone ps) s = .next (scansStart (setStage (stageEnd (s5Work s ps) 5) 6) (joinedFabric (s5Work s ps)))) ∧
  (∀ (s u : State), s.start.phase = .s6 → u = (if flag (journalScan (journalRead s)) CU CU_OSC_CTRL_XO_PREF && flag (journalScan (journalRead s)) CU CU_OSC_STAT_XO_B_OK
      then xoSwitchStart (journalScan (journalRead s)) true else journalScan (journalRead s)) → 
    exec (.journalRestore) s = .next (routesApply (setStage (stageEnd { u with start := { u.start with phase := .s7, idx := 0 } } 6) 7)))

/-- Keep: boot record, counters, transfers, journal and user area (06_keep.md). -/
def Obligations.KeepRowsComplete : Prop :=
  (∀ (s : State) (ini : Nat) (w : Word), writeOkAt s ini (KP + 0x054) w = true → wGet w 31 1 = 1 → 
    exec (.bootRecordWrite ini w) s = .next (answer (putFlag { setReg (storedAt s (KP + 0x054) w) (KP + 0x054) (getReg (reachAt s (KP + 0x054)) (KP + 0x054)) with
        keep := { (storedAt s (KP + 0x054) w).keep with bootWr := some (bootRecOf w) } } KP KP_BOOT_BUSY true) 0 0)) ∧
  (∀ (s u : State) (r : BootRec), s.keep.bootWr = some r → u = putFlag { s with keep := { s.keep with bootWr := none } } KP KP_BOOT_BUSY false → unitReadOnly u 13 (recUnit 0) = false → unitReadOnly u 14 (recUnit 0) = false → journalFirst s = false → 
    exec (.bootRecordDone false) s = .next (bootWrite u r)) ∧
  (∀ (s : State) (r : BootRec), s.keep.bootWr = some r → journalFirst s = false → 
    exec (.bootRecordDone true) s = .next (putFlag { s with keep := { s.keep with bootWr := none } } KP KP_BOOT_BUSY false)) ∧
  (∀ (s u : State) (ini k : Nat) (w : Word), k < 16 → writeOkAt s ini (KP + 0x080 + 4 * k) w = true → u = storedAt s (KP + 0x080 + 4 * k) w → 
    exec (.counterWrite ini k w) s = .next (answer (if ctrValue u k = some (wGet w 0 16) then u else ctrRaise u k (wGet w 0 16)) 0 0)) ∧
  (∀ (s u : State) (ini : Nat) (w : Word) (x : XferRun), writeOkAt s ini (KP + 0x068) (w ||| 0x80000000) = true → u = storedAt s (KP + 0x068) (w ||| 0x80000000) → x = ⟨wGet (w ||| 0x80000000) 0 2, wGet (w ||| 0x80000000) 2 1 = 1, getF u KP KP_XFER_OFF_UNIT, getF u KP KP_XFER_LEN_UNITS,
      getF u KP KP_XFER_SRC_LO_ADDR * 4096 + getF u KP KP_XFER_SRC_HI_ADDR * 2 ^ 32⟩ → 
    exec (.xferGo ini w) s = .next (answer (putF (putF { u with keep := { u.keep with xfer := some x } } KP KP_XFER_STAT_DONE 0) KP KP_XFER_STAT_RESULT 0xF) 0 0)) ∧
  (∀ (s : State) (x : XferRun) (n res : Nat) (errs : List (Nat × Nat × Nat)) (r : State × Nat), s.keep.xfer = some x → xferBusy s = true → (n ≤ x.len ∧ res ≤ 3 ∧ (res = 0 → n = x.len) ∧ (res = 3 ↔ s.keep.pfwLow = true)) → journalFirst s = false → busStall s 9 x.addr (4096 * n) = none → r = xferMove (errsMark s errs) x 0 n → 
    exec (.xferDone n res errs) s = .next (xferEnd r.1 (if r.2 = 0 then res else r.2))) ∧
  (∀ (s : State) (die blk : Nat), s.keep.windows.contains (pg die blk) = true → 
    exec (.journalWindowEnd die blk) s = .next (windowClose s (pg die blk))) ∧
  (∀ (s u : State) (j : Nat) (r : JUnit) (rest : List (Nat × JUnit)), s.keep.appends = (j, r) :: rest → u = putFlag (programUnit { s with keep := { s.keep with
        appends := rest
        journal := tabPut s.keep.journal j (some { r with committed := true })
        head := (j + 1) % 16384 } } (striped 2024 j).1 (striped 2024 j).2) (r.page * 4096) PG_STAT_RETAIN_STALE false → 
    exec (.journalCommit) s = .next (pinSafeRewrite (putF u KP KP_LIVE_PAGES (newest u).length) r)) ∧
  (∀ (s : State) (off : Nat) (bs : List (BitVec 8)), 
    exec (.userAreaWrite off bs) s = .next (answer (busWrite s 9 (0x32000000000 + off) bs).1 (busWrite s 9 (0x32000000000 + off) bs).2 0)) ∧
  (∀ (s : State) (n errs : Nat) (b : MergeBuf), (mergeOf s n).find? (·.unit == n) = some b → journalFirst s = false → 
    exec (.userUnitProgram n errs) s = .next (errsMark (userProgram s n) [((userUnit n).1, (userUnit n).2, errs)])) ∧
  (∀ (s u : State) (n errs : Nat) (b : MergeBuf), (mergeOf s n).find? (·.unit == n) = some b → journalFirst s = false → u = setMerge s n ((mergeOf s n).filter (·.unit != n)) → unitReadOnly u (userUnit n).1 (userUnit n).2 = false → 
    exec (.userUnitProgram n errs) s = .next (errsMark (programUnit { u with keep := { u.keep with
        user := b.bytes.foldl (fun m c => memPut m (4096 * n + c.1) c.2) u.keep.user } } (userUnit n).1 (userUnit n).2)
      [((userUnit n).1, (userUnit n).2, errs)]))

/-- Fabric: contention, network enables, crossing groups, capture, readback and EVO (07_fabric.md). -/
def Obligations.FabricRowsComplete : Prop :=
  (∀ (s u : State) (x : Frame) (die addr bit w n en : Nat), isFabric die = true → isolated s die = false → driverShape addr = some (w, n, en) → bit < 2048 → bit / w < n → bit % w < en → oneHot en (frGet (cfgSeen s die addr ^^^ (BitVec.ofNat 2048 1 <<< bit)) (w * (bit / w)) en) = false → x = cfgGet s die addr ^^^ (cfgSeen s die addr ^^^ (BitVec.ofNat 2048 1 <<< bit)) → u = countUp { s with fab := { s.fab with upset := tabPutD 0 s.fab.upset (cfgKey die addr) x } } (cfPage die) CF_CONT_CNT_COUNT 1 → 
    exec (.contentionDetected die addr bit) s = .next (raiseFrom (evtPulse (if flag u (cfPage die) CF_CONT_FIRST_VALID then u
        else putF (putF (putFlag u (cfPage die) CF_CONT_FIRST_VALID true) (cfPage die) CF_CONT_FIRST_FRAME addr)
          (cfPage die) CF_CONT_FIRST_FIELD (bit / w)) (cfPage die) 2) (cfPage die) 1 0x0401 addr)) ∧
  (∀ (s : State) (ini die r : Nat) (w : Word), r < 3 → writeOkAt s ini (cfPage die + 0x0A0 + 4 * r) w = true → 
    exec (.networkEnableWrite ini die r w) s = .next (answer (netWritten (storedAt s (cfPage die + 0x0A0 + 4 * r) w) die r
        (getReg (reachAt s (cfPage die + 0x0A0 + 4 * r)) (cfPage die + 0x0A0 + 4 * r))) 0 0)) ∧
  (∀ (s : State) (die side g : Nat), xgCan s die side g = true → 
    exec (.xgTrained die side g) s = .next (setReg s (xgReg die side g) (wPut (getReg s (xgReg die side g)) (g % 32) 1 1))) ∧
  (∀ (s : State) (die side g : Nat), xgCan s die side g = true → xgUp s die side g = false → 
    exec (.xgTrainTimeout die side g) s = .next (raiseFrom (evtPulse (countUp s (cfPage die) CF_XG_FAILCNT_COUNT 1) (cfPage die) 3) (cfPage die) 0 0x0402 (64 * side + g))) ∧
  (∀ (s : State) (ini die : Nat) (w : Word), writeOkAt s ini (cfPage die + 0x040) (w ||| 0x80000000) = true → 
    exec (.captureGo ini die w) s = .next (answer (capStart (storedAt s (cfPage die + 0x040) (w ||| 0x80000000)) die) 0 0)) ∧
  (∀ (s : State) (die : Nat), isFabric die = true → isolated s die = false → netRuns s die (getF s (cfPage die) CF_CAP_CTRL_TRIG_NET) = true → getF s (cfPage die) CF_CAP_CTRL_TRIG = 1 → enabled s (cfPage die) = true → flag s (cfPage die) CF_CAP_STAT_BUSY = false → 
    exec (.capTrig die) s = .next (capStart (putFlag s (cfPage die) PG_CTRL_ENABLE false) die)) ∧
  (∀ (s : State) (die : Nat), isFabric die = true → isolated s die = false → getF s (cfPage die) CF_CAP_CTRL_TRIG = 2 → enabled s (cfPage die) = true → flag s (cfPage die) CF_CAP_STAT_BUSY = false → 
    exec (.haltTrigger die) s = .next (capStart (putFlag s (cfPage die) PG_CTRL_ENABLE false) die)) ∧
  (∀ (s s1 u v : State) (die net : Nat) (r : CapRun), netRuns s die net = true → capHas s die net = false → capWants s die net = true → s1 = netRise s die net → (tabGet s1.fab.cap die).join = some r → r.left.contains net = true → u = capLatch { s1 with fab := { s1.fab with cap := tabPut s1.fab.cap die (some { r with left := setDel r.left net }) } } die net → v = setReg u (cfPage die + 0x054 + 4 * (net / 32)) (wPut (getReg u (cfPage die + 0x054 + 4 * (net / 32))) (net % 32) 1 1) → 
    exec (.captureEdge die net) s = .next (capSettle (if r.stop then netEnable v die net false else v) die)) ∧
  (∀ (s : State) (die net : Nat), netRuns s die net = true → capHas s die net = true → 
    exec (.captureEdge die net) s = .next (capTake (netRise s die net) die net)) ∧
  (∀ (s u : State) (die net : Nat) (r : CapRun), (tabGet s.fab.cap die).join = some r → r.left.contains net = true → u = { s with fab := { s.fab with cap := tabPut s.fab.cap die (some { r with left := setDel r.left net }) } } → 
    exec (.captureAbandon die net) s = .next (capSettle (putFlag u (cfPage die) CF_CAP_STAT_MISSED true) die)) ∧
  (∀ (s : State) (ini die : Nat), writeOkAt s ini (cfPage die + 0x080) 0x80000000 = true → 
    exec (.readbackGo ini die) s = .next (answer (rbStart (storedAt s (cfPage die + 0x080) 0x80000000) die) 0 0)) ∧
  (∀ (s : State) (die n : Nat) (be pfw : Bool) (r : RbRun) (c : State × Nat × Nat × Bool), (tabGet s.fab.rb die).join = some r → r.waiting = false → isolated s die = false → busStall s (24 + die) r.dst (256 * r.left) = none → c = readbackCopy s die r.frame r.dst (if be || pfw then min n r.left else r.left) 0 false → 
    exec (.readbackDone die n be pfw) s = .next (evtPulse (putF (putF { c.1 with fab := { c.1.fab with rb := tabDel c.1.fab.rb die } } (cfPage die) CF_RB_STAT_DONE c.2.2.1)
        (cfPage die) CF_RB_STAT_RESULT (if be || c.2.1 != 0 then 1 else if pfw then 3 else if c.2.2.2 then 2 else 0))
      (cfPage die) 1)) ∧
  (∀ (s : State) (die i v : Nat), isFabric die = true → i < 16 → releasedAt s die 375 = true → isolated s die = false → v = tabOr 0 s.fab.evo die → 
    exec (.evoToggle die i) s = .next (srcPulse { s with fab := { s.fab with evo := tabPutD 0 s.fab.evo die (nSet v i (!nBit v i)) } } (256 + 48 * die + 32 + i)))

/-- Bank memories: RAM accesses, queues, token pools, cascades and queue audits (08_memories.md). -/
def Obligations.BankRowsComplete : Prop :=
  (∀ (s u : State) (x x1 : Bank) (sh : Nat × Nat) (ecc : Bool) (a old mask v : Nat) (shown : Option Nat) (d : Option (Nat × Nat)) (now out : (BitVec 72 × Nat) × (BitVec 72 × Nat)) (die mem : Nat) (portB : Bool) (we : BitVec 8) (addr : Nat) (din : BitVec 72) (srst : Bool), bankClocked s die mem portB = true → bankCfg s die mem 0 4 2 = 0 → sh = shapeOf (bankWidth s die mem) → ecc = bankEcc s die mem → a = addr % sh.2 → x = bankMem s die mem → old = rowWord x sh.1 a → mask = weMask sh.1 ecc we.toNat → v = (if ecc then eccJoin (eccSplit din.toNat).1 else din.toNat) → x1 = rowPut x sh.1 a mask v → shown = (if mask = 0 then some old else if bankCfg s die mem 0 (if portB then 10 else 8) 2 = 1 then some (rowWord x1 sh.1 a)
        else if bankCfg s die mem 0 (if portB then 10 else 8) 2 = 2 then none else some old) → d = shown.map (eccDeliver ecc) → now = portNow x portB → out = portOut1 (bankCfg s die mem 0 (if portB then 13 else 12) 1 = 1) srst now.1 now.2 (d.map fun r => (BitVec.ofNat 72 r.1, r.2)) → u = bankErr (setBank s die mem (portPut x1 portB out)) die mem portB ((d.map (·.2)).getD 0) a → 
    exec (.bankAccess die mem portB true we addr din srst false) s = .next (u)) ∧
  (∀ (s : State) (die mem : Nat) (portB : Bool) (we : BitVec 8) (addr : Nat) (din : BitVec 72) (srst coll : Bool), bankClocked s die mem portB = true → 
    exec (.bankAccess die mem portB false we addr din srst coll) s = .next (portEdge s die mem portB srst)) ∧
  (∀ (s t : State) (die mem : Nat) (we : BitVec 8) (addr : Nat) (din : BitVec 72) (srst : Bool), bankClocked s die mem true = true → bankCfg s die mem 0 4 2 = 0 → (weMask (shapeOf (bankWidth s die mem)).1 (bankEcc s die mem) we.toNat != 0) = true → exec (.bankAccess die mem true true we addr din srst false) s = .next t → 
    exec (.bankAccess die mem true true we addr din srst true) s = .next (evtPulse (countUp t (bgPage die (mem / 32)) BG_COLL_CNT_COUNT 1) (bgPage die (mem / 32)) 3)) ∧
  (∀ (s : State) (e : Nat × Nat) (die mem : Nat) (din : BitVec 72) (popToo : Bool), bankClocked s die mem false = true → isFifo s die mem = true → e = queueEnds s die mem → e.1 = mem → writeView s die e ≠ queueCap s die e → (popToo && oneClock s die mem && decide (headView s die e ≠ 0)) = false → 
    exec (.fifoPush die mem din popToo) s = .next (queuePush s die e din)) ∧
  (∀ (s : State) (e : Nat × Nat) (die mem : Nat) (din : BitVec 72), bankClocked s die mem false = true → isFifo s die mem = true → e = queueEnds s die mem → e.1 = mem → oneClock s die mem = true → headView s die e ≠ 0 → 
    exec (.fifoPush die mem din true) s = .next (queuePush (queuePop s die e) die e din)) ∧
  (∀ (s : State) (e : Nat × Nat) (die mem : Nat), bankClocked s die mem true = true → isFifo s die mem = true → e = queueEnds s die mem → e.2 = mem → headView s die e ≠ 0 → 
    exec (.fifoPop die mem) s = .next (queuePop s die e)) ∧
  (∀ (s : State) (die mem : Nat), bankClocked s die mem false = true → bankCfg s die mem 0 4 2 = 3 → 
    exec (.tokenGive die mem) s = .next (poolGive s die mem)) ∧
  (∀ (s : State) (die mem : Nat), bankClocked s die mem true = true → bankCfg s die mem 0 4 2 = 3 → (bankMem s die mem).unseenW < (bankMem s die mem).tok → 
    exec (.tokenTake die mem false) s = .next (poolGrant (poolTake s die mem) die mem true)) ∧
  (∀ (s : State) (die mem : Nat), bankClocked s die mem true = true → bankCfg s die mem 0 4 2 = 3 → oneClock s die mem = true → tokMax s die mem ≠ 0 ∨ (bankMem s die mem).unseenW < (bankMem s die mem).tok → 
    exec (.tokenTake die mem true) s = .next (poolGrant (poolTake (poolGive s die mem) die mem) die mem true)) ∧
  (∀ (s : State) (e : Nat × Nat) (die mem : Nat) (v : BitVec 72) (rest : List (BitVec 72)), cascade s die mem = some e → bankClocked s die e.1 false = true → mem < e.2 → (bankMem s die (mem + 1)).q.length < (shapeOf (bankWidth s die mem)).2 → (bankMem s die mem).q = v :: rest → 
    exec (.cascadeForward die mem) s = .next (stagePut (setBank s die mem { bankMem s die mem with q := rest }) die (mem + 1) v)) ∧
  (∀ (s : State) (die mem : Nat), mem < 2048 → 
    exec (.queueViewSync die mem false true) s = .next (setBank s die mem { bankMem s die mem with unseenW := (bankMem s die mem).unseenW - 1 })) ∧
  (∀ (s : State) (die mem : Nat), mem < 2048 → 
    exec (.queueViewSync die mem false false) s = .next (setBank s die mem { bankMem s die mem with unseenR := (bankMem s die mem).unseenR - 1 })) ∧
  (∀ (s : State) (die mem : Nat), mem < 32 → 
    exec (.queueViewSync die mem true true) s = .next (setDeep s die mem { deepMem s die mem with unseenW := (deepMem s die mem).unseenW - 1 })) ∧
  (∀ (s : State) (die mem : Nat), mem < 32 → 
    exec (.queueViewSync die mem true false) s = .next (setDeep s die mem { deepMem s die mem with unseenR := (deepMem s die mem).unseenR - 1 })) ∧
  (∀ (s : State) (die mem : Nat), isFabric die = true → isolated s die = false → mem < 32 → deepFifo s die mem = true → 
    exec (.queueAudit die mem true) s = .next (audit s 0 (dmPage die mem) (regBlk (dmPage die mem)) (decide ((deepMem s die mem).q.length =
        (getF s (dmPage die mem) DM_WACC_COUNT + 2 ^ 32 - getF s (dmPage die mem) DM_RDEL_COUNT) % 2 ^ 32)))) ∧
  (∀ (s : State) (e : Nat × Nat) (die mem : Nat), isFabric die = true → isolated s die = false → mem < 2048 → e = queueEnds s die mem → e.2 = mem → isFifo s die mem = true → bankCfg s die mem 0 4 2 ≠ 3 → 
    exec (.queueAudit die mem false) s = .next (audit s 0 (bgPage die (mem / 32)) (regBlk (bgPage die (mem / 32))) (decide (queueOcc s die e =
        (getF s (bgPage die (e.1 / 32)) (BG_WACC_COUNT.nth (e.1 % 32)) + 2 ^ 32
          - getF s (bgPage die (mem / 32)) (BG_RDEL_COUNT.nth (mem % 32))) % 2 ^ 32)))) ∧
  (∀ (s : State) (e : Nat × Nat) (die mem : Nat), isFabric die = true → isolated s die = false → mem < 2048 → e = queueEnds s die mem → e.2 = mem → bankCfg s die mem 0 4 2 = 3 → 
    exec (.queueAudit die mem false) s = .next (audit s 0 (bgPage die (mem / 32)) (regBlk (bgPage die (mem / 32))) (decide ((bankMem s die mem).tok =
        (tokInit s die mem + getF s (bgPage die (e.1 / 32)) (BG_WACC_COUNT.nth (e.1 % 32)) + 2 ^ 32
          - getF s (bgPage die (mem / 32)) (BG_RDEL_COUNT.nth (mem % 32))) % 2 ^ 32))))

/-- Deep memories: fabric requests and answers, NoC windows, write back and patrol (08_memories.md). -/
def Obligations.DeepRowsComplete : Prop :=
  (∀ (s : State) (x : Deep) (die mem : Nat) (we : Bool) (addr : Nat) (data : BitVec 64) (be : BitVec 8), deepClocked s die mem = true → deepFifo s die mem = false → (deepMem s die mem).reqs.length < 16 → x = { deepMem s die mem with rspValid := false } → 
    exec (.dmFabricRequest die mem we addr data be) s = .next (setDeep (setDeep s die mem x) die mem { x with
        reqs := x.reqs ++ [{ we := we, addr := addr % 131072, data := data, be := be }] })) ∧
  (∀ (s u : State) (die mem addr : Nat) (data : BitVec 64) (be : BitVec 8), deepClocked s die mem = true → deepFifo s die mem = true → u = setDeep s die mem { deepMem s die mem with rspValid := false } → deepPushNoc u die mem = false → 
    exec (.dmFabricRequest die mem true addr data be) s = .next (if deepWriteView u die mem = 131072 then evtPulse (countUp u (dmPage die mem) DM_QREJ_CNT_COUNT 1) (dmPage die mem) 3
      else deepPush u die mem data.toNat)) ∧
  (∀ (s u : State) (die mem addr : Nat) (data : BitVec 64) (be : BitVec 8) (r : State × Nat × Bool), deepClocked s die mem = true → deepFifo s die mem = true → u = setDeep s die mem { deepMem s die mem with rspValid := false } → deepPopNoc u die mem = false → deepReadView u die mem ≠ 0 → r = deepPop u die mem 0 → 
    exec (.dmFabricRequest die mem false addr data be) s = .next (setDeep r.1 die mem { deepMem r.1 die mem with rspData := BitVec.ofNat 64 r.2.1, rspErr := r.2.2 })) ∧
  (∀ (s u : State) (die mem : Nat) (r : DmReq) (rest : List DmReq) (v : State × Nat × Bool), deepClocked s die mem = true → (deepMem s die mem).reqs = r :: rest → r.we = false → u = setDeep s die mem { deepMem s die mem with reqs := rest } → v = deepRead u die mem r.addr 0 → 
    exec (.dmFabricResponse die mem) s = .next (setDeep v.1 die mem { deepMem v.1 die mem with rspValid := true, rspData := BitVec.ofNat 64 v.2.1, rspErr := v.2.2 })) ∧
  (∀ (s u t : State) (die mem : Nat) (r : DmReq) (rest : List DmReq) (v : Nat × State), deepClocked s die mem = true → (deepMem s die mem).reqs = r :: rest → r.we = true → r.be = 0xFF → u = setDeep s die mem { deepMem s die mem with reqs := rest } → t = deepPut u die mem r.addr (eccWord (ofBytes ((List.range 8).map fun i => BitVec.ofNat 8 (r.data.toNat / 256 ^ i)))) → v = freeVal t 64 → 
    exec (.dmFabricResponse die mem) s = .next (setDeep v.2 die mem { deepMem v.2 die mem with rspValid := true, rspData := BitVec.ofNat 64 v.1, rspErr := false })) ∧
  (∀ (s u w t : State) (die mem : Nat) (r : DmReq) (rest : List DmReq) (old : Nat × Nat) (v : Nat × State), deepClocked s die mem = true → (deepMem s die mem).reqs = r :: rest → r.we = true → r.be ≠ 0xFF → u = setDeep s die mem { deepMem s die mem with reqs := rest } → old = eccRead (tabOr 0 (deepMem s die mem).words r.addr) → w = deepErr u die mem r.addr old.2 0 false → t = (if old.2 = 2 then w else deepPut w die mem r.addr (eccWord (ofBytes ((List.range 8).map fun i =>
        BitVec.ofNat 8 ((if r.be.getLsbD i then r.data.toNat else old.1) / 256 ^ i))))) → v = freeVal t 64 → 
    exec (.dmFabricResponse die mem) s = .next (setDeep v.2 die mem { deepMem v.2 die mem with rspValid := true, rspData := BitVec.ofNat 64 v.1, rspErr := decide (old.2 = 2) })) ∧
  (∀ (s u : State) (die mem : Nat) (we : Bool) (off len : Nat) (bytes : List (BitVec 8)) (r : State × Nat × List Byte), isFabric die = true → isolated s die = false → mem < 32 → u = domTouch (nocClock s die) die (deepDomain mem) → (domOf u die (deepDomain mem)).state < 2 → deepFifo u die mem = false → (we = true → bytes.length = len) → r = deepNoc u die mem we off len bytes → 
    exec (.dmNocAccess die mem we off len bytes) s = .next (answer r.1 r.2.1 (ofBytes r.2.2))) ∧
  (∀ (s u : State) (die mem off : Nat) (bytes : List (BitVec 8)) (r : State × Nat), isFabric die = true → isolated s die = false → mem < 32 → u = domTouch (nocClock s die) die (deepDomain mem) → (domOf u die (deepDomain mem)).state < 2 → deepFifo u die mem = true → r = deepNocPush u die mem off bytes → 
    exec (.dmNocPush die mem off bytes) s = .next (answer r.1 r.2 0)) ∧
  (∀ (s u : State) (die mem off len : Nat) (peek : Bool) (r : State × Nat × List Byte), isFabric die = true → isolated s die = false → mem < 32 → u = domTouch (nocClock s die) die (deepDomain mem) → (domOf u die (deepDomain mem)).state < 2 → deepFifo u die mem = true → r = deepNocPop u die mem off len peek → 
    exec (.dmNocPop die mem off len peek) s = .next (answer r.1 r.2.1 (ofBytes r.2.2))) ∧
  (∀ (s : State) (die mem w : Nat) (v : BitVec 72) (rest : List (Nat × BitVec 72)), (deepMem s die mem).wb = (w, v) :: rest → deepReach s die mem = true → 
    exec (.dmWriteback die mem) s = .next (deepPut s die mem w v)) ∧
  (∀ (s : State) (die mem : Nat), deepReach s die mem = true → gateShut s (8 + die) = false → flag s (dmPage die mem) DM_CTRL_PATROL_EN = true → deepFifo s die mem = false → 
    exec (.dmPatrolRead die mem) s = .next (patrolNext (deepRead s die mem (deepMem s die mem).patrol 2).1 die mem (deepMem s die mem).patrol 131072)) ∧
  (∀ (s : State) (die mem : Nat) (v : BitVec 72), deepReach s die mem = true → gateShut s (8 + die) = false → flag s (dmPage die mem) DM_CTRL_PATROL_EN = true → deepFifo s die mem = true → (deepMem s die mem).q[(deepMem s die mem).patrol]? = some v → 
    exec (.dmPatrolRead die mem) s = .next (patrolNext (patrolEntry s die mem (deepMem s die mem).patrol v) die mem (deepMem s die mem).patrol (deepMem s die mem).q.length))

/-- IC_CMD: FENCE, UNFENCE, HOLD, RELEASE and RELOAD, and the end of a release (09_partitions.md). -/
def Obligations.PartitionCommandsComplete : Prop :=
  (∀ (s u : State) (ini die part : Nat) (e : PartEntry), part < 64 → writeOkAt s ini (icPage die + 0x050) (partWord 1 part) = true → u = storedAt s (icPage die + 0x050) (partWord 1 part) → (dieParts u die).find? (·.no == part) = some e → 
    exec (.fence ini die part) s = .next (answer (if partStateOn u die part = pLive then partMove u e pFenced else u) 0 0)) ∧
  (∀ (s u : State) (ini die part : Nat) (e : PartEntry), part < 64 → writeOkAt s ini (icPage die + 0x050) (partWord 2 part) = true → u = storedAt s (icPage die + 0x050) (partWord 2 part) → (dieParts u die).find? (·.no == part) = some e → 
    exec (.unfence ini die part) s = .next (answer (if partStateOn u die part = pFenced then partMove u e pLive else u) 0 0)) ∧
  (∀ (s u : State) (ini die part : Nat) (e : PartEntry), part < 64 → writeOkAt s ini (icPage die + 0x050) (partWord 3 part) = true → u = storedAt s (icPage die + 0x050) (partWord 3 part) → (dieParts u die).find? (·.no == part) = some e → 
    exec (.hold ini die part) s = .next (answer (if partStateOn u die part = pHeld then u else partMove u e pHeld) 0 0)) ∧
  (∀ (s u : State) (ini die part : Nat) (e : PartEntry), part < 64 → writeOkAt s ini (icPage die + 0x050) (partWord 4 part) = true → u = storedAt s (icPage die + 0x050) (partWord 4 part) → (dieParts u die).find? (·.no == part) = some e → 
    exec (.release ini die part) s = .next (answer (if partStateOn u die part = pLive then u else partRelease u e) 0 0)) ∧
  (∀ (s u : State) (ini die part : Nat) (e : PartEntry), part < 64 → writeOkAt s ini (icPage die + 0x050) (partWord 5 part) = true → u = storedAt s (icPage die + 0x050) (partWord 5 part) → (dieParts u die).find? (·.no == part) = some e → 
    exec (.reload ini die part) s = .next (answer (reloadStart u e) 0 0)) ∧
  (∀ (s u : State) (die part : Nat) (e : PartEntry), (dieParts s die).find? (·.no == part) = some e → s.part.releasing.contains part = true → releasePassed s e = true → u = { s with part := { s.part with releasing := setDel s.part.releasing part } } → 
    exec (.releaseComplete die part) s = .next (evtPulse (portsFollow ((partEngs e).foldl (fun s x => engRelease s die x) (partSet u e pLive)) die) (icPage die) 2))

/-- Partial loads over the internal port, and the groups of a RELOAD (09_partitions.md). -/
def Obligations.PartialLoadComplete : Prop :=
  (∀ (s u v : State) (die : Nat) (word : BitVec 64) (last : Bool) (l : IcpLoad), icpReady s die = true → u = (if (icpLoad s die).isSome then s else icpBegin s die) → icpLoad u die = some l → l.entered = false → icpWordBad l word last = none → v = icpPut u die { l with bytes := l.bytes + 8, last := last, buf := l.buf ++ [] } → 
    exec (.icpWord die word last) s = .next (if 4097 ≤ l.bytes + 8 then putFlag v (icPage die) IC_STAT_SIGCHK true else v)) ∧
  (∀ (s v : State) (die : Nat) (word : BitVec 64) (last : Bool) (l : IcpLoad), icpReady s die = true → icpLoad s die = some l → l.entered = true → icpWordBad l word last = none → v = icpPut s die { l with bytes := l.bytes + 8, last := last, buf := l.buf ++ icpBytes l word } → 
    exec (.icpWord die word last) s = .next (icpFinish v die)) ∧
  (∀ (s u v : State) (die : Nat) (word : BitVec 64) (last : Bool) (l : IcpLoad) (r : Nat), icpReady s die = true → u = (if (icpLoad s die).isSome then s else icpBegin s die) → icpLoad u die = some l → icpWordBad l word last = some r → v = icpPut u die { l with bytes := l.bytes + 8, last := last, buf := l.buf ++ (if l.entered then icpBytes l word else []) } → 
    exec (.icpWord die word last) s = .next (icpFail v die r)) ∧
  (∀ (s : State) (die : Nat), (icpLoad s die).isSome = true → flag s (icPage die) IC_STAT_RELOAD = false → 
    exec (.icpAbort die) s = .next (icpFail s die 0xC)) ∧
  (∀ (s : State) (die : Nat) (l : IcpLoad), icpLoad s die = some l → flag s (icPage die) IC_STAT_RELOAD = false → 
    exec (.icpDataTimeout die) s = .next (icpFail s die 0xD)) ∧
  (∀ (s : State) (die : Nat) (h : Header) (keyHash : Nat) (sigOk : Bool) (nodes : List (BitVec 256)) (l : IcpLoad) (r : Nat), icpLoad s die = some l → l.entered = false → flag s (icPage die) IC_STAT_RELOAD = false → partialResult s die h keyHash sigOk = some r → (if r < 5 then 1024 else 4097) ≤ l.bytes → 
    exec (.icpHeaderChecked die h keyHash sigOk nodes) s = .next (icpFail (putFlag (putF s (icPage die) IC_STAT_PART h.part.partNo) (icPage die) IC_STAT_SIGCHK false) die r)) ∧
  (∀ (s u : State) (die : Nat) (h : Header) (keyHash : Nat) (sigOk : Bool) (nodes : List (BitVec 256)) (l : IcpLoad) (e : PartEntry) (st : Nat), icpLoad s die = some l → l.entered = false → flag s (icPage die) IC_STAT_RELOAD = false → partialResult s die h keyHash sigOk = none → 4097 ≤ l.bytes → (dieParts s die).find? (·.no == h.part.partNo) = some e → u = putFlag (putF s (icPage die) IC_STAT_PART h.part.partNo) (icPage die) IC_STAT_SIGCHK false → st = partStateOn u die e.no → 
    exec (.icpHeaderChecked die h keyHash sigOk nodes) s = .next (icpPut (if st = pLive then fenceOn (partLoading u e) e else partLoading u e) die
      { l with hdr := h, nodes := nodes, entered := true, before := st })) ∧
  (∀ (s : State) (die : Nat) (l : IcpLoad) (e : PartEntry) (n : Nat), icpLoad s die = some l → partEntry s (getF s (icPage die) IC_STAT_PART) = some e → l.entered = true → flag s (icPage die) IC_STAT_RELOAD = false → e.die = die → scrubHolds s e = false → l.prog.frames ≠ (icpStream l.hdr).frames → n = min 256 ((icpStream l.hdr).frames - 256 * l.group) → 
    exec (.icpGroupWrite die) s = .next (icpGroupIn s die e l (icpRecs l n))) ∧
  (∀ (s : State) (die g : Nat) (rest : List Nat) (recs : List ImgRec) (l : IcpLoad) (e : PartEntry) (x : StreamDesc), icpLoad s die = some l → partEntry s (getF s (icPage die) IC_STAT_PART) = some e → l.todo = g :: rest → flag s (icPage die) IC_STAT_RELOAD = true → e.die = die → scrubHolds s e = false → x = hdrStream s.load.hdr die → recs.length = min 256 (x.frames - 256 * (g - x.firstGroup)) → 
    exec (.reloadGroup die recs) s = .next (reloadGroupIn s die g e l recs))

/-- Loop engine, C slot: branches, loops, moves, descriptors and TRAP issue whole (10_loop_engines.md, 11_loop_programs.md). -/
def Obligations.LeControlRowsComplete : Prop :=
  (∀ (s : State) (die eng : Nat) (i : LeInstr), issues s die eng i = true → i.c = .nop → 
    exec (.cNop die eng) s = .next (issued s die eng i)) ∧
  (∀ (s : State) (die eng : Nat) (i : LeInstr), issues s die eng i = true → i.c = .end_ → 
    exec (.endOp die eng) s = .next (issued s die eng i)) ∧
  (∀ (s : State) (die eng : Nat) (i : LeInstr) (t : Nat), issues s die eng i = true → i.c = .br 0 t → 
    exec (.br die eng t) s = .next (issued s die eng i)) ∧
  (∀ (s : State) (die eng : Nat) (i : LeInstr) (t : Nat), issues s die eng i = true → i.c = .br 1 t → 
    exec (.bz die eng t) s = .next (issued s die eng i)) ∧
  (∀ (s : State) (die eng : Nat) (i : LeInstr) (t : Nat), issues s die eng i = true → i.c = .br 2 t → 
    exec (.bnz die eng t) s = .next (issued s die eng i)) ∧
  (∀ (s : State) (die eng : Nat) (i : LeInstr) (t : Nat), issues s die eng i = true → i.c = .br 3 t → 
    exec (.bn die eng t) s = .next (issued s die eng i)) ∧
  (∀ (s : State) (die eng : Nat) (i : LeInstr) (t : Nat), issues s die eng i = true → i.c = .br 4 t → 
    exec (.bnn die eng t) s = .next (issued s die eng i)) ∧
  (∀ (s : State) (die eng : Nat) (i : LeInstr) (t : Nat), issues s die eng i = true → i.c = .br 5 t → 
    exec (.bsl die eng t) s = .next (issued s die eng i)) ∧
  (∀ (s : State) (die eng : Nat) (i : LeInstr) (t : Nat), issues s die eng i = true → i.c = .call t → 
    exec (.call die eng t) s = .next (issued s die eng i)) ∧
  (∀ (s : State) (die eng : Nat) (i : LeInstr), issues s die eng i = true → i.c = .ret → 
    exec (.ret die eng) s = .next (issued s die eng i)) ∧
  (∀ (s : State) (die eng : Nat) (i : LeInstr) (t : Nat), issues s die eng i = true → i.c = .lexit t → 
    exec (.lexit die eng t) s = .next (issued s die eng i)) ∧
  (∀ (s : State) (die eng : Nat) (i : LeInstr) (r len : Nat), issues s die eng i = true → i.c = .loopd r len → 
    exec (.loopd die eng r len) s = .next (issued s die eng i)) ∧
  (∀ (s : State) (die eng : Nat) (i : LeInstr) (len n : Nat), issues s die eng i = true → i.c = .loopi len n → 
    exec (.loopi die eng len n) s = .next (issued s die eng i)) ∧
  (∀ (s : State) (die eng : Nat) (i : LeInstr) (reg r : Nat), issues s die eng i = true → i.c = .movto reg r → 
    exec (.movto die eng reg r) s = .next (issued s die eng i)) ∧
  (∀ (s : State) (die eng : Nat) (i : LeInstr) (reg r : Nat), issues s die eng i = true → i.c = .movfrom reg r → 
    exec (.movfrom die eng reg r) s = .next (issued s die eng i)) ∧
  (∀ (s : State) (die eng : Nat) (i : LeInstr) (reg imm : Nat), issues s die eng i = true → i.c = .setr reg imm → 
    exec (.setr die eng reg imm) s = .next (issued s die eng i)) ∧
  (∀ (s : State) (die eng : Nat) (i : LeInstr) (k : Nat), issues s die eng i = true → i.c = .ngo k → 
    exec (.ngo die eng k) s = .next (issued s die eng i)) ∧
  (∀ (s : State) (die eng : Nat) (i : LeInstr) (mask : Nat), issues s die eng i = true → i.c = .nwait mask → 
    exec (.nwait die eng mask) s = .next (issued s die eng i)) ∧
  (∀ (s : State) (die eng : Nat) (i : LeInstr) (mask : Nat), issues s die eng i = true → i.c = .clrf mask → 
    exec (.clrf die eng mask) s = .next (issued s die eng i)) ∧
  (∀ (s : State) (die eng : Nat) (i : LeInstr), atInstr s die eng i = true → i.c = .trap → leIllegal (leFetched s die eng) die eng (engOf (leFetched s die eng) die eng) i = false → 
    exec (.trap die eng) s = .next (leExc (leFetched s die eng) die eng excTrap (engOf (leFetched s die eng) die eng).pc.toNat))

/-- Loop engine, X, Y and M slots: every operation issues whole (10_loop_engines.md, 11_loop_programs.md). -/
def Obligations.LeDataRowsComplete : Prop :=
  (∀ (s : State) (die eng : Nat) (w : LeInstr) (y : Bool), issues s die eng w = true → slotOf w y = .nop → 
    exec (.xyNop die eng y) s = .next (issued s die eng w)) ∧
  (∀ (s : State) (die eng : Nat) (w : LeInstr) (y : Bool) (port g : Nat), issues s die eng w = true → slotOf w y = .pop port g → 
    exec (.pop die eng y port g) s = .next (issued s die eng w)) ∧
  (∀ (s : State) (die eng : Nat) (w : LeInstr) (y : Bool) (port g : Nat) (last : Bool), issues s die eng w = true → slotOf w y = .push port g last → 
    exec (.push die eng y port g last) s = .next (issued s die eng w)) ∧
  (∀ (s : State) (die eng : Nat) (w : LeInstr) (y : Bool) (i am r : Nat) (q : Bool), issues s die eng w = true → slotOf w y = .ld i am r q → 
    exec (.ld die eng y i am r q) s = .next (issued s die eng w)) ∧
  (∀ (s : State) (die eng : Nat) (w : LeInstr) (y : Bool) (i am r : Nat) (q : Bool), issues s die eng w = true → slotOf w y = .st i am r q → 
    exec (.st die eng y i am r q) s = .next (issued s die eng w)) ∧
  (∀ (s : State) (die eng : Nat) (w : LeInstr) (y : Bool) (i am : Nat), issues s die eng w = true → slotOf w y = .pmod i am → 
    exec (.pmod die eng y i am) s = .next (issued s die eng w)) ∧
  (∀ (s : State) (die eng : Nat) (i : LeInstr), issues s die eng i = true → i.m.mop = 0 → 
    exec (.mNop die eng) s = .next (issued s die eng i)) ∧
  (∀ (s : State) (die eng : Nat) (i : LeInstr) (f : MFields), issues s die eng i = true → i.m = { mop := 1, f := f } → 
    exec (.mul die eng f) s = .next (issued s die eng i)) ∧
  (∀ (s : State) (die eng : Nat) (i : LeInstr) (f : MFields), issues s die eng i = true → i.m = { mop := 2, f := f } → 
    exec (.mac die eng f) s = .next (issued s die eng i)) ∧
  (∀ (s : State) (die eng : Nat) (i : LeInstr) (f : MFields), issues s die eng i = true → i.m = { mop := 3, f := f } → 
    exec (.msu die eng f) s = .next (issued s die eng i)) ∧
  (∀ (s : State) (die eng : Nat) (i : LeInstr) (f : MFields), issues s die eng i = true → i.m = { mop := 4, f := f } → 
    exec (.clr die eng f) s = .next (issued s die eng i)) ∧
  (∀ (s : State) (die eng : Nat) (i : LeInstr) (f : MFields), issues s die eng i = true → i.m = { mop := 5, f := f } → 
    exec (.lda die eng f) s = .next (issued s die eng i)) ∧
  (∀ (s : State) (die eng : Nat) (i : LeInstr) (f : MFields), issues s die eng i = true → i.m = { mop := 6, f := f } → 
    exec (.ada die eng f) s = .next (issued s die eng i)) ∧
  (∀ (s : State) (die eng : Nat) (i : LeInstr) (f : MFields), issues s die eng i = true → i.m = { mop := 7, f := f } → 
    exec (.sba die eng f) s = .next (issued s die eng i)) ∧
  (∀ (s : State) (die eng : Nat) (i : LeInstr) (f : MFields), issues s die eng i = true → i.m = { mop := 8, f := f } → 
    exec (.aadd die eng f) s = .next (issued s die eng i)) ∧
  (∀ (s : State) (die eng : Nat) (i : LeInstr) (f : MFields), issues s die eng i = true → i.m = { mop := 9, f := f } → 
    exec (.asub die eng f) s = .next (issued s die eng i)) ∧
  (∀ (s : State) (die eng : Nat) (i : LeInstr) (f : MFields), issues s die eng i = true → i.m = { mop := 10, f := f } → 
    exec (.acpy die eng f) s = .next (issued s die eng i)) ∧
  (∀ (s : State) (die eng : Nat) (i : LeInstr) (f : MFields), issues s die eng i = true → i.m = { mop := 11, f := f } → 
    exec (.aneg die eng f) s = .next (issued s die eng i)) ∧
  (∀ (s : State) (die eng : Nat) (i : LeInstr) (f : MFields), issues s die eng i = true → i.m = { mop := 12, f := f } → 
    exec (.amin die eng f) s = .next (issued s die eng i)) ∧
  (∀ (s : State) (die eng : Nat) (i : LeInstr) (f : MFields), issues s die eng i = true → i.m = { mop := 13, f := f } → 
    exec (.amax die eng f) s = .next (issued s die eng i)) ∧
  (∀ (s : State) (die eng : Nat) (i : LeInstr) (f : MFields), issues s die eng i = true → i.m = { mop := 14, f := f } → 
    exec (.ext die eng f) s = .next (issued s die eng i)) ∧
  (∀ (s : State) (die eng : Nat) (i : LeInstr) (f : MFields), issues s die eng i = true → i.m = { mop := 15, f := f } → 
    exec (.smax die eng f) s = .next (issued s die eng i)) ∧
  (∀ (s : State) (die eng : Nat) (i : LeInstr) (f : MFields), issues s die eng i = true → i.m = { mop := 16, f := f } → 
    exec (.smin die eng f) s = .next (issued s die eng i)) ∧
  (∀ (s : State) (die eng : Nat) (i : LeInstr) (f : MFields), issues s die eng i = true → i.m = { mop := 17, f := f } → 
    exec (.rmax die eng f) s = .next (issued s die eng i)) ∧
  (∀ (s : State) (die eng : Nat) (i : LeInstr) (f : MFields), issues s die eng i = true → i.m = { mop := 18, f := f } → 
    exec (.rmin die eng f) s = .next (issued s die eng i))

/-- Loop engines: LE_MDATA, LE_CMD, fabric starts and the start queue (10_loop_engines.md, 11_loop_programs.md). -/
def Obligations.EngineCommandsComplete : Prop :=
  (∀ (s : State) (ini die eng : Nat) (w : Word), eng < 288 → writeOkAt s ini (lePage die eng + 0x064) w = true → 
    exec (.leMdataWrite ini die eng w) s = .next (answer (mdataPut (setReg (storedAt s (lePage die eng + 0x064) w) (lePage die eng + 0x064)
        (getReg (reachAt s (lePage die eng + 0x064)) (lePage die eng + 0x064))) die eng w.toNat) 0 0)) ∧
  (∀ (s u : State) (r : State × Nat × Option Nat) (ini die eng : Nat), eng < 288 → reaches s ini die (0x6000 + eng) 0x064 false = true → u = reach s die (0x6000 + eng) 0x064 false → r = mdataGet u die eng → r.2.2 = none → 
    exec (.leMdataRead ini die eng) s = .next (answer r.1 0 r.2.1)) ∧
  (∀ (s u : State) (r : State × Nat × Option Nat) (ini die eng code : Nat), eng < 288 → reaches s ini die (0x6000 + eng) 0x064 false = true → u = reach s die (0x6000 + eng) 0x064 false → r = mdataGet u die eng → r.2.2 = some code → 
    exec (.leMdataRead ini die eng) s = .next (regAnswer (pageFault r.1 (lePage die eng) code) ini (pg die (0x6000 + eng) + 0x064) false 4 0)) ∧
  (∀ (s u : State) (ini die eng vec : Nat), eng < 288 → writeOkAt s ini (lePage die eng + 0x04C) (BitVec.ofNat 32 (2 ^ 31 + vec % 8)) = true → u = storedAt s (lePage die eng + 0x04C) (BitVec.ofNat 32 (2 ^ 31 + vec % 8)) → 
    exec (.leStart ini die eng vec) s = .next (answer (startPush u die eng { src := .software, vec := vec % 8, arg := BitVec.ofNat 24 (getF u (lePage die eng) LE_ARG_ARG) }) 0 0)) ∧
  (∀ (s u : State) (ini die eng : Nat), eng < 288 → writeOkAt s ini (lePage die eng + 0x04C) 0x40000000 = true → u = storedAt s (lePage die eng + 0x04C) 0x40000000 → 
    exec (.leAbort ini die eng) s = .next (answer (if (engOf u die eng).cur.isSome then engAbort u die eng false .idle else u) 0 0)) ∧
  (∀ (s u : State) (ini die eng : Nat), eng < 288 → writeOkAt s ini (lePage die eng + 0x04C) 0x20000000 = true → u = storedAt s (lePage die eng + 0x04C) 0x20000000 → (engOf u die eng).mode = .exc → 
    exec (.leClear ini die eng) s = .next (answer (leSettle (putFlag (setEng u die eng { engOf u die eng with mode := idleMode u die eng .idle, before := .idle }) (lePage die eng) LE_EXC_VALID false) die eng) 0 0)) ∧
  (∀ (s : State) (die eng vec : Nat) (arg : BitVec 24), portsLive s die eng = true → (domOf s die (16 + eng / 72)).state < 2 → startRefused s die eng 0 = none → 
    exec (.fabricStart die eng vec arg) s = .next (startPush s die eng { src := .fabric, vec := vec % 8, arg := arg })) ∧
  (∀ (s : State) (die eng vec : Nat) (arg : BitVec 24), portsLive s die eng = true → 2 ≤ (domOf s die (16 + eng / 72)).state → 
    exec (.fabricStart die eng vec arg) s = .next (domTouch s die (16 + eng / 72))) ∧
  (∀ (s u v : State) (die eng : Nat) (a : LeStart) (q : List LeStart) (r : Nat × Nat) (y : Engine), (engOf s die eng).startq = a :: q → (engOf s die eng).mode = .idle → leFrozen s die eng = false → gateShut s (16 + die) = false → r = eccRead (imemWord (engOf s die eng) a.vec) → u = putF (setOpen (shadowApply s (lePage die eng)) die eng false) (lePage die eng) LE_PC_SRC (srcCode a.src) → v = (if r.2 = 1 then evtPulse (countUp u (lePage die eng) LE_ERR_SBE 1) (lePage die eng) 3 else u) → y = { engOf s die eng with startq := q, cur := some a, mode := .run, ending := none, stall := 0, bpPassed := none, haz := [] } → 
    exec (.startDequeue die eng) s = .next (if r.2 = 2 then leExc (setEng v die eng y) die eng excImem a.vec
      else if (r.1 / 2 ^ 11 % 2 ^ 5 != 0 || r.1 / 2 ^ 24 != 0) = true then leExc (setEng v die eng y) die eng excIllegal a.vec
      else setEng v die eng (setD { y with pc := BitVec.ofNat 11 r.1, ctx := BitVec.ofNat 8 (r.1 / 2 ^ 16), ldepth := 0 } 15 a.arg))) ∧
  (∀ (s : State) (die set : Nat), setIdle s die set = true → s.le.gated.contains (setKey die set) = false → 
    exec (.setGateRequest die set) s = .next ({ s with le := { s.le with gateReq := setAdd s.le.gateReq (setKey die set) } }))

/-- Loop engines: runs, stalls, streams, descriptors, direct mode, breakpoints and watches (10_loop_engines.md, 11_loop_programs.md). -/
def Obligations.EngineEventsComplete : Prop :=
  (∀ (s : State) (die eng : Nat) (y : Engine), (engOf s die eng).ending.isSome = true → ((engOf s die eng).descs.any fun (d : Nat × LeDesc) => d.2.ofRun && d.2.busy) = false → gateShut s (16 + die) = false → y = engOf s die eng → 
    exec (.runComplete die eng) s = .next (runDone (setEng s die eng (if y.mode = .halt then { y with before := .idle } else { y with mode := .idle })) die eng .ok)) ∧
  (∀ (s : State) (die eng : Nat), (engOf s die eng).mode = .run → (engOf s die eng).stall ≠ 0 ∧ (engOf s die eng).stall ≤ 3 → gateShut s (16 + die) = false → getF s (lePage die eng) LE_CFG_STALL_TMO ≠ 0 → 
    exec (.stallTimeout die eng) s = .next (leExc s die eng excStall (engOf s die eng).pc.toNat)) ∧
  (∀ (s : State) (die eng port : Nat) (data : BitVec 96) (last : Bool), portsLive s die eng = true → portEn s die eng (port % 2) = true → (engOf s die eng).mode ≠ .off ∧ (engOf s die eng).mode ≠ .direct → (if port % 2 = 0 then (engOf s die eng).si0 else (engOf s die eng).si1).length < 8 → 
    exec (.streamBeatIn die eng port data last) s = .next (setEng s die eng (if port % 2 = 0 then { engOf s die eng with si0 := (engOf s die eng).si0 ++ [{ data := data, last := last }] }
        else { engOf s die eng with si1 := (engOf s die eng).si1 ++ [{ data := data, last := last }] }))) ∧
  (∀ (s : State) (die eng port : Nat), portsLive s die eng = true → portEn s die eng (2 + port % 2) = true → 
    exec (.streamBeatOut die eng port) s = .next (setEng s die eng (if port % 2 = 0 then { engOf s die eng with so0 := (engOf s die eng).so0.drop 1 }
        else { engOf s die eng with so1 := (engOf s die eng).so1.drop 1 }))) ∧
  (∀ (s : State) (x : Engine) (d : LeDesc) (die eng k : Nat) (bs : List Byte), x = engOf s die eng → d = leDesc x k → d.busy = true → d.resp = some (0, bs) → 
    exec (.nocDescriptorDone die eng k) s = .next (descEnd (setEng s die eng (if d.dir then x
        else ((descWords d).zip (respWords bs d.count)).foldl (fun x w => bankPut x w.1 w.2) x)) die eng k false)) ∧
  (∀ (s : State) (d : LeDesc) (die eng k code : Nat) (bs : List Byte), d = leDesc (engOf s die eng) k → d.busy = true → d.resp = some (code, bs) → code ≠ 0 → 
    exec (.nocDescriptorDone die eng k) s = .next (descEnd s die eng k true)) ∧
  (∀ (s : State) (die eng op : Nat) (a b : BitVec 96) (hi : Bool) (r : Engine × BitVec 96), (engOf s die eng).mode = .direct → gateShut s (16 + die) = false → enabled s (lePage die eng) = true → sclk s die eng = true → 1 ≤ op ∧ op ≤ 4 → r = directEdge (leMd s (lePage die eng)) (engOf s die eng) a b op hi → 
    exec (.directOp die eng a b op hi) s = .next (setEng s die eng (dirShift r.1 (some r.2)))) ∧
  (∀ (s : State) (die eng : Nat), (engOf s die eng).mode = .run → (engOf s die eng).ending = none → bpHere s (lePage die eng) (engOf s die eng) = true → 
    exec (.breakpointHit die eng) s = .next (leBreak s die eng)) ∧
  (∀ (s : State) (die eng : Nat), (engOf s die eng).watchHit = true → 
    exec (.dataWatchHit die eng) s = .next (leBreak s die eng))

/-- Packets at their endpoints, accesses, heads, ageing and audits (12_noc.md). -/
def Obligations.PacketsComplete : Prop :=
  (∀ (s : State) (p : Packet), inFlight s p = true → p.cmd = 0 → inOrder s p = true → 
    exec (.rd p) s = .next (arrival s p)) ∧
  (∀ (s : State) (p : Packet), inFlight s p = true → p.cmd = 1 → inOrder s p = true → 
    exec (.wr p) s = .next (arrival s p)) ∧
  (∀ (s : State) (p : Packet), inFlight s p = true → p.cmd = 2 → inOrder s p = true → 
    exec (.pwr p) s = .next (arrival s p)) ∧
  (∀ (s : State) (p : Packet), inFlight s p = true → p.cmd = 3 → inOrder s p = true → 
    exec (.strm p) s = .next (arrival s p)) ∧
  (∀ (s : State) (p : Packet) (lat : Nat) (o : Outst), inFlight s p = true → (flightDel s p).noc.outst.find? (fun o => iniNode o.ini == p.dst && o.tag == p.tag) = some o → 
    exec (.rsp p lat) s = .next (if o.absorbed then hartsSettle (pump (latCount (outstDel (flightDel s p) o) p.dst lat))
      else hartsSettle (pump (packetDone (gatherHold (latCount (outstDel (flightDel s p) o) p.dst lat) o.acc o.resv) o.acc o.addr
        (if p.poison || p.chkBad then 6 else p.code) p.data)))) ∧
  (∀ (s : State) (p : Packet) (i : Nat), inFlight s p = true → nodeIni p.dst = some i → 
    exec (.crd p) s = .next (pump (creditBack (flightDel s p) i p.srcNode p.arg0))) ∧
  (∀ (s u : State) (p : Packet) (die : Nat) (r : State × Nat), inFlight s p = true → p.cmd = 8 → die = nodeDie p.dst → u = (if isFabric die then cdReopen (flightDel s p) (24 + die) else if isLane die then cdReopen (flightDel s p) (32 + die - 9) else flightDel s p) → (isolated u die && getF u DI (DI_STAT_STATE.nth die) = 1) = false → (p.poison || p.chkBad) = false → r = cfgFrame u die p.addr (BitVec.ofNat 2048 (ofBytes p.data)) → 
    exec (.cfg p) s = .next (flightAdd r.1 (mrspPkt p r.2))) ∧
  (∀ (s : State) (p : Packet), inFlight s p = true → p.cmd = 9 → isDrain p = false → 
    exec (.mgmt p) s = .next (flightAdd (flightDel s p) (mrspPkt p (if isolated s (nodeDie p.dst) then 2 else 0)))) ∧
  (∀ (s : State) (p : Packet), inFlight s p = true → p.cmd = 9 → isDrain p = true → 
    exec (.mgmt p) s = .next (drainArrive s p)) ∧
  (∀ (s : State) (p : Packet), inFlight s p = true → p.cmd = 10 → (p.src ≠ 72 ∧ p.src ≠ 73) ∨ p.code = 0 → 
    exec (.mrsp p) s = .next (drainAnswered (mrspTaken s p) p)) ∧
  (∀ (s u : State) (p : Packet) (die : Nat), inFlight s p = true → p.cmd = 10 → p.src = 72 ∨ p.src = 73 → p.code ≠ 0 → die = nodeDie p.srcNode → u = drainAnswered (mrspTaken s p) p → rejoinAt u die 3 = true → 
    exec (.mrsp p) s = .next (rejoinFail u (rejoinLead u die))) ∧
  (∀ (s : State) (a : Access), mayAccess s a = true → 
    exec (.accessInject a) s = .next (accessMake s a)) ∧
  (∀ (s u : State) (h r : State × Packet) (node port flaw : Nat) (p : Packet), nodeRtr node < routerCount (nodeDie node) → nodeEp node = 0 → inFlight s p = true → seamAt (nodeDie node) (nodeRtr node) port = none → flaw ≠ 3 → h = hiddenCheck (watchHead s (nodePage node) port p) (nodePage node) port flaw p → r = routerCheck h.1 (nodePage node) port h.2 → u = flightUrg r.1 r.2 → 
    exec (.headArrival node port p flaw) s = .next (allGo { u with noc := { u.noc with heads := u.noc.heads ++ [{ node := node, port := port, pkt := r.2, came := cameWith u node port r.2 }] } })) ∧
  (∀ (s : State) (node port : Nat) (p : Packet), nodeRtr node < routerCount (nodeDie node) → nodeEp node = 0 → inFlight s p = true → seamAt (nodeDie node) (nodeRtr node) port = none → 
    exec (.headArrival node port p 3) s = .next (raiseFrom (errFirst (flightDel s p) (nodePage node) port 0 p) (nodePage node) 3 0x0F10 (8 * nodeRtr node + port))) ∧
  (∀ (s : State) (node port m k flaw : Nat) (p : Packet), nodeRtr node < routerCount (nodeDie node) → nodeEp node = 0 → inFlight s p = true → seamAt (nodeDie node) (nodeRtr node) port = some (m, k) → seamQReady s (nodeDie node) m k p = true → 
    exec (.headArrival node port p flaw) s = .next (seamQHead s (nodeDie node) m k (packetChan p) flaw p)) ∧
  (∀ (s u : State) (node : Nat), getF s (nodePage node) NR_CFG_AGE ≠ 0 → u = { s with noc := { s.noc with heads := s.noc.heads.map (fun (h : HeadWait) =>
        if h.node = node && h.out.isNone then { h with pkt := { h.pkt with urg := min 7 (h.pkt.urg + 1) } } else h) } } → 
    exec (.urgencyAge node) s = .next (allGo ((u.noc.heads.filter fun h => h.node == node && h.out.isNone).foldl (fun s h => flightUrg s h.pkt) u))) ∧
  (∀ (s : State) (node port lane onLink inBuffer returning : Nat), 
    exec (.linkAudit node port lane onLink inBuffer returning) s = .next (audit s 1 (nodePage node) port
      (hopHeld s node port lane + onLink + inBuffer + returning == portDepth (nodeDie node) (nodeRtr node) port lane))) ∧
  (∀ (s : State) (ini target : Nat), quotaOf s ini target ≠ 0 → pairDeferred s ini target = false → (s.noc.outst.any fun o => bridgeId o.ini = bridgeId ini && o.target = target) = false → 
    exec (.pairAudit ini target) s = .next (audit s 2 (nodePage (iniNode ini)) (regBlk (nodePage (iniNode ini)))
      (creditsHeld s ini target + pairTerms s ini target == quotaOf s ini target)))

/-- Route updates, quench, bridge isolation, time-outs and the fabric side of the network (12_noc.md). -/
def Obligations.NetworkControlComplete : Prop :=
  (∀ (s u : State) (ini : Nat), writeOkAt s ini (RT + 0x04C) 0x80000000 = true → u = storedAt s (RT + 0x04C) 0x80000000 → 
    exec (.routeCheck ini) s = .next (answer (routeLoad u false) 0 0)) ∧
  (∀ (s u : State) (ini : Nat), writeOkAt s ini (RT + 0x04C) 0x80000001 = true → u = storedAt s (RT + 0x04C) 0x80000001 → 
    exec (.routeInstall ini) s = .next (answer (routeLoad u true) 0 0)) ∧
  (∀ (s : State) (node : Nat) (p : Packet) (t : RouteTab), (s.noc.flight.find? fun p => isDrain p && p.dst = node) = some p → drainBlock (flightDel s p) p.dst p.tag = some t → isolated (flightDel s p) (nodeDie p.dst) = false → 
    exec (.drain node) s = .next (putFlag { flightDel s p with noc := { (flightDel s p).noc with drainNew := tabPut (flightDel s p).noc.drainNew p.dst (some t) } }
      (nodePage p.dst) NR_STAT_DRAINING true)) ∧
  (∀ (s : State) (node : Nat) (p : Packet), (s.noc.flight.find? fun p => isDrain p && p.dst = node) = some p → drainBlock (flightDel s p) p.dst p.tag = none ∨ isolated (flightDel s p) (nodeDie p.dst) = true → 
    exec (.drain node) s = .next (flightAdd (flightDel s p) (mrspPkt p (if drainBlock (flightDel s p) p.dst p.tag = none then 4 else 2)))) ∧
  (∀ (s u v : State) (node : Nat) (r : RouteRun) (t : RouteTab), (tabGet s.noc.drainNew node).join = some t → s.noc.run = some r → drainBusy s node = false → u = { s with noc := { s.noc with drainNew := tabDel s.noc.drainNew node, routes := tabPut s.noc.routes node (some t), loose := s.noc.flight } } → v = putFlag (putF u (nodePage node) NR_STAT_EPOCH ((getF u (nodePage node) NR_STAT_EPOCH + 1) % 4096)) (nodePage node) NR_STAT_DRAINING false → 
    exec (.drainComplete node) s = .next (flightAdd (allGo (trunksRewalk (putF v RT RT_STAT_DONE (getF v RT RT_STAT_DONE + 1)))) (mrspPkt (drainPkt node r.tag) 0))) ∧
  (∀ (s u : State) (node : Nat) (r : RouteRun) (t : RouteTab), (tabGet s.noc.drainNew node).join = some t → s.noc.run = some r → u = { s with noc := { s.noc with drainNew := tabDel s.noc.drainNew node } } → 
    exec (.drainTimeout node) s = .next (flightAdd (routeStop (allGo (putFlag (putFlag u (nodePage node) NR_STAT_DRAINING false) (nodePage node) NR_STAT_ABANDONED true)) 4 1)
      (mrspPkt (drainPkt node r.tag) 4))) ∧
  (∀ (s : State) (ini k : Nat) (w : Word), k < 32 → writeOkAt s ini (QU + (0x040 + 4 * k)) w = true → 
    exec (.quenchWrite ini k w) s = .next (answer (unitsGo (pump (storedAt s (QU + (0x040 + 4 * k)) w))) 0 0)) ∧
  (∀ (s u t : State) (ini node a : Nat) (on : Bool) (w old : Word), nodeOk node = true → a = nodePage node + (0x400 + 256 * nodeEp node) → w = setWord s (nodePage node) [(brF NR_BR_CTRL_ISOLATE node, ofBool on)] → writeOkAt s ini a w = true → u = storedAt s a w → old = getReg (reachAt s a) a → t = (if on then isoEnter u node 1 true true else if wGet old 31 1 = 1 then unitsGo (isoLeave u node 1 true true) else u) → 
    exec (.bridgeIsolate ini node on) s = .next (answer (if wGet w 30 1 = 1 then statZero t node else t) 0 0)) ∧
  (∀ (s u t : State) (ini node a : Nat) (w old : Word), nodeOk node = true → a = nodePage node + (0x400 + 256 * nodeEp node) → w = setWord s (nodePage node) [(brF NR_BR_CTRL_STAT_CLR node, 1)] → writeOkAt s ini a w = true → u = storedAt s a w → old = getReg (reachAt s a) a → t = (if wGet w 31 1 = 1 then isoEnter u node 1 true true else if wGet old 31 1 = 1 then unitsGo (isoLeave u node 1 true true) else u) → 
    exec (.statClr ini node) s = .next (answer (statZero t node) 0 0)) ∧
  (∀ (s : State) (node : Nat), brGet s node NR_BR_TMO_TGT_TMO ≠ 0 → (s.noc.slots.any fun x => x.1 == node && x.2.cmd < 2) = true → 
    exec (.targetTimeout node) s = .next (isoEnter s node 2 false true)) ∧
  (∀ (s u : State) (ini tag : Nat) (o : Outst), s.noc.outst.find? (fun o => o.ini == ini && o.tag == tag && !o.absorbed) = some o → brGet s (iniNode ini) NR_BR_TMO_RSP_TMO ≠ 0 → u = { s with noc := { s.noc with outst := s.noc.outst.map (fun (x : Outst) => if x == o then { x with absorbed := true } else x) } } → 
    exec (.responseTimeout ini tag) s = .next (hartsSettle (pump (evtPulse (packetDone u o.acc o.addr 7 []) (nodePage (iniNode ini)) 4)))) ∧
  (∀ (s : State) (die port : Nat) (b : PortBeat), isFabric die = true → port < 48 → ((nocPort s die port).rq = [] → rqReady s die port b = true) → portRuns s die port = true → 
    exec (.rqBeat die port b) s = .next (if b.last then rqRequest (setNocPort s die port { nocPort s die port with rq := [] }) die port ((nocPort s die port).rq ++ [b]) b
      else setNocPort s die port { nocPort s die port with rq := (nocPort s die port).rq ++ [b] })) ∧
  (∀ (s : State) (die port : Nat) (b : PortBeat) (r : List PortBeat), (nocPort s die port).rs = b :: r → portRuns s die port = true → 
    exec (.rsBeat die port) s = .next (if b.last then pump (setNocPort s die port { nocPort s die port with rs := r, rsOut := some b, rsResv := (nocPort s die port).rsResv.tail })
      else setNocPort s die port { nocPort s die port with rs := r, rsOut := some b })) ∧
  (∀ (s u : State) (die port : Nat) (b : PortBeat) (r : List PortBeat), (nocPort s die port).tq = b :: r → u = setNocPort s die port { nocPort s die port with tq := r, tqOut := some b } → b.last = false ∨ b.kind < 2 ∨ u.noc.slots.find? (fun y => y.1 == portNode die port && y.2.arg0 == b.tag && 2 ≤ y.2.cmd) = none → portRuns s die port = true → 
    exec (.tqBeat die port) s = .next (u)) ∧
  (∀ (s u : State) (die port : Nat) (b : PortBeat) (r : List PortBeat) (y : Nat × Packet), (nocPort s die port).tq = b :: r → u = setNocPort s die port { nocPort s die port with tq := r, tqOut := some b } → b.last = true → 2 ≤ b.kind → u.noc.slots.find? (fun y => y.1 == portNode die port && y.2.arg0 == b.tag && 2 ≤ y.2.cmd) = some y → portRuns s die port = true → 
    exec (.tqBeat die port) s = .next (targetAnswer u (portNode die port) y.2 0 [] false)) ∧
  (∀ (s : State) (die port : Nat) (b : PortBeat), isFabric die = true → port < 48 → portRuns s die port = true → 
    exec (.trBeat die port b) s = .next (if b.last then trAnswer (setNocPort s die port { nocPort s die port with tr := [] }) die port ((nocPort s die port).tr ++ [b]) b
      else setNocPort s die port { nocPort s die port with tr := (nocPort s die port).tr ++ [b] }))

/-- Seams: every kind of frame, the sender's timers, training and audits (13_seams.md). -/
def Obligations.SeamFramesComplete : Prop :=
  (∀ (s : State) (die seam link ch seq flaw : Nat) (flit : BitVec 256), seamOn die seam = true → seamState s die seam = 7 ∨ (seamState s die seam = 6 ∧ ch = 0) → link < seamLinks seam → ch < 5 → seq = (epLink (epOf s die seam) link).rxSeq → 
    exec (.seamData die seam link ch seq flit true flaw) s = .next (seamQDrain (setEp s die seam (flitTaken (epOf s die seam) link ch flit)) die seam link ch
        (tabOr 0 (epLink (epOf s die seam) link).rxLeft ch = 0) flit flaw)) ∧
  (∀ (s : State) (die seam link ch seq flaw : Nat) (flit : BitVec 256), seamOn die seam = true → seamState s die seam = 7 ∨ (seamState s die seam = 6 ∧ ch = 0) → link < seamLinks seam → ch < 5 → seq ≠ (epLink (epOf s die seam) link).rxSeq → 
    exec (.seamData die seam link ch seq flit true flaw) s = .next (if (epLink (epOf s die seam) link).nakSent then s
      else setEp s die seam (setLink (epOf s die seam) link { epLink (epOf s die seam) link with nak := true, nakSent := true }))) ∧
  (∀ (s : State) (die seam link ch seq flaw : Nat) (flit : BitVec 256) (crcOk : Bool), seamOn die seam = true → seamState s die seam ≠ 0 ∧ seamState s die seam ≠ 8 → crcOk = false ∨ 5 ≤ ch → 
    exec (.seamData die seam link ch seq flit crcOk flaw) s = .next (countUp s (smPage die seam) SM_CRC_COUNT 1)) ∧
  (∀ (s : State) (die seam : Nat) (acks : List (Nat × Bool)) (crcOk : Bool), seamOn die seam = true → seamState s die seam ≠ 0 ∧ seamState s die seam ≠ 8 → 
    exec (.seamAck die seam acks crcOk) s = .next (if crcOk then ackFrame die seam acks s else countUp s (smPage die seam) SM_CRC_COUNT 1)) ∧
  (∀ (s : State) (die seam : Nat) (counters : List Nat) (crcOk : Bool), seamOn die seam = true → seamState s die seam ≠ 0 ∧ seamState s die seam ≠ 8 → 
    exec (.seamScred die seam counters crcOk) s = .next (if crcOk then scredFrame die seam counters s else countUp s (smPage die seam) SM_CRC_COUNT 1)) ∧
  (∀ (s : State) (die seam : Nat) (counters : List Nat) (crcOk : Bool), seamOn die seam = true → seamState s die seam ≠ 0 ∧ seamState s die seam ≠ 8 → 
    exec (.seamHcred die seam counters crcOk) s = .next (if crcOk then hcredFrame die seam counters s else countUp s (smPage die seam) SM_CRC_COUNT 1)) ∧
  (∀ (s : State) (die seam fromDie seamNo : Nat) (widthReq vcEn : Bool) (epoch : Nat), seamOn die seam = true → seamState s die seam ≠ 0 ∧ seamState s die seam ≠ 8 → fromDie = seamFar die seam → seamNo = seam → (epochWanted s seam).elim true (· == epoch) = true → 
    exec (.seamTrain die seam fromDie seamNo widthReq vcEn epoch true) s = .next (if seamState (putFlag s (smPage die seam) SM_STAT_FAR_REQ widthReq) die seam = 1 then
        seamTo (putFlag s (smPage die seam) SM_STAT_FAR_REQ widthReq) die seam 2
      else seamRetrain (putFlag s (smPage die seam) SM_STAT_FAR_REQ widthReq) die seam)) ∧
  (∀ (s : State) (die seam : Nat) (widthReq reply crcOk : Bool), seamOn die seam = true → seamState s die seam ≠ 0 ∧ seamState s die seam ≠ 8 → 
    exec (.seamWidth die seam widthReq reply crcOk) s = .next (if crcOk then widthFrame die seam widthReq reply s else countUp s (smPage die seam) SM_CRC_COUNT 1)) ∧
  (∀ (s : State) (die seam : Nat) (crcOk : Bool), seamOn die seam = true → seamState s die seam ≠ 0 ∧ seamState s die seam ≠ 8 → 
    exec (.seamIdle die seam crcOk) s = .next (if crcOk then s else countUp s (smPage die seam) SM_CRC_COUNT 1)) ∧
  (∀ (s : State) (die seam kind : Nat), seamOn die seam = true → seamReady s die seam = true → 
    exec (.counterFrameDue die seam kind) s = .next (if kind = 2 then setEp s die seam { epOf s die seam with links := (epOf s die seam).links.map fun e => (e.1, { e.2 with nak := false }) }
      else s)) ∧
  (∀ (s : State) (die seam link : Nat), seamOn die seam = true → seamReady s die seam = true → (epLink (epOf s die seam) link).replay ≠ [] → 
    exec (.replayTimeout die seam link) s = .next (seamRewind s die seam link)) ∧
  (∀ (s : State) (die seam : Nat), seamOn die seam = true → 
    exec (.seamCrcSilence die seam) s = .next (seamRetrain s die seam)) ∧
  (∀ (s : State) (die seam st : Nat), seamOn die seam = true → seamState s die seam = st → st = 2 ∨ st = 3 ∨ st = 4 → 
    exec (.seamTrainStepDone die seam) s = .next (if st = 4 then widthTrained s die seam else seamTo s die seam (st + 1))) ∧
  (∀ (s : State) (die seam : Nat), seamOn die seam = true → seamReady s die seam = true → (epOf s die seam).step = .widening → 
    exec (.seamTrainStepDone die seam) s = .next (setEp s die seam { epOf s die seam with step := .sent })) ∧
  (∀ (s u : State) (die seam : Nat), seamOn die seam = true → 2 ≤ seamState s die seam → seamState s die seam ≤ 4 → u = raiseFrom (evtPulse (seamTo s die seam 1) (smPage die seam) 3) (smPage die seam) 0 0x0601 seam → 
    exec (.seamTrainFail die seam) s = .next (if u.start.phase = .s3 && !mgmtSeam u seam then startFail u 0x0E else u)) ∧
  (∀ (s u : State) (die seam us : Nat), seamOn die seam = true → seamState s die seam = 5 → creditReady s die seam = true → u = setEp s die seam (linksClear (epOf s die seam)) → 
    exec (.creditConditionsMet die seam us) s = .next (seamJoin (putF (seamTo u die seam 6) (smPage die seam) SM_TTIME_US (min us 65535)) seam)) ∧
  (∀ (s : State) (die seam : Nat) (x : WidthStep), (epOf s die seam).step = x → x ≠ .none ∧ x ≠ .widening → 
    exec (.widthStepTimeout die seam) s = .next (seamRetrain s die seam)) ∧
  (∀ (s : State) (die seam link ch unseen : Nat), seamOn die seam = true → seamState s die seam = 7 ∨ (seamState s die seam = 6 ∧ ch = 0) → link < seamLinks seam → ch < 5 → unseen = (tabOr 0 (epLink (epOf s (seamFar die seam) seam) link).freed ch + 256 - tabOr 0 (epLink (epOf s die seam) link).freedSeen ch) % 256 → 
    exec (.seamCreditAudit die seam link ch) s = .next (audit s 3 (smPage die seam) (0x2000 + seam) (tabOr 0 (epLink (epOf s die seam) link).away ch ==
        unaccepted s die seam link ch + (tabOr [] (epLink (epOf s (seamFar die seam) seam) link).queue ch).length + unseen)))

/-- SM_CTRL and DI_CTRL: retraining, VC_EN, widths, isolation and rejoin of a die (13_seams.md). -/
def Obligations.SeamControlComplete : Prop :=
  (∀ (s : State) (w : Word) (ini die seam : Nat), seamOn die seam = true → w = setWord s (smPage die seam) [(SM_CTRL_RETRAIN, 1)] → writeOkAt s ini (smPage die seam + 0x040) w = true → 
    exec (.retrain ini die seam) s = .next (answer (seamRetrain (storedAt s (smPage die seam + 0x040) w) die seam) 0 0)) ∧
  (∀ (s : State) (w : Word) (ini die seam : Nat) (on : Bool), seamOn die seam = true → w = setWord s (smPage die seam) [(SM_CTRL_VC_EN, ofBool on)] → writeOkAt s ini (smPage die seam + 0x040) w = true → 
    exec (.vcEnWrite ini die seam on) s = .next (answer (smCtrlWritten (storedAt s (smPage die seam + 0x040) w) die seam
        (getReg (reachAt s (smPage die seam + 0x040)) (smPage die seam + 0x040)) (wGet w 31 1 == 1)) 0 0)) ∧
  (∀ (s : State) (w : Word) (ini die seam : Nat) (half : Bool), seamOn die seam = true → w = setWord s (smPage die seam) [(SM_CTRL_WIDTH_REQ, ofBool half)] → writeOkAt s ini (smPage die seam + 0x040) w = true → 
    exec (.widthReqWrite ini die seam half) s = .next (answer (smCtrlWritten (storedAt s (smPage die seam + 0x040) w) die seam
        (getReg (reachAt s (smPage die seam + 0x040)) (smPage die seam + 0x040)) (wGet w 31 1 == 1)) 0 0)) ∧
  (∀ (s u : State) (ini die : Nat), writeOkAt s ini (DI + 0x040) (BitVec.ofNat 32 (2 ^ 31 + die % 16)) = true → u = storedAt s (DI + 0x040) (BitVec.ofNat 32 (2 ^ 31 + die % 16)) → 
    exec (.dieIsolateWrite ini die) s = .next (answer (isolateDie u (die % 16) 1) 0 0)) ∧
  (∀ (s : State) (die : Nat), beatsRun s = true → 
    exec (.heartbeatTimeout die) s = .next (if die = 8 then startTrigger s else isolateDie s die 2)) ∧
  (∀ (s : State) (die : Nat), s.start.phase = .ready → (dieSeams die).all (fun m => !seamReady s die m) = true → 
    exec (.seamsDownTimeout die) s = .next (isolateDie s die 4)) ∧
  (∀ (s : State) (die : Nat), beatsRun s = true → 
    exec (.dieResetRequest die) s = .next (isolateDie s die 6)) ∧
  (∀ (s u : State) (ini die : Nat), writeOkAt s ini (DI + 0x040) (BitVec.ofNat 32 (2 ^ 30 + die % 16)) = true → u = storedAt s (DI + 0x040) (BitVec.ofNat 32 (2 ^ 30 + die % 16)) → 
    exec (.rejoin ini die) s = .next (answer (rejoinStart u (die % 16)) 0 0)) ∧
  (∀ (s : State) (die : Nat), die ≠ 8 → die < 15 → nBit (getF s DI DI_CFG_AUTO_REJOIN) die = true → getF s DI (DI_STAT_STATE.nth die) = 1 → s.seam.rejoinFailed.contains die = false → causeEnded s die = true → 
    exec (.autoRejoin die) s = .next (rejoinStart s die)) ∧
  (∀ (s : State) (die k : Nat), getF s DI (DI_STAT_STEP.nth die) = k → rejoinAt s die k = true → rejoinLead s die = die → rejoinStepReady s die k = true → 
    exec (.rejoinStepDone die true) s = .next (rejoinStep s die k)) ∧
  (∀ (s : State) (die k : Nat), getF s DI (DI_STAT_STEP.nth die) = k → rejoinAt s die k = true → rejoinLead s die = die → 
    exec (.rejoinStepDone die false) s = .next (if 2 ≤ k && k ≤ 6 then rejoinFail s die else if k = 7 then audit s 7 DI die false else s))

/-- Lanes and bundles: locks, signal, windows, training, alignment and the pattern checker (14_lanes.md). -/
def Obligations.LaneEventsComplete : Prop :=
  (∀ (s : State) (lane : Nat), laneHere s lane = true → laneShown s lane ≠ 0 → 
    exec (.synthLocked lane) s = .next (putF s (laneQuad lane) LQ_QSTAT_SYN_LOCK (nSet (getF s (laneQuad lane) LQ_QSTAT_SYN_LOCK) (laneK lane) true))) ∧
  (∀ (s : State) (lane : Nat), laneHere s lane = true → nBit (getF s (laneQuad lane) LQ_QSTAT_SYN_LOCK) (laneK lane) = true → 
    exec (.synthesiserUnlock lane) s = .next (evtPulse (putF s (laneQuad lane) LQ_QSTAT_SYN_LOCK (nSet (getF s (laneQuad lane) LQ_QSTAT_SYN_LOCK) (laneK lane) false))
      (laneQuad lane) (4 * laneK lane + 3))) ∧
  (∀ (s u v : State) (lane : Nat), laneHere s lane = true → laneState s lane ≠ 0 → u = putFlag s (laneQuad lane) (lf LQ_STAT_SIGDET lane) true → v = (if 2 ≤ laneState u lane then putFlag u (laneQuad lane) (lf LQ_STAT_CDR_LOCK lane) true else u) → bundleOn v lane = none → 
    exec (.signalDetect lane) s = .next (v)) ∧
  (∀ (s u v : State) (lane k : Nat), laneHere s lane = true → laneState s lane ≠ 0 → u = putFlag s (laneQuad lane) (lf LQ_STAT_SIGDET lane) true → v = (if 2 ≤ laneState u lane then putFlag u (laneQuad lane) (lf LQ_STAT_CDR_LOCK lane) true else u) → bundleOn v lane = some k → 
    exec (.signalDetect lane) s = .next (bundleTry (if flag v (lbPage (laneDie lane)) (LB_BSTAT_RX_IDLE.nth k) &&
          (bundleLanes v (laneDie lane) k).all fun x => flag v (laneQuad x) (lf LQ_STAT_SIGDET x)
        then putFlag v (lbPage (laneDie lane)) (LB_BSTAT_RX_IDLE.nth k) false else v) (laneDie lane) k)) ∧
  (∀ (s u : State) (lane k : Nat) (together : Bool), laneHere s lane = true → laneState s lane ≠ 0 → u = putFlag (putFlag s (laneQuad lane) (lf LQ_STAT_SIGDET lane) false) (laneQuad lane) (lf LQ_STAT_CDR_LOCK lane) false → bundleOn u lane = some k → bundleState u (laneDie lane) k = 4 → 
    exec (.signalLoss lane together) s = .next (if flag u (lbPage (laneDie lane)) LB_CFG_IDLE_AWARE && together then putFlag u (lbPage (laneDie lane)) (LB_BSTAT_RX_IDLE.nth k) true
      else bundleDown u (laneDie lane) k)) ∧
  (∀ (s u : State) (lane : Nat) (together : Bool), laneHere s lane = true → laneState s lane ≠ 0 → u = putFlag (putFlag s (laneQuad lane) (lf LQ_STAT_SIGDET lane) false) (laneQuad lane) (lf LQ_STAT_CDR_LOCK lane) false → (bundleOn u lane).elim true (bundleState u (laneDie lane) · != 4) = true → 
    exec (.signalLoss lane together) s = .next (u)) ∧
  (∀ (s : State) (lane : Nat) (eyes : List (Int × Int)) (above : List Nat) (cfg : LaneSettings) (ms : Nat) (r : State × Nat), lfmCounts s lane = true → r = lfmStore s lane eyes above → 
    exec (.lfmWindow lane eyes above cfg ms) s = .next (if pcieOwns s lane then r.1 else lfmAdapt r.1 lane r.2 cfg ms)) ∧
  (∀ (s u v : State) (lane : Nat), laneHere s lane = true → laneState s lane = 2 → flag s (laneQuad lane) (lf LQ_STAT_SEEDED lane) = true → (laneOf s lane).reached = false → u = putFlag (putFlag s (laneQuad lane) (lf LQ_STAT_SEED_REJ lane) true) (laneQuad lane) (lf LQ_STAT_SEEDED lane) false → v = evtPulse (setLane u lane { laneOf s lane with scratch := true, hist := [], converged := false, rcv := { farTaps := (laneOf s lane).rcv.farTaps, preTx := (laneOf s lane).rcv.preTx, preRx := (laneOf s lane).rcv.preRx } }) (laneQuad lane) (4 * laneK lane + 1) → 
    exec (.seedRejectTimeout lane) s = .next ((bundleOn v lane).elim v (bundleSeeded v (laneDie lane)))) ∧
  (∀ (s : State) (die k : Nat), bundleIn s die k [2, 3] = true → 
    exec (.bundleTrainTimeout die k) s = .next (bundleFail s die k)) ∧
  (∀ (s : State) (die k : Nat) (logical : List Nat) (inverted : List Bool) (skew : Nat), bundleIn s die k [3] = true → 
    exec (.pcsAligned die k logical inverted skew) s = .next (if 200000 < skew && 8 ≤ (bundleLanes s die k).length then bundleFail s die k else pcsOrder s die k logical inverted)) ∧
  (∀ (s : State) (die k : Nat), bundleIn s die k [4] = true → 
    exec (.alignmentLoss die k) s = .next (bundleDown s die k)) ∧
  (∀ (s : State) (die k : Nat), bundleIn s die k [4] = true → flag s (lbPage die) LB_CFG_IDLE_AWARE = true → flag s (lbPage die) (LB_BSTAT_RX_IDLE.nth k) = false → ((bundleLanes s die k).any fun x => decide (getF s (laneQuad x) (lf LQ_STAT_LFM x) < getF s (lbPage die) LB_CFG_LFM_MIN)) = true → 
    exec (.idleReturnCheck die k) s = .next (bundleDown s die k)) ∧
  (∀ (s : State) (lane : Nat), laneHere s lane = true → laneState s lane = 5 → flag s (laneQuad lane) (lf LQ_PCHK_EN lane) = true → 
    exec (.checkerLock lane) s = .next (setLane (putFlag s (laneQuad lane) (lf LQ_PCHK_LOCK lane) true) lane { laneOf s lane with counted := (laneOf s lane).counted || !chkKnown s lane })) ∧
  (∀ (s : State) (lane : Nat), laneHere s lane = true → flag s (laneQuad lane) (lf LQ_PCHK_LOCK lane) = true → 
    exec (.patternCheckerLockLoss lane) s = .next (evtPulse (countUp (putFlag s (laneQuad lane) (lf LQ_PCHK_LOCK lane) false) (laneQuad lane) (lf LQ_PCHK_LOSS_COUNT lane) 1)
      (laneQuad lane) (4 * laneK lane + 2)))

/-- LB_BCFG, LQ_CTRL, LQ_PCHK and LQ_PGEN: bundle control, seeds, checker and injection (14_lanes.md). -/
def Obligations.LaneCommandsComplete : Prop :=
  (∀ (s : State) (w : Word) (ini die k : Nat) (on : Bool), k < 16 → w = setWord s (lbPage die) [(LB_BCFG_EN.nth k, ofBool on)] → writeOkAt s ini (lbPage die + (0x080 + 8 * k)) w = true → 
    exec (.bundleEnWrite ini die k on) s = .next (answer (holdsWake (bcfgWritten (storedAt s (lbPage die + (0x080 + 8 * k)) w) die k
        (getReg (reachAt s (lbPage die + (0x080 + 8 * k))) (lbPage die + (0x080 + 8 * k))) w) die) 0 0)) ∧
  (∀ (s : State) (w : Word) (ini die k : Nat), k < 16 → w = setWord s (lbPage die) [(LB_BCFG_RETRAIN.nth k, 1)] → writeOkAt s ini (lbPage die + (0x080 + 8 * k)) w = true → 
    exec (.bundleRetrain ini die k) s = .next (answer (holdsWake (bcfgWritten (storedAt s (lbPage die + (0x080 + 8 * k)) w) die k
        (getReg (reachAt s (lbPage die + (0x080 + 8 * k))) (lbPage die + (0x080 + 8 * k))) w) die) 0 0)) ∧
  (∀ (s : State) (w : Word) (ini die k : Nat) (on : Bool), k < 16 → w = setWord s (lbPage die) [(LB_BCFG_IDLE.nth k, ofBool on)] → writeOkAt s ini (lbPage die + (0x080 + 8 * k)) w = true → 
    exec (.bundleIdleWrite ini die k on) s = .next (answer (holdsWake (bcfgWritten (storedAt s (lbPage die + (0x080 + 8 * k)) w) die k
        (getReg (reachAt s (lbPage die + (0x080 + 8 * k))) (lbPage die + (0x080 + 8 * k))) w) die) 0 0)) ∧
  (∀ (s u : State) (w : Word) (ini lane : Nat), lane < 128 → w = setWord s (laneQuad lane) [(lf LQ_CTRL_SEED_SAVE lane, 1)] → writeOkAt s ini (laneQuad lane + (0x114 + 0x80 * laneK lane)) w = true → u = storedAt s (laneQuad lane + (0x114 + 0x80 * laneK lane)) w → 
    exec (.seedSave ini lane) s = .next (answer (if laneState u lane = 3 && !pcieOwns u lane && getF u (lbPage (laneDie lane)) LB_CFG_LFM_MIN ≤
        getF u (laneQuad lane) (lf LQ_STAT_LFM lane) then evtPulse (seedCapture u lane) (lbPage (laneDie lane)) 4 else u) 0 0)) ∧
  (∀ (s u : State) (w : Word) (ini lane : Nat), lane < 128 → w = setWord s (laneQuad lane) [(lf LQ_CTRL_SEED_CLR lane, 1)] → writeOkAt s ini (laneQuad lane + (0x114 + 0x80 * laneK lane)) w = true → u = storedAt s (laneQuad lane + (0x114 + 0x80 * laneK lane)) w → wGet w 0 1 = 0 → 
    exec (.seedClr ini lane) s = .next (answer (retained (putF u (laneQuad lane) (lf LQ_SEED0_VALID lane) 0) (laneQuad lane) (lf LQ_SEED0_VALID lane).off) 0 0)) ∧
  (∀ (s u : State) (w : Word) (ini lane : Nat), lane < 128 → w = setWord s (laneQuad lane) [(lf LQ_PCHK_CLR lane, 1)] → writeOkAt s ini (laneQuad lane + (0x134 + 0x80 * laneK lane)) w = true → u = storedAt s (laneQuad lane + (0x134 + 0x80 * laneK lane)) w → 
    exec (.checkerClear ini lane) s = .next (answer (pchkWritten u lane w) 0 0)) ∧
  (∀ (s u : State) (w : Word) (ini lane : Nat), lane < 128 → w = setWord s (laneQuad lane) [(lf LQ_PGEN_INJ_GO lane, 1)] → writeOkAt s ini (laneQuad lane + (0x130 + 0x80 * laneK lane)) w = true → u = storedAt s (laneQuad lane + (0x130 + 0x80 * laneK lane)) w → 
    exec (.injGo ini lane) s = .next (answer (testSettle (if pcieOwns u lane then u else injRun u lane) lane) 0 0))

/-- Flow slices: frames received, sent, recovered and timed out, meters, gates and tokens (15_flow_slices.md). -/
def Obligations.FlowEventsComplete : Prop :=
  (∀ (s : State) (die port : Nat) (bytes : List (BitVec 8)) (fcsOk : Bool) (sec : SecTag) (ended : Bool), macHere s die = true → port < 16 → flag s (fePage die port) FE_STAT_LINK = true → enabled s (fsPage die) = true → 
    exec (.rxFrame die port bytes fcsOk sec ended) s = .next (rxTake s die port bytes fcsOk sec ended)) ∧
  (∀ (s : State) (die port queue : Nat) (f : EthFrame), macHere s die = true → port < 16 → queue < 8 → flag s (fePage die port) FE_STAT_LINK = true → portBusy s die port = false → overLong s die port queue = none → ((∀ q < 8, queue < q → canBegin s die port q = none)) → canBegin s die port queue = some f → 
    exec (.txFrameStart die port queue) s = .next (txBegin s die port f)) ∧
  (∀ (s : State) (die port queue : Nat) (f : EthFrame), macHere s die = true → port < 16 → queue < 8 → flag s (fePage die port) FE_STAT_LINK = true → portBusy s die port = false → overLong s die port queue = some f → 
    exec (.txFrameStart die port queue) s = .next (dropCount (frameDel s die f.id) die port 2)) ∧
  (∀ (s : State) (die port : Nat) (f : EthFrame), macHere s die = true → (sliceOf s die).frames.find? (fun f => f.egPort = port && f.started && f.complete) = some f → 
    exec (.txFrameEnd die port) s = .next (frameSent s die f)) ∧
  (∀ (s : State) (die id : Nat) (f : EthFrame), sliceHere s die = true → (sliceOf s die).frames.find? (fun f => f.id = id && !f.queued) = some f → 
    exec (.seqRecovery die id) s = .next (frameEnqueue s die f)) ∧
  (∀ (s : State) (die id : Nat) (f : EthFrame), sliceHere s die = true → (sliceOf s die).frames.find? (fun f => f.id = id && !f.complete) = some f → 
    exec (.streamPacketTimeout die id) s = .next (streamBreak s die f)) ∧
  (∀ (s : State) (die ctx : Nat), sliceHere s die = true → ctx < 65536 → metered (sliceOf s die) ctx = true → 2 ^ 30 ≤ (s.hub.now + 2 ^ 32 - (tblGet (sliceOf s die) 0 ctx 10).toNat) % 2 ^ 32 → 
    exec (.meterSweep die ctx) s = .next (setSlice s die (meterFill (sliceOf s die) ctx s.hub.now))) ∧
  (∀ (s : State) (die ctx : Nat), sliceHere s die = true → ctx < 65536 → wGet (tblGet (sliceOf s die) 0 ctx 0) 9 1 = 1 → 
    exec (.cbResetTimeout die ctx) s = .next (setSlice s die (tblPut (sliceOf s die) 0 ctx 11 (wPut (tblGet (sliceOf s die) 0 ctx 11) 21 1 1)))) ∧
  (∀ (s : State) (die port : Nat), sliceHere s die = true → port < 16 → 
    exec (.gateEntryAdvance die port) s = .next (gclShow s die port)) ∧
  (∀ (s : State) (die port t : Nat), sliceHere s die = true → port < 16 → tabGet (sliceOf s die).gclAt port = some t → gclPoint s die port t ≤ s.hub.now → 
    exec (.gclSwitch die port) s = .next (gclApply s die port)) ∧
  (∀ (s : State) (die : Nat), sliceHere s die = true → 
    exec (.tokenAudit die) s = .next (audit s 4 (fsPage die) 0x9000 (decide ((sliceOf s die).free + tokRsv (sliceOf s die) + tokHeld (sliceOf s die) = 131072)))) ∧
  (∀ (s u : State) (die : Nat) (r : State × Nat × List Byte), sliceHere s die = true → enabled s (fsPage die) = true → getF s (fsPage die) FS_INJ_TAIL_INDEX ≠ getF s (fsPage die) FS_INJ_HEAD_INDEX → busStall s (65 + 2 * (die - 9)) (ringAt s die 0x20 + 4096 * getF s (fsPage die) FS_INJ_TAIL_INDEX) 4096 = none → r = busRead s (65 + 2 * (die - 9)) (ringAt s die 0x20 + 4096 * getF s (fsPage die) FS_INJ_TAIL_INDEX) 4096 → u = putF r.1 (fsPage die) FS_INJ_TAIL_INDEX ((getF s (fsPage die) FS_INJ_TAIL_INDEX + 1) % getF s (fsPage die) FS_INJ_CFG_SLOTS) → 
    exec (.injectSlot die) s = .next (if r.2.1 != 0 || injBad r.2.2 then countUp u (fsPage die) FS_PUNT_DROP_INJ_SKIP 1 else injectFrame u die r.2.2))

/-- FS_EM, FS_TBL, FS_ADMIT, trunk reservations, the inject head and the timestamp queue (15_flow_slices.md). -/
def Obligations.FlowCommandsComplete : Prop :=
  (∀ (s u : State) (ini die : Nat), writeOkAt s ini (fsPage die + 0x0C0) (flowWord 0 0) = true → u = storedAt s (fsPage die + 0x0C0) (flowWord 0 0) → 
    exec (.lookup ini die) s = .next (answer (emRun u die 0 0) 0 0)) ∧
  (∀ (s u : State) (ini die ctx : Nat), writeOkAt s ini (fsPage die + 0x0C0) (flowWord 1 ctx) = true → u = storedAt s (fsPage die + 0x0C0) (flowWord 1 ctx) → 
    exec (.insert ini die ctx) s = .next (answer (emRun u die 1 (ctx % 65536)) 0 0)) ∧
  (∀ (s u : State) (ini die : Nat), writeOkAt s ini (fsPage die + 0x0C0) (flowWord 2 0) = true → u = storedAt s (fsPage die + 0x0C0) (flowWord 2 0) → 
    exec (.delete ini die) s = .next (answer (emRun u die 2 0) 0 0)) ∧
  (∀ (s u : State) (ini die table index : Nat), writeOkAt s ini (fsPage die + 0x060) (tblWord 0 table index) = true → u = storedAt s (fsPage die + 0x060) (tblWord 0 table index) → 
    exec (.tblRead ini die table index) s = .next (answer (tblRun u ini die 0 (table % 16) (index % 2 ^ 18)) 0 0)) ∧
  (∀ (s u : State) (ini die table index : Nat), writeOkAt s ini (fsPage die + 0x060) (tblWord 1 table index) = true → u = storedAt s (fsPage die + 0x060) (tblWord 1 table index) → 
    exec (.tblWrite ini die table index) s = .next (answer (tblRun u ini die 1 (table % 16) (index % 2 ^ 18)) 0 0)) ∧
  (∀ (s u : State) (ini die table index : Nat), writeOkAt s ini (fsPage die + 0x060) (tblWord 2 table index) = true → u = storedAt s (fsPage die + 0x060) (tblWord 2 table index) → 
    exec (.writeCfg ini die table index) s = .next (answer (tblRun u ini die 2 (table % 16) (index % 2 ^ 18)) 0 0)) ∧
  (∀ (s u : State) (ini die table index : Nat), writeOkAt s ini (fsPage die + 0x060) (tblWord 3 table index) = true → u = storedAt s (fsPage die + 0x060) (tblWord 3 table index) → 
    exec (.zero ini die table index) s = .next (answer (tblRun u ini die 3 (table % 16) (index % 2 ^ 18)) 0 0)) ∧
  (∀ (s u : State) (ini die ctx : Nat), writeOkAt s ini (fsPage die + 0x100) (flowWord 0 ctx) = true → u = storedAt s (fsPage die + 0x100) (flowWord 0 ctx) → 
    exec (.admitCtx ini die ctx) s = .next (answer (admitRun u die 0 (ctx % 65536)) 0 0)) ∧
  (∀ (s u : State) (ini die ctx : Nat), writeOkAt s ini (fsPage die + 0x100) (flowWord 1 ctx) = true → u = storedAt s (fsPage die + 0x100) (flowWord 1 ctx) → 
    exec (.withdraw ini die ctx) s = .next (answer (admitRun u die 1 (ctx % 65536)) 0 0)) ∧
  (∀ (s u : State) (w old : Word) (ini die i : Nat), i < 16 → w = setWord s (fsPage die) [(FS_TRUNK_RESERVE.nth i, 1)] → writeOkAt s ini (fsPage die + (0x140 + 4 * i)) w = true → u = storedAt s (fsPage die + (0x140 + 4 * i)) w → old = getReg (reachAt s (fsPage die + (0x140 + 4 * i))) (fsPage die + (0x140 + 4 * i)) → 
    exec (.trunkReserve ini die i) s = .next (answer (trunkWritten u die i true) 0 0)) ∧
  (∀ (s u : State) (w old : Word) (ini die i : Nat), i < 16 → w = setWord s (fsPage die) [(FS_TRUNK_RESERVE.nth i, 0)] → writeOkAt s ini (fsPage die + (0x140 + 4 * i)) w = true → u = storedAt s (fsPage die + (0x140 + 4 * i)) w → old = getReg (reachAt s (fsPage die + (0x140 + 4 * i))) (fsPage die + (0x140 + 4 * i)) → 
    exec (.trunkRelease ini die i) s = .next (answer (if wGet old 31 1 = 1 then trunkWritten u die i false else u) 0 0)) ∧
  (∀ (s : State) (ini die : Nat) (w : Word), writeOkAt s ini (fsPage die + 0x1AC) w = true → 
    exec (.injHeadWrite ini die w) s = .next (answer (storedAt s (fsPage die + 0x1AC) w) 0 0)) ∧
  (∀ (s u : State) (r : State × Nat) (ini die port : Nat) (peek : Bool), port < 16 → reaches s ini die (0x9100 + port) 0x120 false = true → u = reach s die (0x9100 + port) 0x120 false → r = txtsRead u die port peek → 
    exec (.txtsPop ini die port peek) s = .next (answer r.1 0 r.2))

/-- External memory: the channel's life, reads, writes, late checks, patrol and protected ranges (16_external_memory.md). -/
def Obligations.DramRowsComplete : Prop :=
  (∀ (s u : State) (ini ch : Nat) (w old : Word), ch < 4 → w = setWord s (mcPage ch) [(PG_CTRL_ENABLE, 1)] → writeOkAt s ini (mcPage ch + 0x008) w = true → u = storedAt s (mcPage ch + 0x008) w → old = getReg (reachAt s (mcPage ch + 0x008)) (mcPage ch + 0x008) → 
    exec (.ddrEnable ini ch) s = .next (answer (ctrlWritten u .mc (if ch < 2 then 3 else 7) (0xA000 + ch % 2) old w) 0 0)) ∧
  (∀ (s u : State) (ini ch : Nat) (w old : Word), ch < 4 → w = setWord s (mcPage ch) [(PG_CTRL_ENABLE, 0)] → writeOkAt s ini (mcPage ch + 0x008) w = true → u = storedAt s (mcPage ch + 0x008) w → old = getReg (reachAt s (mcPage ch + 0x008)) (mcPage ch + 0x008) → 
    exec (.ddrDisable ini ch) s = .next (answer (ctrlWritten u .mc (if ch < 2 then 3 else 7) (0xA000 + ch % 2) old w) 0 0)) ∧
  (∀ (s u : State) (ch cause ranks dens g : Nat), ch < 4 → mcState s ch = 1 → (chanOf s ch).capSet = false → chanCap s ch cause ranks dens = some g → u = setChan s ch { chanOf s ch with capSet := true, dens := if flag s (mcPage ch) MC_GEOM_SPD then dens else getF s (mcPage ch) MC_GEOM_DENS } → 
    exec (.spdReadDone ch cause ranks dens) s = .next (ddrForm (putF u (mcPage ch) MC_STAT_CAP_GIB g))) ∧
  (∀ (s : State) (ch ms : Nat) (ok : Bool), chanHere s ch = true → mcState s ch = 1 → (chanOf s ch).capSet = true → 
    exec (.ddrTrainDone ch ok ms) s = .next (if ok then waitsRetry (putF (putF s (mcPage ch) MC_STAT_TRAIN_MS (min ms 255)) (mcPage ch) MC_STAT_STATE 2)
      else mcFail (putF s (mcPage ch) MC_STAT_TRAIN_MS (min ms 255)) ch 4)) ∧
  (∀ (s u : State) (ini ilv : Nat) (w old : Word), w = setWord s (mcPage 0) [(MC_CFG_ILV, ilv % 4)] → writeOkAt s ini (mcPage 0 + 0x040) w = true → u = storedAt s (mcPage 0 + 0x040) w → old = getReg (reachAt s (mcPage 0 + 0x040)) (mcPage 0 + 0x040) → 
    exec (.ilvWrite ini ilv) s = .next (answer (if wGet old 4 2 = ilv % 4 then u else ilvWritten u) 0 0)) ∧
  (∀ (s : State) (ch line ini : Nat) (errs : List (Nat × Nat × Nat)) (hit tagBad : Bool) (r : State × LineRead), chanHere s ch = true → 64 * line < ddrCap s ch → mcState s ch = 2 → r = lineRead s ch line ini errs hit tagBad → 
    exec (.ddrRead ch line ini errs hit tagBad) s = .next (answer r.1 (if r.2.code = 0 && r.2.poison then 6 else r.2.code) (ofBytes r.2.bytes))) ∧
  (∀ (s u : State) (ch : Nat) (l : LateCheck) (bs : List (BitVec 8)), s.ddr.late.find? (·.ch == ch) = some l → l.tagOk = true → l.wb = some bs → u = lateTaken s l → 
    exec (.lateTagCheck ch) s = .next (wbAdd u ch l.line bs)) ∧
  (∀ (s u : State) (ch : Nat) (l : LateCheck), s.ddr.late.find? (·.ch == ch) = some l → l.tagOk = true → l.wb = none → u = lateTaken s l → 
    exec (.lateTagCheck ch) s = .next (u)) ∧
  (∀ (s t u v : State) (ch act : Nat) (l : LateCheck), s.ddr.late.find? (·.ch == ch) = some l → l.tagOk = false → t = mcFirst (lateTaken s l) ch 3 l.line l.sym l.ini → u = countUp (countUp t (mcPage ch) (RNG_LATE_COUNT.nth l.range) 1) (mcPage ch) MC_TAG_CNT_LATE 1 → v = alarm (evtPulse u (mcPage ch) 4) 1 (regDie (mcPage ch)) l.ini → act = getF v (mcPage ch) (RNG_CTRL_ACTION.nth l.range) → 
    exec (.lateTagCheck ch) s = .next (lateEnd v act l)) ∧
  (∀ (s : State) (ch line off ini : Nat) (bytes : List (BitVec 8)) (poison : Bool) (errs : List (Nat × Nat × Nat)) (hit tagBad : Bool), chanHere s ch = true → 64 * line < ddrCap s ch → mcState s ch = 2 → bytes ≠ [] → off + bytes.length ≤ 64 → 
    exec (.ddrWrite ch line off ini bytes poison errs hit tagBad) s = .next (answer (lineWrite s ch line off ini bytes poison errs hit tagBad).1 (lineWrite s ch line off ini bytes poison errs hit tagBad).2 0)) ∧
  (∀ (s : State) (ch line : Nat) (w : Nat × Nat × List (BitVec 8)), chanHere s ch = true → mcState s ch = 2 → (chanOf s ch).wb.find? (fun w => sameDram (dramPlace s ch (64 * w.1)) (dramPlace s ch (64 * line))) = some w → 
    exec (.ddrWriteback ch line) s = .next (lineBack (setChan s ch { chanOf s ch with wb := (chanOf s ch).wb.erase w }) ch w.1 w.2.1 w.2.2)) ∧
  (∀ (s u : State) (ch : Nat) (errs : List (Nat × Nat × Nat)) (hit tagBad : Bool) (c : DdrChan), chanHere s ch = true → mcState s ch = 2 → gateShut s (40 + ch) = false → flag s (mcPage ch) MC_CFG_PATROL_EN = true → c = chanOf s ch → c.cm ≠ 0 → u = setChan s ch { c with patrol := (c.patrol + 1) % (c.cm * 2 ^ 24) } → 
    exec (.ddrPatrolRead ch errs hit tagBad) s = .next (patrolJudged u ch c.patrol (lineDecode errs) hit tagBad)) ∧
  (∀ (s u : State) (ini ch range : Nat) (w old : Word), ch < 4 → range < 16 → w = setWord s (mcPage ch) [(RNG_CTRL_EN.nth range, 1)] → writeOkAt s ini (mcPage ch + (0x100 + 32 * range)) w = true → u = storedAt s (mcPage ch + (0x100 + 32 * range)) w → old = getReg (reachAt s (mcPage ch + (0x100 + 32 * range))) (mcPage ch + (0x100 + 32 * range)) → 
    exec (.rangeEnable ini ch range) s = .next (answer (if wGet old 31 1 = 0 then holdsWake (rangeStart u ch range) (if ch < 2 then 3 else 7) else u) 0 0)) ∧
  (∀ (s u : State) (ini ch range : Nat) (w old : Word), ch < 4 → range < 16 → w = setWord s (mcPage ch) [(RNG_CTRL_EN.nth range, 0)] → writeOkAt s ini (mcPage ch + (0x100 + 32 * range)) w = true → u = storedAt s (mcPage ch + (0x100 + 32 * range)) w → old = getReg (reachAt s (mcPage ch + (0x100 + 32 * range))) (mcPage ch + (0x100 + 32 * range)) → 
    exec (.rangeDisable ini ch range) s = .next (answer (if wGet old 31 1 = 1 then rangeStop u ch range (tagSpan (reachAt s (mcPage ch + (0x100 + 32 * range))) ch range) else u) 0 0)) ∧
  (∀ (s u : State) (ch range : Nat), chanHere s ch = true → mcState s ch = 2 → (chanOf s ch).init.contains range = true → u = setChan s ch (rangeZeroed s ch range) → 
    exec (.rangeInitDone ch range) s = .next (evtPulse (putFlag (putF u (mcPage ch) (RNG_INIT_LINES.nth range) ((rangeOffs s ch range).2 / 64 - (rangeOffs s ch range).1 / 64))
      (mcPage ch) (RNG_CTRL_INIT_DONE.nth range) true) (mcPage ch) 5)) ∧
  (∀ (s u : State) (ini ch : Nat) (val : Word), ch < 4 → writeOkAt s ini (mcPage ch + 0x074) val = true → u = storedAt s (mcPage ch + 0x074) val → 
    exec (.keyDataWrite ini ch val) s = .next (answer (keyWritten u ch val) 0 0)) ∧
  (∀ (s u : State) (ini ch id : Nat) (w : Word), ch < 4 → w = BitVec.ofNat 32 (2 ^ 31 + id % 1024) → writeOkAt s ini (mcPage ch + 0x078) w = true → u = storedAt s (mcPage ch + 0x078) w → 
    exec (.mcRelease ini ch id) s = .next (answer (isoLeave u (iniNode (id % 1024)) 5 true false) 0 0))

/-- Cores, cache operations, DMA, time base, locks, event routes and services, message sends (17_processors.md). -/
def Obligations.HubRegistersComplete : Prop :=
  (∀ (s u : State) (ini en : Nat) (w old : Word), w = BitVec.ofNat 32 (en % 16) → writeOkAt s ini (CL + 0x040) w = true → u = storedAt s (CL + 0x040) w → old = getReg (reachAt s (CL + 0x040)) (CL + 0x040) → 
    exec (.hartEnWrite ini en) s = .next (answer (leFreezeFollow (hartsWritten u (wGet old 0 4))) 0 0)) ∧
  (∀ (s u : State) (ini : Nat), writeOkAt s ini (CL + 0x04C) (BitVec.ofNat 32 (2 ^ 31 + 0)) = true → u = storedAt s (CL + 0x04C) (BitVec.ofNat 32 (2 ^ 31 + 0)) → 
    exec (.cmoClean ini) s = .next (answer (cmoStart u 0) 0 0)) ∧
  (∀ (s u : State) (ini : Nat), writeOkAt s ini (CL + 0x04C) (BitVec.ofNat 32 (2 ^ 31 + 1)) = true → u = storedAt s (CL + 0x04C) (BitVec.ofNat 32 (2 ^ 31 + 1)) → 
    exec (.cmoInvalidate ini) s = .next (answer (cmoStart u 1) 0 0)) ∧
  (∀ (s u : State) (ini : Nat), writeOkAt s ini (CL + 0x04C) (BitVec.ofNat 32 (2 ^ 31 + 2)) = true → u = storedAt s (CL + 0x04C) (BitVec.ofNat 32 (2 ^ 31 + 2)) → 
    exec (.cmoCleanInvalidate ini) s = .next (answer (cmoStart u 2) 0 0)) ∧
  (∀ (s u : State) (ini ch : Nat) (w : Word), ch < 8 → w = setWord s HD [(HD_CTRL_GO.nth ch, 1)] → writeOkAt s ini (HD + (0x114 + 32 * ch)) w = true → u = storedAt s (HD + (0x114 + 32 * ch)) w → 
    exec (.dmaGo ini ch) s = .next (answer (dmaStart u ch) 0 0)) ∧
  (∀ (s u : State) (ini ch : Nat) (w : Word), ch < 8 → w = setWord s HD [(HD_CTRL_ABORT.nth ch, 1)] → wGet w 31 1 = 0 → writeOkAt s ini (HD + (0x114 + 32 * ch)) w = true → u = storedAt s (HD + (0x114 + 32 * ch)) w → 
    exec (.dmaAbort ini ch) s = .next (answer (if dmaRuns u ch then putF u HD (HD_CTRL_ABORT.nth ch) 1 else u) 0 0)) ∧
  (∀ (s u : State) (ini : Nat) (w : Word), w = setWord s TB [(TB_CTRL_SET, 1)] → writeOkAt s ini (TB + 0x040) w = true → u = storedAt s (TB + 0x040) w → 
    exec (.timeSet ini) s = .next (answer (tbLoad u (getF u TB TB_SET_LO_NS + getF u TB TB_SET_HI_NS * 2 ^ 32)) 0 0)) ∧
  (∀ (s u : State) (ini : Nat) (w : Word), w = setWord s TB [(TB_CTRL_STEP, 1)] → wGet w 31 1 = 0 → writeOkAt s ini (TB + 0x040) w = true → u = storedAt s (TB + 0x040) w → 
    exec (.timeStep ini) s = .next (answer (tbLoad u (u.hub.now + getF u TB TB_STEP_LO_NS + getF u TB TB_STEP_HI_NS * 2 ^ 32)) 0 0)) ∧
  (∀ (s u : State) (ini : Nat), reaches s ini 8 0xC060 0x044 false = true → u = reach s 8 0xC060 0x044 false → 
    exec (.tbNowRead ini) s = .next (answer (tbLatch u) 0 (u.hub.now % 2 ^ 32))) ∧
  (∀ (s u : State) (ini k : Nat) (peek : Bool) (r : State × Nat), k < 256 → reaches s ini 8 0xC020 (0x100 + 4 * k) false = true → u = reach s 8 0xC020 (0x100 + 4 * k) false → r = lockTake u ini k peek → 
    exec (.lockRead ini k peek) s = .next (answer r.1 0 r.2)) ∧
  (∀ (s u : State) (ini k : Nat) (val : Word), k < 256 → writeOkAt s ini (LK + (0x100 + 4 * k)) val = true → u = storedAt s (LK + (0x100 + 4 * k)) val → 
    exec (.lockRelease ini k val) s = .next (answer (setLock u k none) 0 0)) ∧
  (∀ (s u : State) (ini k : Nat) (w : Word), w = BitVec.ofNat 32 (2 ^ 31 + k % 256) → writeOkAt s ini (LK + 0x040) w = true → u = storedAt s (LK + 0x040) w → 
    exec (.lockForce ini k) s = .next (answer (setLock u (k % 256) none) 0 0)) ∧
  (∀ (s u : State) (ini word : Nat) (val old : Word), word < 2 → writeOkAt s ini (EV + (0x044 + 4 * word)) val = true → u = storedAt s (EV + (0x044 + 4 * word)) val → old = getReg (reachAt s (EV + (0x044 + 4 * word))) (EV + (0x044 + 4 * word)) → 
    exec (.evRouteWrite ini word val) s = .next (answer (wfiFollow (routePut (setReg u (EV + (0x044 + 4 * word)) old)
      (getF (setReg u (EV + (0x044 + 4 * word)) old) EV EV_RSEL_SRC) word val)) 0 0)) ∧
  (∀ (s u : State) (ini c : Nat) (peek : Bool), c < 4 → reaches s ini 8 0xC030 (0x070 + 4 * c) false = true → u = reach s 8 0xC030 (0x070 + 4 * c) false → claimSource u c = none → 
    exec (.evClaim ini c peek) s = .next (answer u 0 0)) ∧
  (∀ (s u : State) (ini c x : Nat) (peek : Bool), c < 4 → reaches s ini 8 0xC030 (0x070 + 4 * c) false = true → u = reach s 8 0xC030 (0x070 + 4 * c) false → claimSource u c = some x → 
    exec (.evClaim ini c peek) s = .next (answer (if peek then u else claim u c x) 0 (2 ^ 31 + x))) ∧
  (∀ (s u : State) (ini c v : Nat) (w : Word), c < 4 → w = BitVec.ofNat 32 (v % 1024) → writeOkAt s ini (EV + (0x080 + 4 * c)) w = true → u = storedAt s (EV + (0x080 + 4 * c)) w → 
    exec (.evDone ini c v) s = .next (answer (wfiFollow (serviceEnd u c (v % 1024))) 0 0)) ∧
  (∀ (s u : State) (ini pc fn : Nat) (val : Word), pc < 2 → fn < 2 → writeOkAt s ini (pcPage pc + (0x080 + 4 * fn)) val = true → u = storedAt s (pcPage pc + (0x080 + 4 * fn)) val → 
    exec (.msiSend ini pc fn val) s = .next (answer (msiWritten u pc fn val) 0 0))

/-- Ends of cache and DMA work, compare, source events, interrupt lines, PCIe links and doorbells (17_processors.md). -/
def Obligations.HubEventsComplete : Prop :=
  (∀ (s : State), s.hub.cmo.isSome = true → writingBack s = false → 
    exec (.cmoDone) s = .next (putFlag { s with hub := { s.hub with cmo := none } } CL CL_CMO_BUSY false)) ∧
  (∀ (s : State) (ch bytes result : Nat) (r : State × Nat × Nat), ch < 8 → s.pow.torpor = false → dmaRuns s ch = true → dmaEnds s ch bytes result = true → gateShut s 5 = false → targetsStall s (dmaRange s ch).1 bytes = none ∧ targetsStall s (dmaRange s ch).2.1 bytes = none → result = 0xE ∨ quenched s 5 = false → r = busCopy s 5 (dmaRange s ch).1 (dmaRange s ch).2.1 (chunks 256 bytes) 0 → 
    exec (.dmaDone ch bytes result) s = .next (dmaEnded r.1 ch (if r.2.1 = 0 then result else r.2.1) r.2.2)) ∧
  (∀ (s : State), flag s TB TB_CTRL_CMP_EN = true → s.hub.tbOn = true → 
    exec (.timeCompare) s = .next (tbFire { s with hub := { s.hub with now := max s.hub.now (tbCmp s) } })) ∧
  (∀ (s : State) (src : Nat), src < 640 → 
    exec (.eventArrival src none) s = .next (srcPulse s src)) ∧
  (∀ (s : State) (src : Nat) (b : Bool), src < 640 → 
    exec (.eventArrival src (some b)) s = .next (srcLevel s src 0 b)) ∧
  (∀ (s : State) (die line n : Nat), die < 8 → line < 64 → n = tabOr 0 s.hub.evi (64 * die + line) → n ≠ 0 → 
    exec (.eviToggle die line) s = .next (if 1 < n then evtPulse (countUp (eviSent s (64 * die + line)) EV EV_MERGE_COUNT (n - 1)) EV 0 else eviSent s (64 * die + line))) ∧
  (∀ (s u : State) (pc : Nat), pc < 2 → isolated s (regDie (pcPage pc)) = false → u = pcieDown s pc → 
    exec (.perstAssert pc) s = .next (evtPulse (putFlag (setPcie u pc { pcieOf u pc with training := false, fn0 := { }, fn1 := { } }) (pcPage pc) PC_STAT_PERST true) (pcPage pc) 3)) ∧
  (∀ (s : State) (pc : Nat), pc < 2 → isolated s (regDie (pcPage pc)) = false → 
    exec (.perstDeassert pc) s = .next (pcieReleased (putFlag s (pcPage pc) PC_STAT_PERST false) pc)) ∧
  (∀ (s : State) (pc width gen : Nat) (flit : Bool), pc < 2 → isolated s (regDie (pcPage pc)) = false → flag s (pcPage pc) PC_STAT_PERST = false → (pcieOf s pc).training = true → flag s (pcPage pc) PC_STAT_LINK_UP = false → 
    exec (.pcieLinkUp pc width gen flit) s = .next (evtPulse (putF (putF (putFlag (putFlag s (pcPage pc) PC_STAT_LINK_UP true) (pcPage pc) PC_STAT_FLIT flit) (pcPage pc) PC_STAT_WIDTH width) (pcPage pc) PC_STAT_GEN gen) (pcPage pc) 0)) ∧
  (∀ (s : State) (pc : Nat), pc < 2 → 
    exec (.pcieLinkDown pc) s = .next (pcieDown s pc)) ∧
  (∀ (s : State) (ini pc : Nat) (val : Word), pc < 2 → iniAssigned ini = true → isolated s (regDie (pcPage pc)) = false → 
    exec (.doorbell ini pc val) s = .next (doorbellSet s pc val))

/-- Mailboxes: send, take, withdraw, time-out, audit, unmasked vectors and the newt cores (17_processors.md, 18_power.md, 20_errors.md). -/
def Obligations.MailboxRowsComplete : Prop :=
  (∀ (s u : State) (ini m : Nat) (bar0 : Bool), m < 96 → writeOk s ini bar0 (regDie (mbPage m)) (regBlk (mbPage m)) (mbOff m 0x020) 1 = true → u = stored s (regDie (mbPage m)) (regBlk (mbPage m)) (mbOff m 0x020) 1 → 
    exec (.send ini m bar0) s = .next (answer (mbSend u m ini) 0 0)) ∧
  (∀ (s u : State) (ini m : Nat) (bar0 : Bool), m < 96 → writeOk s ini bar0 (regDie (mbPage m)) (regBlk (mbPage m)) (mbOff m 0x034) 1 = true → u = stored s (regDie (mbPage m)) (regBlk (mbPage m)) (mbOff m 0x034) 1 → 
    exec (.mbWithdraw ini m bar0) s = .next (answer (mbWithdrawn u m) 0 0)) ∧
  (∀ (s u : State) (ini m : Nat) (bar0 peek : Bool), m < 96 → reaches s ini (regDie (mbPage m)) (regBlk (mbPage m)) (mbOff m 0x024) false = true → u = reach s (regDie (mbPage m)) (regBlk (mbPage m)) (mbOff m 0x024) false → mbFault u ini bar0 false peek (regDie (mbPage m)) (regBlk (mbPage m)) (mbOff m 0x024) 0 = none → 
    exec (.take ini m bar0 peek) s = .next (answer (if (mboxOf u m).full && !peek && iniClass ini != 5 then mbTaken u m else u) 0
      (if (mboxOf u m).full then 2 ^ 31 + ((mboxOf u m).sender % 1024 * 65536 + (mboxOf u m).seq % 65536) else 0))) ∧
  (∀ (s u : State) (m : Nat), m < 96 → (mboxOf s m).full = true → (mboxOf s m).timeout = false → u = mbEvents (setMbox s m { mboxOf s m with timeout := true }) m → 
    exec (.mbTimeout m) s = .next (if mbFromHost m (mboxOf s m).sender then mbVector u m else u)) ∧
  (∀ (s : State) (m : Nat), m < 96 → 
    exec (.mailboxAudit m) s = .next (audit s 5 (mbPage m) (regBlk (mbPage m)) ((mboxOf s m).seq == ((mboxOf s m).taken + (mboxOf s m).wdraw + ofBool (mboxOf s m).full) % 65536))) ∧
  (∀ (s : State) (pc fn vec : Nat), pc < 2 → fn < 2 → vec < 16 → fnExists s pc fn = true → flag s (pcPage pc) PC_STAT_PERST = false → 
    exec (.msixUnmask pc fn vec) s = .next (msixFlush (msixUnmasked s pc fn vec) pc fn)) ∧
  (∀ (s : State) (m : Nat), 48 ≤ m ∧ m < 64 → (mboxOf s m).full = true → (mboxOf s m).sender ≠ 16 + m % 8 → isolated s (m % 8) = false → s.pow.torpor = false → newtTurn s m = true → 
    exec (.newtRequestTake m) s = .next (mbTaken (newtTook (newtQueued s m) m) m)) ∧
  (∀ (s : State) (n : Nat), n < 8 → 
    exec (.diePowerReport n) s = .next (newtReply s (56 + n) n (diePowerWords s n))) ∧
  (∀ (s : State) (n : Nat) (r : Nat × State), n < 8 → r = freeVal s 32 → 
    exec (.scrubReport n) s = .next (newtReply r.2 (48 + n) n (scrubWords r.2 n r.1)))

/-- Domain drops and wakes, torpor, the alarm, the real-time clock and the loss of VCC_AON (18_power.md, 00_scope.md). -/
def Obligations.PowerRowsComplete : Prop :=
  (∀ (s : State) (die idx : Nat), droppable die idx = true → (domOf s die idx).state = 0 → domVoted s die idx = false → domHeld s die idx = false → domKind die idx ≠ 0x03 → 
    exec (.dropStart die idx) s = .next (setDom s die idx { domOf s die idx with state := 1 })) ∧
  (∀ (s u : State) (die idx : Nat), droppable die idx = true → (domOf s die idx).state = 0 → domVoted s die idx = false → domHeld s die idx = false → domKind die idx = 0x03 → u = setDom s die idx { domOf s die idx with state := 1 } → 
    exec (.dropStart die idx) s = .next (pump (linesClean u (dirtyLines u fun _ => true)))) ∧
  (∀ (s : State) (die idx : Nat), droppable die idx = true → (domOf s die idx).state = 1 → cachesDirty s die idx = false → 
    exec (.dropped die idx) s = .next (evtPulse (dropLoss (dropRegs (setDom s die idx { domOf s die idx with state := 2 }) die idx) die idx) (pdPage die idx) 0)) ∧
  (∀ (s u : State) (die idx : Nat), droppable die idx = true → (domOf s die idx).state = 1 → u = putFlag (setDom s die idx { domOf s die idx with state := 0 }) (pdPage die idx) PD_STAT_DROP_DENIED true → 
    exec (.dropDenied die idx) s = .next (raiseFrom (evtPulse u (pdPage die idx) 2) (pdPage die idx) 0 0x0106 (0x4000 + idx))) ∧
  (∀ (s : State) (die idx : Nat), droppable die idx = true → 
    exec (.domainWake die idx) s = .next (domTouch s die idx)) ∧
  (∀ (s : State) (die idx us : Nat), droppable die idx = true → (domOf s die idx).state = 3 → isolated s die = false → 
    exec (.woken die idx us) s = .next (waitsRetry (domOn s die idx us))) ∧
  (∀ (s : State) (die idx : Nat), (domOf s die idx).state = 3 → 
    exec (.wakeTimeout die idx) s = .next (wakeGivesUp s die idx)) ∧
  (∀ (s u : State) (ini : Nat) (val old : Word), writeOkAt s ini (pdPage 8 1 + 0x060) val = true → u = storedAt s (pdPage 8 1 + 0x060) val → old = getReg (reachAt s (pdPage 8 1 + 0x060)) (pdPage 8 1 + 0x060) → 
    exec (.torporArm ini val) s = .next (answer (if wGet old 8 1 = 1 then setReg u (pdPage 8 1 + 0x060) old else u) 0 0)) ∧
  (∀ (s : State), torporDue s = true → 
    exec (.torporEntry) s = .next (putFlag (wayBegin s .torpor) (pdPage 8 1) PD_TORPOR_ENTERING true)) ∧
  (∀ (s u : State) (why : Nat), s.shut.way = .torpor → s.shut.step = 10 → u = torporOn s → u.pow.exitAtEntry = some why → 
    exec (.torporEntered) s = .next (torporExit u why)) ∧
  (∀ (s u : State), s.shut.way = .torpor → s.shut.step = 10 → u = torporOn s → u.pow.exitAtEntry = none → 
    exec (.torporEntered) s = .next (if flag u (pdPage 8 0) PD_ALARM_CTRL_ALARM_EN && decide (alarmTime u ≤ u.pow.rtc) then torporExit u 1 else u)) ∧
  (∀ (s : State), flag s (pdPage 8 0) PD_ALARM_CTRL_ALARM_EN = true → flag s CU CU_OSC_STAT_RTC_OK = true → s.pow.rtc = alarmTime s → 
    exec (.rtcAlarm) s = .next (if s.pow.torpor then torporExit s 1 else alarmRing s)) ∧
  (∀ (s u : State) (ini : Nat) (val old : Word), writeOkAt s ini (pdPage 8 0 + 0x064) val = true → u = storedAt s (pdPage 8 0 + 0x064) val → old = getReg (reachAt s (pdPage 8 0 + 0x064)) (pdPage 8 0 + 0x064) → 
    exec (.rtcHiWrite ini val) s = .next (answer (setReg (rtcSet u val) (pdPage 8 0 + 0x064) old) 0 0)) ∧
  (∀ (s : State), 
    exec (.vccAonLoss) s = .next (vccAonLost s)) ∧
  (∀ (s : State), 
    exec (.vccAonValid) s = .next ({ s with dbg := { s.dbg with ir := 2, dbgLost := true, reason := if s.dbg.dbgLost then s.dbg.reason else 4 } }))

/-- The thermal governor and the dispatcher (18_power.md). -/
def Obligations.GovernorRowsComplete : Prop :=
  (∀ (s u : State) (temps : List (Option Int)) (milliwatts : Nat), govSamples s = true → u = govRead s temps milliwatts → 
    exec (.governorSample temps milliwatts) s = .next (revokeSelect (poolAdjust (govAimed u) (sampleTarget u).1))) ∧
  (∀ (s : State) (d : Nat), (descOf s d).revoked = true → (descOf s d).held ≠ 0 → (descOf s d).throttled = false → 
    exec (.revokeTimeout d) s = .next (evtPulse (setDesc s d { descOf s d with throttled := true }) GV 1)) ∧
  (∀ (s : State), 
    exec (.budgetAudit) s = .next (audit s 6 DS 0xC040 (budgetOk s))) ∧
  (∀ (s u : State) (ini d : Nat) (w : Word), w = BitVec.ofNat 32 (d % 4096) → writeOkAt s ini (DS + 0x054) w = true → u = storedAt s (DS + 0x054) w → 
    exec (.dsSubmit ini d) s = .next (answer (descReady u (d % 4096)) 0 0)) ∧
  (∀ (s u : State), enabled s DS = true → u = abortIsolated s 4096 → issuePick u 64 = none → 
    exec (.descriptorIssue) s = .next (u)) ∧
  (∀ (s u : State) (q d : Nat), enabled s DS = true → u = abortIsolated s 4096 → issuePick u 64 = some (q, d) → 
    exec (.descriptorIssue) s = .next (issue u q d)) ∧
  (∀ (s : State) (q : Nat), 
    exec (.refusalPauseEnd q) s = .next ({ s with pow := { s.pow with paused := setDel s.pow.paused q } })) ∧
  (∀ (s : State) (q : Nat), readyQ s q ≠ [] → 
    exec (.reserveTimeout q) s = .next ({ s with pow := { s.pow with reserve := setAdd s.pow.reserve q } })) ∧
  (∀ (s u : State) (ini d status : Nat) (w : Word), w = BitVec.ofNat 32 (status % 4 * 65536 + d % 4096) → writeOkAt s ini (DS + 0x058) w = true → u = storedAt s (DS + 0x058) w → 
    exec (.dsDone ini d status) s = .next (answer (descDone u (d % 4096) (status % 4)) 0 0)) ∧
  (∀ (s u : State) (ini d count : Nat) (w : Word), w = BitVec.ofNat 32 (count % 2048 * 65536 + d % 4096) → writeOkAt s ini (DS + 0x05C) w = true → u = storedAt s (DS + 0x05C) w → 
    exec (.dsRel ini d count) s = .next (answer (holderRelease u (d % 4096) (count % 2048)) 0 0)) ∧
  (∀ (s u : State) (ini : Nat) (peek : Bool), reaches s ini 8 0xC050 0x060 false = true → u = reach s 8 0xC050 0x060 false → 
    exec (.dsCqPop ini peek) s = .next (answer (cqPop u peek).1 0 (cqPop u peek).2)) ∧
  (∀ (s u : State) (ini c : Nat) (peek : Bool), c < 4 → reaches s ini 8 0xC050 (0x070 + 4 * c) false = true → u = reach s 8 0xC050 (0x070 + 4 * c) false → 
    exec (.dsMqPop ini c peek) s = .next (answer (mqPop u c peek).1 0 (mqPop u c peek).2)) ∧
  (∀ (s u : State) (ini n : Nat) (peek : Bool), n < 8 → reaches s ini 8 0xC050 (0x080 + 4 * n) false = true → u = reach s 8 0xC050 (0x080 + 4 * n) false → 
    exec (.dsPqPop ini n peek) s = .next (answer (pqPop u n peek).1 0 (pqPop u n peek).2))

/-- The commands of the security core and the test window (19_security.md). -/
def Obligations.SecurityRowsComplete : Prop :=
  (∀ (s u : State) (m : Nat) (bufOk : Bool) (r : SecRes), u = secTake s → secRuns u m = true → reqWord u 0 = 1 → secStall u 1 = none → r = attestRun bufOk u → 
    exec (.attest m bufOk) s = .next (secReply r.s m 1 r.status r.bytes)) ∧
  (∀ (s u : State) (m : Nat) (bufOk : Bool) (r : SecRes), u = secTake s → secRuns u m = true → reqWord u 0 = 2 → secStall u 2 = none → r = getCertRun bufOk u → 
    exec (.getCert m bufOk) s = .next (secReply r.s m 2 r.status r.bytes)) ∧
  (∀ (s u : State) (m : Nat) (keepOk : Bool) (r : SecRes), u = secTake s → secRuns u m = true → reqWord u 0 = 3 → secStall u 3 = none → r = commitVersionRun keepOk u → 
    exec (.commitVersion m keepOk) s = .next (secReply r.s m 3 r.status r.bytes)) ∧
  (∀ (s u : State) (m : Nat) (keepOk : Bool) (r : SecRes), u = secTake s → secRuns u m = true → reqWord u 0 = 4 → secStall u 4 = none → r = setCtrRun keepOk u → 
    exec (.setCtr m keepOk) s = .next (secReply r.s m 4 r.status r.bytes)) ∧
  (∀ (s u : State) (m : Nat) (bufOk keepOk : Bool) (r : SecRes), u = secTake s → secRuns u m = true → reqWord u 0 = 5 → secStall u 5 = none → r = signerAddRun bufOk keepOk u → 
    exec (.signerAdd m bufOk keepOk) s = .next (secReply r.s m 5 r.status r.bytes)) ∧
  (∀ (s u : State) (m : Nat) (keepOk : Bool) (r : SecRes), u = secTake s → secRuns u m = true → reqWord u 0 = 6 → secStall u 6 = none → r = signerRevokeRun keepOk u → 
    exec (.signerRevoke m keepOk) s = .next (secReply r.s m 6 r.status r.bytes)) ∧
  (∀ (s u : State) (m : Nat) (token bufOk keepOk : Bool) (r : SecRes), u = secTake s → secRuns u m = true → reqWord u 0 = 7 → secStall u 7 = none → r = lcAdvanceRun m token bufOk keepOk u → 
    exec (.lcAdvance m token bufOk keepOk) s = .next (secReply r.s m 7 r.status r.bytes)) ∧
  (∀ (s u : State) (m : Nat) (nonce : List (BitVec 8)) (bufOk : Bool) (r : SecRes), u = secTake s → secRuns u m = true → reqWord u 0 = 8 → secStall u 8 = none → r = returnNonceRun nonce bufOk u → 
    exec (.returnNonce m nonce bufOk) s = .next (secReply r.s m 8 r.status r.bytes)) ∧
  (∀ (s u : State) (m : Nat) (pub : List (BitVec 8)) (bufOk keepOk : Bool) (r : SecRes), u = secTake s → secRuns u m = true → reqWord u 0 = 9 → secStall u 9 = none → r = provisionRun pub bufOk keepOk u → 
    exec (.provision m pub bufOk keepOk) s = .next (secReply r.s m 9 r.status r.bytes)) ∧
  (∀ (s u : State) (m : Nat) (bufOk keepOk : Bool) (r : SecRes), u = secTake s → secRuns u m = true → reqWord u 0 = 0xA → secStall u 0xA = none → r = certWriteRun bufOk keepOk u → 
    exec (.certWrite m bufOk keepOk) s = .next (secReply r.s m 0xA r.status r.bytes)) ∧
  (∀ (s u : State) (m : Nat) (keepOk : Bool) (r : SecRes), u = secTake s → secRuns u m = true → reqWord u 0 = 0xB → secStall u 0xB = none → r = clearStestRun keepOk u → 
    exec (.clearStest m keepOk) s = .next (secReply r.s m 0xB r.status r.bytes)) ∧
  (∀ (s u : State) (m : Nat), u = secTake s → secRuns u m = true → reqWord u 0 = 0 ∨ 0xB < reqWord u 0 → 
    exec (.unknownCommand m) s = .next (secReply u m (reqWord u 0 % 256) 0xF 0)) ∧
  (∀ (s u : State) (ini : Nat), writeOkAt s ini (SC + 0x0A0) 1 = true → u = storedAt s (SC + 0x0A0) 1 → 
    exec (.testWindowGo ini) s = .next (answer (putFlag u SC SC_TGO_BUSY true) 0 0))

/-- Error reports, the scrubbers and the black box (20_errors.md). -/
def Obligations.ErrorRowsComplete : Prop :=
  (∀ (s : State) (cls die src code info : Nat), errClass code = some cls → 
    exec (.errorReport cls die src code info) s = .next (raise s cls die src code info)) ∧
  (∀ (s : State), s.err.fatal = true → flag s ER ER_CTRL_FATAL_RESET = true → 
    exec (.fatalHoldExpiry) s = .next (startTrigger s)) ∧
  (∀ (s u : State) (ini : Nat) (val : Word) (n : ErrRec), writeOkAt s ini (ER + 0x040) (val ||| 0x80000000) = true → u = storedAt s (ER + 0x040) (val ||| 0x80000000) → u.err.next = some n → 
    exec (.errorDone ini val) s = .next (answer { u with err := { u.err with first := some n, next := none } } 0 0)) ∧
  (∀ (s u : State) (ini : Nat) (val : Word), writeOkAt s ini (ER + 0x040) (val ||| 0x80000000) = true → u = storedAt s (ER + 0x040) (val ||| 0x80000000) → u.err.next = none → 
    exec (.errorDone ini val) s = .next (answer { u with err := { u.err with first := none, handling := false } } 0 0)) ∧
  (∀ (s : State) (die : Nat) (errs : List (Nat × BitVec 72)) (x : AxEngine) (good seen : Frame), axScans s die = true → scrubSkips s die (axOf s die).pos = false → x = axOf s die → good = cfgGet s die x.pos → seen = cfgSeen s die x.pos → 
    exec (.scrubFrameRead die errs) s = .next (if (frameWords good seen errs).any (· == .uncorrectable) then setAx s die { x with state := 2, part := scrubFix good seen errs }
      else if (frameWords good seen errs).all (· == .clean) then scanOn s die
      else scrubCorrected s die (scrubFix good seen errs))) ∧
  (∀ (s : State) (die : Nat) (reads : List RegenRead) (f : Frame), (axOf s die).state = 2 → isFabric die = true → isolated s die = false → regenGood s die reads = some f → gateShut s (24 + die) = false → 
    exec (.regenDone die reads) s = .next (regenPlaced s die f)) ∧
  (∀ (s : State) (die : Nat) (reads : List RegenRead), (axOf s die).state = 2 → isFabric die = true → isolated s die = false → regenGood s die reads = none → gateShut s (24 + die) = false → 
    exec (.regenDone die reads) s = .next (regenFailed s die)) ∧
  (∀ (s u : State) (ini die : Nat) (val : Word), writeOkAt s ini (axPage die + 0x040) val = true → u = storedAt s (axPage die + 0x040) val → 
    exec (.axEnWrite ini die val) s = .next (answer (axWritten u die) 0 0)) ∧
  (∀ (s : State) (die : Nat) (x : AxEngine), isFabric die = true → x = axOf s die → axVote x = true → isolated s die = false → x.state = 1 ∨ x.state = 2 → 
    exec (.scrubHeartbeatMiss die) s = .next (if x.misses = 0 then scanStart (setAx (raiseFrom s (axPage die) 1 0x0406 x.pos) die { x with misses := 1 }) die
      else raiseFrom (setAx s die { x with state := 3, misses := 2 }) (axPage die) 1 0x0407 x.pos)) ∧
  (∀ (s : State), 
    exec (.bbEntryWrite) s = .next (bbWriteOne s)) ∧
  (∀ (s u : State) (ini : Nat) (val : Word), writeOkAt s ini (BB + 0x04C) val = true → u = storedAt s (BB + 0x04C) val → 
    exec (.bbMark ini val) s = .next (answer (bbMarker u 0x10 val.toNat) 0 0)) ∧
  (∀ (s : State) (reason : Nat) (ok : Bool), 1 ≤ reason → reason ≤ 5 → 
    exec (.bbCopy reason ok) s = .next (bbCopyWrite s reason ok)) ∧
  (∀ (s u : State) (ini : Nat) (w : Word), w = setWord s BB [(BB_XFER_CTRL_GO, 1)] → writeOkAt s ini (BB + 0x06C) w = true → u = storedAt s (BB + 0x06C) w → 
    exec (.bbXferGo ini) s = .next (answer (putF u BB BB_XFER_STAT_RESULT (if (copySel u).isSome then 0xF else 2)) 0 0)) ∧
  (∀ (s : State) (ok : Bool) (c : BbCopy), getF s BB BB_XFER_STAT_RESULT = 0xF → copySel s = some c → busStall s 9 (getF s BB BB_XFER_LO_ADDR * 256 + getF s BB BB_XFER_HI_ADDR * 2 ^ 32) (528 * 256) = none → 
    exec (.bbXferDone ok) s = .next (copySent s c ok)) ∧
  (∀ (s : State) (ok : Bool), getF s BB BB_XFER_STAT_RESULT = 0xF → copySel s = none → 
    exec (.bbXferDone ok) s = .next (putF s BB BB_XFER_STAT_RESULT 2))

/-- Power failure, brown-out, thermal trip, shutdown, last gasp, self-tests and safe pins (21_shutdown.md, 23_pins.md). -/
def Obligations.ShutdownRowsComplete : Prop :=
  (∀ (s : State), 
    exec (.pfwFall) s = .next (if s.pow.torpor || s.start.phase = .off then pinPfw s false else powerFail (pinPfw s false) 1 none)) ∧
  (∀ (s : State), 
    exec (.pfwRise) s = .next (pfwRestart (pinPfw s true))) ∧
  (∀ (s : State), s.shut.way ≠ .none → 
    exec (.lastGaspStepDone) s = .next (wayStep s)) ∧
  (∀ (s : State) (die net : Nat), capHas s die net = true → 
    exec (.captureStopTimeout die net true) s = .next (capLeave (capMissed s die net) die net)) ∧
  (∀ (s : State) (die net : Nat), capHas s die net = true → 
    exec (.captureStopTimeout die net false) s = .next (if netRuns s die net then netEnable s die net false else capTake s die net)) ∧
  (∀ (s u : State) (ini : Nat), writeOkAt s ini (SD + 0x040) 0x40000000 = true → u = storedAt s (SD + 0x040) 0x40000000 → 
    exec (.sdArm ini) s = .next (answer (armStart u) 0 0)) ∧
  (∀ (s u : State) (ini : Nat), writeOkAt s ini (SD + 0x040) 0x20000000 = true → u = storedAt s (SD + 0x040) 0x20000000 → 
    exec (.disarm ini) s = .next (answer (disarmNow u) 0 0)) ∧
  (∀ (s u : State) (ini : Nat), writeOkAt s ini (SD + 0x040) 0x80000000 = true → u = storedAt s (SD + 0x040) 0x80000000 → 
    exec (.shdn ini) s = .next (answer (orderlyBegin u) 0 0)) ∧
  (∀ (s : State), getF s SD SD_STAT_ARM_RESULT = 0xF → 
    exec (.armDone) s = .next (armEnd s)) ∧
  (∀ (s u : State), u = { s with pin := { s.pin with shdnN := false } } → 
    exec (.shdnReqNLow) s = .next (if starting s.start.phase then { u with start := { u.start with shdnHeld := true } }
      else if (s.start.phase = .ready || s.start.phase = .safe) && s.shut.way = .none then orderlyBegin u else u)) ∧
  (∀ (s u : State) (ms : Nat) (fail : Option (Nat × Nat × Nat)), s.shut.way = .orderly → s.shut.step = 9 → u = testSaved s (testRecOf s ms fail) → 
    exec (.shutdownSelftestDone ms fail) s = .next (if fail.isNone then putF u SD SD_STAT_STATE 4 else failPin (putF u SD SD_STAT_STATE 4))) ∧
  (∀ (s u : State) (ini die : Nat) (val : Word), writeOkAt s ini (stPage die + 0x040) (val ||| 0x80000000) = true → u = storedAt s (stPage die + 0x040) (val ||| 0x80000000) → 
    exec (.selftestGo ini die val) s = .next (answer (stStart u die) 0 0)) ∧
  (∀ (s : State) (die : Nat) (fail : Option Nat), flag s (stPage die) ST_STAT_BUSY = true → 
    exec (.selftestDone die fail) s = .next (testEnded s die fail)) ∧
  (∀ (s : State) (rail : Nat), rail < 9 → s.pow.torpor = false → 
    exec (.brownOut rail) s = .next (if s.start.phase = .off ∨ s.start.phase = .s0 then
        { railLost s rail with start := { (railLost s rail).start with phase := .off } }
      else powerFail (railLost s rail) 2 (some rail))) ∧
  (∀ (s : State), s.pow.torpor = false → tooHot s = true → s.shut.way ≠ .lastGasp ∧ s.shut.way ≠ .torpor → starting s.start.phase = true ∨ s.start.phase = .ready ∨ s.start.phase = .safe ∨ s.shut.way = .orderly → 
    exec (.thermalTrip) s = .next (powerFail { s with pin := { s.pin with tripHold := true } } 3 none)) ∧
  (∀ (s u : State) (ini die a i : Nat) (val : Word), die ≠ 8 → a < 8 → i < 3 → writeOkAt s ini (ioPage die a + (0x040 + 4 * i)) val = true → u = storedAt s (ioPage die a + (0x040 + 4 * i)) val → 
    exec (.ioSafeWrite ini die a i val) s = .next (answer (pinsLatch u die) 0 0))

/-- The test access port and the debug access port (22_debug.md). -/
def Obligations.TestPortRowsComplete : Prop :=
  (∀ (s : State), 
    exec (.testLogicReset) s = .next ({ s with dbg := { s.dbg with ir := 2 } })) ∧
  (∀ (s : State), 
    exec (.extest) s = .next (tapSel s 0)) ∧
  (∀ (s : State) (sampled preload : List Bool), 
    exec (.samplePreload sampled preload) s = .next ({ s with dbg := { s.dbg with ir := 1, irOut := 1, bsrOut := sampled, bsr := preload } })) ∧
  (∀ (s : State), 
    exec (.idcode) s = .next (tapLoad s 2 idcodeValue)) ∧
  (∀ (s : State), 
    exec (.clamp) s = .next (tapSel s 3)) ∧
  (∀ (s : State), 
    exec (.highz) s = .next (tapSel s 4)) ∧
  (∀ (s : State) (ir : Nat), ir < 256 → tapCodes.contains ir = false → 
    exec (.bypass ir) s = .next (tapSel s ir)) ∧
  (∀ (s u : State) (dr : BitVec 80), u = tapLoad s 0x10 (dbgAccValue s) → u.dbg.acc = none → u.dbg.dbgLost = false → nGet dr.toNat 32 42 % 4 = 0 → 
    exec (.dbgAcc dr) s = .next (accBegin u dr.toNat)) ∧
  (∀ (s u : State) (dr : BitVec 80), u = tapLoad s 0x10 (dbgAccValue s) → u.dbg.acc = none → u.dbg.dbgLost = false → nGet dr.toNat 32 42 % 4 ≠ 0 → 
    exec (.dbgAcc dr) s = .next ({ u with dbg := { u.dbg with code := 1, lost := false } })) ∧
  (∀ (s u : State) (dr : BitVec 80), u = tapLoad s 0x10 (dbgAccValue s) → u.dbg.acc.isSome = true ∨ u.dbg.dbgLost = true → 
    exec (.dbgAcc dr) s = .next (u)) ∧
  (∀ (s : State) (x : Nat × Bool × Bool × Word) (n : Nat × Nat), s.dbg.acc = some x → busUp s = true → s.dbg.lost = false → destOf s x.1 = some n → accessOk s x.1 4 x.2.1 = true → quenched s 6 = false → causesT s n.1 = [] ∧ portShut s n.1 = false → isolated s (nodeDie n.1) = false → 
    exec (.dbgAccDone) s = .next (accServed s x n.1)) ∧
  (∀ (s : State) (x : Nat × Bool × Bool × Word) (n : Nat × Nat), s.dbg.acc = some x → busUp s = true → s.dbg.lost = false → destOf s x.1 = some n → accessOk s x.1 4 x.2.1 = true → quenched s 6 = false → causesT s n.1 ≠ [] ∨ portShut s n.1 = true ∨ isolated s (nodeDie n.1) = true → 
    exec (.dbgAccDone) s = .next (accEnd s 2 0)) ∧
  (∀ (s : State) (x : Nat × Bool × Bool × Word), s.dbg.acc = some x → busUp s = true → s.dbg.lost = false → destOf s x.1 = none → 
    exec (.dbgAccDone) s = .next (accEnd s 1 0)) ∧
  (∀ (s : State) (x : Nat × Bool × Bool × Word), s.dbg.acc = some x → busUp s = true → s.dbg.lost = true → 
    exec (.dbgAccDone) s = .next ({ s with dbg := { s.dbg with acc := none } })) ∧
  (∀ (s u : State) (dr : Word), u = tapLoad s 0x11 (dbgStatValue s) → 
    exec (.dbgStat dr) s = .next (if wGet dr 31 1 = 1 then { u with dbg := { u.dbg with dbgLost := false } } else u))

/-- Run control of cores and engines, trace, watchdogs and the sentinel (22_debug.md). -/
def Obligations.DebugRowsComplete : Prop :=
  (∀ (s u : State) (ini cores : Nat) (w : Word), w = setWord s DB [(DB_HALT_HALT_REQ, cores % 16)] → writeOkAt s ini (DB + 0x040) w = true → u = storedAt s (DB + 0x040) w → 
    exec (.haltReq ini cores) s = .next (answer (coresResumed (haltAsk u (cores % 16) 1) (wGet w 4 4) (wGet w 8 4)) 0 0)) ∧
  (∀ (s u : State) (ini cores : Nat) (w : Word), w = setWord s DB [(DB_HALT_RESUME_REQ, cores % 16)] → writeOkAt s ini (DB + 0x040) w = true → u = storedAt s (DB + 0x040) w → 
    exec (.resumeReq ini cores) s = .next (answer (coresResumed (haltAsk u (wGet w 0 4) 1) (cores % 16) (wGet w 8 4)) 0 0)) ∧
  (∀ (s u : State) (ini cores : Nat) (w : Word), w = setWord s DB [(DB_HALT_STEP, cores % 16)] → writeOkAt s ini (DB + 0x040) w = true → u = storedAt s (DB + 0x040) w → 
    exec (.step ini cores) s = .next (answer (coresResumed (haltAsk u (wGet w 0 4) 1) (wGet w 4 4) (cores % 16)) 0 0)) ∧
  (∀ (s : State) (c cause hit : Nat) (regs : List (Nat × BitVec 64)), c < 4 → (hartOf s c).running = true → (hartOf s c).halted = false → coreBusy s c = false → hitsOk s c hit = true → haltCause s c cause hit regs = true → 
    exec (.coreHalt c cause hit regs) s = .next (coreHaltNow s c cause hit regs)) ∧
  (∀ (s u : State) (ini : Nat) (val : Word), writeOkAt s ini (DB + 0x060) (val ||| 0x80000000) = true → u = storedAt s (DB + 0x060) (val ||| 0x80000000) → 
    exec (.dbRegcmd ini val) s = .next (answer (regCommand u (val ||| 0x80000000)) 0 0)) ∧
  (∀ (s u : State) (ini die eng : Nat) (w : Word), w = dbLeWord 1 die eng → writeOkAt s ini (DB + 0x070) w = true → u = storedAt s (DB + 0x070) w → 
    exec (.leHalt ini die eng) s = .next (answer (leDbgHalt u (die % 16) (eng % 512)) 0 0)) ∧
  (∀ (s u : State) (ini die eng : Nat) (w : Word), w = dbLeWord 2 die eng → writeOkAt s ini (DB + 0x070) w = true → u = storedAt s (DB + 0x070) w → 
    exec (.leResume ini die eng) s = .next (answer (leDbgResume u (die % 16) (eng % 512)) 0 0)) ∧
  (∀ (s u : State) (ini die eng : Nat) (w : Word), w = dbLeWord 3 die eng → writeOkAt s ini (DB + 0x070) w = true → u = storedAt s (DB + 0x070) w → 
    exec (.leStep ini die eng) s = .next (answer (leDbgStep u (die % 16) (eng % 512)) 0 0)) ∧
  (∀ (s u : State) (e : TraceEnt) (rest : List TraceEnt), s.dbg.traceQ = e :: rest → flag s TR TR_CFG_EN = true → traceStopped s = false → u = traceTaken s rest → 
    exec (.traceEntryWrite) s = .next (if traceStopped u then u else tracePut u e)) ∧
  (∀ (s u : State) (ini c : Nat) (val : Word), c < 4 → writeOkAt s ini (WD + (0x054 + 16 * c)) val = true → u = storedAt s (WD + (0x054 + 16 * c)) val → 
    exec (.watchdogKick ini c val) s = .next (answer (wdPut u c (getF u WD (WD_CTRL_LOAD_US.nth c) * 1000)) 0 0)) ∧
  (∀ (s u v : State) (c : Nat), c < 4 → flag s WD (WD_CTRL_EN.nth c) = true → ((hartOf s c).halted && nBit (getF s WD WD_CFG_FREEZE) c) = false → u = evtPulse (putF s WD WD_STAT_BITTEN (nSet (getF s WD WD_STAT_BITTEN) c true)) WD c → v = (if nBit (getF u WD WD_CFG_RESET_EN) c then coreReset u c else u) → 
    exec (.watchdogExpiry c) s = .next (wdPut v c (getF v WD (WD_CTRL_LOAD_US.nth c) * 1000))) ∧
  (∀ (s u : State) (ini : Nat) (val old : Word), writeOkAt s ini (WD + 0x090) val = true → u = storedAt s (WD + 0x090) val → old = getReg (reachAt s (WD + 0x090)) (WD + 0x090) → 
    exec (.sentinelStart ini val) s = .next (answer (if wGet val 31 1 = 1 && wGet old 31 1 = 0 then wdPut u 4 (wGet val 0 16 * 1000000) else u) 0 0)) ∧
  (∀ (s u : State) (ini : Nat) (val : Word), writeOkAt s ini (WD + 0x094) val = true → u = storedAt s (WD + 0x094) val → 
    exec (.sentinelKick ini val) s = .next (answer (wdPut u 4 (getF u WD WD_SENT_CTRL_PERIOD_MS * 1000000)) 0 0)) ∧
  (∀ (s : State), flag s WD WD_SENT_CTRL_EN = true → s.pow.torpor = false → flag s WD WD_SENT_CTRL_SENT_FREEZE = false ∨ (List.range 4).any (fun c => (hartOf s c).halted) = false → 
    exec (.sentinelBite) s = .next (putFlag (startTrigger s) WD WD_STAT_SENT_BIT true))

end
end

