-- ==== Sys2Proof/Laws/Engine.lean ====
section
/-! SUPPORT. What a step of a loop engine does, said once: an instruction that issues takes effect whole. -/

namespace Sys2Proof.Machine

/-- A row that selects the instruction at PC issues it. -/
theorem leRun_issued (s : State) (die e : Nat) (i : LeInstr) (sel : LeInstr → Bool) (h : issues s die e i = true)
    (hs : sel i = true) : leRun s die e sel = issued s die e i := by
  unfold issues atInstr at h
  simp only [Bool.and_eq_true, decide_eq_true_eq, Bool.not_eq_true', bne_iff_ne, ne_eq] at h
  obtain ⟨⟨⟨⟨⟨⟨⟨⟨⟨hm, he⟩, hw⟩, hg⟩, hb⟩, h2⟩, hd⟩, hx⟩, hq⟩, hp⟩ := h
  have hn : (engOf s die e).ending.isSome = false := by cases h : (engOf s die e).ending <;> simp_all
  unfold leRun
  simp only [hm, hn, hw, hg, hb, hd, hs, h2]
  simp only [bne_self_eq_false, Bool.or_self, Bool.not_true, Bool.false_eq_true, if_false]
  change leIssue (leFetched s die e) die e i = _
  unfold leIssue issued
  rw [if_neg (by simp [hx]), if_neg (by simp [hq])]
  exact if_neg (by simp [hp])

/-- A row that selects a TRAP at PC takes exception 0x08. -/
theorem leRun_trap (s : State) (die e : Nat) (i : LeInstr) (sel : LeInstr → Bool) (h : atInstr s die e i = true)
    (hx : leIssueExc (leFetched s die e) die e (engOf (leFetched s die e) die e) i = excTrap) (hs : sel i = true) :
    leRun s die e sel =
      leExc (leFetched s die e) die e excTrap (engOf (leFetched s die e) die e).pc.toNat := by
  unfold atInstr at h
  simp only [Bool.and_eq_true, decide_eq_true_eq, Bool.not_eq_true', bne_iff_ne, ne_eq] at h
  obtain ⟨⟨⟨⟨⟨⟨hm, he⟩, hw⟩, hg⟩, hb⟩, h2⟩, hd⟩ := h
  have hn : (engOf s die e).ending.isSome = false := by cases h : (engOf s die e).ending <;> simp_all
  unfold leRun
  simp only [hm, hn, hw, hg, hb, hd, hs, h2]
  simp only [bne_self_eq_false, Bool.or_self, Bool.not_true, Bool.false_eq_true, if_false]
  change leIssue (leFetched s die e) die e i = _
  unfold leIssue
  simp only [hx]
  simp

end Sys2Proof.Machine
end

