-- ==== Sys2Proof/Laws/State.lean ====
section
/-! SUPPORT. Which part of State each update leaves alone: one lemma a part and an update, true by unfolding, so that no
later proof opens a record update. An update named here touches the one part (or two) that its group's heading names. -/

namespace Sys2Proof.Machine

/-! `setReg` touches pg alone. -/

@[simp] theorem setReg_clk (s : State) (a : Nat) (w : Word) : (setReg s a w).clk = s.clk := rfl
@[simp] theorem setReg_start (s : State) (a : Nat) (w : Word) : (setReg s a w).start = s.start := rfl
@[simp] theorem setReg_load (s : State) (a : Nat) (w : Word) : (setReg s a w).load = s.load := rfl
@[simp] theorem setReg_keep (s : State) (a : Nat) (w : Word) : (setReg s a w).keep = s.keep := rfl
@[simp] theorem setReg_fab (s : State) (a : Nat) (w : Word) : (setReg s a w).fab = s.fab := rfl
@[simp] theorem setReg_mem (s : State) (a : Nat) (w : Word) : (setReg s a w).mem = s.mem := rfl
@[simp] theorem setReg_part (s : State) (a : Nat) (w : Word) : (setReg s a w).part = s.part := rfl
@[simp] theorem setReg_le (s : State) (a : Nat) (w : Word) : (setReg s a w).le = s.le := rfl
@[simp] theorem setReg_noc (s : State) (a : Nat) (w : Word) : (setReg s a w).noc = s.noc := rfl
@[simp] theorem setReg_seam (s : State) (a : Nat) (w : Word) : (setReg s a w).seam = s.seam := rfl
@[simp] theorem setReg_lane (s : State) (a : Nat) (w : Word) : (setReg s a w).lane = s.lane := rfl
@[simp] theorem setReg_flow (s : State) (a : Nat) (w : Word) : (setReg s a w).flow = s.flow := rfl
@[simp] theorem setReg_ddr (s : State) (a : Nat) (w : Word) : (setReg s a w).ddr = s.ddr := rfl
@[simp] theorem setReg_hub (s : State) (a : Nat) (w : Word) : (setReg s a w).hub = s.hub := rfl
@[simp] theorem setReg_pow (s : State) (a : Nat) (w : Word) : (setReg s a w).pow = s.pow := rfl
@[simp] theorem setReg_sec (s : State) (a : Nat) (w : Word) : (setReg s a w).sec = s.sec := rfl
@[simp] theorem setReg_err (s : State) (a : Nat) (w : Word) : (setReg s a w).err = s.err := rfl
@[simp] theorem setReg_shut (s : State) (a : Nat) (w : Word) : (setReg s a w).shut = s.shut := rfl
@[simp] theorem setReg_dbg (s : State) (a : Nat) (w : Word) : (setReg s a w).dbg = s.dbg := rfl
@[simp] theorem setReg_pin (s : State) (a : Nat) (w : Word) : (setReg s a w).pin = s.pin := rfl
@[simp] theorem setReg_resp (s : State) (a : Nat) (w : Word) : (setReg s a w).resp = s.resp := rfl
@[simp] theorem setReg_freeIdx (s : State) (a : Nat) (w : Word) : (setReg s a w).freeIdx = s.freeIdx := rfl
@[simp] theorem setReg_pending (s : State) (a : Nat) (w : Word) : (setReg s a w).pending = s.pending := rfl

/-! `putF` touches pg alone. -/

@[simp] theorem putF_clk (s : State) (p : Nat) (f : FieldRef) (v : Nat) : (putF s p f v).clk = s.clk := rfl
@[simp] theorem putF_start (s : State) (p : Nat) (f : FieldRef) (v : Nat) : (putF s p f v).start = s.start := rfl
@[simp] theorem putF_load (s : State) (p : Nat) (f : FieldRef) (v : Nat) : (putF s p f v).load = s.load := rfl
@[simp] theorem putF_keep (s : State) (p : Nat) (f : FieldRef) (v : Nat) : (putF s p f v).keep = s.keep := rfl
@[simp] theorem putF_fab (s : State) (p : Nat) (f : FieldRef) (v : Nat) : (putF s p f v).fab = s.fab := rfl
@[simp] theorem putF_mem (s : State) (p : Nat) (f : FieldRef) (v : Nat) : (putF s p f v).mem = s.mem := rfl
@[simp] theorem putF_part (s : State) (p : Nat) (f : FieldRef) (v : Nat) : (putF s p f v).part = s.part := rfl
@[simp] theorem putF_le (s : State) (p : Nat) (f : FieldRef) (v : Nat) : (putF s p f v).le = s.le := rfl
@[simp] theorem putF_noc (s : State) (p : Nat) (f : FieldRef) (v : Nat) : (putF s p f v).noc = s.noc := rfl
@[simp] theorem putF_seam (s : State) (p : Nat) (f : FieldRef) (v : Nat) : (putF s p f v).seam = s.seam := rfl
@[simp] theorem putF_lane (s : State) (p : Nat) (f : FieldRef) (v : Nat) : (putF s p f v).lane = s.lane := rfl
@[simp] theorem putF_flow (s : State) (p : Nat) (f : FieldRef) (v : Nat) : (putF s p f v).flow = s.flow := rfl
@[simp] theorem putF_ddr (s : State) (p : Nat) (f : FieldRef) (v : Nat) : (putF s p f v).ddr = s.ddr := rfl
@[simp] theorem putF_hub (s : State) (p : Nat) (f : FieldRef) (v : Nat) : (putF s p f v).hub = s.hub := rfl
@[simp] theorem putF_pow (s : State) (p : Nat) (f : FieldRef) (v : Nat) : (putF s p f v).pow = s.pow := rfl
@[simp] theorem putF_sec (s : State) (p : Nat) (f : FieldRef) (v : Nat) : (putF s p f v).sec = s.sec := rfl
@[simp] theorem putF_err (s : State) (p : Nat) (f : FieldRef) (v : Nat) : (putF s p f v).err = s.err := rfl
@[simp] theorem putF_shut (s : State) (p : Nat) (f : FieldRef) (v : Nat) : (putF s p f v).shut = s.shut := rfl
@[simp] theorem putF_dbg (s : State) (p : Nat) (f : FieldRef) (v : Nat) : (putF s p f v).dbg = s.dbg := rfl
@[simp] theorem putF_pin (s : State) (p : Nat) (f : FieldRef) (v : Nat) : (putF s p f v).pin = s.pin := rfl
@[simp] theorem putF_resp (s : State) (p : Nat) (f : FieldRef) (v : Nat) : (putF s p f v).resp = s.resp := rfl
@[simp] theorem putF_freeIdx (s : State) (p : Nat) (f : FieldRef) (v : Nat) : (putF s p f v).freeIdx = s.freeIdx := rfl
@[simp] theorem putF_pending (s : State) (p : Nat) (f : FieldRef) (v : Nat) : (putF s p f v).pending = s.pending := rfl

/-! `putFlag` touches pg alone. -/

@[simp] theorem putFlag_clk (s : State) (p : Nat) (f : FieldRef) (b : Bool) : (putFlag s p f b).clk = s.clk := rfl
@[simp] theorem putFlag_start (s : State) (p : Nat) (f : FieldRef) (b : Bool) : (putFlag s p f b).start = s.start := rfl
@[simp] theorem putFlag_load (s : State) (p : Nat) (f : FieldRef) (b : Bool) : (putFlag s p f b).load = s.load := rfl
@[simp] theorem putFlag_keep (s : State) (p : Nat) (f : FieldRef) (b : Bool) : (putFlag s p f b).keep = s.keep := rfl
@[simp] theorem putFlag_fab (s : State) (p : Nat) (f : FieldRef) (b : Bool) : (putFlag s p f b).fab = s.fab := rfl
@[simp] theorem putFlag_mem (s : State) (p : Nat) (f : FieldRef) (b : Bool) : (putFlag s p f b).mem = s.mem := rfl
@[simp] theorem putFlag_part (s : State) (p : Nat) (f : FieldRef) (b : Bool) : (putFlag s p f b).part = s.part := rfl
@[simp] theorem putFlag_le (s : State) (p : Nat) (f : FieldRef) (b : Bool) : (putFlag s p f b).le = s.le := rfl
@[simp] theorem putFlag_noc (s : State) (p : Nat) (f : FieldRef) (b : Bool) : (putFlag s p f b).noc = s.noc := rfl
@[simp] theorem putFlag_seam (s : State) (p : Nat) (f : FieldRef) (b : Bool) : (putFlag s p f b).seam = s.seam := rfl
@[simp] theorem putFlag_lane (s : State) (p : Nat) (f : FieldRef) (b : Bool) : (putFlag s p f b).lane = s.lane := rfl
@[simp] theorem putFlag_flow (s : State) (p : Nat) (f : FieldRef) (b : Bool) : (putFlag s p f b).flow = s.flow := rfl
@[simp] theorem putFlag_ddr (s : State) (p : Nat) (f : FieldRef) (b : Bool) : (putFlag s p f b).ddr = s.ddr := rfl
@[simp] theorem putFlag_hub (s : State) (p : Nat) (f : FieldRef) (b : Bool) : (putFlag s p f b).hub = s.hub := rfl
@[simp] theorem putFlag_pow (s : State) (p : Nat) (f : FieldRef) (b : Bool) : (putFlag s p f b).pow = s.pow := rfl
@[simp] theorem putFlag_sec (s : State) (p : Nat) (f : FieldRef) (b : Bool) : (putFlag s p f b).sec = s.sec := rfl
@[simp] theorem putFlag_err (s : State) (p : Nat) (f : FieldRef) (b : Bool) : (putFlag s p f b).err = s.err := rfl
@[simp] theorem putFlag_shut (s : State) (p : Nat) (f : FieldRef) (b : Bool) : (putFlag s p f b).shut = s.shut := rfl
@[simp] theorem putFlag_dbg (s : State) (p : Nat) (f : FieldRef) (b : Bool) : (putFlag s p f b).dbg = s.dbg := rfl
@[simp] theorem putFlag_pin (s : State) (p : Nat) (f : FieldRef) (b : Bool) : (putFlag s p f b).pin = s.pin := rfl
@[simp] theorem putFlag_resp (s : State) (p : Nat) (f : FieldRef) (b : Bool) : (putFlag s p f b).resp = s.resp := rfl
@[simp] theorem putFlag_freeIdx (s : State) (p : Nat) (f : FieldRef) (b : Bool) : (putFlag s p f b).freeIdx = s.freeIdx := rfl
@[simp] theorem putFlag_pending (s : State) (p : Nat) (f : FieldRef) (b : Bool) : (putFlag s p f b).pending = s.pending := rfl

/-! `countUp` touches pg alone. -/

@[simp] theorem countUp_clk (s : State) (p : Nat) (f : FieldRef) (n : Nat) : (countUp s p f n).clk = s.clk := rfl
@[simp] theorem countUp_start (s : State) (p : Nat) (f : FieldRef) (n : Nat) : (countUp s p f n).start = s.start := rfl
@[simp] theorem countUp_load (s : State) (p : Nat) (f : FieldRef) (n : Nat) : (countUp s p f n).load = s.load := rfl
@[simp] theorem countUp_keep (s : State) (p : Nat) (f : FieldRef) (n : Nat) : (countUp s p f n).keep = s.keep := rfl
@[simp] theorem countUp_fab (s : State) (p : Nat) (f : FieldRef) (n : Nat) : (countUp s p f n).fab = s.fab := rfl
@[simp] theorem countUp_mem (s : State) (p : Nat) (f : FieldRef) (n : Nat) : (countUp s p f n).mem = s.mem := rfl
@[simp] theorem countUp_part (s : State) (p : Nat) (f : FieldRef) (n : Nat) : (countUp s p f n).part = s.part := rfl
@[simp] theorem countUp_le (s : State) (p : Nat) (f : FieldRef) (n : Nat) : (countUp s p f n).le = s.le := rfl
@[simp] theorem countUp_noc (s : State) (p : Nat) (f : FieldRef) (n : Nat) : (countUp s p f n).noc = s.noc := rfl
@[simp] theorem countUp_seam (s : State) (p : Nat) (f : FieldRef) (n : Nat) : (countUp s p f n).seam = s.seam := rfl
@[simp] theorem countUp_lane (s : State) (p : Nat) (f : FieldRef) (n : Nat) : (countUp s p f n).lane = s.lane := rfl
@[simp] theorem countUp_flow (s : State) (p : Nat) (f : FieldRef) (n : Nat) : (countUp s p f n).flow = s.flow := rfl
@[simp] theorem countUp_ddr (s : State) (p : Nat) (f : FieldRef) (n : Nat) : (countUp s p f n).ddr = s.ddr := rfl
@[simp] theorem countUp_hub (s : State) (p : Nat) (f : FieldRef) (n : Nat) : (countUp s p f n).hub = s.hub := rfl
@[simp] theorem countUp_pow (s : State) (p : Nat) (f : FieldRef) (n : Nat) : (countUp s p f n).pow = s.pow := rfl
@[simp] theorem countUp_sec (s : State) (p : Nat) (f : FieldRef) (n : Nat) : (countUp s p f n).sec = s.sec := rfl
@[simp] theorem countUp_err (s : State) (p : Nat) (f : FieldRef) (n : Nat) : (countUp s p f n).err = s.err := rfl
@[simp] theorem countUp_shut (s : State) (p : Nat) (f : FieldRef) (n : Nat) : (countUp s p f n).shut = s.shut := rfl
@[simp] theorem countUp_dbg (s : State) (p : Nat) (f : FieldRef) (n : Nat) : (countUp s p f n).dbg = s.dbg := rfl
@[simp] theorem countUp_pin (s : State) (p : Nat) (f : FieldRef) (n : Nat) : (countUp s p f n).pin = s.pin := rfl
@[simp] theorem countUp_resp (s : State) (p : Nat) (f : FieldRef) (n : Nat) : (countUp s p f n).resp = s.resp := rfl
@[simp] theorem countUp_freeIdx (s : State) (p : Nat) (f : FieldRef) (n : Nat) : (countUp s p f n).freeIdx = s.freeIdx := rfl
@[simp] theorem countUp_pending (s : State) (p : Nat) (f : FieldRef) (n : Nat) : (countUp s p f n).pending = s.pending := rfl

/-! `countWrap` touches pg alone. -/

@[simp] theorem countWrap_clk (s : State) (p : Nat) (f : FieldRef) : (countWrap s p f).clk = s.clk := rfl
@[simp] theorem countWrap_start (s : State) (p : Nat) (f : FieldRef) : (countWrap s p f).start = s.start := rfl
@[simp] theorem countWrap_load (s : State) (p : Nat) (f : FieldRef) : (countWrap s p f).load = s.load := rfl
@[simp] theorem countWrap_keep (s : State) (p : Nat) (f : FieldRef) : (countWrap s p f).keep = s.keep := rfl
@[simp] theorem countWrap_fab (s : State) (p : Nat) (f : FieldRef) : (countWrap s p f).fab = s.fab := rfl
@[simp] theorem countWrap_mem (s : State) (p : Nat) (f : FieldRef) : (countWrap s p f).mem = s.mem := rfl
@[simp] theorem countWrap_part (s : State) (p : Nat) (f : FieldRef) : (countWrap s p f).part = s.part := rfl
@[simp] theorem countWrap_le (s : State) (p : Nat) (f : FieldRef) : (countWrap s p f).le = s.le := rfl
@[simp] theorem countWrap_noc (s : State) (p : Nat) (f : FieldRef) : (countWrap s p f).noc = s.noc := rfl
@[simp] theorem countWrap_seam (s : State) (p : Nat) (f : FieldRef) : (countWrap s p f).seam = s.seam := rfl
@[simp] theorem countWrap_lane (s : State) (p : Nat) (f : FieldRef) : (countWrap s p f).lane = s.lane := rfl
@[simp] theorem countWrap_flow (s : State) (p : Nat) (f : FieldRef) : (countWrap s p f).flow = s.flow := rfl
@[simp] theorem countWrap_ddr (s : State) (p : Nat) (f : FieldRef) : (countWrap s p f).ddr = s.ddr := rfl
@[simp] theorem countWrap_hub (s : State) (p : Nat) (f : FieldRef) : (countWrap s p f).hub = s.hub := rfl
@[simp] theorem countWrap_pow (s : State) (p : Nat) (f : FieldRef) : (countWrap s p f).pow = s.pow := rfl
@[simp] theorem countWrap_sec (s : State) (p : Nat) (f : FieldRef) : (countWrap s p f).sec = s.sec := rfl
@[simp] theorem countWrap_err (s : State) (p : Nat) (f : FieldRef) : (countWrap s p f).err = s.err := rfl
@[simp] theorem countWrap_shut (s : State) (p : Nat) (f : FieldRef) : (countWrap s p f).shut = s.shut := rfl
@[simp] theorem countWrap_dbg (s : State) (p : Nat) (f : FieldRef) : (countWrap s p f).dbg = s.dbg := rfl
@[simp] theorem countWrap_pin (s : State) (p : Nat) (f : FieldRef) : (countWrap s p f).pin = s.pin := rfl
@[simp] theorem countWrap_resp (s : State) (p : Nat) (f : FieldRef) : (countWrap s p f).resp = s.resp := rfl
@[simp] theorem countWrap_freeIdx (s : State) (p : Nat) (f : FieldRef) : (countWrap s p f).freeIdx = s.freeIdx := rfl
@[simp] theorem countWrap_pending (s : State) (p : Nat) (f : FieldRef) : (countWrap s p f).pending = s.pending := rfl

/-! `answer` touches resp alone. -/

@[simp] theorem answer_pg (s : State) (c d : Nat) : (answer s c d).pg = s.pg := rfl
@[simp] theorem answer_clk (s : State) (c d : Nat) : (answer s c d).clk = s.clk := rfl
@[simp] theorem answer_start (s : State) (c d : Nat) : (answer s c d).start = s.start := rfl
@[simp] theorem answer_load (s : State) (c d : Nat) : (answer s c d).load = s.load := rfl
@[simp] theorem answer_keep (s : State) (c d : Nat) : (answer s c d).keep = s.keep := rfl
@[simp] theorem answer_fab (s : State) (c d : Nat) : (answer s c d).fab = s.fab := rfl
@[simp] theorem answer_mem (s : State) (c d : Nat) : (answer s c d).mem = s.mem := rfl
@[simp] theorem answer_part (s : State) (c d : Nat) : (answer s c d).part = s.part := rfl
@[simp] theorem answer_le (s : State) (c d : Nat) : (answer s c d).le = s.le := rfl
@[simp] theorem answer_noc (s : State) (c d : Nat) : (answer s c d).noc = s.noc := rfl
@[simp] theorem answer_seam (s : State) (c d : Nat) : (answer s c d).seam = s.seam := rfl
@[simp] theorem answer_lane (s : State) (c d : Nat) : (answer s c d).lane = s.lane := rfl
@[simp] theorem answer_flow (s : State) (c d : Nat) : (answer s c d).flow = s.flow := rfl
@[simp] theorem answer_ddr (s : State) (c d : Nat) : (answer s c d).ddr = s.ddr := rfl
@[simp] theorem answer_hub (s : State) (c d : Nat) : (answer s c d).hub = s.hub := rfl
@[simp] theorem answer_pow (s : State) (c d : Nat) : (answer s c d).pow = s.pow := rfl
@[simp] theorem answer_sec (s : State) (c d : Nat) : (answer s c d).sec = s.sec := rfl
@[simp] theorem answer_err (s : State) (c d : Nat) : (answer s c d).err = s.err := rfl
@[simp] theorem answer_shut (s : State) (c d : Nat) : (answer s c d).shut = s.shut := rfl
@[simp] theorem answer_dbg (s : State) (c d : Nat) : (answer s c d).dbg = s.dbg := rfl
@[simp] theorem answer_pin (s : State) (c d : Nat) : (answer s c d).pin = s.pin := rfl
@[simp] theorem answer_freeIdx (s : State) (c d : Nat) : (answer s c d).freeIdx = s.freeIdx := rfl
@[simp] theorem answer_pending (s : State) (c d : Nat) : (answer s c d).pending = s.pending := rfl

/-! `setProg` touches load alone. -/

@[simp] theorem setProg_pg (s : State) (n : Nat) (x : StreamProg) : (setProg s n x).pg = s.pg := rfl
@[simp] theorem setProg_clk (s : State) (n : Nat) (x : StreamProg) : (setProg s n x).clk = s.clk := rfl
@[simp] theorem setProg_start (s : State) (n : Nat) (x : StreamProg) : (setProg s n x).start = s.start := rfl
@[simp] theorem setProg_keep (s : State) (n : Nat) (x : StreamProg) : (setProg s n x).keep = s.keep := rfl
@[simp] theorem setProg_fab (s : State) (n : Nat) (x : StreamProg) : (setProg s n x).fab = s.fab := rfl
@[simp] theorem setProg_mem (s : State) (n : Nat) (x : StreamProg) : (setProg s n x).mem = s.mem := rfl
@[simp] theorem setProg_part (s : State) (n : Nat) (x : StreamProg) : (setProg s n x).part = s.part := rfl
@[simp] theorem setProg_le (s : State) (n : Nat) (x : StreamProg) : (setProg s n x).le = s.le := rfl
@[simp] theorem setProg_noc (s : State) (n : Nat) (x : StreamProg) : (setProg s n x).noc = s.noc := rfl
@[simp] theorem setProg_seam (s : State) (n : Nat) (x : StreamProg) : (setProg s n x).seam = s.seam := rfl
@[simp] theorem setProg_lane (s : State) (n : Nat) (x : StreamProg) : (setProg s n x).lane = s.lane := rfl
@[simp] theorem setProg_flow (s : State) (n : Nat) (x : StreamProg) : (setProg s n x).flow = s.flow := rfl
@[simp] theorem setProg_ddr (s : State) (n : Nat) (x : StreamProg) : (setProg s n x).ddr = s.ddr := rfl
@[simp] theorem setProg_hub (s : State) (n : Nat) (x : StreamProg) : (setProg s n x).hub = s.hub := rfl
@[simp] theorem setProg_pow (s : State) (n : Nat) (x : StreamProg) : (setProg s n x).pow = s.pow := rfl
@[simp] theorem setProg_sec (s : State) (n : Nat) (x : StreamProg) : (setProg s n x).sec = s.sec := rfl
@[simp] theorem setProg_err (s : State) (n : Nat) (x : StreamProg) : (setProg s n x).err = s.err := rfl
@[simp] theorem setProg_shut (s : State) (n : Nat) (x : StreamProg) : (setProg s n x).shut = s.shut := rfl
@[simp] theorem setProg_dbg (s : State) (n : Nat) (x : StreamProg) : (setProg s n x).dbg = s.dbg := rfl
@[simp] theorem setProg_pin (s : State) (n : Nat) (x : StreamProg) : (setProg s n x).pin = s.pin := rfl
@[simp] theorem setProg_resp (s : State) (n : Nat) (x : StreamProg) : (setProg s n x).resp = s.resp := rfl
@[simp] theorem setProg_freeIdx (s : State) (n : Nat) (x : StreamProg) : (setProg s n x).freeIdx = s.freeIdx := rfl
@[simp] theorem setProg_pending (s : State) (n : Nat) (x : StreamProg) : (setProg s n x).pending = s.pending := rfl

/-! `cfgPut` touches load and fab alone. -/

@[simp] theorem cfgPut_pg (s : State) (die a : Nat) (f : Frame) : (cfgPut s die a f).pg = s.pg := rfl
@[simp] theorem cfgPut_clk (s : State) (die a : Nat) (f : Frame) : (cfgPut s die a f).clk = s.clk := rfl
@[simp] theorem cfgPut_start (s : State) (die a : Nat) (f : Frame) : (cfgPut s die a f).start = s.start := rfl
@[simp] theorem cfgPut_keep (s : State) (die a : Nat) (f : Frame) : (cfgPut s die a f).keep = s.keep := rfl
@[simp] theorem cfgPut_mem (s : State) (die a : Nat) (f : Frame) : (cfgPut s die a f).mem = s.mem := rfl
@[simp] theorem cfgPut_part (s : State) (die a : Nat) (f : Frame) : (cfgPut s die a f).part = s.part := rfl
@[simp] theorem cfgPut_le (s : State) (die a : Nat) (f : Frame) : (cfgPut s die a f).le = s.le := rfl
@[simp] theorem cfgPut_noc (s : State) (die a : Nat) (f : Frame) : (cfgPut s die a f).noc = s.noc := rfl
@[simp] theorem cfgPut_seam (s : State) (die a : Nat) (f : Frame) : (cfgPut s die a f).seam = s.seam := rfl
@[simp] theorem cfgPut_lane (s : State) (die a : Nat) (f : Frame) : (cfgPut s die a f).lane = s.lane := rfl
@[simp] theorem cfgPut_flow (s : State) (die a : Nat) (f : Frame) : (cfgPut s die a f).flow = s.flow := rfl
@[simp] theorem cfgPut_ddr (s : State) (die a : Nat) (f : Frame) : (cfgPut s die a f).ddr = s.ddr := rfl
@[simp] theorem cfgPut_hub (s : State) (die a : Nat) (f : Frame) : (cfgPut s die a f).hub = s.hub := rfl
@[simp] theorem cfgPut_pow (s : State) (die a : Nat) (f : Frame) : (cfgPut s die a f).pow = s.pow := rfl
@[simp] theorem cfgPut_sec (s : State) (die a : Nat) (f : Frame) : (cfgPut s die a f).sec = s.sec := rfl
@[simp] theorem cfgPut_err (s : State) (die a : Nat) (f : Frame) : (cfgPut s die a f).err = s.err := rfl
@[simp] theorem cfgPut_shut (s : State) (die a : Nat) (f : Frame) : (cfgPut s die a f).shut = s.shut := rfl
@[simp] theorem cfgPut_dbg (s : State) (die a : Nat) (f : Frame) : (cfgPut s die a f).dbg = s.dbg := rfl
@[simp] theorem cfgPut_pin (s : State) (die a : Nat) (f : Frame) : (cfgPut s die a f).pin = s.pin := rfl
@[simp] theorem cfgPut_resp (s : State) (die a : Nat) (f : Frame) : (cfgPut s die a f).resp = s.resp := rfl
@[simp] theorem cfgPut_freeIdx (s : State) (die a : Nat) (f : Frame) : (cfgPut s die a f).freeIdx = s.freeIdx := rfl
@[simp] theorem cfgPut_pending (s : State) (die a : Nat) (f : Frame) : (cfgPut s die a f).pending = s.pending := rfl

/-! `setBank` touches mem alone. -/

@[simp] theorem setBank_pg (s : State) (die b : Nat) (x : Bank) : (setBank s die b x).pg = s.pg := rfl
@[simp] theorem setBank_clk (s : State) (die b : Nat) (x : Bank) : (setBank s die b x).clk = s.clk := rfl
@[simp] theorem setBank_start (s : State) (die b : Nat) (x : Bank) : (setBank s die b x).start = s.start := rfl
@[simp] theorem setBank_load (s : State) (die b : Nat) (x : Bank) : (setBank s die b x).load = s.load := rfl
@[simp] theorem setBank_keep (s : State) (die b : Nat) (x : Bank) : (setBank s die b x).keep = s.keep := rfl
@[simp] theorem setBank_fab (s : State) (die b : Nat) (x : Bank) : (setBank s die b x).fab = s.fab := rfl
@[simp] theorem setBank_part (s : State) (die b : Nat) (x : Bank) : (setBank s die b x).part = s.part := rfl
@[simp] theorem setBank_le (s : State) (die b : Nat) (x : Bank) : (setBank s die b x).le = s.le := rfl
@[simp] theorem setBank_noc (s : State) (die b : Nat) (x : Bank) : (setBank s die b x).noc = s.noc := rfl
@[simp] theorem setBank_seam (s : State) (die b : Nat) (x : Bank) : (setBank s die b x).seam = s.seam := rfl
@[simp] theorem setBank_lane (s : State) (die b : Nat) (x : Bank) : (setBank s die b x).lane = s.lane := rfl
@[simp] theorem setBank_flow (s : State) (die b : Nat) (x : Bank) : (setBank s die b x).flow = s.flow := rfl
@[simp] theorem setBank_ddr (s : State) (die b : Nat) (x : Bank) : (setBank s die b x).ddr = s.ddr := rfl
@[simp] theorem setBank_hub (s : State) (die b : Nat) (x : Bank) : (setBank s die b x).hub = s.hub := rfl
@[simp] theorem setBank_pow (s : State) (die b : Nat) (x : Bank) : (setBank s die b x).pow = s.pow := rfl
@[simp] theorem setBank_sec (s : State) (die b : Nat) (x : Bank) : (setBank s die b x).sec = s.sec := rfl
@[simp] theorem setBank_err (s : State) (die b : Nat) (x : Bank) : (setBank s die b x).err = s.err := rfl
@[simp] theorem setBank_shut (s : State) (die b : Nat) (x : Bank) : (setBank s die b x).shut = s.shut := rfl
@[simp] theorem setBank_dbg (s : State) (die b : Nat) (x : Bank) : (setBank s die b x).dbg = s.dbg := rfl
@[simp] theorem setBank_pin (s : State) (die b : Nat) (x : Bank) : (setBank s die b x).pin = s.pin := rfl
@[simp] theorem setBank_resp (s : State) (die b : Nat) (x : Bank) : (setBank s die b x).resp = s.resp := rfl
@[simp] theorem setBank_freeIdx (s : State) (die b : Nat) (x : Bank) : (setBank s die b x).freeIdx = s.freeIdx := rfl
@[simp] theorem setBank_pending (s : State) (die b : Nat) (x : Bank) : (setBank s die b x).pending = s.pending := rfl

/-! `setDeep` touches mem alone. -/

@[simp] theorem setDeep_pg (s : State) (die j : Nat) (x : Deep) : (setDeep s die j x).pg = s.pg := rfl
@[simp] theorem setDeep_clk (s : State) (die j : Nat) (x : Deep) : (setDeep s die j x).clk = s.clk := rfl
@[simp] theorem setDeep_start (s : State) (die j : Nat) (x : Deep) : (setDeep s die j x).start = s.start := rfl
@[simp] theorem setDeep_load (s : State) (die j : Nat) (x : Deep) : (setDeep s die j x).load = s.load := rfl
@[simp] theorem setDeep_keep (s : State) (die j : Nat) (x : Deep) : (setDeep s die j x).keep = s.keep := rfl
@[simp] theorem setDeep_fab (s : State) (die j : Nat) (x : Deep) : (setDeep s die j x).fab = s.fab := rfl
@[simp] theorem setDeep_part (s : State) (die j : Nat) (x : Deep) : (setDeep s die j x).part = s.part := rfl
@[simp] theorem setDeep_le (s : State) (die j : Nat) (x : Deep) : (setDeep s die j x).le = s.le := rfl
@[simp] theorem setDeep_noc (s : State) (die j : Nat) (x : Deep) : (setDeep s die j x).noc = s.noc := rfl
@[simp] theorem setDeep_seam (s : State) (die j : Nat) (x : Deep) : (setDeep s die j x).seam = s.seam := rfl
@[simp] theorem setDeep_lane (s : State) (die j : Nat) (x : Deep) : (setDeep s die j x).lane = s.lane := rfl
@[simp] theorem setDeep_flow (s : State) (die j : Nat) (x : Deep) : (setDeep s die j x).flow = s.flow := rfl
@[simp] theorem setDeep_ddr (s : State) (die j : Nat) (x : Deep) : (setDeep s die j x).ddr = s.ddr := rfl
@[simp] theorem setDeep_hub (s : State) (die j : Nat) (x : Deep) : (setDeep s die j x).hub = s.hub := rfl
@[simp] theorem setDeep_pow (s : State) (die j : Nat) (x : Deep) : (setDeep s die j x).pow = s.pow := rfl
@[simp] theorem setDeep_sec (s : State) (die j : Nat) (x : Deep) : (setDeep s die j x).sec = s.sec := rfl
@[simp] theorem setDeep_err (s : State) (die j : Nat) (x : Deep) : (setDeep s die j x).err = s.err := rfl
@[simp] theorem setDeep_shut (s : State) (die j : Nat) (x : Deep) : (setDeep s die j x).shut = s.shut := rfl
@[simp] theorem setDeep_dbg (s : State) (die j : Nat) (x : Deep) : (setDeep s die j x).dbg = s.dbg := rfl
@[simp] theorem setDeep_pin (s : State) (die j : Nat) (x : Deep) : (setDeep s die j x).pin = s.pin := rfl
@[simp] theorem setDeep_resp (s : State) (die j : Nat) (x : Deep) : (setDeep s die j x).resp = s.resp := rfl
@[simp] theorem setDeep_freeIdx (s : State) (die j : Nat) (x : Deep) : (setDeep s die j x).freeIdx = s.freeIdx := rfl
@[simp] theorem setDeep_pending (s : State) (die j : Nat) (x : Deep) : (setDeep s die j x).pending = s.pending := rfl

/-! `setEng` touches le alone. -/

@[simp] theorem setEng_pg (s : State) (die e : Nat) (x : Engine) : (setEng s die e x).pg = s.pg := rfl
@[simp] theorem setEng_clk (s : State) (die e : Nat) (x : Engine) : (setEng s die e x).clk = s.clk := rfl
@[simp] theorem setEng_start (s : State) (die e : Nat) (x : Engine) : (setEng s die e x).start = s.start := rfl
@[simp] theorem setEng_load (s : State) (die e : Nat) (x : Engine) : (setEng s die e x).load = s.load := rfl
@[simp] theorem setEng_keep (s : State) (die e : Nat) (x : Engine) : (setEng s die e x).keep = s.keep := rfl
@[simp] theorem setEng_fab (s : State) (die e : Nat) (x : Engine) : (setEng s die e x).fab = s.fab := rfl
@[simp] theorem setEng_mem (s : State) (die e : Nat) (x : Engine) : (setEng s die e x).mem = s.mem := rfl
@[simp] theorem setEng_part (s : State) (die e : Nat) (x : Engine) : (setEng s die e x).part = s.part := rfl
@[simp] theorem setEng_noc (s : State) (die e : Nat) (x : Engine) : (setEng s die e x).noc = s.noc := rfl
@[simp] theorem setEng_seam (s : State) (die e : Nat) (x : Engine) : (setEng s die e x).seam = s.seam := rfl
@[simp] theorem setEng_lane (s : State) (die e : Nat) (x : Engine) : (setEng s die e x).lane = s.lane := rfl
@[simp] theorem setEng_flow (s : State) (die e : Nat) (x : Engine) : (setEng s die e x).flow = s.flow := rfl
@[simp] theorem setEng_ddr (s : State) (die e : Nat) (x : Engine) : (setEng s die e x).ddr = s.ddr := rfl
@[simp] theorem setEng_hub (s : State) (die e : Nat) (x : Engine) : (setEng s die e x).hub = s.hub := rfl
@[simp] theorem setEng_pow (s : State) (die e : Nat) (x : Engine) : (setEng s die e x).pow = s.pow := rfl
@[simp] theorem setEng_sec (s : State) (die e : Nat) (x : Engine) : (setEng s die e x).sec = s.sec := rfl
@[simp] theorem setEng_err (s : State) (die e : Nat) (x : Engine) : (setEng s die e x).err = s.err := rfl
@[simp] theorem setEng_shut (s : State) (die e : Nat) (x : Engine) : (setEng s die e x).shut = s.shut := rfl
@[simp] theorem setEng_dbg (s : State) (die e : Nat) (x : Engine) : (setEng s die e x).dbg = s.dbg := rfl
@[simp] theorem setEng_pin (s : State) (die e : Nat) (x : Engine) : (setEng s die e x).pin = s.pin := rfl
@[simp] theorem setEng_resp (s : State) (die e : Nat) (x : Engine) : (setEng s die e x).resp = s.resp := rfl
@[simp] theorem setEng_freeIdx (s : State) (die e : Nat) (x : Engine) : (setEng s die e x).freeIdx = s.freeIdx := rfl
@[simp] theorem setEng_pending (s : State) (die e : Nat) (x : Engine) : (setEng s die e x).pending = s.pending := rfl

/-! `setNocPort` touches noc alone. -/

@[simp] theorem setNocPort_pg (s : State) (die p : Nat) (x : NocPort) : (setNocPort s die p x).pg = s.pg := rfl
@[simp] theorem setNocPort_clk (s : State) (die p : Nat) (x : NocPort) : (setNocPort s die p x).clk = s.clk := rfl
@[simp] theorem setNocPort_start (s : State) (die p : Nat) (x : NocPort) : (setNocPort s die p x).start = s.start := rfl
@[simp] theorem setNocPort_load (s : State) (die p : Nat) (x : NocPort) : (setNocPort s die p x).load = s.load := rfl
@[simp] theorem setNocPort_keep (s : State) (die p : Nat) (x : NocPort) : (setNocPort s die p x).keep = s.keep := rfl
@[simp] theorem setNocPort_fab (s : State) (die p : Nat) (x : NocPort) : (setNocPort s die p x).fab = s.fab := rfl
@[simp] theorem setNocPort_mem (s : State) (die p : Nat) (x : NocPort) : (setNocPort s die p x).mem = s.mem := rfl
@[simp] theorem setNocPort_part (s : State) (die p : Nat) (x : NocPort) : (setNocPort s die p x).part = s.part := rfl
@[simp] theorem setNocPort_le (s : State) (die p : Nat) (x : NocPort) : (setNocPort s die p x).le = s.le := rfl
@[simp] theorem setNocPort_seam (s : State) (die p : Nat) (x : NocPort) : (setNocPort s die p x).seam = s.seam := rfl
@[simp] theorem setNocPort_lane (s : State) (die p : Nat) (x : NocPort) : (setNocPort s die p x).lane = s.lane := rfl
@[simp] theorem setNocPort_flow (s : State) (die p : Nat) (x : NocPort) : (setNocPort s die p x).flow = s.flow := rfl
@[simp] theorem setNocPort_ddr (s : State) (die p : Nat) (x : NocPort) : (setNocPort s die p x).ddr = s.ddr := rfl
@[simp] theorem setNocPort_hub (s : State) (die p : Nat) (x : NocPort) : (setNocPort s die p x).hub = s.hub := rfl
@[simp] theorem setNocPort_pow (s : State) (die p : Nat) (x : NocPort) : (setNocPort s die p x).pow = s.pow := rfl
@[simp] theorem setNocPort_sec (s : State) (die p : Nat) (x : NocPort) : (setNocPort s die p x).sec = s.sec := rfl
@[simp] theorem setNocPort_err (s : State) (die p : Nat) (x : NocPort) : (setNocPort s die p x).err = s.err := rfl
@[simp] theorem setNocPort_shut (s : State) (die p : Nat) (x : NocPort) : (setNocPort s die p x).shut = s.shut := rfl
@[simp] theorem setNocPort_dbg (s : State) (die p : Nat) (x : NocPort) : (setNocPort s die p x).dbg = s.dbg := rfl
@[simp] theorem setNocPort_pin (s : State) (die p : Nat) (x : NocPort) : (setNocPort s die p x).pin = s.pin := rfl
@[simp] theorem setNocPort_resp (s : State) (die p : Nat) (x : NocPort) : (setNocPort s die p x).resp = s.resp := rfl
@[simp] theorem setNocPort_freeIdx (s : State) (die p : Nat) (x : NocPort) : (setNocPort s die p x).freeIdx = s.freeIdx := rfl
@[simp] theorem setNocPort_pending (s : State) (die p : Nat) (x : NocPort) : (setNocPort s die p x).pending = s.pending := rfl

/-! `setEp` touches seam alone. -/

@[simp] theorem setEp_pg (s : State) (die k : Nat) (x : SeamEp) : (setEp s die k x).pg = s.pg := rfl
@[simp] theorem setEp_clk (s : State) (die k : Nat) (x : SeamEp) : (setEp s die k x).clk = s.clk := rfl
@[simp] theorem setEp_start (s : State) (die k : Nat) (x : SeamEp) : (setEp s die k x).start = s.start := rfl
@[simp] theorem setEp_load (s : State) (die k : Nat) (x : SeamEp) : (setEp s die k x).load = s.load := rfl
@[simp] theorem setEp_keep (s : State) (die k : Nat) (x : SeamEp) : (setEp s die k x).keep = s.keep := rfl
@[simp] theorem setEp_fab (s : State) (die k : Nat) (x : SeamEp) : (setEp s die k x).fab = s.fab := rfl
@[simp] theorem setEp_mem (s : State) (die k : Nat) (x : SeamEp) : (setEp s die k x).mem = s.mem := rfl
@[simp] theorem setEp_part (s : State) (die k : Nat) (x : SeamEp) : (setEp s die k x).part = s.part := rfl
@[simp] theorem setEp_le (s : State) (die k : Nat) (x : SeamEp) : (setEp s die k x).le = s.le := rfl
@[simp] theorem setEp_noc (s : State) (die k : Nat) (x : SeamEp) : (setEp s die k x).noc = s.noc := rfl
@[simp] theorem setEp_lane (s : State) (die k : Nat) (x : SeamEp) : (setEp s die k x).lane = s.lane := rfl
@[simp] theorem setEp_flow (s : State) (die k : Nat) (x : SeamEp) : (setEp s die k x).flow = s.flow := rfl
@[simp] theorem setEp_ddr (s : State) (die k : Nat) (x : SeamEp) : (setEp s die k x).ddr = s.ddr := rfl
@[simp] theorem setEp_hub (s : State) (die k : Nat) (x : SeamEp) : (setEp s die k x).hub = s.hub := rfl
@[simp] theorem setEp_pow (s : State) (die k : Nat) (x : SeamEp) : (setEp s die k x).pow = s.pow := rfl
@[simp] theorem setEp_sec (s : State) (die k : Nat) (x : SeamEp) : (setEp s die k x).sec = s.sec := rfl
@[simp] theorem setEp_err (s : State) (die k : Nat) (x : SeamEp) : (setEp s die k x).err = s.err := rfl
@[simp] theorem setEp_shut (s : State) (die k : Nat) (x : SeamEp) : (setEp s die k x).shut = s.shut := rfl
@[simp] theorem setEp_dbg (s : State) (die k : Nat) (x : SeamEp) : (setEp s die k x).dbg = s.dbg := rfl
@[simp] theorem setEp_pin (s : State) (die k : Nat) (x : SeamEp) : (setEp s die k x).pin = s.pin := rfl
@[simp] theorem setEp_resp (s : State) (die k : Nat) (x : SeamEp) : (setEp s die k x).resp = s.resp := rfl
@[simp] theorem setEp_freeIdx (s : State) (die k : Nat) (x : SeamEp) : (setEp s die k x).freeIdx = s.freeIdx := rfl
@[simp] theorem setEp_pending (s : State) (die k : Nat) (x : SeamEp) : (setEp s die k x).pending = s.pending := rfl

/-! `setLane` touches lane alone. -/

@[simp] theorem setLane_pg (s : State) (k : Nat) (x : Lane) : (setLane s k x).pg = s.pg := rfl
@[simp] theorem setLane_clk (s : State) (k : Nat) (x : Lane) : (setLane s k x).clk = s.clk := rfl
@[simp] theorem setLane_start (s : State) (k : Nat) (x : Lane) : (setLane s k x).start = s.start := rfl
@[simp] theorem setLane_load (s : State) (k : Nat) (x : Lane) : (setLane s k x).load = s.load := rfl
@[simp] theorem setLane_keep (s : State) (k : Nat) (x : Lane) : (setLane s k x).keep = s.keep := rfl
@[simp] theorem setLane_fab (s : State) (k : Nat) (x : Lane) : (setLane s k x).fab = s.fab := rfl
@[simp] theorem setLane_mem (s : State) (k : Nat) (x : Lane) : (setLane s k x).mem = s.mem := rfl
@[simp] theorem setLane_part (s : State) (k : Nat) (x : Lane) : (setLane s k x).part = s.part := rfl
@[simp] theorem setLane_le (s : State) (k : Nat) (x : Lane) : (setLane s k x).le = s.le := rfl
@[simp] theorem setLane_noc (s : State) (k : Nat) (x : Lane) : (setLane s k x).noc = s.noc := rfl
@[simp] theorem setLane_seam (s : State) (k : Nat) (x : Lane) : (setLane s k x).seam = s.seam := rfl
@[simp] theorem setLane_flow (s : State) (k : Nat) (x : Lane) : (setLane s k x).flow = s.flow := rfl
@[simp] theorem setLane_ddr (s : State) (k : Nat) (x : Lane) : (setLane s k x).ddr = s.ddr := rfl
@[simp] theorem setLane_hub (s : State) (k : Nat) (x : Lane) : (setLane s k x).hub = s.hub := rfl
@[simp] theorem setLane_pow (s : State) (k : Nat) (x : Lane) : (setLane s k x).pow = s.pow := rfl
@[simp] theorem setLane_sec (s : State) (k : Nat) (x : Lane) : (setLane s k x).sec = s.sec := rfl
@[simp] theorem setLane_err (s : State) (k : Nat) (x : Lane) : (setLane s k x).err = s.err := rfl
@[simp] theorem setLane_shut (s : State) (k : Nat) (x : Lane) : (setLane s k x).shut = s.shut := rfl
@[simp] theorem setLane_dbg (s : State) (k : Nat) (x : Lane) : (setLane s k x).dbg = s.dbg := rfl
@[simp] theorem setLane_pin (s : State) (k : Nat) (x : Lane) : (setLane s k x).pin = s.pin := rfl
@[simp] theorem setLane_resp (s : State) (k : Nat) (x : Lane) : (setLane s k x).resp = s.resp := rfl
@[simp] theorem setLane_freeIdx (s : State) (k : Nat) (x : Lane) : (setLane s k x).freeIdx = s.freeIdx := rfl
@[simp] theorem setLane_pending (s : State) (k : Nat) (x : Lane) : (setLane s k x).pending = s.pending := rfl

/-! `setBundle` touches lane alone. -/

@[simp] theorem setBundle_pg (s : State) (die k : Nat) (x : Bundle) : (setBundle s die k x).pg = s.pg := rfl
@[simp] theorem setBundle_clk (s : State) (die k : Nat) (x : Bundle) : (setBundle s die k x).clk = s.clk := rfl
@[simp] theorem setBundle_start (s : State) (die k : Nat) (x : Bundle) : (setBundle s die k x).start = s.start := rfl
@[simp] theorem setBundle_load (s : State) (die k : Nat) (x : Bundle) : (setBundle s die k x).load = s.load := rfl
@[simp] theorem setBundle_keep (s : State) (die k : Nat) (x : Bundle) : (setBundle s die k x).keep = s.keep := rfl
@[simp] theorem setBundle_fab (s : State) (die k : Nat) (x : Bundle) : (setBundle s die k x).fab = s.fab := rfl
@[simp] theorem setBundle_mem (s : State) (die k : Nat) (x : Bundle) : (setBundle s die k x).mem = s.mem := rfl
@[simp] theorem setBundle_part (s : State) (die k : Nat) (x : Bundle) : (setBundle s die k x).part = s.part := rfl
@[simp] theorem setBundle_le (s : State) (die k : Nat) (x : Bundle) : (setBundle s die k x).le = s.le := rfl
@[simp] theorem setBundle_noc (s : State) (die k : Nat) (x : Bundle) : (setBundle s die k x).noc = s.noc := rfl
@[simp] theorem setBundle_seam (s : State) (die k : Nat) (x : Bundle) : (setBundle s die k x).seam = s.seam := rfl
@[simp] theorem setBundle_flow (s : State) (die k : Nat) (x : Bundle) : (setBundle s die k x).flow = s.flow := rfl
@[simp] theorem setBundle_ddr (s : State) (die k : Nat) (x : Bundle) : (setBundle s die k x).ddr = s.ddr := rfl
@[simp] theorem setBundle_hub (s : State) (die k : Nat) (x : Bundle) : (setBundle s die k x).hub = s.hub := rfl
@[simp] theorem setBundle_pow (s : State) (die k : Nat) (x : Bundle) : (setBundle s die k x).pow = s.pow := rfl
@[simp] theorem setBundle_sec (s : State) (die k : Nat) (x : Bundle) : (setBundle s die k x).sec = s.sec := rfl
@[simp] theorem setBundle_err (s : State) (die k : Nat) (x : Bundle) : (setBundle s die k x).err = s.err := rfl
@[simp] theorem setBundle_shut (s : State) (die k : Nat) (x : Bundle) : (setBundle s die k x).shut = s.shut := rfl
@[simp] theorem setBundle_dbg (s : State) (die k : Nat) (x : Bundle) : (setBundle s die k x).dbg = s.dbg := rfl
@[simp] theorem setBundle_pin (s : State) (die k : Nat) (x : Bundle) : (setBundle s die k x).pin = s.pin := rfl
@[simp] theorem setBundle_resp (s : State) (die k : Nat) (x : Bundle) : (setBundle s die k x).resp = s.resp := rfl
@[simp] theorem setBundle_freeIdx (s : State) (die k : Nat) (x : Bundle) : (setBundle s die k x).freeIdx = s.freeIdx := rfl
@[simp] theorem setBundle_pending (s : State) (die k : Nat) (x : Bundle) : (setBundle s die k x).pending = s.pending := rfl

/-! `setSlice` touches flow alone. -/

@[simp] theorem setSlice_pg (s : State) (die : Nat) (x : Slice) : (setSlice s die x).pg = s.pg := rfl
@[simp] theorem setSlice_clk (s : State) (die : Nat) (x : Slice) : (setSlice s die x).clk = s.clk := rfl
@[simp] theorem setSlice_start (s : State) (die : Nat) (x : Slice) : (setSlice s die x).start = s.start := rfl
@[simp] theorem setSlice_load (s : State) (die : Nat) (x : Slice) : (setSlice s die x).load = s.load := rfl
@[simp] theorem setSlice_keep (s : State) (die : Nat) (x : Slice) : (setSlice s die x).keep = s.keep := rfl
@[simp] theorem setSlice_fab (s : State) (die : Nat) (x : Slice) : (setSlice s die x).fab = s.fab := rfl
@[simp] theorem setSlice_mem (s : State) (die : Nat) (x : Slice) : (setSlice s die x).mem = s.mem := rfl
@[simp] theorem setSlice_part (s : State) (die : Nat) (x : Slice) : (setSlice s die x).part = s.part := rfl
@[simp] theorem setSlice_le (s : State) (die : Nat) (x : Slice) : (setSlice s die x).le = s.le := rfl
@[simp] theorem setSlice_noc (s : State) (die : Nat) (x : Slice) : (setSlice s die x).noc = s.noc := rfl
@[simp] theorem setSlice_seam (s : State) (die : Nat) (x : Slice) : (setSlice s die x).seam = s.seam := rfl
@[simp] theorem setSlice_lane (s : State) (die : Nat) (x : Slice) : (setSlice s die x).lane = s.lane := rfl
@[simp] theorem setSlice_ddr (s : State) (die : Nat) (x : Slice) : (setSlice s die x).ddr = s.ddr := rfl
@[simp] theorem setSlice_hub (s : State) (die : Nat) (x : Slice) : (setSlice s die x).hub = s.hub := rfl
@[simp] theorem setSlice_pow (s : State) (die : Nat) (x : Slice) : (setSlice s die x).pow = s.pow := rfl
@[simp] theorem setSlice_sec (s : State) (die : Nat) (x : Slice) : (setSlice s die x).sec = s.sec := rfl
@[simp] theorem setSlice_err (s : State) (die : Nat) (x : Slice) : (setSlice s die x).err = s.err := rfl
@[simp] theorem setSlice_shut (s : State) (die : Nat) (x : Slice) : (setSlice s die x).shut = s.shut := rfl
@[simp] theorem setSlice_dbg (s : State) (die : Nat) (x : Slice) : (setSlice s die x).dbg = s.dbg := rfl
@[simp] theorem setSlice_pin (s : State) (die : Nat) (x : Slice) : (setSlice s die x).pin = s.pin := rfl
@[simp] theorem setSlice_resp (s : State) (die : Nat) (x : Slice) : (setSlice s die x).resp = s.resp := rfl
@[simp] theorem setSlice_freeIdx (s : State) (die : Nat) (x : Slice) : (setSlice s die x).freeIdx = s.freeIdx := rfl
@[simp] theorem setSlice_pending (s : State) (die : Nat) (x : Slice) : (setSlice s die x).pending = s.pending := rfl

/-! `setChan` touches ddr alone. -/

@[simp] theorem setChan_pg (s : State) (c : Nat) (x : DdrChan) : (setChan s c x).pg = s.pg := rfl
@[simp] theorem setChan_clk (s : State) (c : Nat) (x : DdrChan) : (setChan s c x).clk = s.clk := rfl
@[simp] theorem setChan_start (s : State) (c : Nat) (x : DdrChan) : (setChan s c x).start = s.start := rfl
@[simp] theorem setChan_load (s : State) (c : Nat) (x : DdrChan) : (setChan s c x).load = s.load := rfl
@[simp] theorem setChan_keep (s : State) (c : Nat) (x : DdrChan) : (setChan s c x).keep = s.keep := rfl
@[simp] theorem setChan_fab (s : State) (c : Nat) (x : DdrChan) : (setChan s c x).fab = s.fab := rfl
@[simp] theorem setChan_mem (s : State) (c : Nat) (x : DdrChan) : (setChan s c x).mem = s.mem := rfl
@[simp] theorem setChan_part (s : State) (c : Nat) (x : DdrChan) : (setChan s c x).part = s.part := rfl
@[simp] theorem setChan_le (s : State) (c : Nat) (x : DdrChan) : (setChan s c x).le = s.le := rfl
@[simp] theorem setChan_noc (s : State) (c : Nat) (x : DdrChan) : (setChan s c x).noc = s.noc := rfl
@[simp] theorem setChan_seam (s : State) (c : Nat) (x : DdrChan) : (setChan s c x).seam = s.seam := rfl
@[simp] theorem setChan_lane (s : State) (c : Nat) (x : DdrChan) : (setChan s c x).lane = s.lane := rfl
@[simp] theorem setChan_flow (s : State) (c : Nat) (x : DdrChan) : (setChan s c x).flow = s.flow := rfl
@[simp] theorem setChan_hub (s : State) (c : Nat) (x : DdrChan) : (setChan s c x).hub = s.hub := rfl
@[simp] theorem setChan_pow (s : State) (c : Nat) (x : DdrChan) : (setChan s c x).pow = s.pow := rfl
@[simp] theorem setChan_sec (s : State) (c : Nat) (x : DdrChan) : (setChan s c x).sec = s.sec := rfl
@[simp] theorem setChan_err (s : State) (c : Nat) (x : DdrChan) : (setChan s c x).err = s.err := rfl
@[simp] theorem setChan_shut (s : State) (c : Nat) (x : DdrChan) : (setChan s c x).shut = s.shut := rfl
@[simp] theorem setChan_dbg (s : State) (c : Nat) (x : DdrChan) : (setChan s c x).dbg = s.dbg := rfl
@[simp] theorem setChan_pin (s : State) (c : Nat) (x : DdrChan) : (setChan s c x).pin = s.pin := rfl
@[simp] theorem setChan_resp (s : State) (c : Nat) (x : DdrChan) : (setChan s c x).resp = s.resp := rfl
@[simp] theorem setChan_freeIdx (s : State) (c : Nat) (x : DdrChan) : (setChan s c x).freeIdx = s.freeIdx := rfl
@[simp] theorem setChan_pending (s : State) (c : Nat) (x : DdrChan) : (setChan s c x).pending = s.pending := rfl

/-! `setHart` touches hub alone. -/

@[simp] theorem setHart_pg (s : State) (c : Nat) (x : Hart) : (setHart s c x).pg = s.pg := rfl
@[simp] theorem setHart_clk (s : State) (c : Nat) (x : Hart) : (setHart s c x).clk = s.clk := rfl
@[simp] theorem setHart_start (s : State) (c : Nat) (x : Hart) : (setHart s c x).start = s.start := rfl
@[simp] theorem setHart_load (s : State) (c : Nat) (x : Hart) : (setHart s c x).load = s.load := rfl
@[simp] theorem setHart_keep (s : State) (c : Nat) (x : Hart) : (setHart s c x).keep = s.keep := rfl
@[simp] theorem setHart_fab (s : State) (c : Nat) (x : Hart) : (setHart s c x).fab = s.fab := rfl
@[simp] theorem setHart_mem (s : State) (c : Nat) (x : Hart) : (setHart s c x).mem = s.mem := rfl
@[simp] theorem setHart_part (s : State) (c : Nat) (x : Hart) : (setHart s c x).part = s.part := rfl
@[simp] theorem setHart_le (s : State) (c : Nat) (x : Hart) : (setHart s c x).le = s.le := rfl
@[simp] theorem setHart_noc (s : State) (c : Nat) (x : Hart) : (setHart s c x).noc = s.noc := rfl
@[simp] theorem setHart_seam (s : State) (c : Nat) (x : Hart) : (setHart s c x).seam = s.seam := rfl
@[simp] theorem setHart_lane (s : State) (c : Nat) (x : Hart) : (setHart s c x).lane = s.lane := rfl
@[simp] theorem setHart_flow (s : State) (c : Nat) (x : Hart) : (setHart s c x).flow = s.flow := rfl
@[simp] theorem setHart_ddr (s : State) (c : Nat) (x : Hart) : (setHart s c x).ddr = s.ddr := rfl
@[simp] theorem setHart_pow (s : State) (c : Nat) (x : Hart) : (setHart s c x).pow = s.pow := rfl
@[simp] theorem setHart_sec (s : State) (c : Nat) (x : Hart) : (setHart s c x).sec = s.sec := rfl
@[simp] theorem setHart_err (s : State) (c : Nat) (x : Hart) : (setHart s c x).err = s.err := rfl
@[simp] theorem setHart_shut (s : State) (c : Nat) (x : Hart) : (setHart s c x).shut = s.shut := rfl
@[simp] theorem setHart_dbg (s : State) (c : Nat) (x : Hart) : (setHart s c x).dbg = s.dbg := rfl
@[simp] theorem setHart_pin (s : State) (c : Nat) (x : Hart) : (setHart s c x).pin = s.pin := rfl
@[simp] theorem setHart_resp (s : State) (c : Nat) (x : Hart) : (setHart s c x).resp = s.resp := rfl
@[simp] theorem setHart_freeIdx (s : State) (c : Nat) (x : Hart) : (setHart s c x).freeIdx = s.freeIdx := rfl
@[simp] theorem setHart_pending (s : State) (c : Nat) (x : Hart) : (setHart s c x).pending = s.pending := rfl

/-! `setMbox` touches hub alone. -/

@[simp] theorem setMbox_pg (s : State) (m : Nat) (x : Mbox) : (setMbox s m x).pg = s.pg := rfl
@[simp] theorem setMbox_clk (s : State) (m : Nat) (x : Mbox) : (setMbox s m x).clk = s.clk := rfl
@[simp] theorem setMbox_start (s : State) (m : Nat) (x : Mbox) : (setMbox s m x).start = s.start := rfl
@[simp] theorem setMbox_load (s : State) (m : Nat) (x : Mbox) : (setMbox s m x).load = s.load := rfl
@[simp] theorem setMbox_keep (s : State) (m : Nat) (x : Mbox) : (setMbox s m x).keep = s.keep := rfl
@[simp] theorem setMbox_fab (s : State) (m : Nat) (x : Mbox) : (setMbox s m x).fab = s.fab := rfl
@[simp] theorem setMbox_mem (s : State) (m : Nat) (x : Mbox) : (setMbox s m x).mem = s.mem := rfl
@[simp] theorem setMbox_part (s : State) (m : Nat) (x : Mbox) : (setMbox s m x).part = s.part := rfl
@[simp] theorem setMbox_le (s : State) (m : Nat) (x : Mbox) : (setMbox s m x).le = s.le := rfl
@[simp] theorem setMbox_noc (s : State) (m : Nat) (x : Mbox) : (setMbox s m x).noc = s.noc := rfl
@[simp] theorem setMbox_seam (s : State) (m : Nat) (x : Mbox) : (setMbox s m x).seam = s.seam := rfl
@[simp] theorem setMbox_lane (s : State) (m : Nat) (x : Mbox) : (setMbox s m x).lane = s.lane := rfl
@[simp] theorem setMbox_flow (s : State) (m : Nat) (x : Mbox) : (setMbox s m x).flow = s.flow := rfl
@[simp] theorem setMbox_ddr (s : State) (m : Nat) (x : Mbox) : (setMbox s m x).ddr = s.ddr := rfl
@[simp] theorem setMbox_pow (s : State) (m : Nat) (x : Mbox) : (setMbox s m x).pow = s.pow := rfl
@[simp] theorem setMbox_sec (s : State) (m : Nat) (x : Mbox) : (setMbox s m x).sec = s.sec := rfl
@[simp] theorem setMbox_err (s : State) (m : Nat) (x : Mbox) : (setMbox s m x).err = s.err := rfl
@[simp] theorem setMbox_shut (s : State) (m : Nat) (x : Mbox) : (setMbox s m x).shut = s.shut := rfl
@[simp] theorem setMbox_dbg (s : State) (m : Nat) (x : Mbox) : (setMbox s m x).dbg = s.dbg := rfl
@[simp] theorem setMbox_pin (s : State) (m : Nat) (x : Mbox) : (setMbox s m x).pin = s.pin := rfl
@[simp] theorem setMbox_resp (s : State) (m : Nat) (x : Mbox) : (setMbox s m x).resp = s.resp := rfl
@[simp] theorem setMbox_freeIdx (s : State) (m : Nat) (x : Mbox) : (setMbox s m x).freeIdx = s.freeIdx := rfl
@[simp] theorem setMbox_pending (s : State) (m : Nat) (x : Mbox) : (setMbox s m x).pending = s.pending := rfl

/-! `setPcie` touches hub alone. -/

@[simp] theorem setPcie_pg (s : State) (c : Nat) (x : Pcie) : (setPcie s c x).pg = s.pg := rfl
@[simp] theorem setPcie_clk (s : State) (c : Nat) (x : Pcie) : (setPcie s c x).clk = s.clk := rfl
@[simp] theorem setPcie_start (s : State) (c : Nat) (x : Pcie) : (setPcie s c x).start = s.start := rfl
@[simp] theorem setPcie_load (s : State) (c : Nat) (x : Pcie) : (setPcie s c x).load = s.load := rfl
@[simp] theorem setPcie_keep (s : State) (c : Nat) (x : Pcie) : (setPcie s c x).keep = s.keep := rfl
@[simp] theorem setPcie_fab (s : State) (c : Nat) (x : Pcie) : (setPcie s c x).fab = s.fab := rfl
@[simp] theorem setPcie_mem (s : State) (c : Nat) (x : Pcie) : (setPcie s c x).mem = s.mem := rfl
@[simp] theorem setPcie_part (s : State) (c : Nat) (x : Pcie) : (setPcie s c x).part = s.part := rfl
@[simp] theorem setPcie_le (s : State) (c : Nat) (x : Pcie) : (setPcie s c x).le = s.le := rfl
@[simp] theorem setPcie_noc (s : State) (c : Nat) (x : Pcie) : (setPcie s c x).noc = s.noc := rfl
@[simp] theorem setPcie_seam (s : State) (c : Nat) (x : Pcie) : (setPcie s c x).seam = s.seam := rfl
@[simp] theorem setPcie_lane (s : State) (c : Nat) (x : Pcie) : (setPcie s c x).lane = s.lane := rfl
@[simp] theorem setPcie_flow (s : State) (c : Nat) (x : Pcie) : (setPcie s c x).flow = s.flow := rfl
@[simp] theorem setPcie_ddr (s : State) (c : Nat) (x : Pcie) : (setPcie s c x).ddr = s.ddr := rfl
@[simp] theorem setPcie_pow (s : State) (c : Nat) (x : Pcie) : (setPcie s c x).pow = s.pow := rfl
@[simp] theorem setPcie_sec (s : State) (c : Nat) (x : Pcie) : (setPcie s c x).sec = s.sec := rfl
@[simp] theorem setPcie_err (s : State) (c : Nat) (x : Pcie) : (setPcie s c x).err = s.err := rfl
@[simp] theorem setPcie_shut (s : State) (c : Nat) (x : Pcie) : (setPcie s c x).shut = s.shut := rfl
@[simp] theorem setPcie_dbg (s : State) (c : Nat) (x : Pcie) : (setPcie s c x).dbg = s.dbg := rfl
@[simp] theorem setPcie_pin (s : State) (c : Nat) (x : Pcie) : (setPcie s c x).pin = s.pin := rfl
@[simp] theorem setPcie_resp (s : State) (c : Nat) (x : Pcie) : (setPcie s c x).resp = s.resp := rfl
@[simp] theorem setPcie_freeIdx (s : State) (c : Nat) (x : Pcie) : (setPcie s c x).freeIdx = s.freeIdx := rfl
@[simp] theorem setPcie_pending (s : State) (c : Nat) (x : Pcie) : (setPcie s c x).pending = s.pending := rfl

/-! `setLock` touches hub alone. -/

@[simp] theorem setLock_pg (s : State) (k : Nat) (x : Option Nat) : (setLock s k x).pg = s.pg := rfl
@[simp] theorem setLock_clk (s : State) (k : Nat) (x : Option Nat) : (setLock s k x).clk = s.clk := rfl
@[simp] theorem setLock_start (s : State) (k : Nat) (x : Option Nat) : (setLock s k x).start = s.start := rfl
@[simp] theorem setLock_load (s : State) (k : Nat) (x : Option Nat) : (setLock s k x).load = s.load := rfl
@[simp] theorem setLock_keep (s : State) (k : Nat) (x : Option Nat) : (setLock s k x).keep = s.keep := rfl
@[simp] theorem setLock_fab (s : State) (k : Nat) (x : Option Nat) : (setLock s k x).fab = s.fab := rfl
@[simp] theorem setLock_mem (s : State) (k : Nat) (x : Option Nat) : (setLock s k x).mem = s.mem := rfl
@[simp] theorem setLock_part (s : State) (k : Nat) (x : Option Nat) : (setLock s k x).part = s.part := rfl
@[simp] theorem setLock_le (s : State) (k : Nat) (x : Option Nat) : (setLock s k x).le = s.le := rfl
@[simp] theorem setLock_noc (s : State) (k : Nat) (x : Option Nat) : (setLock s k x).noc = s.noc := rfl
@[simp] theorem setLock_seam (s : State) (k : Nat) (x : Option Nat) : (setLock s k x).seam = s.seam := rfl
@[simp] theorem setLock_lane (s : State) (k : Nat) (x : Option Nat) : (setLock s k x).lane = s.lane := rfl
@[simp] theorem setLock_flow (s : State) (k : Nat) (x : Option Nat) : (setLock s k x).flow = s.flow := rfl
@[simp] theorem setLock_ddr (s : State) (k : Nat) (x : Option Nat) : (setLock s k x).ddr = s.ddr := rfl
@[simp] theorem setLock_pow (s : State) (k : Nat) (x : Option Nat) : (setLock s k x).pow = s.pow := rfl
@[simp] theorem setLock_sec (s : State) (k : Nat) (x : Option Nat) : (setLock s k x).sec = s.sec := rfl
@[simp] theorem setLock_err (s : State) (k : Nat) (x : Option Nat) : (setLock s k x).err = s.err := rfl
@[simp] theorem setLock_shut (s : State) (k : Nat) (x : Option Nat) : (setLock s k x).shut = s.shut := rfl
@[simp] theorem setLock_dbg (s : State) (k : Nat) (x : Option Nat) : (setLock s k x).dbg = s.dbg := rfl
@[simp] theorem setLock_pin (s : State) (k : Nat) (x : Option Nat) : (setLock s k x).pin = s.pin := rfl
@[simp] theorem setLock_resp (s : State) (k : Nat) (x : Option Nat) : (setLock s k x).resp = s.resp := rfl
@[simp] theorem setLock_freeIdx (s : State) (k : Nat) (x : Option Nat) : (setLock s k x).freeIdx = s.freeIdx := rfl
@[simp] theorem setLock_pending (s : State) (k : Nat) (x : Option Nat) : (setLock s k x).pending = s.pending := rfl

/-! `setDom` touches pow alone. -/

@[simp] theorem setDom_pg (s : State) (die k : Nat) (x : Domain) : (setDom s die k x).pg = s.pg := rfl
@[simp] theorem setDom_clk (s : State) (die k : Nat) (x : Domain) : (setDom s die k x).clk = s.clk := rfl
@[simp] theorem setDom_start (s : State) (die k : Nat) (x : Domain) : (setDom s die k x).start = s.start := rfl
@[simp] theorem setDom_load (s : State) (die k : Nat) (x : Domain) : (setDom s die k x).load = s.load := rfl
@[simp] theorem setDom_keep (s : State) (die k : Nat) (x : Domain) : (setDom s die k x).keep = s.keep := rfl
@[simp] theorem setDom_fab (s : State) (die k : Nat) (x : Domain) : (setDom s die k x).fab = s.fab := rfl
@[simp] theorem setDom_mem (s : State) (die k : Nat) (x : Domain) : (setDom s die k x).mem = s.mem := rfl
@[simp] theorem setDom_part (s : State) (die k : Nat) (x : Domain) : (setDom s die k x).part = s.part := rfl
@[simp] theorem setDom_le (s : State) (die k : Nat) (x : Domain) : (setDom s die k x).le = s.le := rfl
@[simp] theorem setDom_noc (s : State) (die k : Nat) (x : Domain) : (setDom s die k x).noc = s.noc := rfl
@[simp] theorem setDom_seam (s : State) (die k : Nat) (x : Domain) : (setDom s die k x).seam = s.seam := rfl
@[simp] theorem setDom_lane (s : State) (die k : Nat) (x : Domain) : (setDom s die k x).lane = s.lane := rfl
@[simp] theorem setDom_flow (s : State) (die k : Nat) (x : Domain) : (setDom s die k x).flow = s.flow := rfl
@[simp] theorem setDom_ddr (s : State) (die k : Nat) (x : Domain) : (setDom s die k x).ddr = s.ddr := rfl
@[simp] theorem setDom_hub (s : State) (die k : Nat) (x : Domain) : (setDom s die k x).hub = s.hub := rfl
@[simp] theorem setDom_sec (s : State) (die k : Nat) (x : Domain) : (setDom s die k x).sec = s.sec := rfl
@[simp] theorem setDom_err (s : State) (die k : Nat) (x : Domain) : (setDom s die k x).err = s.err := rfl
@[simp] theorem setDom_shut (s : State) (die k : Nat) (x : Domain) : (setDom s die k x).shut = s.shut := rfl
@[simp] theorem setDom_dbg (s : State) (die k : Nat) (x : Domain) : (setDom s die k x).dbg = s.dbg := rfl
@[simp] theorem setDom_pin (s : State) (die k : Nat) (x : Domain) : (setDom s die k x).pin = s.pin := rfl
@[simp] theorem setDom_resp (s : State) (die k : Nat) (x : Domain) : (setDom s die k x).resp = s.resp := rfl
@[simp] theorem setDom_freeIdx (s : State) (die k : Nat) (x : Domain) : (setDom s die k x).freeIdx = s.freeIdx := rfl
@[simp] theorem setDom_pending (s : State) (die k : Nat) (x : Domain) : (setDom s die k x).pending = s.pending := rfl

/-! `setDesc` touches pow alone. -/

@[simp] theorem setDesc_pg (s : State) (d : Nat) (x : Desc) : (setDesc s d x).pg = s.pg := rfl
@[simp] theorem setDesc_clk (s : State) (d : Nat) (x : Desc) : (setDesc s d x).clk = s.clk := rfl
@[simp] theorem setDesc_start (s : State) (d : Nat) (x : Desc) : (setDesc s d x).start = s.start := rfl
@[simp] theorem setDesc_load (s : State) (d : Nat) (x : Desc) : (setDesc s d x).load = s.load := rfl
@[simp] theorem setDesc_keep (s : State) (d : Nat) (x : Desc) : (setDesc s d x).keep = s.keep := rfl
@[simp] theorem setDesc_fab (s : State) (d : Nat) (x : Desc) : (setDesc s d x).fab = s.fab := rfl
@[simp] theorem setDesc_mem (s : State) (d : Nat) (x : Desc) : (setDesc s d x).mem = s.mem := rfl
@[simp] theorem setDesc_part (s : State) (d : Nat) (x : Desc) : (setDesc s d x).part = s.part := rfl
@[simp] theorem setDesc_le (s : State) (d : Nat) (x : Desc) : (setDesc s d x).le = s.le := rfl
@[simp] theorem setDesc_noc (s : State) (d : Nat) (x : Desc) : (setDesc s d x).noc = s.noc := rfl
@[simp] theorem setDesc_seam (s : State) (d : Nat) (x : Desc) : (setDesc s d x).seam = s.seam := rfl
@[simp] theorem setDesc_lane (s : State) (d : Nat) (x : Desc) : (setDesc s d x).lane = s.lane := rfl
@[simp] theorem setDesc_flow (s : State) (d : Nat) (x : Desc) : (setDesc s d x).flow = s.flow := rfl
@[simp] theorem setDesc_ddr (s : State) (d : Nat) (x : Desc) : (setDesc s d x).ddr = s.ddr := rfl
@[simp] theorem setDesc_hub (s : State) (d : Nat) (x : Desc) : (setDesc s d x).hub = s.hub := rfl
@[simp] theorem setDesc_sec (s : State) (d : Nat) (x : Desc) : (setDesc s d x).sec = s.sec := rfl
@[simp] theorem setDesc_err (s : State) (d : Nat) (x : Desc) : (setDesc s d x).err = s.err := rfl
@[simp] theorem setDesc_shut (s : State) (d : Nat) (x : Desc) : (setDesc s d x).shut = s.shut := rfl
@[simp] theorem setDesc_dbg (s : State) (d : Nat) (x : Desc) : (setDesc s d x).dbg = s.dbg := rfl
@[simp] theorem setDesc_pin (s : State) (d : Nat) (x : Desc) : (setDesc s d x).pin = s.pin := rfl
@[simp] theorem setDesc_resp (s : State) (d : Nat) (x : Desc) : (setDesc s d x).resp = s.resp := rfl
@[simp] theorem setDesc_freeIdx (s : State) (d : Nat) (x : Desc) : (setDesc s d x).freeIdx = s.freeIdx := rfl
@[simp] theorem setDesc_pending (s : State) (d : Nat) (x : Desc) : (setDesc s d x).pending = s.pending := rfl

/-! `setAx` touches err alone. -/

@[simp] theorem setAx_pg (s : State) (die : Nat) (x : AxEngine) : (setAx s die x).pg = s.pg := rfl
@[simp] theorem setAx_clk (s : State) (die : Nat) (x : AxEngine) : (setAx s die x).clk = s.clk := rfl
@[simp] theorem setAx_start (s : State) (die : Nat) (x : AxEngine) : (setAx s die x).start = s.start := rfl
@[simp] theorem setAx_load (s : State) (die : Nat) (x : AxEngine) : (setAx s die x).load = s.load := rfl
@[simp] theorem setAx_keep (s : State) (die : Nat) (x : AxEngine) : (setAx s die x).keep = s.keep := rfl
@[simp] theorem setAx_fab (s : State) (die : Nat) (x : AxEngine) : (setAx s die x).fab = s.fab := rfl
@[simp] theorem setAx_mem (s : State) (die : Nat) (x : AxEngine) : (setAx s die x).mem = s.mem := rfl
@[simp] theorem setAx_part (s : State) (die : Nat) (x : AxEngine) : (setAx s die x).part = s.part := rfl
@[simp] theorem setAx_le (s : State) (die : Nat) (x : AxEngine) : (setAx s die x).le = s.le := rfl
@[simp] theorem setAx_noc (s : State) (die : Nat) (x : AxEngine) : (setAx s die x).noc = s.noc := rfl
@[simp] theorem setAx_seam (s : State) (die : Nat) (x : AxEngine) : (setAx s die x).seam = s.seam := rfl
@[simp] theorem setAx_lane (s : State) (die : Nat) (x : AxEngine) : (setAx s die x).lane = s.lane := rfl
@[simp] theorem setAx_flow (s : State) (die : Nat) (x : AxEngine) : (setAx s die x).flow = s.flow := rfl
@[simp] theorem setAx_ddr (s : State) (die : Nat) (x : AxEngine) : (setAx s die x).ddr = s.ddr := rfl
@[simp] theorem setAx_hub (s : State) (die : Nat) (x : AxEngine) : (setAx s die x).hub = s.hub := rfl
@[simp] theorem setAx_pow (s : State) (die : Nat) (x : AxEngine) : (setAx s die x).pow = s.pow := rfl
@[simp] theorem setAx_sec (s : State) (die : Nat) (x : AxEngine) : (setAx s die x).sec = s.sec := rfl
@[simp] theorem setAx_shut (s : State) (die : Nat) (x : AxEngine) : (setAx s die x).shut = s.shut := rfl
@[simp] theorem setAx_dbg (s : State) (die : Nat) (x : AxEngine) : (setAx s die x).dbg = s.dbg := rfl
@[simp] theorem setAx_pin (s : State) (die : Nat) (x : AxEngine) : (setAx s die x).pin = s.pin := rfl
@[simp] theorem setAx_resp (s : State) (die : Nat) (x : AxEngine) : (setAx s die x).resp = s.resp := rfl
@[simp] theorem setAx_freeIdx (s : State) (die : Nat) (x : AxEngine) : (setAx s die x).freeIdx = s.freeIdx := rfl
@[simp] theorem setAx_pending (s : State) (die : Nat) (x : AxEngine) : (setAx s die x).pending = s.pending := rfl

/-! A free value taken moves the index of free values alone. -/

@[simp] theorem freeVal_pg (s : State) (n : Nat) : (freeVal s n).2.pg = s.pg := rfl
@[simp] theorem freeVal_clk (s : State) (n : Nat) : (freeVal s n).2.clk = s.clk := rfl
@[simp] theorem freeVal_start (s : State) (n : Nat) : (freeVal s n).2.start = s.start := rfl
@[simp] theorem freeVal_load (s : State) (n : Nat) : (freeVal s n).2.load = s.load := rfl
@[simp] theorem freeVal_keep (s : State) (n : Nat) : (freeVal s n).2.keep = s.keep := rfl
@[simp] theorem freeVal_fab (s : State) (n : Nat) : (freeVal s n).2.fab = s.fab := rfl
@[simp] theorem freeVal_mem (s : State) (n : Nat) : (freeVal s n).2.mem = s.mem := rfl
@[simp] theorem freeVal_part (s : State) (n : Nat) : (freeVal s n).2.part = s.part := rfl
@[simp] theorem freeVal_le (s : State) (n : Nat) : (freeVal s n).2.le = s.le := rfl
@[simp] theorem freeVal_noc (s : State) (n : Nat) : (freeVal s n).2.noc = s.noc := rfl
@[simp] theorem freeVal_seam (s : State) (n : Nat) : (freeVal s n).2.seam = s.seam := rfl
@[simp] theorem freeVal_lane (s : State) (n : Nat) : (freeVal s n).2.lane = s.lane := rfl
@[simp] theorem freeVal_flow (s : State) (n : Nat) : (freeVal s n).2.flow = s.flow := rfl
@[simp] theorem freeVal_ddr (s : State) (n : Nat) : (freeVal s n).2.ddr = s.ddr := rfl
@[simp] theorem freeVal_hub (s : State) (n : Nat) : (freeVal s n).2.hub = s.hub := rfl
@[simp] theorem freeVal_pow (s : State) (n : Nat) : (freeVal s n).2.pow = s.pow := rfl
@[simp] theorem freeVal_sec (s : State) (n : Nat) : (freeVal s n).2.sec = s.sec := rfl
@[simp] theorem freeVal_err (s : State) (n : Nat) : (freeVal s n).2.err = s.err := rfl
@[simp] theorem freeVal_shut (s : State) (n : Nat) : (freeVal s n).2.shut = s.shut := rfl
@[simp] theorem freeVal_dbg (s : State) (n : Nat) : (freeVal s n).2.dbg = s.dbg := rfl
@[simp] theorem freeVal_pin (s : State) (n : Nat) : (freeVal s n).2.pin = s.pin := rfl
@[simp] theorem freeVal_resp (s : State) (n : Nat) : (freeVal s n).2.resp = s.resp := rfl
@[simp] theorem freeVal_pending (s : State) (n : Nat) : (freeVal s n).2.pending = s.pending := rfl

/-- The answer of an access is what it was answered with. -/
@[simp] theorem answer_resp (s : State) (c d : Nat) : (answer s c d).resp = { code := c, data := d } := rfl

end Sys2Proof.Machine
end

