-- ==== Sys2Proof/Laws/Tables.lean ====
section
/-! SUPPORT. Laws of tables, memories, register bits and registers: what each operation of Machine/Ops.lean does, said
once. -/

namespace Sys2Proof.Machine

/-! ### Tables -/

theorem tabGet_tabPut_self {α : Type} (t : Tab α) (k : Nat) (v : α) : tabGet (tabPut t k v) k = some v := by
  induction t with
  | nil => simp [tabPut, tabGet]
  | cons e r ih =>
    obtain ⟨i, w⟩ := e
    unfold tabPut
    split
    · simp [tabGet]
    · split
      · simp [tabGet]
      · simp [tabGet, *]

theorem tabGet_tabPut_ne {α : Type} (t : Tab α) {k j : Nat} (v : α) (h : j ≠ k) :
    tabGet (tabPut t k v) j = tabGet t j := by
  induction t with
  | nil => simp [tabPut, tabGet, Ne.symm h]
  | cons e r ih =>
    obtain ⟨i, w⟩ := e
    unfold tabPut
    split
    · subst_vars; simp [tabGet, Ne.symm h]
    · split
      · simp [tabGet, Ne.symm h]
      · simp [tabGet, ih]

theorem tabGet_tabDel_self {α : Type} (t : Tab α) (k : Nat) : tabGet (tabDel t k) k = none := by
  induction t with
  | nil => rfl
  | cons e r ih =>
    obtain ⟨i, w⟩ := e
    by_cases h : i = k
    · subst h; simpa [tabDel] using ih
    · simp only [tabDel, List.filter_cons] at ih ⊢
      simp [h, tabGet, ih]

theorem tabGet_tabDel_ne {α : Type} (t : Tab α) {k j : Nat} (h : j ≠ k) : tabGet (tabDel t k) j = tabGet t j := by
  induction t with
  | nil => rfl
  | cons e r ih =>
    obtain ⟨i, w⟩ := e
    simp only [tabDel, List.filter_cons] at ih ⊢
    by_cases hi : i = k
    · subst hi; simpa [tabGet, Ne.symm h] using ih
    · simp [hi, tabGet, ih]

@[simp] theorem tabOr_tabPut_self {α : Type} (d : α) (t : Tab α) (k : Nat) (v : α) : tabOr d (tabPut t k v) k = v := by
  simp [tabOr, tabGet_tabPut_self]

theorem tabOr_tabPut_ne {α : Type} (d : α) (t : Tab α) {k j : Nat} (v : α) (h : j ≠ k) :
    tabOr d (tabPut t k v) j = tabOr d t j := by simp [tabOr, tabGet_tabPut_ne t v h]

@[simp] theorem tabOr_tabPutD_self {α : Type} [DecidableEq α] (d : α) (t : Tab α) (k : Nat) (v : α) :
    tabOr d (tabPutD d t k v) k = v := by
  unfold tabPutD
  split
  · simp [tabOr, tabGet_tabDel_self, *]
  · simp [tabOr, tabGet_tabPut_self]

theorem tabOr_tabPutD_ne {α : Type} [DecidableEq α] (d : α) (t : Tab α) {k j : Nat} (v : α) (h : j ≠ k) :
    tabOr d (tabPutD d t k v) j = tabOr d t j := by
  unfold tabPutD
  split
  · simp [tabOr, tabGet_tabDel_ne t h]
  · simp [tabOr, tabGet_tabPut_ne t v h]

/-! ### Canonical form -/

/-- Every number of `t` lies above `k`. -/
def tabAbove {α : Type} (k : Nat) (t : Tab α) : Prop := ∀ e ∈ t, k < e.1

theorem tabSorted_cons {α : Type} (e : Nat × α) (t : Tab α) :
    tabSorted (e :: t) = true ↔ tabAbove e.1 t ∧ tabSorted t = true := by
  induction t generalizing e with
  | nil => simp [tabSorted, tabAbove]
  | cons f r ih =>
    obtain ⟨i, v⟩ := e
    obtain ⟨j, w⟩ := f
    have hj := ih (j, w)
    simp only [tabSorted, Bool.and_eq_true, decide_eq_true_eq, tabAbove, List.mem_cons] at hj ⊢
    constructor
    · rintro ⟨hij, hs⟩
      refine ⟨?_, hs⟩
      rintro e (rfl | he)
      · exact hij
      · exact Nat.lt_trans hij ((hj.1 hs).1 e he)
    · rintro ⟨ha, hs⟩
      exact ⟨ha _ (Or.inl rfl), hs⟩

theorem tabAbove_tabDel {α : Type} {k : Nat} {t : Tab α} (j : Nat) (h : tabAbove k t) : tabAbove k (tabDel t j) := by
  intro e he
  exact h e (List.mem_of_mem_filter he)

theorem tabSorted_tabDel {α : Type} {t : Tab α} (k : Nat) (h : tabSorted t = true) : tabSorted (tabDel t k) = true := by
  induction t with
  | nil => exact h
  | cons e r ih =>
    obtain ⟨ha, hs⟩ := (tabSorted_cons e r).1 h
    by_cases hk : e.1 = k
    · simpa [tabDel, hk] using ih hs
    · have : tabDel (e :: r) k = e :: tabDel r k := by simp [tabDel, hk]
      rw [this]
      exact (tabSorted_cons _ _).2 ⟨tabAbove_tabDel k ha, ih hs⟩

theorem tabAbove_tabPut {α : Type} {a : Nat} {t : Tab α} {k : Nat} (v : α) (h : tabAbove a t) (hk : a < k) :
    tabAbove a (tabPut t k v) := by
  induction t with
  | nil => intro e he; simp [tabPut] at he; subst he; exact hk
  | cons f r ih =>
    obtain ⟨i, w⟩ := f
    have hr : tabAbove a r := fun e he => h e (List.mem_cons_of_mem _ he)
    have hi : a < i := h (i, w) (List.mem_cons_self ..)
    unfold tabPut
    split
    · intro e he
      rcases List.mem_cons.1 he with rfl | he
      · exact hk
      · exact hr e he
    · split
      · intro e he
        rcases List.mem_cons.1 he with rfl | he
        · exact hk
        · exact h e he
      · intro e he
        rcases List.mem_cons.1 he with rfl | he
        · exact hi
        · exact ih hr e he

theorem tabSorted_tabPut {α : Type} {t : Tab α} (k : Nat) (v : α) (h : tabSorted t = true) :
    tabSorted (tabPut t k v) = true := by
  induction t with
  | nil => rfl
  | cons e r ih =>
    obtain ⟨i, w⟩ := e
    obtain ⟨ha, hs⟩ := (tabSorted_cons (i, w) r).1 h
    unfold tabPut
    split
    · rename_i hik; subst hik; exact (tabSorted_cons _ _).2 ⟨ha, hs⟩
    · split
      · rename_i hki
        refine (tabSorted_cons _ _).2 ⟨?_, h⟩
        intro e he
        rcases List.mem_cons.1 he with rfl | he
        · exact hki
        · exact Nat.lt_trans hki (ha e he)
      · exact (tabSorted_cons _ _).2 ⟨tabAbove_tabPut v ha (by simp only; omega), ih hs⟩

theorem tabSorted_tabPutD {α : Type} [DecidableEq α] (d : α) {t : Tab α} (k : Nat) (v : α) (h : tabSorted t = true) :
    tabSorted (tabPutD d t k v) = true := by
  unfold tabPutD
  split
  · exact tabSorted_tabDel k h
  · exact tabSorted_tabPut k v h

/-- Every operation over a memory keeps its canonical form: one byte. -/
theorem memWf_memPut {m : List Host.Cell} (a : Nat) (b : Byte) (h : memWf m = true) : memWf (memPut m a b) = true := by
  simp only [memWf, Bool.and_eq_true, List.all_eq_true, bne_iff_ne, ne_eq] at h ⊢
  refine ⟨tabSorted_tabPutD 0 a b h.1, ?_⟩
  unfold memPut tabPutD
  split
  · intro c hc; exact h.2 c (List.mem_of_mem_filter hc)
  · rename_i hb
    have key : ∀ (t : List Host.Cell), (∀ c ∈ t, ¬c.2 = 0) → ∀ c ∈ tabPut t a b, ¬c.2 = 0 := by
      intro t
      induction t with
      | nil => intro _ c hc; simp [tabPut] at hc; subst hc; exact hb
      | cons f r ih =>
        obtain ⟨i, w⟩ := f
        intro ht
        have hr := fun c hc => ht c (List.mem_cons_of_mem _ hc)
        unfold tabPut
        split
        · intro c hc
          rcases List.mem_cons.1 hc with rfl | hc
          · exact hb
          · exact hr c hc
        · split
          · intro c hc
            rcases List.mem_cons.1 hc with rfl | hc
            · exact hb
            · exact ht c hc
          · intro c hc
            rcases List.mem_cons.1 hc with rfl | hc
            · exact ht _ (List.mem_cons_self ..)
            · exact ih hr c hc
    exact key m h.2

/-- Every operation over a memory keeps its canonical form: a run of bytes. -/
theorem memWf_memWrite {m : List Host.Cell} (a : Nat) (bs : List Byte) (h : memWf m = true) :
    memWf (memWrite m a bs) = true := by
  induction bs generalizing m a with
  | nil => exact h
  | cons b r ih => exact ih (a + 1) (memWf_memPut a b h)

@[simp] theorem memGet_memPut_self (m : List Host.Cell) (a : Nat) (b : Byte) : memGet (memPut m a b) a = b :=
  tabOr_tabPutD_self 0 m a b

theorem memGet_memPut_ne (m : List Host.Cell) {a c : Nat} (b : Byte) (h : c ≠ a) : memGet (memPut m a b) c = memGet m c :=
  tabOr_tabPutD_ne 0 m b h

/-! ### Registers -/

@[simp] theorem getReg_setReg_self (s : State) (a : Nat) (w : Word) : getReg (setReg s a w) a = w :=
  tabOr_tabPutD_self (regRst a) s.pg.regs a w

theorem getReg_setReg_ne (s : State) {a b : Nat} (w : Word) (h : b ≠ a) : getReg (setReg s a w) b = getReg s b := by
  unfold getReg setReg tabPutD
  split
  · simp [tabGet_tabDel_ne _ h]
  · simp [tabGet_tabPut_ne _ w h]

/-- A field of a word after it is set. -/
theorem wGet_wPut_self (w : Word) (lsb wid v : Nat) (h : lsb + wid ≤ 32) : wGet (wPut w lsb wid v) lsb wid = v % 2 ^ wid := by
  unfold wGet nGet wPut
  have hw := w.isLt
  have hp : 2 ^ (lsb + wid) = 2 ^ lsb * 2 ^ wid := Nat.pow_add ..
  have h32 : 2 ^ 32 = 2 ^ (lsb + wid) * 2 ^ (32 - (lsb + wid)) := by rw [← Nat.pow_add]; congr 1; omega
  have hl : 0 < 2 ^ lsb := Nat.two_pow_pos _
  have hv : v % 2 ^ wid < 2 ^ wid := Nat.mod_lt _ (Nat.two_pow_pos _)
  have hm : w.toNat % 2 ^ lsb < 2 ^ lsb := Nat.mod_lt _ hl
  have hlow : v % 2 ^ wid * 2 ^ lsb + w.toNat % 2 ^ lsb < 2 ^ (lsb + wid) := by
    rw [hp]; nlinarith
  have hbig : w.toNat / 2 ^ (lsb + wid) * 2 ^ (lsb + wid) + v % 2 ^ wid * 2 ^ lsb + w.toNat % 2 ^ lsb < 2 ^ 32 := by
    have hq : w.toNat / 2 ^ (lsb + wid) < 2 ^ (32 - (lsb + wid)) := by
      apply Nat.div_lt_of_lt_mul; rw [← h32]; exact hw
    have : (w.toNat / 2 ^ (lsb + wid) + 1) * 2 ^ (lsb + wid) ≤ 2 ^ 32 := by
      rw [h32, Nat.mul_comm]; exact Nat.mul_le_mul_left _ hq
    nlinarith
  rw [BitVec.toNat_ofNat, Nat.mod_eq_of_lt hbig]
  have e : w.toNat / 2 ^ (lsb + wid) * 2 ^ (lsb + wid) + v % 2 ^ wid * 2 ^ lsb + w.toNat % 2 ^ lsb =
      (w.toNat / 2 ^ (lsb + wid) * 2 ^ wid + v % 2 ^ wid) * 2 ^ lsb + w.toNat % 2 ^ lsb := by rw [hp]; ring
  rw [e, Nat.add_comm, Nat.add_mul_div_right _ _ hl, Nat.div_eq_of_lt hm, Nat.zero_add, Nat.add_comm,
    Nat.add_mul_mod_self_right, Nat.mod_mod]

/-- The value of a word after a field is set. -/
theorem toNat_wPut (w : Word) (lsb wid v : Nat) (h : lsb + wid ≤ 32) : (wPut w lsb wid v).toNat =
    w.toNat / 2 ^ (lsb + wid) * 2 ^ (lsb + wid) + (v % 2 ^ wid * 2 ^ lsb + w.toNat % 2 ^ lsb) ∧
    v % 2 ^ wid * 2 ^ lsb + w.toNat % 2 ^ lsb < 2 ^ (lsb + wid) := by
  have hw := w.isLt
  have hp : 2 ^ (lsb + wid) = 2 ^ lsb * 2 ^ wid := Nat.pow_add ..
  have h32 : 2 ^ 32 = 2 ^ (lsb + wid) * 2 ^ (32 - (lsb + wid)) := by rw [← Nat.pow_add]; congr 1; omega
  have hl : 0 < 2 ^ lsb := Nat.two_pow_pos _
  have hv : v % 2 ^ wid < 2 ^ wid := Nat.mod_lt _ (Nat.two_pow_pos _)
  have hm : w.toNat % 2 ^ lsb < 2 ^ lsb := Nat.mod_lt _ hl
  have hlow : v % 2 ^ wid * 2 ^ lsb + w.toNat % 2 ^ lsb < 2 ^ (lsb + wid) := by rw [hp]; nlinarith
  refine ⟨?_, hlow⟩
  have hq : w.toNat / 2 ^ (lsb + wid) < 2 ^ (32 - (lsb + wid)) := by
    apply Nat.div_lt_of_lt_mul; rw [← h32]; exact hw
  have hbig : (w.toNat / 2 ^ (lsb + wid) + 1) * 2 ^ (lsb + wid) ≤ 2 ^ 32 := by
    rw [h32, Nat.mul_comm]; exact Nat.mul_le_mul_left _ hq
  unfold wPut
  rw [BitVec.toNat_ofNat, Nat.mod_eq_of_lt (by nlinarith), Nat.add_assoc]

/-- A field that shares no bit with the one set. -/
theorem wGet_wPut_ne (w : Word) {l n l' n' : Nat} (v : Nat) (h : l + n ≤ 32) (hd : l + n ≤ l' ∨ l' + n' ≤ l) :
    wGet (wPut w l n v) l' n' = wGet w l' n' := by
  obtain ⟨e, hlow⟩ := toNat_wPut w l n v h
  unfold wGet nGet
  rcases hd with hd | hd
  · have hs : 2 ^ l' = 2 ^ (l + n) * 2 ^ (l' - (l + n)) := by rw [← Nat.pow_add]; congr 1; omega
    have : (wPut w l n v).toNat / 2 ^ l' = w.toNat / 2 ^ l' := by
      rw [hs, ← Nat.div_div_eq_div_mul, ← Nat.div_div_eq_div_mul, e, Nat.add_comm,
        Nat.add_mul_div_right _ _ (Nat.two_pow_pos _), Nat.div_eq_of_lt hlow, Nat.zero_add]
    rw [this]
  · have hm : (wPut w l n v).toNat % 2 ^ l = w.toNat % 2 ^ l := by
      rw [e, Nat.pow_add]
      rw [show w.toNat / (2 ^ l * 2 ^ n) * (2 ^ l * 2 ^ n) + (v % 2 ^ n * 2 ^ l + w.toNat % 2 ^ l) =
        w.toNat % 2 ^ l + 2 ^ l * (w.toNat / (2 ^ l * 2 ^ n) * 2 ^ n + v % 2 ^ n) by ring]
      rw [Nat.add_mul_mod_self_left, Nat.mod_mod]
    have hdvd : 2 ^ (l' + n') ∣ 2 ^ l := Nat.pow_dvd_pow 2 hd
    rw [← Nat.mod_mul_right_div_self, ← Nat.mod_mul_right_div_self, ← Nat.pow_add, ← Nat.mod_mod_of_dvd _ hdvd, hm,
      Nat.mod_mod_of_dvd _ hdvd]

/-- A field of the same page after another is set, none of whose bits it shares. -/
theorem getF_putF_of (s : State) (page : Nat) {f g : FieldRef} (v : Nat) (hf : f.lsb + f.wid ≤ 32)
    (h : g.off ≠ f.off ∨ f.lsb + f.wid ≤ g.lsb ∨ g.lsb + g.wid ≤ f.lsb) : getF (putF s page f v) page g = getF s page g := by
  unfold getF putF
  by_cases e : g.off = f.off
  · rw [e, getReg_setReg_self, wGet_wPut_ne _ _ hf (by omega)]
  · rw [getReg_setReg_ne _ _ (by omega)]

/-- A field after it is set. -/
theorem getF_putF_self (s : State) (page : Nat) (f : FieldRef) (v : Nat) (h : f.lsb + f.wid ≤ 32) :
    getF (putF s page f v) page f = v % 2 ^ f.wid := by
  unfold getF putF
  rw [getReg_setReg_self, wGet_wPut_self _ _ _ _ h]

/-- A field of another register after a field is set. -/
theorem getF_putF_ne (s : State) {page page' : Nat} {f g : FieldRef} (v : Nat) (h : page' + g.off ≠ page + f.off) :
    getF (putF s page f v) page' g = getF s page' g := by
  unfold getF putF
  rw [getReg_setReg_ne _ _ h]

/-- A register write touches the register store alone. -/
theorem setReg_frame (s : State) (a : Nat) (w : Word) :
    setReg s a w = { s with pg := { s.pg with regs := (setReg s a w).pg.regs } } := rfl

/-- Setting a field touches the register store alone. -/
theorem putF_frame (s : State) (p : Nat) (f : FieldRef) (v : Nat) :
    putF s p f v = { s with pg := { s.pg with regs := (putF s p f v).pg.regs } } := rfl

/-- A register write keeps the canonical form of the register store. -/
theorem setReg_sorted (s : State) (a : Nat) (w : Word) (h : tabSorted s.pg.regs = true) :
    tabSorted (setReg s a w).pg.regs = true := tabSorted_tabPutD _ _ _ h

end Sys2Proof.Machine
end

