-- ==== Sys2Proof/Laws/EngineFrame.lean ====
section
/-! SUPPORT. What each slot of a loop-engine instruction leaves unchanged (11_loop_programs.md R273 to R286). -/

namespace Sys2Proof.Machine

/-- `y` keeps of `x` every register whose code is not in `ws`, every bank word not in `st`, the stream queues of the ports
not in `po`, and what no instruction writes. -/
structure EngKeeps (ws st po : List Nat) (x y : Engine) : Prop where
  d : ∀ j, j ∉ ws → dReg y j = dReg x j
  p : ∀ j, 16 + j ∉ ws → tabOr 0 y.p j = tabOr 0 x.p j
  a : ∀ j, 24 + j ∉ ws → aReg y j = aReg x j
  ix : ∀ j, 32 + j ∉ ws → tabOr 0 y.ix j = tabOr 0 x.ix j
  b : ∀ j, 64 + j ∉ ws → tabOr 0 y.b j = tabOr 0 x.b j
  l : ∀ j, 72 + j ∉ ws → tabOr 0 y.l j = tabOr 0 x.l j
  m : ∀ j, 80 + j ∉ ws → tabOr 0 y.m j = tabOr 0 x.m j
  bank : ∀ w < 8192, (∀ v ∈ st, v < 8192) → w ∉ st → bankAt y w = bankAt x w
  si0 : 0 ∉ po → y.si0 = x.si0
  si1 : 1 ∉ po → y.si1 = x.si1
  so0 : 2 ∉ po → y.so0 = x.so0
  so1 : 3 ∉ po → y.so1 = x.so1
  rest : y.imem = x.imem ∧ y.startq = x.startq ∧ y.cur = x.cur ∧ y.ctx = x.ctx ∧ y.dirY = x.dirY ∧ y.mode = x.mode

theorem EngKeeps.refl (ws st po : List Nat) (x : Engine) : EngKeeps ws st po x x := by constructor <;> simp

theorem EngKeeps.trans {ws st po : List Nat} {x y z : Engine} (h : EngKeeps ws st po x y) (k : EngKeeps ws st po y z) :
    EngKeeps ws st po x z where
  d j hj := (k.d j hj).trans (h.d j hj)
  p j hj := (k.p j hj).trans (h.p j hj)
  a j hj := (k.a j hj).trans (h.a j hj)
  ix j hj := (k.ix j hj).trans (h.ix j hj)
  b j hj := (k.b j hj).trans (h.b j hj)
  l j hj := (k.l j hj).trans (h.l j hj)
  m j hj := (k.m j hj).trans (h.m j hj)
  bank w hw hs hn := (k.bank w hw hs hn).trans (h.bank w hw hs hn)
  si0 hp := (k.si0 hp).trans (h.si0 hp)
  si1 hp := (k.si1 hp).trans (h.si1 hp)
  so0 hp := (k.so0 hp).trans (h.so0 hp)
  so1 hp := (k.so1 hp).trans (h.so1 hp)
  rest := ⟨k.rest.1.trans h.rest.1, k.rest.2.1.trans h.rest.2.1, k.rest.2.2.1.trans h.rest.2.2.1,
    k.rest.2.2.2.1.trans h.rest.2.2.2.1, k.rest.2.2.2.2.1.trans h.rest.2.2.2.2.1, k.rest.2.2.2.2.2.trans h.rest.2.2.2.2.2⟩

theorem EngKeeps.mono {ws st po ws' st' po' : List Nat} {x y : Engine} (h : EngKeeps ws st po x y) (hw : ws ⊆ ws')
    (hs : st ⊆ st') (hp : po ⊆ po') : EngKeeps ws' st' po' x y where
  d j hj := h.d j fun q => hj (hw q)
  p j hj := h.p j fun q => hj (hw q)
  a j hj := h.a j fun q => hj (hw q)
  ix j hj := h.ix j fun q => hj (hw q)
  b j hj := h.b j fun q => hj (hw q)
  l j hj := h.l j fun q => hj (hw q)
  m j hj := h.m j fun q => hj (hw q)
  bank w hw' hv hn := h.bank w hw' (fun v q => hv v (hs q)) fun q => hn (hs q)
  si0 q := h.si0 fun r => q (hp r)
  si1 q := h.si1 fun r => q (hp r)
  so0 q := h.so0 fun r => q (hp r)
  so1 q := h.so1 fun r => q (hp r)
  rest := h.rest

theorem keeps_setD {ws st po : List Nat} (x : Engine) (i : Nat) (v : BitVec 24) (h : i ∈ ws) :
    EngKeeps ws st po x (setD x i v) := by
  constructor <;> first | (intros; rfl) | skip
  · intro j hj; exact tabOr_tabPutD_ne _ _ _ fun e => hj (e ▸ h)
  · simp [setD]
theorem keeps_setP {ws st po : List Nat} (x : Engine) (i : Nat) (v : BitVec 16) (h : 16 + i ∈ ws) :
    EngKeeps ws st po x (setP x i v) := by
  constructor <;> first | (intros; rfl) | skip
  · intro j hj; exact tabOr_tabPutD_ne _ _ _ fun e => hj (e ▸ h)
  · simp [setP]
theorem keeps_setA {ws st po : List Nat} (x : Engine) (i : Nat) (v : BitVec 56) (h : 24 + i ∈ ws) :
    EngKeeps ws st po x (setA x i v) := by
  constructor <;> first | (intros; rfl) | skip
  · intro j hj; exact tabOr_tabPutD_ne _ _ _ fun e => hj (e ▸ h)
  · simp [setA]
theorem keeps_setIx {ws st po : List Nat} (x : Engine) (i : Nat) (v : BitVec 16) (h : 32 + i ∈ ws) :
    EngKeeps ws st po x (setIx x i v) := by
  constructor <;> first | (intros; rfl) | skip
  · intro j hj; exact tabOr_tabPutD_ne _ _ _ fun e => hj (e ▸ h)
  · simp [setIx]
theorem keeps_setFlag {ws st po : List Nat} (x : Engine) (i : Nat) (b : Bool) : EngKeeps ws st po x (setFlag x i b) := by
  constructor <;> first | (intros; rfl) | simp [setFlag]
theorem keeps_setZN {ws st po : List Nat} (x : Engine) (zn : Bool × Bool) : EngKeeps ws st po x (setZN x zn) :=
  (keeps_setFlag x 8 zn.1).trans (keeps_setFlag _ 9 zn.2)
theorem keeps_bankPut {ws st po : List Nat} (x : Engine) (a : Nat) (v : BitVec 24) (h : a ∈ st) :
    EngKeeps ws st po x (bankPut x a v) := by
  unfold bankPut
  split
  · constructor <;> first | (intros; rfl) | skip
    · intro w hw hs hn
      unfold bankAt
      have : w ≠ a := fun e => hn (e ▸ h)
      dsimp only
      split
      · exact tabOr_tabPutD_ne _ _ _ this
      · rfl
    · simp
  · constructor <;> first | (intros; rfl) | skip
    · intro w hw hs hn
      unfold bankAt
      have h1 : w ≠ a := fun e => hn (e ▸ h)
      have := hs a h
      dsimp only
      split
      · rfl
      · exact tabOr_tabPutD_ne _ _ _ (by omega)
    · simp

/-- A fold of updates that keep the same things. -/
theorem keeps_foldl {α : Type} {ws st po : List Nat} (l : List α) (f : Engine → α → Engine)
    (h : ∀ x e, e ∈ l → EngKeeps ws st po x (f x e)) (x : Engine) : EngKeeps ws st po x (l.foldl f x) := by
  induction l generalizing x with
  | nil => exact .refl _ _ _ _
  | cons e r ih => exact (h x e (by simp)).trans (ih (fun y q hq => h y q (by simp [hq])) _)

theorem keeps_lregPut {st po : List Nat} (x : Engine) (r : LReg) (v : Nat) : EngKeeps (wcode r) st po x (lregPut x r v) := by
  cases r <;> unfold lregPut wcode <;>
    first
    | exact keeps_setD _ _ _ (by simp)
    | exact keeps_setA _ _ _ (by simp)
    | exact keeps_setP _ _ _ (by simp)
    | exact keeps_setIx _ _ _ (by simp)
    | (constructor <;> first | (intros; rfl) | (intro j hj; exact tabOr_tabPutD_ne _ _ _ (by rintro rfl; exact hj (by simp))) | simp [setDescr])

theorem keeps_loopEnd {ws st po : List Nat} (x : Engine) (a : BitVec 11) (n : Nat) : EngKeeps ws st po x (loopEnd x a n) := by
  induction n generalizing x with
  | zero => unfold loopEnd; constructor <;> first | (intros; rfl) | simp
  | succ n ih =>
    unfold loopEnd
    dsimp only
    split
    · constructor <;> first | (intros; rfl) | simp
    · split
      · constructor <;> first | (intros; rfl) | simp
      · exact EngKeeps.trans (y := { x with ldepth := x.ldepth - 1 }) (by constructor <;> first | (intros; rfl) | simp) (ih _)

theorem keeps_cControl {ws st po : List Nat} (x0 x : Engine) (o : COp) : EngKeeps ws st po x (cControl x0 x o) := by
  unfold cControl
  split
  · dsimp only
    split <;> (constructor <;> first | (intros; rfl) | simp)
  · split
    · unfold loopPush
      split
      · constructor <;> first | (intros; rfl) | simp
      · constructor <;> first | (intros; rfl) | simp
    · exact keeps_loopEnd x _ _

theorem keeps_cEffect {st po : List Nat} (x0 x : Engine) (o : COp) : EngKeeps (cWrites o) st po x (cEffect x0 x o) := by
  cases o <;> unfold cEffect <;> try (exact .refl _ _ _ _)
  · constructor <;> first | (intros; rfl) | simp
  · exact keeps_setD _ _ _ (by simp [cWrites])
  · rename_i reg r
    dsimp only
    split
    · rename_i q h
      simp only [cWrites, h, Option.elim]
      exact keeps_lregPut _ _ _
    · exact .refl _ _ _ _
  · rename_i reg r
    dsimp only
    split
    · exact .refl _ _ _ _
    · rename_i q h
      unfold cWrites
      simp only [h]
      have key : ∀ v : Nat, EngKeeps (if q.pair then [r, r + 1] else [r]) st po x
          (if q.pair then setD (setD x r (BitVec.ofNat 24 v)) (r + 1) (BitVec.ofNat 24 (v / 2 ^ 24)) else setD x r (BitVec.ofNat 24 v)) := by
        intro v
        split
        · exact (keeps_setD _ _ _ (by simp)).trans (keeps_setD _ _ _ (by simp))
        · exact keeps_setD _ _ _ (by simp)
      exact key _
  · rename_i reg imm
    dsimp only
    split
    · rename_i q h
      simp only [cWrites, h, Option.elim]
      exact keeps_lregPut _ _ _
    · exact .refl _ _ _ _
  · exact keeps_setZN _ _
  · constructor <;> first | (intros; rfl) | simp

/-- The port of a slot's stream operation. -/
def portsOf (o : XOp) : List Nat := (xyPort o).toList

theorem keeps_xyEffect (x0 x : Engine) (o : XOp) (hwf : o.wf = true) : EngKeeps (xWrites o) (xStored x0 o) (portsOf o) x (xyEffect x0 x o) := by
  have post : ∀ (ws st po : List Nat) (y : Engine) (i am : Nat), (am = 1 ∨ am = 2 → 16 + i ∈ ws) →
      EngKeeps ws st po y (match xyMod x0 i am with | some p => setP y i p | none => y) := by
    intro ws st po y i am h
    split
    · rename_i p hp
      refine keeps_setP _ _ _ (h ?_)
      unfold xyMod at hp
      split at hp <;> simp_all
    · exact .refl _ _ _ _
  cases o with
  | nop => exact .refl _ _ _ _
  | pop port g =>
    unfold xyEffect
    dsimp only
    split
    · exact .refl _ _ _ _
    · rename_i b r hq
      refine EngKeeps.trans ?_ (keeps_setFlag _ _ _)
      refine EngKeeps.trans (y := if port = 0 then { x with si0 := r } else { x with si1 := r }) ?_ (keeps_foldl _ _ ?_ _)
      · have hp : port = 0 ∨ port = 1 := by
          simp only [XOp.wf, Bool.and_eq_true, decide_eq_true_eq] at hwf; omega
        rcases hp with rfl | rfl
        · rw [if_pos rfl]; constructor <;> first | (intros; rfl) | simp [portsOf, xyPort]
        · rw [if_neg (by omega)]; constructor <;> first | (intros; rfl) | simp [portsOf, xyPort]
      · intro y k hk
        refine keeps_setD _ _ _ ?_
        simp at hk
        simp [xWrites]; omega
  | push port g last =>
    have hp : port = 0 ∨ port = 1 := by
      simp only [XOp.wf, Bool.and_eq_true, decide_eq_true_eq] at hwf; omega
    unfold xyEffect
    dsimp only
    rcases hp with rfl | rfl
    · rw [if_pos rfl]; constructor <;> first | (intros; rfl) | simp [portsOf, xyPort]
    · rw [if_neg (by omega)]; constructor <;> first | (intros; rfl) | simp [portsOf, xyPort]
  | ld i am r q =>
    unfold xyEffect
    dsimp only
    refine EngKeeps.trans (keeps_foldl _ _ ?_ _) (post _ _ _ _ i am ?_)
    · intro y w hw
      refine keeps_setD _ _ _ ?_
      simp only [xWrites, List.mem_append]
      left
      unfold xyWords at hw
      cases q <;> simp at hw ⊢
      · simp [hw]
      · obtain ⟨a, h, rfl⟩ := hw
        exact ⟨a, h, rfl⟩
    · rintro (h | h) <;> simp [xWrites, h]
  | st i am r q =>
    unfold xyEffect
    dsimp only
    refine EngKeeps.trans (keeps_foldl _ _ ?_ _) (post _ _ _ _ i am ?_)
    · intro y w hw
      refine keeps_bankPut _ _ _ ?_
      simp only [xStored, xyAccess, List.mem_map]
      exact ⟨w, hw, rfl⟩
    · rintro (h | h) <;> simp [xWrites, h]
  | pmod i am => exact post _ _ _ x i am (by intro _; simp [xWrites])

theorem keeps_if {ws st po : List Nat} {x y : Engine} (c : Prop) [Decidable c] (h : EngKeeps ws st po x y) :
    EngKeeps ws st po x (if c then y else x) := by
  split
  · exact h
  · exact .refl _ _ _ _

theorem keeps_lane {ws st po : List Nat} {x y : Engine} (h : EngKeeps ws st po x y) (a c : Bool) (i : Nat) (zn : Bool × Bool) :
    EngKeeps ws st po x (if c then setZN (if a then setFlag y i true else y) zn else if a then setFlag y i true else y) := by
  cases a <;> cases c
  · exact h
  · exact h.trans (keeps_setZN _ _)
  · exact h.trans (keeps_setFlag _ _ _)
  · exact (h.trans (keeps_setFlag _ _ _)).trans (keeps_setZN _ _)

theorem keeps_mEffect {st po : List Nat} (md : LeMd) (x0 x : Engine) (o : MOp) (hm : o.mop ≤ 18) :
    EngKeeps (mWrites o) st po x (mEffect md x0 x o) := by
  unfold mEffect
  split
  · exact .refl _ _ _ _
  · rename_i h0
    split
    · rename_i h13
      refine keeps_foldl _ _ ?_ _
      intro y k hk
      dsimp only
      have hw : 24 + (4 * o.f.h + k) ∈ mWrites o := by
        unfold mWrites
        dsimp only
        rw [if_neg h0, if_neg (by omega), if_neg (by simp; omega), if_neg (by simp; omega)]
        simp only [List.mem_append, List.mem_map]
        exact .inl ⟨k, hk, by omega⟩
      exact keeps_lane (keeps_setA y _ _ hw) _ _ _ _
    · split
      · rename_i h14
        refine keeps_foldl _ _ ?_ _
        intro y k hk
        dsimp only
        have hw : 4 * o.f.ga + k ∈ mWrites o := by
          unfold mWrites
          dsimp only
          rw [if_neg h0, if_pos h14]
          simp only [List.mem_append, List.mem_map]
          exact .inl ⟨k, hk, by omega⟩
        exact keeps_lane (keeps_setD y _ _ hw) _ _ _ _
      · split
        · rename_i h13 h14 h16
          have e : mWrites o = (bitsOf 4 o.f.lm).map (24 + 4 * o.f.h + ·) ++ (bitsOf 4 o.f.lm).map (32 + ·) := by
            unfold mWrites
            dsimp only
            rw [if_neg h0, if_neg h14, if_pos (by simp; omega)]
          rw [e]
          refine keeps_foldl _ _ ?_ _
          intro y k hk
          refine keeps_if _ ((keeps_setA y _ _ ?_).trans (keeps_setIx _ _ _ ?_))
          · simp only [List.mem_append, List.mem_map]; exact .inl ⟨k, hk, by omega⟩
          · simp only [List.mem_append, List.mem_map]; exact .inr ⟨k, hk, rfl⟩
        · unfold mReduceEffect
          have e : mWrites o = [24 + 4 * o.f.h, 32, 38] := by
            unfold mWrites
            dsimp only
            rw [if_neg h0, if_neg (by omega), if_neg (by simp; omega), if_pos (by simp; omega)]
          rw [e]
          dsimp only
          exact (keeps_setA x _ _ (by simp)).trans ((keeps_setIx _ 0 _ (by simp)).trans
            ((keeps_setFlag _ 11 _).trans (keeps_setFlag _ 12 _)))
end Sys2Proof.Machine
end

