-- ==== Sys2Proof/Laws/Flow.lean ====
section
/-! SUPPORT. Laws of a flow slice's tables (15_flow_slices.md R417): a word read after a write. -/

namespace Sys2Proof.Machine

@[simp] theorem tblGet_tblPut_self (x : Slice) (t e w : Nat) (v : Word) : tblGet (tblPut x t e w v) t e w = v := by
  unfold tblGet tblPut tblBase
  simp only [tabOr_tabPutD_self]
  exact BitVec.sub_add_cancel ..

theorem tblGet_tblPut_ne (x : Slice) (t e w t' e' w' : Nat) (v : Word) (h : tblKey t' e' w' ≠ tblKey t e w) :
    tblGet (tblPut x t e w v) t' e' w' = tblGet x t' e' w' := congrArg (· + _) (tabOr_tabPutD_ne _ _ _ h)

@[simp] theorem tblPut_frames (x : Slice) (t e w : Nat) (v : Word) : (tblPut x t e w v).frames = x.frames := rfl
@[simp] theorem tblPut_free (x : Slice) (t e w : Nat) (v : Word) : (tblPut x t e w v).free = x.free := rfl
@[simp] theorem tblPut_outs (x : Slice) (t e w : Nat) (v : Word) : (tblPut x t e w v).outs = x.outs := rfl

@[simp] theorem sliceOf_setSlice (s : State) (die : Nat) (x : Slice) : sliceOf (setSlice s die x) die = x :=
  tabOr_tabPutD_self ..

theorem sliceOf_setSlice_ne (s : State) {die d : Nat} (x : Slice) (h : d ≠ die) : sliceOf (setSlice s die x) d = sliceOf s d :=
  tabOr_tabPutD_ne _ _ _ h

end Sys2Proof.Machine
end

