-- ==== Sys2Proof/Laws/Registers.lean ====
section
/-! SUPPORT. What an access to a register does, said once: the laws the statements about register commands go through. -/

namespace Sys2Proof.Machine

theorem regDie_pg (die blk off : Nat) (h : blk * 4096 + off < 268435456) : regDie (pg die blk + off) = die := by
  unfold regDie pg; omega

theorem regBlk_pg (die blk off : Nat) (hb : blk < 65536) (ho : off < 4096) : regBlk (pg die blk + off) = blk := by
  unfold regBlk pg; omega

theorem regOff_pg (die blk off : Nat) (ho : off < 4096) : regOff (pg die blk + off) = off := by
  unfold regOff pg; omega

/-- GO is set in a word that carries it. -/
theorem wGet_or_go (w : Word) : wGet (w ||| 0x80000000) 31 1 = 1 := by
  have h : (w ||| 0x80000000).toNat.testBit 31 = true := by
    rw [BitVec.testBit_toNat]; simp
  rw [Nat.testBit_eq_decide_div_mod_eq] at h
  simpa [wGet, nGet] using h

/-- A block number that names a page fits its field. -/
theorem blk_lt_of_pageOf {die blk : Nat} {p : Page} (h : pageOf die blk = some p) : blk < 65536 := by
  by_contra hn
  have : 16 ≤ blk / 4096 := by omega
  unfold pageOf at h
  dsimp only at h
  split at h <;> first | omega | exact absurd h (by simp)

/-- An access that does not stall leaves the state in which it reaches its register. -/
theorem arrive_served {s u : State} {ini die blk off : Nat} {p : Page} {wr : Bool} (hp : pageOf die blk = some p)
    (h : arrive s ini p die blk off wr = .served u) : u = reach s die blk off wr := by
  unfold arrive at h
  unfold reach
  simp only [hp]
  split at h
  · cases h
  · split at h
    · rename_i hn
      cases h
      rw [if_neg (by simpa using hn)]
    · rename_i hn
      rw [if_pos (by simpa using hn)]
      dsimp only at h
      split at h
      · cases h
      · split at h
        · cases h
        · cases h; rfl

/-- A write that reaches its page goes on as the page decides. -/
theorem accWrite_reaches {s : State} {x : Stall} {die blk off : Nat} {p : Page} (hdie : regDie x.reg = die)
    (hblk : regBlk x.reg = blk) (hoff : regOff x.reg = off) (hp : pageOf die blk = some p) (hi : regCut s die = false)
    (h : (match arrive s x.ini p die blk off true with | .stalls _ => false | .served _ => true) = true) :
    accWrite s x = ((regWrite (reach s die blk off true) x.ini x.bar0 p die blk off x.val).1,
      some (regWrite (reach s die blk off true) x.ini x.bar0 p die blk off x.val).2) := by
  subst hdie hblk hoff
  unfold accWrite
  simp only [hp, hi, Bool.false_eq_true, if_false]
  cases ha : arrive s x.ini p (regDie x.reg) (regBlk x.reg) (regOff x.reg) true with
  | stalls u => simp [ha] at h
  | served u => rw [arrive_served hp ha]

/-- A read that reaches its page goes on as the page decides. -/
theorem accRead_reaches {s : State} {x : Stall} {die blk off : Nat} {p : Page} (hdie : regDie x.reg = die)
    (hblk : regBlk x.reg = blk) (hoff : regOff x.reg = off) (hp : pageOf die blk = some p) (hi : regCut s die = false)
    (h : (match arrive s x.ini p die blk off false with | .stalls _ => false | .served _ => true) = true) :
    accRead s x = ((regRead (reach s die blk off false) x.ini x.bar0 (x.val = 1) p die blk off).1,
      some (regRead (reach s die blk off false) x.ini x.bar0 (x.val = 1) p die blk off).2) := by
  subst hdie hblk hoff
  unfold accRead
  simp only [hp, hi, Bool.false_eq_true, if_false]
  cases ha : arrive s x.ini p (regDie x.reg) (regBlk x.reg) (regOff x.reg) false with
  | stalls u => simp [ha] at h
  | served u => rw [arrive_served hp ha]

/-- A write that is accepted: fields stand, the page's effects follow, code 0 answers it. -/
theorem cmdWrite_ok (s : State) (ini : Nat) (bar0 : Bool) (die blk off : Nat) (w : Word) (p : Page)
    (hp : pageOf die blk = some p) (h : writeOk s ini bar0 die blk off w = true) :
    cmdWrite s ini bar0 die blk off w = answer (writeDo (reach s die blk off true) ini p die blk off w) 0 0 := by
  unfold writeOk reaches at h
  simp only [hp, Bool.and_eq_true, decide_eq_true_eq, Bool.not_eq_true'] at h
  obtain ⟨⟨⟨⟨⟨⟨⟨hi, hb⟩, hqu⟩, hnr⟩, hd⟩, ho⟩, hiso, harr⟩, hw⟩ := h
  unfold cmdWrite cmdAccess anyWrite
  simp only [hi, hb, hqu, hnr, Bool.not_true, Bool.or_self, Bool.false_eq_true, if_false]
  rw [if_neg (by omega)]
  have hblk := blk_lt_of_pageOf hp
  rw [if_neg (by omega), accWrite_reaches (regDie_pg die blk off (by omega)) (regBlk_pg die blk off hblk ho)
    (regOff_pg die blk off ho) hp hiso harr]
  unfold regWrite
  rw [Option.isNone_iff_eq_none] at hw
  simp [hw, answerW, regAnswer]

/-- What an accepted write leaves, by the page's part of it. -/
theorem writeDo_stored (s : State) (ini die blk off : Nat) (w : Word) (p : Page) (hp : pageOf die blk = some p) :
    writeDo (reach s die blk off true) ini p die blk off w =
      if off < 0x040 then
        headerWritten (stored s die blk off w) ini p die blk off (getReg (reach s die blk off true) (pg die blk + off)) w
      else
        blockWritten (reach s die blk off true) (stored s die blk off w) ini p die blk off
          (getReg (reach s die blk off true) (pg die blk + off)) w := by
  unfold writeDo stored
  simp only [hp]

theorem cmdWriteAt_ok (s : State) (ini a : Nat) (w : Word) (p : Page)
    (hp : pageOf (regDie a) (regBlk a) = some p) (h : writeOkAt s ini a w = true) :
    cmdWriteAt s ini a w =
      answer (writeDo (reachAt s a) ini p (regDie a) (regBlk a) (regOff a) w) 0 0 :=
  cmdWrite_ok s ini false _ _ _ w p hp h

/-- An accepted write of a block register at a register offset, by the page's part of it. -/
theorem writeAt_done (s : State) (ini die blk off : Nat) (w : Word) (p : Page) (hb : blk < 65536)
    (ho : off < 4096) (hoff : 0x040 ≤ off) (hq : pageOf die blk = none ∨ pageOf die blk = some p)
    (h : writeOkAt s ini (pg die blk + off) w = true) :
    cmdWriteAt s ini (pg die blk + off) w =
      answer (blockWritten (reachAt s (pg die blk + off)) (storedAt s (pg die blk + off) w) ini p die blk off
        (getReg (reachAt s (pg die blk + off)) (pg die blk + off)) w) 0 0 := by
  unfold cmdWriteAt writeOkAt reachAt storedAt at *
  rw [regDie_pg die blk off (by omega), regBlk_pg die blk off hb ho, regOff_pg die blk off ho] at *
  have hp : pageOf die blk = some p := by
    rcases hq with hq | hq
    · simp [writeOk, hq] at h
    · exact hq
  rw [cmdWrite_ok s ini false die blk off w p hp h, writeDo_stored s ini die blk off w p hp, if_neg (by omega)]

/-- The same, by the name of the page. -/
theorem writeAt_page (s : State) (ini die blk off : Nat) (w : Word) (p : Page) (page : Nat) (hg : page = pg die blk)
    (hb : blk < 65536) (ho : off < 4096) (hoff : 0x040 ≤ off) (hq : pageOf die blk = none ∨ pageOf die blk = some p)
    (h : writeOkAt s ini (page + off) w = true) :
    cmdWriteAt s ini (page + off) w =
      answer (blockWritten (reachAt s (page + off)) (storedAt s (page + off) w) ini p die blk off
        (getReg (reachAt s (page + off)) (page + off)) w) 0 0 := by
  subst hg
  exact writeAt_done s ini die blk off w p hb ho hoff hq h

/-- An accepted write of PG_CTRL, by the name of the page. -/
theorem writeAt_ctrl (s : State) (ini die blk : Nat) (w : Word) (p : Page) (page : Nat) (hg : page = pg die blk)
    (hb : blk < 65536) (hq : pageOf die blk = none ∨ pageOf die blk = some p)
    (h : writeOkAt s ini (page + 0x008) w = true) :
    cmdWriteAt s ini (page + 0x008) w =
      answer (ctrlWritten (storedAt s (page + 0x008) w) p die blk (getReg (reachAt s (page + 0x008)) (page + 0x008)) w)
        0 0 := by
  subst hg
  unfold cmdWriteAt writeOkAt reachAt storedAt at *
  rw [regDie_pg die blk 8 (by omega), regBlk_pg die blk 8 hb (by omega), regOff_pg die blk 8 (by omega)] at *
  have hp : pageOf die blk = some p := by
    rcases hq with hq | hq
    · simp [writeOk, hq] at h
    · exact hq
  rw [cmdWrite_ok s ini false die blk 8 w p hp h, writeDo_stored s ini die blk 8 w p hp, if_pos (by omega)]
  rfl

/-- A page without a first record clears none. -/
theorem recordCleared_none (s : State) (p : Page) (page off : Nat) (w : Word) (h : firstRecord p = none) :
    recordCleared s p page off w = s := by
  unfold recordCleared
  rw [h]
  simp

/-- A write of another register than the record clears none. -/
theorem recordCleared_other (s : State) (p : Page) (page off r : Nat) (w : Word) (h : firstRecord p = some r)
    (hne : r ≠ off) : recordCleared s p page off w = s := by
  unfold recordCleared
  rw [h]
  simp [hne]

/-! ### The effects of each page's registers -/

theorem blockWritten_cu (s0 s : State) (ini die blk off : Nat) (old w : Word) :
    blockWritten s0 s ini .cu die blk off old w = clkWritten s .cu die blk off old := by
  show clkWritten (recordCleared s .cu (pg die blk) off w) .cu die blk off old = _
  rw [recordCleared_none s .cu (pg die blk) off w rfl]

theorem blockWritten_cd (s0 s : State) (ini die blk off : Nat) (old w : Word) :
    blockWritten s0 s ini .cd die blk off old w = clkWritten s .cd die blk off old := by
  show clkWritten (recordCleared s .cd (pg die blk) off w) .cd die blk off old = _
  rw [recordCleared_none s .cd (pg die blk) off w rfl]

theorem blockWritten_nr (s0 s : State) (ini die blk off : Nat) (old w : Word) :
    blockWritten s0 s ini .nr die blk off old w = nrWritten (recordCleared s .nr (pg die blk) off w) die (blk % 4096) off old w := rfl

theorem blockWritten_qu (s0 s : State) (ini die blk off : Nat) (old w : Word) :
    blockWritten s0 s ini .qu die blk off old w = quWritten s off := by
  show quWritten (recordCleared s .qu (pg die blk) off w) off = _
  rw [recordCleared_none s .qu (pg die blk) off w rfl]

theorem blockWritten_rt (s0 s : State) (ini die blk off : Nat) (old w : Word) :
    blockWritten s0 s ini .rt die blk off old w = rtWritten s off w := by
  show rtWritten (recordCleared s .rt (pg die blk) off w) off w = _
  rw [recordCleared_none s .rt (pg die blk) off w rfl]

theorem blockWritten_sm (s0 s : State) (ini die blk off : Nat) (old w : Word) :
    blockWritten s0 s ini .sm die blk off old w = smWritten s die (blk % 4096) off old w := by
  show smWritten (recordCleared s .sm (pg die blk) off w) die (blk % 4096) off old w = _
  rw [recordCleared_none s .sm (pg die blk) off w rfl]

theorem blockWritten_di (s0 s : State) (ini die blk off : Nat) (old w : Word) :
    blockWritten s0 s ini .di die blk off old w = diWritten s off w := by
  show diWritten (recordCleared s .di (pg die blk) off w) off w = _
  rw [recordCleared_none s .di (pg die blk) off w rfl]

theorem blockWritten_kp (s0 s : State) (ini die blk off : Nat) (old w : Word) :
    blockWritten s0 s ini .kp die blk off old w = kpWritten s off old w := by
  show kpWritten (recordCleared s .kp (pg die blk) off w) off old w = _
  rw [recordCleared_none s .kp (pg die blk) off w rfl]

theorem blockWritten_er (s0 s : State) (ini die blk off : Nat) (old w : Word) :
    blockWritten s0 s ini .er die blk off old w = erWritten s off w := by
  show erWritten (recordCleared s .er (pg die blk) off w) off w = _
  rw [recordCleared_none s .er (pg die blk) off w rfl]

theorem blockWritten_ax (s0 s : State) (ini die blk off : Nat) (old w : Word) :
    blockWritten s0 s ini .ax die blk off old w = (if off = 0x040 then axWritten (recordCleared s .ax (pg die blk) off w) die else (recordCleared s .ax (pg die blk) off w)) := rfl

theorem blockWritten_bb (s0 s : State) (ini die blk off : Nat) (old w : Word) :
    blockWritten s0 s ini .bb die blk off old w = bbWritten s off w := by
  show bbWritten (recordCleared s .bb (pg die blk) off w) off w = _
  rw [recordCleared_none s .bb (pg die blk) off w rfl]

theorem blockWritten_cf (s0 s : State) (ini die blk off : Nat) (old w : Word) :
    blockWritten s0 s ini .cf die blk off old w = cfWritten (recordCleared s .cf (pg die blk) off w) die off old w := rfl

theorem blockWritten_le (s0 s : State) (ini die blk off : Nat) (old w : Word) :
    blockWritten s0 s ini .le die blk off old w = leWritten s die (blk % 4096) off old w := by
  show leWritten (recordCleared s .le (pg die blk) off w) die (blk % 4096) off old w = _
  rw [recordCleared_none s .le (pg die blk) off w rfl]

theorem blockWritten_lq (s0 s : State) (ini die blk off : Nat) (old w : Word) :
    blockWritten s0 s ini .lq die blk off old w = lqWritten s die (blk % 4096) off w := by
  show lqWritten (recordCleared s .lq (pg die blk) off w) die (blk % 4096) off w = _
  rw [recordCleared_none s .lq (pg die blk) off w rfl]

theorem blockWritten_lb (s0 s : State) (ini die blk off : Nat) (old w : Word) :
    blockWritten s0 s ini .lb die blk off old w = holdsWake (lbWritten s die off old w) die := by
  show holdsWake (lbWritten (recordCleared s .lb (pg die blk) off w) die off old w) die = _
  rw [recordCleared_none s .lb (pg die blk) off w rfl]

theorem blockWritten_fs (s0 s : State) (ini die blk off : Nat) (old w : Word) :
    blockWritten s0 s ini .fs die blk off old w = fsWritten s ini die off old w := by
  show fsWritten (recordCleared s .fs (pg die blk) off w) ini die off old w = _
  rw [recordCleared_none s .fs (pg die blk) off w rfl]

theorem blockWritten_fe (s0 s : State) (ini die blk off : Nat) (old w : Word) :
    blockWritten s0 s ini .fe die blk off old w = feWritten s die (blk % 4096 - 256) off := by
  show feWritten (recordCleared s .fe (pg die blk) off w) die (blk % 4096 - 256) off = _
  rw [recordCleared_none s .fe (pg die blk) off w rfl]

theorem blockWritten_mc (s0 s : State) (ini die blk off : Nat) (old w : Word) :
    blockWritten s0 s ini .mc die blk off old w = mcWritten (recordCleared s .mc (pg die blk) off w) die blk off old w
      (tagSpan s0 (mcChan die blk) ((off - 0x100) / 32)) := rfl

theorem blockWritten_cl (s0 s : State) (ini die blk off : Nat) (old w : Word) :
    blockWritten s0 s ini .cl die blk off old w = clWritten s off old w := by
  show clWritten (recordCleared s .cl (pg die blk) off w) off old w = _
  rw [recordCleared_none s .cl (pg die blk) off w rfl]

theorem blockWritten_hd (s0 s : State) (ini die blk off : Nat) (old w : Word) :
    blockWritten s0 s ini .hd die blk off old w = hdWritten s off w := by
  show hdWritten (recordCleared s .hd (pg die blk) off w) off w = _
  rw [recordCleared_none s .hd (pg die blk) off w rfl]

theorem blockWritten_tb (s0 s : State) (ini die blk off : Nat) (old w : Word) :
    blockWritten s0 s ini .tb die blk off old w = tbWritten s off w := by
  show tbWritten (recordCleared s .tb (pg die blk) off w) off w = _
  rw [recordCleared_none s .tb (pg die blk) off w rfl]

theorem blockWritten_mb (s0 s : State) (ini die blk off : Nat) (old w : Word) :
    blockWritten s0 s ini .mb die blk off old w = mbWritten s ini die blk off w := by
  show mbWritten (recordCleared s .mb (pg die blk) off w) ini die blk off w = _
  rw [recordCleared_none s .mb (pg die blk) off w rfl]

theorem blockWritten_mbh (s0 s : State) (ini die blk off : Nat) (old w : Word) :
    blockWritten s0 s ini .mbh die blk off old w = mbWritten s ini die blk off w := by
  show mbWritten (recordCleared s .mbh (pg die blk) off w) ini die blk off w = _
  rw [recordCleared_none s .mbh (pg die blk) off w rfl]

theorem blockWritten_lk (s0 s : State) (ini die blk off : Nat) (old w : Word) :
    blockWritten s0 s ini .lk die blk off old w = lkWritten s off w := by
  show lkWritten (recordCleared s .lk (pg die blk) off w) off w = _
  rw [recordCleared_none s .lk (pg die blk) off w rfl]

theorem blockWritten_pc (s0 s : State) (ini die blk off : Nat) (old w : Word) :
    blockWritten s0 s ini .pc die blk off old w = pcWritten s ini die off old w := by
  show pcWritten (recordCleared s .pc (pg die blk) off w) ini die off old w = _
  rw [recordCleared_none s .pc (pg die blk) off w rfl]

theorem blockWritten_pd (s0 s : State) (ini die blk off : Nat) (old w : Word) :
    blockWritten s0 s ini .pd die blk off old w = pdWritten s die (blk % 4096) off old w := by
  show pdWritten (recordCleared s .pd (pg die blk) off w) die (blk % 4096) off old w = _
  rw [recordCleared_none s .pd (pg die blk) off w rfl]

theorem blockWritten_ds (s0 s : State) (ini die blk off : Nat) (old w : Word) :
    blockWritten s0 s ini .ds die blk off old w = dsWritten s off old w := by
  show dsWritten (recordCleared s .ds (pg die blk) off w) off old w = _
  rw [recordCleared_none s .ds (pg die blk) off w rfl]

theorem blockWritten_sc (s0 s : State) (ini die blk off : Nat) (old w : Word) :
    blockWritten s0 s ini .sc die blk off old w = scWritten (recordCleared s .sc (pg die blk) off w) off w := rfl

theorem blockWritten_sd (s0 s : State) (ini die blk off : Nat) (old w : Word) :
    blockWritten s0 s ini .sd die blk off old w = sdWritten s off w := by
  show sdWritten (recordCleared s .sd (pg die blk) off w) off w = _
  rw [recordCleared_none s .sd (pg die blk) off w rfl]

theorem blockWritten_db (s0 s : State) (ini die blk off : Nat) (old w : Word) :
    blockWritten s0 s ini .db die blk off old w = dbWritten s off w := by
  show dbWritten (recordCleared s .db (pg die blk) off w) off w = _
  rw [recordCleared_none s .db (pg die blk) off w rfl]

theorem blockWritten_tr (s0 s : State) (ini die blk off : Nat) (old w : Word) :
    blockWritten s0 s ini .tr die blk off old w = trWritten s off old w := by
  show trWritten (recordCleared s .tr (pg die blk) off w) off old w = _
  rw [recordCleared_none s .tr (pg die blk) off w rfl]

theorem blockWritten_wd (s0 s : State) (ini die blk off : Nat) (old w : Word) :
    blockWritten s0 s ini .wd die blk off old w = wdWritten s off old w := by
  show wdWritten (recordCleared s .wd (pg die blk) off w) off old w = _
  rw [recordCleared_none s .wd (pg die blk) off w rfl]

theorem blockWritten_io (s0 s : State) (ini die blk off : Nat) (old w : Word) :
    blockWritten s0 s ini .io die blk off old w = (if off < 0x04C then pinsLatch s die else s) := by
  show (if off < 0x04C then pinsLatch (recordCleared s .io (pg die blk) off w) die else (recordCleared s .io (pg die blk) off w)) = _
  rw [recordCleared_none s .io (pg die blk) off w rfl]

theorem blockWritten_st (s0 s : State) (ini die blk off : Nat) (old w : Word) :
    blockWritten s0 s ini .st die blk off old w =
      if off = 0x040 && wGet w 31 1 = 1 then stStart (recordCleared s .st (pg die blk) off w) die
      else recordCleared s .st (pg die blk) off w := rfl

theorem blockWritten_ev (s0 s : State) (ini die blk off : Nat) (old w : Word) :
    blockWritten s0 s ini .ev die blk off old w = evWritten (if off = 0x044 || off = 0x048 then setReg s (pg die blk + off) old else s) off w := by
  show evWritten (if off = 0x044 || off = 0x048 then setReg (recordCleared s .ev (pg die blk) off w) (pg die blk + off) old else (recordCleared s .ev (pg die blk) off w)) off w = _
  rw [recordCleared_none s .ev (pg die blk) off w rfl]

/-- A read that reaches its page and passes its checks, by the page's part of it. -/
theorem cmdRead_ok (s : State) (ini : Nat) (bar0 peek : Bool) (die blk off : Nat) (p : Page)
    (hp : pageOf die blk = some p) (h : reaches s ini die blk off false = true) :
    cmdRead s ini bar0 die blk off peek =
      regAnswer (regRead (reach s die blk off false) ini bar0 peek p die blk off).1 ini (pg die blk + off) false
        (regRead (reach s die blk off false) ini bar0 peek p die blk off).2.1
        (regRead (reach s die blk off false) ini bar0 peek p die blk off).2.2 := by
  unfold reaches at h
  simp only [hp, Bool.and_eq_true, decide_eq_true_eq, Bool.not_eq_true'] at h
  obtain ⟨⟨⟨⟨⟨⟨hi, hb⟩, hqu⟩, hnr⟩, hd⟩, ho⟩, hiso, harr⟩ := h
  unfold cmdRead cmdAccess
  simp only [hi, hb, hqu, hnr, Bool.not_true, Bool.or_self, Bool.false_eq_true, if_false]
  have hblk := blk_lt_of_pageOf hp
  unfold anyRead
  rw [if_neg (by omega), accRead_reaches (regDie_pg die blk off (by omega)) (regBlk_pg die blk off hblk ho)
    (regOff_pg die blk off ho) hp hiso harr]
  cases peek <;> rfl

/-- A read at a register offset that reaches its page, by the page's part of it. -/
theorem readAt_done (s : State) (ini die blk off : Nat) (peek : Bool) (p : Page) (hb : blk < 65536) (ho : off < 4096)
    (hq : pageOf die blk = none ∨ pageOf die blk = some p) (h : reaches s ini die blk off false = true) :
    cmdRead s ini false (regDie (pg die blk + off)) (regBlk (pg die blk + off)) (regOff (pg die blk + off)) peek =
      regAnswer (regRead (reach s die blk off false) ini false peek p die blk off).1 ini (pg die blk + off) false
        (regRead (reach s die blk off false) ini false peek p die blk off).2.1
        (regRead (reach s die blk off false) ini false peek p die blk off).2.2 := by
  rw [regDie_pg die blk off (by omega), regBlk_pg die blk off hb ho, regOff_pg die blk off ho]
  refine cmdRead_ok s ini false peek die blk off p ?_ h
  rcases hq with hq | hq
  · simp [reaches, hq] at h
  · exact hq

/-- A read of a word a page answers by its own rule, by the name of the page. -/
theorem readAt_special (s : State) (ini die blk off : Nat) (peek : Bool) (p : Page) (page : Nat) (r : State × Nat)
    (hg : page = pg die blk) (hb : blk < 65536) (ho : off < 4096)
    (hq : pageOf die blk = none ∨ pageOf die blk = some p) (h : reaches s ini die blk off false = true)
    (hf : readFault (reach s die blk off false) ini false peek p die blk off = none) (hl : (p = .le ∧ off = 0x064) = False)
    (hr : specialRead (reach s die blk off false) ini peek p die blk off = some r) :
    cmdReadAt s ini (page + off) peek = answer r.1 0 r.2 := by
  subst hg
  unfold cmdReadAt
  rw [readAt_done s ini die blk off peek p hb ho hq h]
  unfold regRead
  rw [hf, hr]
  simp [hl]

/-- A write to a mailbox that is accepted, by what the page does with it. -/
theorem mbWrite_ok (s : State) (ini m e : Nat) (w : Word) (bar0 : Bool) (hm : m < 96) (he : e < 64)
    (h : writeOk s ini bar0 (regDie (mbPage m)) (regBlk (mbPage m)) (mbOff m e) w = true) :
    mbWrite s ini m e w bar0 =
      answer (mbWritten (stored s (regDie (mbPage m)) (regBlk (mbPage m)) (mbOff m e) w) ini (regDie (mbPage m))
        (regBlk (mbPage m)) (mbOff m e) w) 0 0 := by
  have hp : pageOf (regDie (mbPage m)) (regBlk (mbPage m)) = some .mb ∨
      pageOf (regDie (mbPage m)) (regBlk (mbPage m)) = some .mbh := by
    clear h he; revert m; decide
  have hoff : ¬ mbOff m e < 0x040 := by unfold mbOff; omega
  unfold mbWrite
  rcases hp with hp | hp
  · rw [cmdWrite_ok s ini bar0 _ _ _ w .mb hp h, writeDo_stored s ini _ _ _ w .mb hp, if_neg hoff, blockWritten_mb]
  · rw [cmdWrite_ok s ini bar0 _ _ _ w .mbh hp h, writeDo_stored s ini _ _ _ w .mbh hp, if_neg hoff, blockWritten_mbh]

/-- The mailbox whose window holds a register. -/
theorem mbAt_off {m e : Nat} (hm : m < 96) (he : e < 64) : mbAt (regDie (mbPage m)) (regBlk (mbPage m)) (mbOff m e) = some m := by
  have h1 : (mbOff m e - 0x100) / 64 = m % 8 := by unfold mbOff; omega
  have h2 : ¬ (mbOff m e < 0x100 ∨ 0x300 ≤ mbOff m e) := by unfold mbOff; omega
  have h3 : ∀ n < 96, (if regDie (mbPage n) = 8 then some (8 * (regBlk (mbPage n) - 0xC010) + n % 8)
      else some (64 + (if regDie (mbPage n) = 9 then 0 else 16) + 8 * (regBlk (mbPage n) - 0xC101) + n % 8)) = some n := by
    decide
  unfold mbAt
  rw [if_neg (by simpa using h2), h1]
  exact h3 m hm

/-- The offset of a register of a mailbox in its window. -/
theorem mbOff_mod {m e : Nat} (he : e < 64) : mbOff m e % 64 = e := by unfold mbOff; omega

/-! ### The page kind at each page function -/

theorem pageOf_cd {k : Nat} (h : k < 64) : pageOf (cdDie k) (0x3100 + k) = some .cd := by revert k; decide

theorem pageOf_le {die e : Nat} (h : e < 288) : pageOf die (0x6000 + e) = none ∨ pageOf die (0x6000 + e) = some .le := by
  have h1 : (0x6000 + e) / 4096 = 6 := by omega
  have h2 : (0x6000 + e) % 4096 = e := by omega
  simp only [pageOf, h1, h2]
  split <;> simp

theorem pageOf_sm {die m : Nat} (h : m < 18) : pageOf die (0x2000 + m) = none ∨ pageOf die (0x2000 + m) = some .sm := by
  have h1 : (0x2000 + m) / 4096 = 2 := by omega
  have h2 : (0x2000 + m) % 4096 = m := by omega
  simp only [pageOf, h1, h2]
  split <;> simp

theorem pageOf_fe {die k : Nat} (h : k < 16) : pageOf die (0x9100 + k) = none ∨ pageOf die (0x9100 + k) = some .fe := by
  have h1 : (0x9100 + k) / 4096 = 9 := by omega
  have h2 : (0x9100 + k) % 4096 = 256 + k := by omega
  simp only [pageOf, h1, h2]
  split
  · rw [if_neg (by omega), if_neg (by omega)]
    split <;> simp
  · simp

theorem pageOf_fs {die : Nat} : pageOf die 0x9000 = none ∨ pageOf die 0x9000 = some .fs := by
  simp only [pageOf]
  split <;> simp

theorem pageOf_lb {die : Nat} : pageOf die 0x8100 = none ∨ pageOf die 0x8100 = some .lb := by
  simp only [pageOf]
  split <;> simp

theorem pageOf_lq {die j : Nat} (h : j < 8) : pageOf die (0x8000 + j) = none ∨ pageOf die (0x8000 + j) = some .lq := by
  have h1 : (0x8000 + j) / 4096 = 8 := by omega
  have h2 : (0x8000 + j) % 4096 = j := by omega
  simp only [pageOf, h1, h2]
  split
  · simp
  · simp

theorem pageOf_cf {die : Nat} : pageOf die 0x5000 = none ∨ pageOf die 0x5000 = some .cf := by
  simp only [pageOf]
  split <;> simp

theorem pageOf_ax {die : Nat} : pageOf die 0x5001 = none ∨ pageOf die 0x5001 = some .ax := by
  simp only [pageOf]
  split <;> simp

theorem pageOf_ic {die : Nat} : pageOf die 0x5002 = none ∨ pageOf die 0x5002 = some .ic := by
  simp only [pageOf]
  split <;> simp

theorem pageOf_st {die : Nat} : pageOf die 0xF000 = none ∨ pageOf die 0xF000 = some .st := by
  simp only [pageOf]
  split <;> simp

theorem pageOf_nr {die r : Nat} (h : r < 4096) : pageOf die (0x1000 + r) = none ∨ pageOf die (0x1000 + r) = some .nr := by
  have h1 : (0x1000 + r) / 4096 = 1 := by omega
  simp only [pageOf, h1]
  split <;> simp

theorem pageOf_io {die a : Nat} (h : a < 8) (hd : die ≠ 8) :
    pageOf die (0x0010 + a) = none ∨ pageOf die (0x0010 + a) = some .io := by
  have h1 : (0x0010 + a) / 4096 = 0 := by omega
  have h2 : (0x0010 + a) % 4096 = 0x0010 + a := by omega
  simp only [pageOf, h1, h2]
  rw [if_neg (by simp), if_neg hd]
  split <;> simp

theorem pageOf_mc {ch : Nat} (h : ch < 4) : pageOf (if ch < 2 then 3 else 7) (0xA000 + ch % 2) = some .mc := by
  revert ch; decide

theorem mcChan_at {ch : Nat} (h : ch < 4) : mcChan (if ch < 2 then 3 else 7) (0xA000 + ch % 2) = ch := by
  revert ch; decide

theorem pageOf_pc {pc : Nat} : pageOf (if pc = 0 then 9 else 11) 0xC100 = some .pc := by
  split <;> rfl

end Sys2Proof.Machine
end

