-- ==== Sys2Proof/Tests/Slice0.lean ====
section
/-! SUPPORT. Tests: words and small steps worked out from the spec, and states that meet the hypotheses of the statements. -/

set_option maxRecDepth 4096

namespace Sys2Proof.Tests

-- one theorem at a time: hundreds of evaluations at once ask for more threads than a check has
set_option Elab.async false

open Machine

/-! ### Small states and operands -/

/-- Reset, at a phase of the start. -/
def atPhase (p : StartPhase) : State := { State.reset with start := { phase := p } }

/-- A stream of one frame, stored as it is. -/
def oneFrame (off group : Nat) : StreamDesc := { offset := off, stored := 260, frames := 1, firstGroup := group }

/-- The header of a full image of one frame a stream. -/
def hdrFull : Header :=
  { magic := 0x435A4C31, formatVer := 1, kind := 1, family := 0x5856, device := 8, dieCount := 12, streamMask := 0x1EFF
    imageLen := 65536, signerHash := 7, groupCount := 13, nodeCount := nodeCount 13, nodeOff := 8192, tableOff := 12288
    tableFrames := 1, tableStored := 260
    streams := ((List.range 16).map fun d => if d < 8 then oneFrame (16384 + 4096 * d) (1 + d)
      else if 9 ≤ d && d < 13 then oneFrame (49152 + 4096 * (d - 9)) d else { }) }

/-- A sequence-table entry of stage 3. -/
def seqEntry (action : Nat) (value : Word) : SeqEntry :=
  { blk := 7, die := 8, action := action, stage := 3, timeout := 0, off := 0x040, value := value, mask := 1 }

/-- Reset, in S3 with one entry to run. -/
def atEntry (action : Nat) (value : Word) : State :=
  { State.reset with start := { phase := .s3, table := [seqEntry action value] } }

/-- A partition over columns 0 to 11 of die 0. -/
def part1 : PartEntry := { no := 1, die := 0, cFirst := 0, cLast := 11, client := 16, flags := 0 }

/-- The same, with local reconfiguration allowed. -/
def part1L : PartEntry := { part1 with flags := 2 }

/-- `s` with partition 1 in the table, in state `st`. -/
def atPart (s : State) (st : Nat) : State :=
  putF { s with part := { parts := [part1] } } (icPage 0) (IC_PSTAT_STATE.nth 1) st

/-- Reset, at a phase of the start, every seam ACTIVE at both ends. -/
def joinedUp (p : StartPhase) : State :=
  (List.range 18).foldl (fun s m => putF (putF s (smPage (seamDies m).1 m) SM_STAT_STATE 7) (smPage (seamDies m).2 m)
    SM_STAT_STATE 7) (atPhase p)

/-- A driver frame, its drivers' shape, and a state whose frame enables driver 0. -/
def contAddr : Nat := 0x50000
def contW : Nat := 4
def contN : Nat := 512
def contEn : Nat := 4

/-- Die `die` with network 0 enabled from CD56, which runs. -/
def netOn (s : State) (die : Nat) (groups : Frame) : State :=
  putF (cfgPut (cfgPut (putFlag s (cdPage 56) CD_STAT_RUNNING true) die 0x53900 0x11) die 0x53901 groups) (cfPage die) CF_GCK_EN_EN 1

/-- Die 0 with NoC port 0 enabled on GCK 0, which runs. -/
def portUp : State := cfgPut (netOn State.reset 0 0) 0 0x53912 0x80

/-- Crossing group 5 of seam 0 enabled at both ends, clocks and seam up. -/
def xgReady : State :=
  netOn (netOn (joinedUp .ready) 0 (BitVec.ofNat 2048 (128 * 2 ^ 40))) 1 (BitVec.ofNat 2048 (128 * 2 ^ (512 + 40)))

/-- Die 0 with a capture armed for trigger `t`. -/
def capArmed (t : Nat) : State :=
  putFlag (putF (netOn State.reset 0 0) (cfPage 0) CF_CAP_CTRL_TRIG t) (cfPage 0) PG_CTRL_ENABLE true

/-- Die 0 with its static region running on network 0, bank memory 0 (and 1) and deep memory 0 configured by frames. -/
def memOn (c0 c1 d0 : Frame) : State :=
  let s := netOn State.reset 0 0
  cfgPut (cfgPut (cfgPut { s with fab := { s.fab with staticOn := [0] } } 0 0x53000 c0) 0 0x53001 c1) 0 0x53800 d0

/-- Bank memories 0 and 1 as a cascade of two 9-bit stages. -/
def cascOn : State := memOn (16 + 3 + 64) (16 + 3 + 192) 0

/-- Bank memory 0 with `q` in its queue. -/
def bankQ (s : State) (q : List (BitVec 72)) : State := setBank s 0 0 { bankMem s 0 0 with q := q }
/-- Deep memory 0 with `q` in its queue. -/
def deepQ (s : State) (q : List (BitVec 72)) : State := setDeep s 0 0 { deepMem s 0 0 with q := q }

/-- The header of a partial image for partition 1 of die 0. -/
def hdrPart : Header :=
  { magic := 0x435A4C31, formatVer := 1, kind := 2, family := 0x5856, device := 8, dieCount := 1, streamMask := 1
    imageLen := 16384, signerHash := 7, groupCount := 1, nodeCount := nodeCount 1, nodeOff := 8192
    streams := oneFrame 12288 0 :: List.replicate 15 { }
    part := { magic := 0x50415231, partNo := 1, die := 0, cFirst := 0, cLast := 11 } }

/-- Die 0 with its port enabled on network 0. -/
def icpOn : State :=
  putFlag { netOn State.reset 0 0 with part := { icpGck := [0x80] } } (icPage 0) PG_CTRL_ENABLE true

/-- `s` with a load of die 0 at `l`. -/
def icpAt (s : State) (l : IcpLoad) : State := { s with part := { s.part with icp := [(0, some l)] } }

/-- An instruction of four operations. -/
def leI (c : COp) (x : XOp) (m : MOp) : LeInstr := { c := c, x := x, y := .nop, m := m }
/-- An operation of the M slot. -/
def mI (mop : Nat) (f : MFields) : LeInstr := leI .nop .nop { mop := mop, f := f }
/-- An operation of the C slot. -/
def cI (c : COp) : LeInstr := leI c .nop { mop := 0, f := { } }
/-- An operation of the X slot. -/
def xI (x : XOp) : LeInstr := leI .nop x { mop := 0, f := { } }

/-- Engine 0 of die 0 running, its word at PC instruction `i`, a beat in stream input 0, inside one loop; all stream ports on. -/
def leAt (i : LeInstr) : State :=
  setEng (cfgPut State.reset 0 0x54000 0x780) 0 0
    { mode := .run, imem := [(0, eccWord (encWord i))], si0 := [{ data := 5, last := true }], ldepth := 1
      ln := [(0, 3)], lend := [(0, 9)], descs := [(3, { count := 4 })] }

/-- Reset with engine 0 of die 0 as given, its page enabled. -/
def leWith (x : Engine) : State := setEng (putFlag State.reset (lePage 0 0) PG_CTRL_ENABLE true) 0 0 x

/-- Die 0 with its static region and engine 0 running on network 0, all stream ports on. -/
def leRunning (x : Engine) : State := setEng (cfgPut (memOn 0 0 0) 0 0x54000 0x780) 0 0 x

/-- Reset with a packet in flight. -/
def inNet (p : Packet) : State := { State.reset with noc := { flight := [p] } }
/-- An access of ID 0 in progress under tag 3. -/
def outst0 : Outst := { ini := 0, tag := 3, target := 2048, kind := 0, addr := 0, size := 4, resv := 0, acc := 0 }
/-- A staged table of router 0 of the hub. -/
def tab0 : RouteTab := { node := 2048, rsv := 0, die := [], loc := [], rest := 0 }

/-- Lane 127 in state `st`. -/
def laneIn (st : Nat) : State := putF State.reset (laneQuad 127) (lf LQ_STAT_STATE 127) st
/-- Bundle 0 of die 9 over lane 0, in state `st`, its lane in state 2. -/
def bundleAt (st : Nat) : State :=
  putF (putF (putF (putF State.reset (lbPage 9) (LB_BCFG_EN.nth 0) 1) (lbPage 9) (LB_BSTAT_STATE.nth 0) st) (laneQuad 0)
    (lf LQ_STAT_STATE 0) 2) (lbPage 9) (LB_BCFG_WIDTH.nth 0) 1

/-- Die 9 with its slice enabled and port 0 up. -/
def flowUp : State :=
  putF (putFlag (putFlag (putFlag State.reset (fsPage 9) PG_CTRL_ENABLE true) (fePage 9 0) FE_STAT_LINK true) (fePage 9 0)
    PG_CTRL_ENABLE true) (fePage 9 0) (FE_QCFG_MAX_SDU.nth 0) 2000
/-- A whole frame of queue 0 of port 0. -/
def sendable (id : Nat) : EthFrame :=
  { id := id, inPort := 1, inRate := 10, bytes := List.replicate 64 0, egFlow := 0, egPort := 0, egQueue := 0
    tokens := 1, queued := true }
/-- The slice of die 9 with one frame. -/
def flowQ (f : EthFrame) : State := setSlice flowUp 9 { sliceOf State.reset 9 with frames := [f] }

/-- Channel `ch` training. -/
def ddrTrain (ch : Nat) : State :=
  putF (putF (putFlag State.reset (mcPage ch) PG_CTRL_ENABLE true) (mcPage ch) MC_GEOM_DENS 1) (mcPage ch) MC_STAT_STATE 1
/-- Channel `ch` serving 16 GiB. -/
def ddrUp (ch : Nat) : State := setChan (putF (ddrTrain ch) (mcPage ch) MC_STAT_STATE 2) ch { cm := 16, capSet := true, enabled := true }
/-- A late check of channel 3. -/
def late0 : LateCheck := { ch := 3, line := 5, range := 15, ini := 4, tagOk := true, sub := 1, sym := 15, wb := none }
/-- Channel 3 serving, with a late check. -/
def ddrLate (l : LateCheck) : State := { ddrUp 3 with ddr := { (ddrUp 3).ddr with late := [l] } }

/-- Range 15 of channel 3 loaded with its keys, the decode formed. -/
def rangeReady : State :=
  let s := putF { ddrUp 3 with ddr := { (ddrUp 3).ddr with formed := true } } (mcPage 0) MC_CFG_ILV 2
  putF (putF (putF s (mcPage 3) (RNG_LIMIT_PAGE.nth 15) 255) (mcPage 3) (RNG_TOFF_PAGE.nth 15) 4096) (mcPage 3)
    (RNG_CTRL_KEYS.nth 15) 7

/-- The hub in ready, torpor armed and no vote on CORE. -/
def torporReady : State := putFlag (atPhase .ready) (pdPage 8 1) PD_TORPOR_ARM true
/-- Descriptor 4095 at the head of queue 63, on a joined die. -/
def issuable : State :=
  setReadyQ (setDesc (putFlag (joinedUp .ready) DS PG_CTRL_ENABLE true) 4095 { descOf State.reset 4095 with state := 1 }) 63 [4095]

/-- Command `c` next in mailbox 47 of the security core. -/
def secReq (c : Nat) : State :=
  setReg (setMbox (atPhase .ready) 47 { full := true, sender := 3 }) (mbWord 47 0) (BitVec.ofNat 32 c)
/-- Die 7's engine in SCAN. -/
def scanning : State := setAx (joinedUp .ready) 7 { state := 1, pos := 0x53000 }
/-- What the keep answers for group 0 of die 7: one frame of zeros under the one node of the tree. -/
def regenRead0 : RegenRead := { nodes := [BitVec.ofNat 256 (leafOf 0 7 [0])], frames := [0] }
/-- Die 7's engine in REGEN on frame 0x53000, which the one group of the active image holds. -/
def regenReady : State :=
  let u := setAx (joinedUp .ready) 7 { state := 2, pos := 0x53000 }
  { u with load := { u.load with hdr := { u.load.hdr with root := leafOf 0 7 [0], groupCount := 1, streams := List.replicate 15 { } }
                                 segMap := [(7, [{ target := 1, addr := 0x53000, count := 1, frame := 0 }])] } }
/-- That frame is good: the one node is the root and the digest of the group. -/
theorem regenGood_regenReady : regenGood regenReady 7 [regenRead0] = some 0 := by
  have hb : (BitVec.ofNat 256 (leafOf 0 7 [0])).toNat = leafOf 0 7 [0] := by
    rw [BitVec.toNat_ofNat, Nat.mod_eq_of_lt]; exact (Config.shake256 _).isLt
  have hp : (axOf regenReady 7).pos = 0x53000 := by decide +kernel
  have ho : ownerAt regenReady 7 9 = none := by decide +kernel
  have hk : frameCol 0x53000 = some 9 := by decide +kernel
  have hs : getF regenReady SQ SQ_STAT_SOURCE = 0 := by decide +kernel
  have hc : (contention 0x53000 0).isNone = true := by decide +kernel
  have hr : (keepReach regenReady 13 && keepReach regenReady 14) = true := by decide +kernel
  have hv : verifyGroup 1 (leafOf 0 7 [0]) regenRead0.nodes [] 0 (leafOf 0 7 regenRead0.frames) = .inr [0] := by
    unfold verifyGroup
    rw [show regenRead0.nodes = [BitVec.ofNat 256 (leafOf 0 7 [0])] from rfl, show regenRead0.frames = [0] from rfl]
    simp only [List.length_singleton, Nat.sub_self, List.getD_cons_zero, hb, bne_self_eq_false, Bool.and_false,
      if_neg (show ¬ (false = true) by decide)]
    rfl
  have hf : regenFrom regenReady 7 0x53000 none [regenRead0] = some 0 := by
    have e1 : regenImage regenReady 7 none = ({ src := 1, root := leafOf 0 7 [0], groups := 1, segs := segsOf regenReady 7 }, (hdrStream regenReady.load.hdr 7).firstGroup) := by
      unfold regenImage
      rw [hs]; rfl
    have e2 : segsOf regenReady 7 = [{ frame := 0, target := 1, addr := 0x53000, count := 1 }] := by decide +kernel
    have e3 : (hdrStream regenReady.load.hdr 7).firstGroup = 0 := by decide +kernel
    have e4 : runOf ([{ frame := 0, target := 1, addr := 0x53000, count := 1 }] : List SegRun) 0x53000 = some 0 := by decide +kernel
    have e5 : [regenRead0].find? (·.part == none) = some regenRead0 := by rfl
    unfold regenFrom
    rw [e1, e2, e3, e5]
    simp only [List.take_succ_cons, List.take_nil, e4, Nat.zero_div, Nat.add_zero, hv]
    rw [if_neg (by decide)]
    rfl
  unfold regenGood
  rw [hr, if_pos rfl, hp]
  unfold regenMerged
  rw [hk]
  simp only [ho, Option.bind_none, hf]
  simpa using hc
/-- An error record. -/
def errRec0 : ErrRec := { time := 1, cls := 1, src := 0x0006, die := 8, code := 0x0101, info := 5 }
/-- A copy of an empty ring. -/
def bbCopy0 : BbCopy :=
  { seq := 1, reason := 1, head := 0, ringSeq := 0, time := 0, rtc := 0, sqStat := 0, sqCause := 0, first := none, next := none
    ring := [], valid := true }
/-- A copy on its way to memory. -/
def bbSending : State := putF { State.reset with err := { State.reset.err with copies := [(0, some bbCopy0)] } } BB BB_XFER_STAT_RESULT 0xF

/-- Ready, in the life-cycle state that permits self-tests, every block of die 8 idle. -/
def stReady : State := { joinedUp .ready with sec := { State.reset.sec with lc := 1 } }
/-- A debug access in progress. -/
def accAt (x : Nat × Bool × Bool × Word) : State := { State.reset with dbg := { State.reset.dbg with acc := some x } }
/-- Engine 287 of die 7 held by debug. -/
def leHeld : State := { setEng (joinedUp .ready) 7 287 { mode := .halt } with dbg := { State.reset.dbg with leHeld := [512 * 7 + 287] } }
/-- Debug access not lost. -/
def dbgHere : State := { State.reset with dbg := { State.reset.dbg with dbgLost := false } }
/-- The same access while its target is cut off. -/
def targetCut : State :=
  { accAt (0x31000000000, true, false, 7) with noc := { causeT := [(2056, [1])] } }

/-! ### Ill-formed commands: for each check, a command it accepts and commands it refuses -/

/-- `good` is well-formed and no command of `bad` is. -/
def refuses (good : Instr) (bad : List Instr) : Bool := good.wf && bad.all fun c => !c.wf

theorem test_refuses_operands_1 : (
    refuses (.registerWrite 0 false 0 0 0 0) [.registerWrite 11 false 0 0 0 0, .registerWrite 15 false 0 0 0 0, .registerWrite 74 false 0 0 0 0, .registerWrite 127 false 0 0 0 0, .registerWrite 512 false 0 0 0 0] &&
    refuses (.registerWrite 0 false 0 0 0 0) [.registerWrite 0 false 15 0 0 0] &&
    refuses (.registerWrite 0 false 0 0 0 0) [.registerWrite 0 false 0 65536 0 0] &&
    refuses (.registerWrite 0 false 0 0 0 0) [.registerWrite 0 false 0 0 4096 0] &&
    refuses (.blockEnable 0 0 0 false 0) [.blockEnable 0 0 0 false 16] &&
    refuses (.pllLocked 0 0) [.pllLocked 0 8] &&
    refuses (.fpllRefDeviation 0 0) [.fpllRefDeviation 8 0] &&
    refuses (.fpllRefDeviation 0 0) [.fpllRefDeviation 0 4] &&
    refuses (.cdCfgWrite 0 0 0) [.cdCfgWrite 0 64 0] &&
    refuses (.gateClosed 0) [.gateClosed 640] &&
    refuses (.gateReopen 0) [.gateReopen 64] &&
    refuses (.mgmtPathTimeout 0) [.mgmtPathTimeout 18] &&
    refuses (.frameArrival 0 { }) [.frameArrival 17 { }] &&
    refuses (.counterWrite 0 0 0) [.counterWrite 0 16 0] &&
    refuses (.xferDone 0 0 []) [.xferDone 327681 0 []] &&
    refuses (.contentionDetected 0 0 0) [.contentionDetected 0 0 2048] &&
    refuses (.networkEnableWrite 0 0 0 0) [.networkEnableWrite 0 0 3 0] &&
    refuses (.xgTrained 0 0 0) [.xgTrained 0 2 0] &&
    refuses (.xgTrained 0 0 0) [.xgTrained 0 0 64] &&
    refuses (.capTrig 0) [.capTrig 8] &&
    refuses (.captureEdge 0 0) [.captureEdge 0 96] &&
    refuses (.readbackDone 0 0 false false) [.readbackDone 0 524288 false false] &&
    refuses (.evoToggle 0 0) [.evoToggle 0 16] &&
    refuses (.bankAccess 0 0 false false 0 0 0 false false) [.bankAccess 0 2048 false false 0 0 0 false false] &&
    refuses (.dmFabricRequest 0 0 false 0 0 0) [.dmFabricRequest 0 32 false 0 0 0] &&
    refuses (.dmNocAccess 0 0 false 0 0 []) [.dmNocAccess 0 0 false 1048576 0 []] &&
    refuses (.fence 0 0 0) [.fence 0 0 64] &&
    refuses (.setGateRequest 0 0) [.setGateRequest 0 4]) = true := by decide +kernel

theorem test_refuses_operands_2 : (
    refuses (.leMdataWrite 0 0 0 0) [.leMdataWrite 0 8 0 0, .leMdataWrite 0 0 288 0] &&
    refuses (.leStart 0 0 0 0) [.leStart 0 0 0 8] &&
    refuses (.streamBeatIn 0 0 0 0 false) [.streamBeatIn 0 0 2 0 false] &&
    refuses (.nocDescriptorDone 0 0 0) [.nocDescriptorDone 0 0 4] &&
    refuses (.directOp 0 0 0 0 0 false) [.directOp 0 0 0 0 8 false] &&
    refuses (.linkAudit 0 0 0 0 0 0) [.linkAudit 3840 0 0 0 0 0] &&
    refuses (.linkAudit 0 0 0 0 0 0) [.linkAudit 0 8 0 0 0 0] &&
    refuses (.seamData 0 0 0 0 0 0 false 0) [.seamData 0 0 0 0 0 0 false 4] &&
    refuses (.urgencyAge 0) [.urgencyAge 3840] &&
    refuses (.linkAudit 0 0 0 0 0 0) [.linkAudit 0 0 5 0 0 0] &&
    refuses (.pairAudit 0 0) [.pairAudit 0 3840] &&
    refuses (.quenchWrite 0 0 0) [.quenchWrite 0 32 0] &&
    refuses (.responseTimeout 0 0) [.responseTimeout 0 4096] &&
    refuses (.rsBeat 0 0) [.rsBeat 0 48] &&
    refuses (.seamData 0 0 0 0 0 0 false 0) [.seamData 0 18 0 0 0 0 false 0] &&
    refuses (.seamData 0 0 0 0 0 0 false 0) [.seamData 0 0 6 0 0 0 false 0] &&
    refuses (.seamData 0 0 0 0 0 0 false 0) [.seamData 0 0 0 5 0 0 false 0] &&
    refuses (.seamScred 0 0 [] false) [.seamScred 0 0 (List.replicate 31 0) false] &&
    refuses (.seamTrain 0 0 0 0 false false 0 false) [.seamTrain 0 0 15 0 false false 0 false] &&
    refuses (.seamTrain 0 0 0 0 false false 0 false) [.seamTrain 0 0 0 18 false false 0 false] &&
    refuses (.counterFrameDue 0 0 2) [.counterFrameDue 0 0 1] &&
    refuses (.counterFrameDue 0 0 2) [.counterFrameDue 0 0 5] &&
    refuses (.dieIsolateWrite 0 0) [.dieIsolateWrite 0 8] &&
    refuses (.synthLocked 0) [.synthLocked 128] &&
    refuses (.bundleTrainTimeout 9 0) [.bundleTrainTimeout 8 0, .bundleTrainTimeout 13 0] &&
    refuses (.seedSave 0 0) [.seedSave 0 128] &&
    refuses (.rxFrame 9 0 [] false { } false) [.rxFrame 9 16 [] false { } false] &&
    refuses (.txFrameStart 9 0 0) [.txFrameStart 9 0 8]) = true := by decide +kernel

theorem test_refuses_operands_3 : (
    refuses (.meterSweep 9 0) [.meterSweep 9 65536] &&
    refuses (.tblRead 0 9 0 0) [.tblRead 0 9 10 0] &&
    refuses (.tblRead 0 9 0 0) [.tblRead 0 9 0 262144] &&
    refuses (.ddrEnable 0 0) [.ddrEnable 0 4] &&
    refuses (.spdReadDone 0 0 0 0) [.spdReadDone 4 0 0 0] &&
    refuses (.ilvWrite 0 0) [.ilvWrite 0 4] &&
    refuses (.ddrRead 0 0 0 [] false false) [.ddrRead 0 2147483648 0 [] false false] &&
    refuses (.ddrWrite 0 0 0 0 [] false [] false false) [.ddrWrite 0 0 64 0 [] false [] false false] &&
    refuses (.rangeEnable 0 0 0) [.rangeEnable 0 0 16] &&
    refuses (.mcRelease 0 0 0) [.mcRelease 0 0 1024] &&
    refuses (.hartEnWrite 0 0) [.hartEnWrite 0 16] &&
    refuses (.dmaGo 0 0) [.dmaGo 0 8] &&
    refuses (.dmaDone 0 0 0) [.dmaDone 8 0 0] &&
    refuses (.send 0 0 false) [.send 0 96 false] &&
    refuses (.mbTimeout 0) [.mbTimeout 96] &&
    refuses (.msixUnmask 0 0 0) [.msixUnmask 2 0 0] &&
    refuses (.msixUnmask 0 0 0) [.msixUnmask 0 2 0] &&
    refuses (.msixUnmask 0 0 0) [.msixUnmask 0 0 16] &&
    refuses (.newtRequestTake 48) [.newtRequestTake 47] &&
    refuses (.newtRequestTake 48) [.newtRequestTake 64] &&
    refuses (.diePowerReport 0) [.diePowerReport 8] &&
    refuses (.lockRead 0 0 false) [.lockRead 0 256 false] &&
    refuses (.eventArrival 0 none) [.eventArrival 640 none] &&
    refuses (.evRouteWrite 0 0 0) [.evRouteWrite 0 2 0] &&
    refuses (.evClaim 0 0 false) [.evClaim 0 4 false] &&
    refuses (.evDone 0 0 0) [.evDone 0 0 640] &&
    refuses (.eviToggle 0 0) [.eviToggle 0 64] &&
    refuses (.perstAssert 0) [.perstAssert 2]) = true := by decide +kernel

theorem test_refuses_operands_4 : (
    refuses (.dropStart 0 0) [.dropStart 0 24] &&
    refuses (.revokeTimeout 0) [.revokeTimeout 4096] &&
    refuses (.dsSubmit 0 0) [.dsSubmit 0 4096] &&
    refuses (.refusalPauseEnd 0) [.refusalPauseEnd 8] &&
    refuses (.dsDone 0 0 0) [.dsDone 0 0 4] &&
    refuses (.dsPqPop 0 0 false) [.dsPqPop 0 8 false] &&
    refuses (.attest 40 false) [.attest 39 false, .attest 48 false, .attest 126 false] &&
    refuses (.errorReport 0 0 0 0 0) [.errorReport 4 0 0 0 0] &&
    refuses (.bbCopy 1 false) [.bbCopy 0 false] &&
    refuses (.bbCopy 1 false) [.bbCopy 6 false] &&
    refuses (.selftestDone 0 none) [.selftestDone 15 none] &&
    refuses (.bypass 0) [.bypass 256] &&
    refuses (.haltReq 0 0) [.haltReq 0 16] &&
    refuses (.coreHalt 0 0 0 []) [.coreHalt 4 0 0 []] &&
    refuses (.brownOut 0) [.brownOut 9] &&
    refuses (.ioSafeWrite 0 0 0 0 0) [.ioSafeWrite 0 0 4 0 0] &&
    refuses (.ioSafeWrite 0 0 0 0 0) [.ioSafeWrite 0 0 0 3 0] &&
    refuses (.srcSelChange 0) [.srcSelChange 4]) = true := by decide +kernel

theorem test_refuses_packets : (
    refuses (.rd { cmd := 15, src := 511, size := 256, tag := 4095 }) [.rd { cmd := 16 }, .rd { cmd := 0, src := 11 },
      .rd { cmd := 0, size := 257 }, .rd { cmd := 0, tag := 4096 }] &&
    refuses (.accessInject { ini := 73, kind := 3, addr := 0, size := 4 })
      [.accessInject { ini := 74, kind := 0, addr := 0, size := 4 }, .accessInject { ini := 0, kind := 4, addr := 0, size := 4 }])
    = true := by decide +kernel

theorem test_refuses_slots : (
    refuses (.cNop 7 287) [.cNop 8 0, .cNop 0 288] && refuses (.br 0 0 2047) [.br 0 0 2048] &&
    refuses (.loopd 0 0 15 127) [.loopd 0 0 16 1, .loopd 0 0 1 128] && refuses (.loopi 0 0 127 65535) [.loopi 0 0 128 1, .loopi 0 0 1 65536] &&
    refuses (.movto 0 0 0x20 15) [.movto 0 0 0x20 16, .movto 0 0 0x51 0, .movto 0 0 128 0] &&
    refuses (.movfrom 0 0 0x58 15) [.movfrom 0 0 0x58 16, .movfrom 0 0 0x53 0] &&
    refuses (.setr 0 0 0x20 65535) [.setr 0 0 0x20 65536, .setr 0 0 0x52 0] && refuses (.ngo 0 0 3) [.ngo 0 0 4] &&
    refuses (.nwait 0 0 15) [.nwait 0 0 16, .nwait 0 0 0] && refuses (.clrf 0 0 255) [.clrf 0 0 256] &&
    refuses (.pop 0 0 true 1 3) [.pop 0 0 true 2 0, .pop 0 0 false 0 4] && refuses (.push 0 0 true 1 3 true) [.push 0 0 false 2 0 true, .push 0 0 true 0 4 false] &&
    refuses (.ld 0 0 true 7 3 12 true) [.ld 0 0 true 8 0 0 false, .ld 0 0 true 0 4 0 false, .ld 0 0 true 0 0 16 false, .ld 0 0 true 0 0 13 true] &&
    refuses (.pmod 0 0 true 7 2) [.pmod 0 0 true 8 1, .pmod 0 0 true 0 0, .pmod 0 0 true 0 3] &&
    refuses (.mul 0 0 { h := 1, ga := 3, bs := 3, lm := 15 }) [.mul 0 0 { h := 2 }, .mul 0 0 { ga := 4 }, .mul 0 0 { bs := 4 },
      .mul 0 0 { lm := 16 }, .mul 0 0 { aux := 1 }] &&
    refuses (.clr 0 0 { h := 1, lm := 15 }) [.clr 0 0 { ga := 1 }, .clr 0 0 { sb := true }] &&
    refuses (.smax 0 0 { bs := 8, aux := 2 }) [.smax 0 0 { bs := 9 }, .smax 0 0 { aux := 3 }, .smax 0 0 { fs := true }] &&
    refuses (.rmin 0 0 { lm := 15 }) [.rmin 0 0 { lm := 7 }]) = true := by decide +kernel

/-! ### Words of loop-engine instructions, written out from the worked programs of 11_loop_programs.md -/

/-- The M fields of the filter program: lanes 0 to 3, signed × signed. -/
def fSS (h ga bs : Nat) (bb : Bool) : MFields := { h := h, ga := ga, bb := bb, bs := bs, sa := true, sb := true, lm := 15 }

theorem test_word_pop : decWord 0x0000100000000000 = some (xI (.pop 0 0)) := by decide
theorem test_word_mac : decWord 0x00000000001016F0 = some (mI 2 (fSS 0 0 2 false)) := by decide
theorem test_word_mul : decWord 0x00000000000C0EF0 = some (mI 1 (fSS 1 0 1 false)) := by decide
theorem test_word_aadd : decWord 0x00000000004000F0 = some (mI 8 { lm := 15 }) := by decide
theorem test_word_amin : decWord 0x000000000060E2F0 = some (mI 12 { bb := true, bs := 12, sb := true, lm := 15 }) := by decide
theorem test_word_ext : decWord 0x00000000007004F0 = some (mI 14 { sa := true, lm := 15 }) := by decide
theorem test_word_asub : decWord 0x00000000004800F0 = some (mI 9 { lm := 15 }) := by decide
theorem test_word_end_push : decWord 0x0800210000000000 =
    some { c := .end_, x := .push 0 0 true, y := .nop, m := { mop := 0, f := { } } } := by decide

/-! ### Worked arithmetic of 10_loop_engines.md and 11_loop_programs.md -/

/-- LE_MODE of the controller example: FRAC 1, OSH 24, CONV. -/
def mdPi : LeMd := { frac := true, osh := 24, rnd := 2 }

theorem test_pi_integral : laneAcc mdPi 2 true true 0x600000000000 0 0x200000 0x080000 = (0x620000000000, false) := by decide +kernel
theorem test_pi_proportional : laneAcc mdPi 1 true true 0 0 0x200000 0x400000 = (0x100000000000, false) := by decide +kernel
theorem test_pi_clamp : laneAcc mdPi 12 false true 0x720000000000 0 0 0x700000 = (0x700000000000, false) := by decide +kernel
theorem test_pi_extract : leExtract mdPi true 0x700000000000 = (0x700000, false) := by decide +kernel
theorem test_round_examples : [0, 1, 2].map (fun r => leRound r 24 0x2800000) = [2, 3, 2] ∧
    [0, 1, 2].map (fun r => leRound r 24 (-0x2800000)) = [-3, -2, -2] := by decide
theorem test_circular_example : leMod 0x0200 0x0200 5 (-1) = 0x0204 ∧ leMod 0x0201 0x0200 5 (-7) = 0x0204 := by decide

/-! ### Small steps -/

theorem test_frac_limit : leProduct 24 true true true (-0x800000) (-0x800000) = (2 ^ 47 - 1, true) := by decide
theorem test_seam_sh5 : pageOf 8 0x200A = some .sm ∧ pageOf 5 0x200A = some .sm ∧ pageOf 4 0x200A = none := by decide
theorem test_ecc_zero : eccWord 0 = 0 ∧ eccRead (1 <<< 71) = (0, 1) ∧ (eccRead 3).2 = 2 := by decide +kernel
theorem test_step_lock : (match step { State.reset with pending := [.lockRead 2 9 false] } with
    | .next t => lockOf t 9
    | _ => none) = lockOf (setLock State.reset 9 (some 2)) 9 := by decide +kernel
theorem test_reset_stores : storesWf State.reset = true ∧ queueWf State.reset = true := by decide +kernel

/-! ### Pins: the worked example of 23_pins.md R586 -/

/-- The device with IO_SAFE0 of IOB12, bank 0 of F4, latched at 0x0000_6800. -/
def converterPins : State := { State.reset with pin := { latch := [(48, 0x6800)] } }

theorem test_safe_pads : [5, 6, 7, 8].map (safePad converterPins 4 0) = [.drive false 8 false, .drive false 8 false, .high 2, .high 1] := by decide
theorem test_outputs_at_reset : [.ready, .failN, .alarmN, .shdnDone].map (ctrlOut State.reset) = [false, true, true, false] := by decide +kernel
theorem test_outputs_unpowered : ctrlOut { State.reset with pin := { railsOut := [7] } } .failN = false := by decide +kernel

/-! ### States that meet the hypotheses of the statements -/
theorem meets_StepTakesFront_1 : ∃ (s : State) (c : Instr) (rest : List Instr), s.pending = c :: rest :=
  ⟨{ State.reset with pending := [.configCleared, .configCleared] }, .configCleared, [.configCleared], rfl⟩
theorem meets_IdleStepCountsTime_1 : ∃ s : State, s.pending = [] ∧ flag s TB TB_CTRL_CMP_EN = false ∧ s.hub.tbOn = true ∧
    s.pow.torpor = false ∧ getF s TB TB_RATE_RATE = 0 ∧ s.hub.now + 1 < 2 ^ 64 ∧ s.hub.frac < 2 ^ 32 ∧
    flag s CU CU_OSC_STAT_RTC_OK = true ∧ s.pow.rtc + 1 < 2 ^ 48 :=
  ⟨putFlag { State.reset with hub := { tbOn := true } } CU CU_OSC_STAT_RTC_OK true, by decide +kernel⟩
theorem meets_IdleStepCountsTime_2 : State.reset.hub.tbOn = false ∧ flag State.reset CU CU_OSC_STAT_RTC_OK = false := by decide +kernel
theorem meets_ResetRegisterValues_1 : ∃ die blk p, die < 15 ∧ pageOf die blk = some p := ⟨8, 0xC020, .lk, by decide, rfl⟩
theorem meets_FaultRegistersLatch_1 : getF State.reset LK PG_FAULT_VALID = 0 ∧ (0x0100 : Nat) < 65536 := by decide +kernel
theorem meets_FaultRegistersLatch_2 : getF (pageFault State.reset LK 0x0100) LK PG_FAULT_VALID = 1 := by decide +kernel
theorem meets_FaultRegistersLatch_3 : pageOf 8 0xC020 = some .lk ∧ Page.lk ≠ .fs ∧ reaches State.reset 0 8 0xC020 0x100 true = true ∧
    writeFault (reach State.reset 8 0xC020 0x100 true) 0 false .lk 8 0xC020 0x100 0 = some 0x0100 := by decide +kernel
theorem meets_PopReadsEmpty_1 : State.reset.pow.cq = [] ∧ tabOr [] State.reset.pow.mq 3 = [] ∧ tabOr [] State.reset.pow.pq 7 = [] ∧
    tabOr [] (sliceOf State.reset 9).txts 15 = [] ∧ claimSource State.reset 3 = none ∧
    mbAt 8 0xC017 (MB_TAKE_VALID.nth 7).off = some 63 ∧ (mboxOf State.reset 63).full = false := by decide +kernel
theorem meets_PopReadsEmpty_2 : pageOf 8 0xC050 = some .ds ∧ reaches State.reset 0 8 0xC050 0x060 false = true ∧
    readFault (reach State.reset 8 0xC050 0x060 false) 0 false false .ds 8 0xC050 0x060 = none ∧
    specialRead (reach State.reset 8 0xC050 0x060 false) 0 false .ds 8 0xC050 0x060 =
      some (reach State.reset 8 0xC050 0x060 false, 0) := by decide +kernel
theorem meets_SeamEndpointPages_1 : (10 : Nat) < 18 ∧ pageOf 5 0x200A = some .sm := by decide
theorem meets_FabricPortSlots_1 : (7 : Nat) < 8 ∧ (47 : Nat) < 48 ∧ (48 : Nat) < 64 ∧ (0x7FFFFFFF : Nat) < 0x80000000 := by decide
theorem meets_LeInstructionFrame_1 : (xI (.st 7 3 15 false)).wf = true ∧ 5 ∉ xWrites (.ld 0 1 8 true) ∧ (∀ w ∈ xStored { } (.st 7 3 15 false), w < 8192) := by decide +kernel
theorem meets_LeAccumulation_1 : ({ } : LeMd).packed = false ∧ ({ } : LeMd).frac = false ∧
    (List.replicate 256 ((0x800000 : BitVec 24), (0x800000 : BitVec 24))).length ≤ (if true || false then 256 else 128) := by decide
theorem meets_LeAccumulation_2 : accOp 2 (-(2 ^ 55)) 0 (-1) < -(2 ^ 55) ∧ (2 ^ 55 - 1 : Int) < accOp 2 (2 ^ 55 - 1) 0 1 := by decide
theorem meets_LeExtraction_1 : leRound 0 24 (-0x2800000) = -3 ∧ leRound 1 24 (-0x2800000) = -2 ∧ leRound 2 24 0x2800000 = 2 ∧ (0 : Nat) < 24 := by decide
theorem meets_LeModuloAddress_1 : (5 : BitVec 13) ≠ 0 ∧ (0x0200 : BitVec 16).toNat + (5 : BitVec 13).toNat ≤ 65536 ∧
    leMod 0x0200 0x0200 5 (-1) = 0x0204 ∧ leMod 0x0201 0x0200 5 (-7) = 0x0204 := by decide
theorem meets_MemoryBytes_1 : memWf (memWrite [] 5 [1, 0, 3]) = true ∧ memWrite [] 5 [1, 0, 3] = [(5, 1), (7, 3)] := by decide
theorem meets_MailboxLedger_1 : (mboxOf State.reset 95).seq < 65536 ∧ (mboxOf State.reset 95).full = false ∧
    (mboxOf State.reset 95).seq = ((mboxOf State.reset 95).taken + (mboxOf State.reset 95).wdraw + ofBool false) % 65536 ∧
    (mboxOf (mbSend State.reset 95 8) 95).full = true ∧ (mboxOf (mbSend State.reset 95 8) 95).seq = 1 := by decide +kernel
theorem meets_LockWords_1 : lockOf State.reset 255 = none ∧ lockOf (setLock State.reset 255 (some 3)) 255 = some 3 ∧ (3 : Nat) ≠ 2 := by decide +kernel
theorem meets_RecoveryDropsDuplicates_1 : (recover (tblPut { } 0 65535 11 0x00200000) 65535 65535).2 = false := by decide +kernel
theorem meets_RecoveryDropsDuplicates_2 : (recover (tblPut { } 0 7 11 0x001F0005) 7 3).2 = false ∧
    (recover (tblPut { } 0 7 11 0x001F0005) 7 9).2 = false ∧ (recover (tblPut { } 0 7 11 0x00400005) 7 9).2 = false := by decide +kernel
theorem meets_MeterBuckets_1 : (65535 : Nat) < 65536 ∧ (2 ^ 32 - 1 : Nat) < 2 ^ 32 ∧
    (meterColour (meterFill (tblPut (tblPut { } 0 1 6 100) 0 1 4 1000000) 1 1000000) 1 64).2 = 0 := by decide +kernel
theorem meets_CoreAccesses_1 : flag State.reset CL (CL_BERR_VALID.nth 3) = false ∧
    flag (putFlag State.reset CL (CL_BERR_VALID.nth 3) true) CL (CL_BERR_VALID.nth 3) = true := by decide +kernel
theorem meets_CoreAccesses_2 : mayAccess (setHart State.reset 3 { running := true })
      { ini := 3, kind := 0, addr := 0x30000000000, size := 4, use := .fetch } = true ∧
    useForbidden { ini := 3, kind := 0, addr := 0x30000000000, size := 4, use := .fetch } = true ∧
    useForbidden { ini := 3, kind := 1, addr := 0x32000000000, size := 8, use := .sc } = true := by decide +kernel
theorem meets_CoreAccesses_3 : ∃ s : State, lineAt s 1 = some { bytes := [] } ∧
    (∀ l ∈ accLines { ini := 0, kind := 1, addr := 120, size := 8 }, (lineAt s l).isSome = true) ∧ keepArea 120 = false ∧
    (hartOf s 0).resv ≠ some 1 := ⟨setLine State.reset 1 { bytes := [] }, by decide +kernel⟩
theorem meets_LeWordsDecodeBack_1 : ({ c := .setr 0x2F 0xFFFF, x := .nop, y := .nop, m := { mop := 3, f := { h := 1, ga := 3, bb := true, bs := 15, sa := true, sb := true, fs := true, lm := 15 } } } : LeInstr).wf = true := by decide
theorem meets_LeWordsHaveOneReading_1 : ∃ i, decWord 0x0000100000000000 = some i ∧ (0x0000100000000000 : Nat) < 2 ^ 64 := ⟨xI (.pop 0 0), by decide⟩
theorem meets_SymbolCodeHolds_1 : ([15, 0, 1, 2, 3, 4, 5, 15] : List Nat).length = 8 ∧ (∀ x ∈ ([15, 0, 1, 2, 3, 4, 5, 15] : List Nat), x < 16) ∧ (9 < 10 ∧ 15 < 16 ∧ 0 < 15) := by decide +kernel

theorem meets_HeaderWritesComplete_1 : ∃ (s : State) (p : Page) (ini die blk off : Nat) (bar0 : Bool) (w : Word), (pageOf die blk = some p) ∧ (writeOk s ini bar0 die blk off w = true) :=
  ⟨State.reset, .tb, 4, 8, 0xC060, 0x058, false, 5, by decide +kernel, by decide +kernel⟩

theorem meets_HeaderWritesComplete_2 : ∃ (s : State) (p : Page) (ini die blk frz : Nat) (en : Bool) (w : Word), (pageOf die blk = some p) ∧ (w = BitVec.ofNat 32 (frz % 8 * 2 + ofBool en)) ∧ (writeOk s ini false die blk 0x008 w = true) :=
  ⟨State.reset, .bb, 4, 8, 7, 0, true, 1, by decide +kernel, by decide +kernel, by decide +kernel⟩

theorem meets_HeaderWritesComplete_3 : ∃ (s : State) (p : Page) (ini die blk : Nat) (w : Word), (pageOf die blk = some p) ∧ (w = wPut (getReg s (pg die blk + 0x008)) 4 1 1) ∧ (writeOk s ini false die blk 0x008 w = true) :=
  ⟨State.reset, .le, 4, 0, 0x6000, 0x10, by decide +kernel, by decide +kernel, by decide +kernel⟩

theorem meets_HeaderWritesComplete_4 : ∃ (s : State) (p : Page) (ini die blk : Nat) (disc : Bool) (w : Word), (pageOf die blk = some p) ∧ (w = (if disc then 3 else 1)) ∧ (writeOk s ini false die blk 0x030 w = true) :=
  ⟨State.reset, .lq, 4, 9, 0x8000, true, 3, by decide +kernel, by decide +kernel, by decide +kernel⟩

theorem meets_HeaderWritesComplete_5 : ∃ (s : State) (p : Page) (ini die blk : Nat), (pageOf die blk = some p) ∧ (writeOk s ini false die blk 0x030 2 = true) :=
  ⟨State.reset, .lq, 4, 9, 0x8000, by decide +kernel, by decide +kernel⟩

theorem meets_HeaderWritesComplete_6 : ∃ (s : State) (p : Page) (ini die blk : Nat) (w : Word), (pageOf die blk = some p) ∧ (writeOk s ini false die blk 0x01C w = true) :=
  ⟨State.reset, .bb, 4, 8, 7, 1, by decide +kernel, by decide +kernel⟩

theorem meets_HeaderWritesComplete_7 : ∃ (s : State) (p : Page) (ini die blk : Nat) (w : Word), (pageOf die blk = some p) ∧ (writeOk s ini false die blk 0x028 w = true) :=
  ⟨State.reset, .pd, 4, 8, 0x4003, 0x10, by decide +kernel, by decide +kernel⟩

theorem meets_HeaderWritesComplete_8 : ∃ (s : State) (p : Page) (ini die blk : Nat) (w : Word), (pageOf die blk = some p) ∧ (writeOk s ini false die blk 0x02C w = true) :=
  ⟨State.reset, .bb, 4, 8, 7, 1, by decide +kernel, by decide +kernel⟩

theorem meets_HeaderWritesComplete_9 : ∃ (s : State) (p : Page) (ini die blk : Nat) (w : Word), (pageOf die blk = some p) ∧ ((pageInfo p die blk).retain ≠ 0) ∧ (writeOk s ini false die blk 0x034 w = true) :=
  ⟨State.reset, .rt, 4, 8, 3, 1, by decide +kernel, by decide +kernel, by decide +kernel⟩

theorem meets_PageAccessComplete_1 : ∃ (s : State) (p : Page) (ini die blk off : Nat) (bar0 peek : Bool), (pageOf die blk = some p) ∧ (reaches s ini die blk off false = true) :=
  ⟨State.reset, .bb, 4, 8, 7, 0x040, false, false, by decide +kernel, by decide +kernel⟩

theorem meets_PageAccessComplete_2 : ∃ (s : State) (ini die blk off : Nat), (iniAssigned ini = true) ∧ (busUp s = true) ∧ (off < 4096) ∧ (die < 15) ∧ ((pageOf die blk).isSome = true) ∧ (regCut s die = false) ∧ (quenched s ini = false) ∧ (regNoReach s ini die blk off = false) :=
  ⟨State.reset, 4, 8, 7, 0x042, by decide +kernel, by decide +kernel, by decide +kernel, by decide +kernel, by decide +kernel, by decide +kernel, by decide +kernel, by decide +kernel⟩

theorem meets_PageAccessComplete_3 : ∃ (s : State) (ini blk off : Nat) (w : Word), (iniAssigned ini = true) ∧ (busUp s = true) ∧ (quenched s ini = false) ∧ (regNoReach s ini 15 blk off = false) :=
  ⟨State.reset, 4, 0x5000, 0x040, 0, by decide +kernel, by decide +kernel, by decide +kernel, by decide +kernel⟩

theorem meets_PageAccessComplete_4 : ∃ (s : State) (die blk : Nat), (inSoftReset s (pg die blk) = true) :=
  ⟨{ State.reset with pg := { srst := [pg 8 7], regs := [(pg 8 7 + 0x040, 1)] } }, 8, 7, by decide +kernel⟩

theorem meets_PageAccessComplete_5 : ∃ (s : State) (p : Page) (die blk : Nat), (pageOf die blk = some p) ∧ (p ≠ .le ∧ p ≠ .lq ∧ p ≠ .fe ∧ p ≠ .gv) ∧ (busUp s = true) ∧ (isolated s die = false) :=
  ⟨State.reset, .cu, 8, 0x3000, by decide +kernel, by decide +kernel, by decide +kernel, by decide +kernel⟩

theorem meets_OscillatorEventsComplete_1 : ∃ (s : State) (b : Bool) (rc : Nat), (xoPhase s b = .counting) ∧ (26214 ≤ rc ∧ rc ≤ 39322) ∧ (clkUp s = true) :=
  ⟨State.reset, true, 32768, by decide +kernel, by decide +kernel, by decide +kernel⟩

theorem meets_OscillatorEventsComplete_2 : ∃ (s : State) (b : Bool) (rc : Nat), (xoPhase s b = .counting) ∧ (rc < 26214 ∨ 39322 < rc) ∧ (clkUp s = true) :=
  ⟨State.reset, false, 26213, by decide +kernel, by decide +kernel, by decide +kernel⟩

theorem meets_OscillatorEventsComplete_3 : ∃ (s : State) (b : Bool), (xoPhase s b = .counting) ∧ (clkUp s = true) :=
  ⟨State.reset, false, by decide +kernel, by decide +kernel⟩

theorem meets_OscillatorEventsComplete_4 : ∃ (s : State) (rc : Nat), (s.clk.rtc = .counting) ∧ (20000000 ≤ rc ∧ rc ≤ 30000000) :=
  ⟨State.reset, 25000000, by decide +kernel, by decide +kernel⟩

theorem meets_OscillatorEventsComplete_5 : ∃ (s : State) (rc : Nat), (s.clk.rtc = .counting) ∧ (rc < 20000000 ∨ 30000000 < rc) :=
  ⟨State.reset, 30000001, by decide +kernel, by decide +kernel⟩

theorem meets_OscillatorEventsComplete_6 : ∃ (s : State), (s.clk.rtc = .counting) :=
  ⟨State.reset, by decide +kernel⟩

theorem meets_OscillatorEventsComplete_7 : ∃ (s : State) (b : Bool), (xoPhase s b = .running) ∧ (clkUp s = true) :=
  ⟨setXoPhase State.reset true .running, true, by decide +kernel, by decide +kernel⟩

theorem meets_OscillatorEventsComplete_8 : ∃ (s : State) (b : Bool) (n : Nat), (xoPhase s b = .running) ∧ (n < 640 ∨ 1600 < n) ∧ (clkUp s = true) :=
  ⟨setXoPhase State.reset true .running, true, 1601, by decide +kernel, by decide +kernel, by decide +kernel⟩

theorem meets_OscillatorEventsComplete_9 : ∃ (s : State) (b : Bool) (n : Nat), (xoPhase s b = .running) ∧ (640 ≤ n ∧ n ≤ 1600) ∧ (clkUp s = true) :=
  ⟨setXoPhase State.reset true .running, true, 1600, by decide +kernel, by decide +kernel, by decide +kernel⟩

theorem meets_OscillatorEventsComplete_10 : ∃ (s : State), (s.clk.rtc = .running) :=
  ⟨{ State.reset with clk := { rtc := .running } }, by decide +kernel⟩

theorem meets_OscillatorEventsComplete_11 : ∃ (s : State) (n : Nat), (s.clk.rtc = .running) ∧ (n < 1100 ∨ 1760 < n) :=
  ⟨{ State.reset with clk := { rtc := .running } }, 1099, by decide +kernel, by decide +kernel⟩

theorem meets_OscillatorEventsComplete_12 : ∃ (s : State), (s.clk.xoA = .stopped) ∧ (clkUp s = true) :=
  ⟨{ State.reset with clk := { rtc := .stopped, xoA := .stopped } }, by decide +kernel, by decide +kernel⟩

theorem meets_OscillatorEventsComplete_13 : ∃ (s : State), (s.clk.xoB = .stopped) ∧ (clkUp s = true) :=
  ⟨{ State.reset with clk := { xoB := .stopped } }, by decide +kernel, by decide +kernel⟩

theorem meets_OscillatorEventsComplete_14 : ∃ (s : State), (s.clk.rtc = .stopped) :=
  ⟨{ State.reset with clk := { rtc := .stopped } }, by decide +kernel⟩

theorem meets_ClockDomainEventsComplete_1 : ∃ (s : State) (die j : Nat), (isPll die j = true) ∧ (enabled s (pllPage die j) = true) ∧ (flag s (pllPage die j) PLL_STAT_LOCK = false) ∧ (die ≠ 8) ∧ (clkUp s = true) ∧ (pllRefOn s die j = true) :=
  ⟨putFlag (putFlag State.reset CU CU_SPINE_STAT_SPINE_A_ON true) (pllPage 3 1) PG_CTRL_ENABLE true, 3, 1, by decide +kernel, by decide +kernel, by decide +kernel, by decide +kernel, by decide +kernel, by decide +kernel⟩

theorem meets_ClockDomainEventsComplete_2 : ∃ (s : State) (j : Nat), (j < 8) ∧ (enabled s (pllPage 8 j) = true) ∧ (flag s (pllPage 8 j) PLL_STAT_LOCK = false) ∧ (clkUp s = true) ∧ (pllRefOn s 8 j = true) :=
  ⟨putFlag { State.reset with clk := { xoChosen := true } } (pllPage 8 7) PG_CTRL_ENABLE true, 7, by decide +kernel, by decide +kernel, by decide +kernel, by decide +kernel, by decide +kernel⟩

theorem meets_ClockDomainEventsComplete_3 : ∃ (s : State) (die j : Nat), (isPll die j = true) ∧ (enabled s (pllPage die j) = true) ∧ (flag s (pllPage die j) PLL_STAT_COAST = false) ∧ (clkUp s = true) :=
  ⟨putFlag State.reset (pllPage 8 0) PG_CTRL_ENABLE true, 8, 0, by decide +kernel, by decide +kernel, by decide +kernel, by decide +kernel⟩

theorem meets_ClockDomainEventsComplete_4 : ∃ (s : State) (die j : Nat), (isFabric die = true) ∧ (j < 4) ∧ (enabled s (pllPage die j) = true) ∧ (flag s (pllPage die j) PLL_STAT_COAST = false) ∧ (clkUp s = true) :=
  ⟨putFlag State.reset (pllPage 0 3) PG_CTRL_ENABLE true, 0, 3, by decide +kernel, by decide +kernel, by decide +kernel, by decide +kernel, by decide +kernel⟩

theorem meets_ClockDomainEventsComplete_5 : ∃ (s : State) (b : Bool), (s.clk.xoSwitch = some b) ∧ (clkUp s = true) :=
  ⟨{ State.reset with clk := { xoSwitch := some true } }, true, by decide +kernel, by decide +kernel⟩

theorem meets_ClockDomainEventsComplete_6 : ∃ (s : State) (k : Nat), (flag s (cdPage k) CD_STAT_SWITCHING = true) ∧ (clkUp s = true) :=
  ⟨putFlag State.reset (cdPage 63) CD_STAT_SWITCHING true, 63, by decide +kernel, by decide +kernel⟩

theorem meets_ClockDomainEventsComplete_7 : ∃ (s : State) (b : Bool), (s.clk.xoSwitch = some b) ∧ (clkUp s = true) :=
  ⟨{ State.reset with clk := { xoSwitch := some false } }, false, by decide +kernel, by decide +kernel⟩

theorem meets_ClockDomainEventsComplete_8 : ∃ (s : State) (k : Nat), (flag s (cdPage k) CD_STAT_SWITCHING = true) ∧ (clkUp s = true) :=
  ⟨putFlag State.reset (cdPage 56) CD_STAT_SWITCHING true, 56, by decide +kernel, by decide +kernel⟩

theorem meets_ClockDomainEventsComplete_9 : ∃ (s : State) (k : Nat), (flag s (cdPage k) CD_STAT_QUIESCING = true) ∧ (gateAcks s k = true) ∧ (clkUp s = true) ∧ (k < 64) :=
  ⟨putFlag State.reset (cdPage 48) CD_STAT_QUIESCING true, 48, by decide +kernel, by decide +kernel, by decide +kernel, by decide +kernel⟩

theorem meets_ClockDomainEventsComplete_10 : ∃ (s : State) (g : Nat), (s.le.gateReq.contains g = true) ∧ (setIdle s (g / 72) (g % 72) = true) :=
  ⟨{ State.reset with le := { gateReq := [75] } }, 75, by decide +kernel, by decide +kernel⟩

theorem meets_ClockDomainEventsComplete_11 : ∃ (s : State) (k : Nat), (flag s (cdPage k) CD_STAT_QUIESCING = true) ∧ (clkUp s = true) ∧ (k < 64) :=
  ⟨putFlag State.reset (cdPage 8) CD_STAT_QUIESCING true, 8, by decide +kernel, by decide +kernel, by decide +kernel⟩

theorem meets_ClockDomainEventsComplete_13 : ∃ (s : State) (k : Nat), (flag s (cdPage k) CD_GATE_GATE_REQ = true) ∧ (clkUp s = true) :=
  ⟨putFlag State.reset (cdPage 8) CD_GATE_GATE_REQ true, 8, by decide +kernel, by decide +kernel⟩

theorem meets_ClockDomainEventsComplete_14 : ∃ (s : State) (k khz : Nat) (toggled : Bool), (k < 64) ∧ (clkUp s = true ∨ k = 0 ∨ k = 60) :=
  ⟨State.reset, 63, 800000, true, by decide +kernel, by decide +kernel⟩

theorem meets_ClockWritesComplete_1 : ∃ (s : State) (ini k : Nat) (w : Word), (k < 64) ∧ (writeOkAt s ini (cdPage k + 0x040) w = true) :=
  ⟨State.reset, 4, 56, 0x104, by decide +kernel, by decide +kernel⟩

theorem meets_ClockWritesComplete_2 : ∃ (s : State) (ini : Nat) (w : Word), (writeOkAt s ini (CU + 0x044) w = true) :=
  ⟨State.reset, 4, 1, by decide +kernel⟩

theorem meets_ClockWritesComplete_3 : ∃ (s : State) (ini k : Nat), (k < 64) ∧ (writeOkAt s ini (cdPage k + 0x044) 1 = true) :=
  ⟨State.reset, 4, 8, by decide +kernel, by decide +kernel⟩

theorem meets_StartPinEventsComplete_1 : ∃ (s u : State), (s.pin.supplies = false) ∧ (s.pow.torpor = false) ∧ (u = { s with pin := { s.pin with supplies := true, railsOut := [], tripHold := false } }) :=
  ⟨{ State.reset with pin := { supplies := false } }, _, by decide +kernel, by decide +kernel, rfl⟩

theorem meets_StartPinEventsComplete_2 : ∃ (s : State) (u : State), (s.pow.torpor = false) ∧ (s.pin.supplies = true) ∧ (u = { s with pin := { s.pin with resetN := false, tripHold := false } }) :=
  ⟨State.reset, _, by decide +kernel, by decide +kernel, rfl⟩

theorem meets_StartPinEventsComplete_3 : ∃ (s : State), (s.start.phase = .resetHeld) ∧ (s.pow.torpor = false) :=
  ⟨atPhase .resetHeld, by decide +kernel, by decide +kernel⟩

theorem meets_StartPinEventsComplete_4 : ∃ (s : State), (s.pow.torpor = true) :=
  ⟨{ State.reset with pow := { torpor := true } }, by decide +kernel⟩

theorem meets_StartPinEventsComplete_5 : ∃ (s : State), (s.pin.supplies = true) ∧ (s.pin.resetN = true) ∧ (s.pin.pfwN = true) ∧ (s.pow.torpor = false) ∧ (s.pin.tripHold = false) :=
  ⟨State.reset, by decide +kernel, by decide +kernel, by decide +kernel, by decide +kernel, by decide +kernel⟩

theorem meets_StartPinEventsComplete_6 : ∃ (s u : State), (s.start.phase = .s0) ∧ (u = stageEnd (putF (putF s SQ SQ_STAT_SOURCE s.pin.srcSel) SU SU_STAT_RAIL_OK 0xFF) 0) :=
  ⟨State.reset, _, by decide +kernel, rfl⟩

theorem meets_StartPinEventsComplete_7 : ∃ (s : State) (sel : Nat), (sel < 4) :=
  ⟨State.reset, 3, by decide +kernel⟩

theorem meets_StartPinEventsComplete_8 : ∃ (s : State) (m : Nat), (s.start.phase = .s2Records) ∧ (m = 8 ∨ m = 16) ∧ ((seamReady s (seamDies m).1 m && seamReady s (seamDies m).2 m) = false) :=
  ⟨atPhase .s2Records, 8, by decide +kernel, by decide +kernel, by decide +kernel⟩

theorem meets_StartPinEventsComplete_9 : ∃ (s : State) (m : Nat), (s.start.phase = .s2Records) ∧ (m = 10 ∨ m = 17) ∧ ((seamReady s (seamDies m).1 m && seamReady s (seamDies m).2 m) = false) :=
  ⟨atPhase .s2Records, 17, by decide +kernel, by decide +kernel, by decide +kernel⟩

theorem meets_StartPinEventsComplete_10 : ∃ (s u : State) (r0 r1 : Bool) (errs : List (Nat × Nat × Nat)), (recordsDue s = true) ∧ (u = recordsRead (recMark (recMark (errsMark (keysDerive s) errs) 13 r0) 14 r1)) ∧ (dirsLost u r0 r1 = true) :=
  ⟨{ State.reset with start := { phase := .s2Records, k0Lost := true, k1Lost := true } }, _, false, false, [], by decide +kernel, rfl, by decide +kernel⟩

theorem meets_StartPinEventsComplete_11 : ∃ (s u : State) (r0 r1 : Bool) (errs : List (Nat × Nat × Nat)), (recordsDue s = true) ∧ (u = recordsRead (recMark (recMark (errsMark (keysDerive s) errs) 13 r0) 14 r1)) ∧ (dirsLost u r0 r1 = false) :=
  ⟨putF (putF { State.reset with start := { phase := .s2Records, k1Lost := true } } (smPage 8 8) SM_STAT_STATE 7) (smPage 1 8) SM_STAT_STATE 7 |> (fun s => putF (putF s (smPage 13 16) SM_STAT_STATE 7) (smPage 1 16) SM_STAT_STATE 7), _, true, false, [(13, 1024, 3)], by decide +kernel, rfl, by decide +kernel⟩

theorem meets_StartPinEventsComplete_12 : ∃ (s : State), (s.start.phase = .s2Quick) :=
  ⟨atPhase .s2Quick, by decide +kernel⟩

theorem meets_StartPinEventsComplete_13 : ∃ (s : State), (s.start.phase = .s2Quick) :=
  ⟨atPhase .s2Quick, by decide +kernel⟩

theorem meets_TableEngineComplete_1 : ∃ (s : State) (e : SeqEntry) (i : Nat), (seqCur s = some (e, i)) ∧ (e.action = 1) ∧ ((seqArrive s e true).2 = true) ∧ ((seqWriteAll (seqArrive s e true).1 e).2 = 0) :=
  ⟨atEntry 1 1, seqEntry 1 1, 0, by decide +kernel, by decide +kernel, by decide +kernel, by decide +kernel⟩

theorem meets_TableEngineComplete_2 : ∃ (s : State) (e : SeqEntry) (i : Nat), (seqCur s = some (e, i)) ∧ (e.action = 1) ∧ ((seqArrive s e true).2 = true) ∧ ((seqWriteAll (seqArrive s e true).1 e).2 ≠ 0) :=
  ⟨{ State.reset with start := { phase := .s3, table := [{ seqEntry 1 1 with blk := 0x0F00 }] } }, { seqEntry 1 1 with blk := 0x0F00 }, 0, by decide +kernel, by decide +kernel, by decide +kernel, by decide +kernel⟩

theorem meets_TableEngineComplete_3 : ∃ (s : State) (e : SeqEntry) (i x : Nat) (r : State × Option (Nat × Nat)), (seqCur s = some (e, i)) ∧ (e.action = 2) ∧ ((seqArrive s e false).2 = true) ∧ (r = anyRead (seqArrive s e false).1 4 false e.die e.blk e.off false) ∧ (r.2 = some (0, x)) ∧ (BitVec.ofNat 32 x &&& e.mask = e.value) :=
  ⟨atEntry 2 0, seqEntry 2 0, 0, 0, _, by decide +kernel, by decide +kernel, by decide +kernel, rfl, by decide +kernel, by decide +kernel⟩

theorem meets_TableEngineComplete_4 : ∃ (s : State) (e : SeqEntry) (i x : Nat) (r : State × Option (Nat × Nat)), (seqCur s = some (e, i)) ∧ (e.action = 2) ∧ ((seqArrive s e false).2 = true) ∧ (r = anyRead (seqArrive s e false).1 4 false e.die e.blk e.off false) ∧ (r.2 = some (0, x)) ∧ (BitVec.ofNat 32 x &&& e.mask ≠ e.value) :=
  ⟨atEntry 2 1, seqEntry 2 1, 0, 0, _, by decide +kernel, by decide +kernel, by decide +kernel, rfl, by decide +kernel, by decide +kernel⟩

theorem meets_TableEngineComplete_5 : ∃ (s : State) (e : SeqEntry) (i : Nat), (seqCur s = some (e, i)) ∧ (e.action = 2) :=
  ⟨atEntry 2 1, seqEntry 2 1, 0, by decide +kernel, by decide +kernel⟩

theorem meets_TableEngineComplete_6 : ∃ (s : State) (e : SeqEntry) (i : Nat), (seqCur s = some (e, i)) ∧ (e.action = 3) ∧ (wGet e.value 0 7 = 64) :=
  ⟨atEntry 3 64, seqEntry 3 64, 0, by decide +kernel, by decide +kernel, by decide +kernel⟩

theorem meets_TableEngineComplete_7 : ∃ (s : State) (e : SeqEntry) (i : Nat) (x : PartEntry), (seqCur s = some (e, i)) ∧ (e.action = 3) ∧ (wGet e.value 0 7 ≠ 64) ∧ (s.shut.heldBySnap.contains (wGet e.value 0 7) = false) ∧ (partEntry s (wGet e.value 0 7) = some x) ∧ (isolated s x.die = false) ∧ (partStateOn s x.die (wGet e.value 0 7) = pHeld) :=
  ⟨atPart (atEntry 3 1) pHeld, seqEntry 3 1, 0, part1, by decide +kernel, by decide +kernel, by decide +kernel, by decide +kernel, by decide +kernel, by decide +kernel, by decide +kernel⟩

theorem meets_TableEngineComplete_8 : ∃ (s : State), (seqCur s = none) ∧ (s.start.phase = .s3) ∧ (fabricLocked s = true) ∧ ((seamsAwaited s).all (seamUp s) = true) :=
  ⟨joinedUp .s3, by decide +kernel, by decide +kernel, by decide +kernel, by decide +kernel⟩

theorem meets_TableEngineComplete_9 : ∃ (s : State), (seqCur s = none) ∧ (s.start.phase = .s7) :=
  ⟨atPhase .s7, by decide +kernel, by decide +kernel⟩

theorem meets_ImageLoadComplete_1 : ∃ (s : State) (h : Header) (pad k : Nat) (readOk sigOk nodesOk : Bool) (nodes : List (BitVec 256)) (c : Nat) (v : State × Bool), (s.start.phase = .s2Header) ∧ (s.start.source = 2 → 4097 ≤ s.load.hostNext) ∧ (v = (if s.start.source = 0 then slotRead s 0 4097 else (s, true))) ∧ (headerCause s h pad (sourceRoom s) (readOk && v.2) k sigOk = some c) :=
  ⟨atPhase .s2Header, hdrFull, 0, 7, true, true, true, [], 8, _, by decide +kernel, by decide +kernel, rfl, by decide +kernel⟩

theorem meets_ImageLoadComplete_2 : ∃ (s : State) (h : Header) (k : Nat) (readOk sigOk : Bool) (nodes : List (BitVec 256)) (v w : State × Bool) (u : State), (s.start.phase = .s2Header) ∧ (s.start.source = 2 → h.nodeOff + 32 * h.nodeCount ≤ s.load.hostNext) ∧ (v = (if s.start.source = 0 then slotRead s 0 4097 else (s, true))) ∧ (headerCause s h 0 (sourceRoom s) (readOk && v.2) k sigOk = none) ∧ (w = (if s.start.source = 0 then slotRead v.1 h.nodeOff (32 * h.nodeCount) else (s, true))) ∧ (w.2 = true) ∧ (nodes.length = h.nodeCount) ∧ (u = loadBegin (if s.start.source = 0 then slotVerified w.1 h else w.1) h nodes) :=
  ⟨{ atPhase .s2Header with sec := { slots := [{ hash := 7, valid := true }] } }, hdrFull, 7, true, true, List.replicate (nodeCount 13) 0, _, _, _, by decide +kernel, by decide +kernel, rfl, by decide +kernel, rfl, by decide +kernel, by decide +kernel, rfl⟩

theorem meets_ImageLoadComplete_3 : ∃ (s : State) (r : ImgRec), (s.start.phase = .s2Tables) :=
  ⟨atPhase .s2Tables, { }, by decide +kernel⟩

theorem meets_ImageLoadComplete_4 : ∃ (s : State) (st : Nat) (r : ImgRec), (s.start.phase = .s4) ∧ ((headerDies s.load.hdr).contains st = true) :=
  ⟨{ atPhase .s4 with load := { hdr := hdrFull } }, 12, { }, by decide +kernel, by decide +kernel⟩

theorem meets_ImageLoadComplete_5 : ∃ (s : State) (st : Nat) (r : ImgRec), (s.start.phase = .ready) ∧ (rejoinAt s st 3 = true) ∧ ((headerDies s.load.hdr).contains st = true) :=
  ⟨putF (putF { atPhase .ready with load := { hdr := hdrFull } } DI (DI_STAT_STATE.nth 2) 2) DI (DI_STAT_STEP.nth 2) 3, 2, { }, by decide +kernel, by decide +kernel, by decide +kernel⟩

theorem meets_ImageLoadComplete_6 : ∃ (s u : State), (s.start.phase = .clearing) ∧ (u = slotUse (configClear s) 3) :=
  ⟨atPhase .clearing, _, by decide +kernel, rfl⟩

theorem meets_ImageLoadComplete_7 : ∃ (s : State), (s.start.source = 1 ∨ s.start.source = 2) ∧ (s.start.phase = .s2Header ∨ s.start.phase = .s2Tables ∨ s.start.phase = .s3 ∨ s.start.phase = .s4) :=
  ⟨{ State.reset with start := { phase := .s4, source := 2 } }, by decide +kernel, by decide +kernel⟩

theorem meets_ImageLoadComplete_8 : ∃ (s : State) (n : Nat), (s.start.source = 2) ∧ (sourceWaits s = true) :=
  ⟨{ State.reset with start := { phase := .s4, source := 2 } }, 4096, by decide +kernel, by decide +kernel⟩

theorem meets_ImageLoadComplete_9 : ∃ (s : State) (a n : Nat), (s.start.source = 2) ∧ (sourceWaits s = true) ∧ (a ≠ s.load.hostNext % loadWindow) :=
  ⟨{ State.reset with start := { phase := .s4, source := 2 } }, 4096, 1, by decide +kernel, by decide +kernel, by decide +kernel⟩

theorem meets_ImageLoadComplete_10 : ∃ (s u : State) (k : Nat), (s.start.phase = .s2HostHold) ∧ (u = (if (mboxOf s 64).full then mbTaken s 64 else s)) ∧ (1 ≤ k ∧ k ≤ 3) :=
  ⟨atPhase .s2HostHold, _, 3, by decide +kernel, rfl, by decide +kernel⟩

theorem meets_ImageLoadComplete_11 : ∃ (s u : State), (s.start.phase = .s2HostHold) ∧ (u = (if (mboxOf s 64).full then mbTaken s 64 else s)) :=
  ⟨atPhase .s2HostHold, _, by decide +kernel, rfl⟩

theorem meets_ImageLoadComplete_12 : ∃ (s u : State) (k : Nat), (s.start.phase = .s2HostHold) ∧ (u = (if (mboxOf s 64).full then mbTaken s 64 else s)) ∧ (k = 0 ∨ 4 < k) :=
  ⟨atPhase .s2HostHold, _, 5, by decide +kernel, rfl, by decide +kernel⟩

theorem meets_ImageLoadComplete_13 : ∃ (s : State) (ps : List Nat), (s.start.phase = .s5) :=
  ⟨atPhase .s5, [1], by decide +kernel⟩

theorem meets_ImageLoadComplete_14 : ∃ (s u : State), (s.start.phase = .s6) ∧ (u = (if flag (journalScan (journalRead s)) CU CU_OSC_CTRL_XO_PREF && flag (journalScan (journalRead s)) CU CU_OSC_STAT_XO_B_OK
      then xoSwitchStart (journalScan (journalRead s)) true else journalScan (journalRead s))) :=
  ⟨atPhase .s6, _, by decide +kernel, rfl⟩

theorem meets_KeepRowsComplete_1 : ∃ (s : State) (ini : Nat) (w : Word), (writeOkAt s ini (KP + 0x054) w = true) ∧ (wGet w 31 1 = 1) :=
  ⟨State.reset, 4, 0x80000001, by decide +kernel, by decide +kernel⟩

theorem meets_KeepRowsComplete_2 : ∃ (s u : State) (r : BootRec), (s.keep.bootWr = some r) ∧ (u = putFlag { s with keep := { s.keep with bootWr := none } } KP KP_BOOT_BUSY false) ∧ (unitReadOnly u 13 (recUnit 0) = false) ∧ (unitReadOnly u 14 (recUnit 0) = false) ∧ (journalFirst s = false) :=
  ⟨{ State.reset with keep := { bootWr := some (bootRecOf 0x80000001) } }, _, bootRecOf 0x80000001, by decide +kernel, rfl, by decide +kernel, by decide +kernel, by decide +kernel⟩

theorem meets_KeepRowsComplete_3 : ∃ (s : State) (r : BootRec), (s.keep.bootWr = some r) ∧ (journalFirst s = false) :=
  ⟨{ State.reset with keep := { bootWr := some (bootRecOf 0x80000001) } }, bootRecOf 0x80000001, by decide +kernel, by decide +kernel⟩

theorem meets_KeepRowsComplete_4 : ∃ (s u : State) (ini k : Nat) (w : Word), (k < 16) ∧ (writeOkAt s ini (KP + 0x080 + 4 * k) w = true) ∧ (u = storedAt s (KP + 0x080 + 4 * k) w) :=
  ⟨State.reset, _, 4, 15, 1, by decide +kernel, by decide +kernel, rfl⟩

theorem meets_KeepRowsComplete_5 : ∃ (s u : State) (ini : Nat) (w : Word) (x : XferRun), (writeOkAt s ini (KP + 0x068) (w ||| 0x80000000) = true) ∧ (u = storedAt s (KP + 0x068) (w ||| 0x80000000)) ∧ (x = ⟨wGet (w ||| 0x80000000) 0 2, wGet (w ||| 0x80000000) 2 1 = 1, getF u KP KP_XFER_OFF_UNIT, getF u KP KP_XFER_LEN_UNITS,
      getF u KP KP_XFER_SRC_LO_ADDR * 4096 + getF u KP KP_XFER_SRC_HI_ADDR * 2 ^ 32⟩) :=
  ⟨State.reset, _, 4, 1, _, by decide +kernel, rfl, rfl⟩

theorem meets_KeepRowsComplete_6 : ∃ (s : State) (x : XferRun) (n res : Nat) (errs : List (Nat × Nat × Nat)) (r : State × Nat), (s.keep.xfer = some x) ∧ (xferBusy s = true) ∧ (n ≤ x.len ∧ res ≤ 3 ∧ (res = 0 → n = x.len) ∧ (res = 3 ↔ s.keep.pfwLow = true)) ∧ (journalFirst s = false) ∧ (busStall s 9 x.addr (4096 * n) = none) ∧ (r = xferMove (errsMark s errs) x 0 n) :=
  ⟨putF { State.reset with keep := { xfer := some { slot := 1, out := false, off := 0, len := 1, addr := 0 } } } KP KP_XFER_STAT_RESULT 0xF, { slot := 1, out := false, off := 0, len := 1, addr := 0 }, 0, 2, [], _, by decide +kernel, by decide +kernel, by decide +kernel, by decide +kernel, by decide +kernel, rfl⟩

theorem meets_KeepRowsComplete_7 : ∃ (s : State) (die blk : Nat), (s.keep.windows.contains (pg die blk) = true) :=
  ⟨{ State.reset with keep := { windows := [pg 8 7] } }, 8, 7, by decide +kernel⟩

theorem meets_KeepRowsComplete_8 : ∃ (s u : State) (j : Nat) (r : JUnit) (rest : List (Nat × JUnit)), (s.keep.appends = (j, r) :: rest) ∧ (u = putFlag (programUnit { s with keep := { s.keep with
        appends := rest
        journal := tabPut s.keep.journal j (some { r with committed := true })
        head := (j + 1) % 16384 } } (striped 2024 j).1 (striped 2024 j).2) (r.page * 4096) PG_STAT_RETAIN_STALE false) :=
  ⟨{ State.reset with keep := { appends := [(0, { seq := 1, page := 7, pageId := 0, sel := 0, entries := [], committed := false })] } }, _, 0, { seq := 1, page := 7, pageId := 0, sel := 0, entries := [], committed := false }, [], by decide +kernel, rfl⟩

theorem meets_KeepRowsComplete_10 : ∃ (s : State) (n errs : Nat) (b : MergeBuf), ((mergeOf s n).find? (·.unit == n) = some b) ∧ (journalFirst s = false) :=
  ⟨{ State.reset with keep := { merge0 := [{ unit := 4, bytes := [(0, 1)] }] } }, 4, 3, { unit := 4, bytes := [(0, 1)] }, by decide +kernel, by decide +kernel⟩

theorem meets_KeepRowsComplete_11 : ∃ (s u : State) (n errs : Nat) (b : MergeBuf), ((mergeOf s n).find? (·.unit == n) = some b) ∧ (journalFirst s = false) ∧ (u = setMerge s n ((mergeOf s n).filter (·.unit != n))) ∧ (unitReadOnly u (userUnit n).1 (userUnit n).2 = false) :=
  ⟨{ State.reset with keep := { merge0 := [{ unit := 4, bytes := [(0, 1)] }] } }, _, 4, 3, { unit := 4, bytes := [(0, 1)] }, by decide +kernel, by decide +kernel, rfl, by decide +kernel⟩

theorem meets_FabricRowsComplete_1 : ∃ (s u : State) (x : Frame) (die addr bit w n en : Nat), (isFabric die = true) ∧ (isolated s die = false) ∧ (driverShape addr = some (w, n, en)) ∧ (bit < 2048) ∧ (bit / w < n) ∧ (bit % w < en) ∧ (oneHot en (frGet (cfgSeen s die addr ^^^ (BitVec.ofNat 2048 1 <<< bit)) (w * (bit / w)) en) = false) ∧ (x = cfgGet s die addr ^^^ (cfgSeen s die addr ^^^ (BitVec.ofNat 2048 1 <<< bit))) ∧ (u = countUp { s with fab := { s.fab with upset := tabPutD 0 s.fab.upset (cfgKey die addr) x } } (cfPage die) CF_CONT_CNT_COUNT 1) :=
  ⟨cfgPut State.reset 0 contAddr 1, _, _, 0, contAddr, 1, contW, contN, contEn, by decide +kernel, by decide +kernel, by decide +kernel, by decide +kernel, by decide +kernel, by decide +kernel, by decide +kernel, rfl, rfl⟩

theorem meets_FabricRowsComplete_2 : ∃ (s : State) (ini die r : Nat) (w : Word), (r < 3) ∧ (writeOkAt s ini (cfPage die + 0x0A0 + 4 * r) w = true) :=
  ⟨State.reset, 4, 0, 2, 1, by decide +kernel, by decide +kernel⟩

theorem meets_FabricRowsComplete_3 : ∃ (s : State) (die side g : Nat), (xgCan s die side g = true) :=
  ⟨xgReady, 0, 0, 5, by decide +kernel⟩

theorem meets_FabricRowsComplete_4 : ∃ (s : State) (die side g : Nat), (xgCan s die side g = true) ∧ (xgUp s die side g = false) :=
  ⟨xgReady, 0, 0, 5, by decide +kernel, by decide +kernel⟩

theorem meets_FabricRowsComplete_5 : ∃ (s : State) (ini die : Nat) (w : Word), (writeOkAt s ini (cfPage die + 0x040) (w ||| 0x80000000) = true) :=
  ⟨State.reset, 4, 3, 0, by decide +kernel⟩

theorem meets_FabricRowsComplete_6 : ∃ (s : State) (die : Nat), (isFabric die = true) ∧ (isolated s die = false) ∧ (netRuns s die (getF s (cfPage die) CF_CAP_CTRL_TRIG_NET) = true) ∧ (getF s (cfPage die) CF_CAP_CTRL_TRIG = 1) ∧ (enabled s (cfPage die) = true) ∧ (flag s (cfPage die) CF_CAP_STAT_BUSY = false) :=
  ⟨capArmed 1, 0, by decide +kernel, by decide +kernel, by decide +kernel, by decide +kernel, by decide +kernel, by decide +kernel⟩

theorem meets_FabricRowsComplete_7 : ∃ (s : State) (die : Nat), (isFabric die = true) ∧ (isolated s die = false) ∧ (getF s (cfPage die) CF_CAP_CTRL_TRIG = 2) ∧ (enabled s (cfPage die) = true) ∧ (flag s (cfPage die) CF_CAP_STAT_BUSY = false) :=
  ⟨capArmed 2, 0, by decide +kernel, by decide +kernel, by decide +kernel, by decide +kernel, by decide +kernel⟩

theorem meets_FabricRowsComplete_8 : ∃ (s s1 u v : State) (die net : Nat) (r : CapRun), (netRuns s die net = true) ∧ (capHas s die net = false) ∧ (capWants s die net = true) ∧ (s1 = netRise s die net) ∧ ((tabGet s1.fab.cap die).join = some r) ∧ (r.left.contains net = true) ∧ (u = capLatch { s1 with fab := { s1.fab with cap := tabPut s1.fab.cap die (some { r with left := setDel r.left net }) } } die net) ∧ (v = setReg u (cfPage die + 0x054 + 4 * (net / 32)) (wPut (getReg u (cfPage die + 0x054 + 4 * (net / 32))) (net % 32) 1 1)) :=
  ⟨{ netOn State.reset 0 0 with fab := { (netOn State.reset 0 0).fab with cap := [(0, some { left := [0], stop := true })] } }, _, _, _, 0, 0, { left := [0], stop := true }, by decide +kernel, by decide +kernel, by decide +kernel, rfl, by decide +kernel, by decide +kernel, rfl, rfl⟩

theorem meets_FabricRowsComplete_9 : ∃ (s : State) (die net : Nat), (netRuns s die net = true) ∧ (capHas s die net = true) :=
  ⟨{ netOn State.reset 0 0 with shut := { capLeft := [(0, [0])] } }, 0, 0, by decide +kernel, by decide +kernel⟩

theorem meets_FabricRowsComplete_10 : ∃ (s u : State) (die net : Nat) (r : CapRun), ((tabGet s.fab.cap die).join = some r) ∧ (r.left.contains net = true) ∧ (u = { s with fab := { s.fab with cap := tabPut s.fab.cap die (some { r with left := setDel r.left net }) } }) :=
  ⟨{ State.reset with fab := { cap := [(0, some { left := [3], stop := true })] } }, _, 0, 3, { left := [3], stop := true }, by decide +kernel, by decide +kernel, rfl⟩

theorem meets_FabricRowsComplete_11 : ∃ (s : State) (ini die : Nat), (writeOkAt s ini (cfPage die + 0x080) 0x80000000 = true) :=
  ⟨putF State.reset (cfPage 3) CF_RB_COUNT_COUNT 1, 4, 3, by decide +kernel⟩

theorem meets_FabricRowsComplete_12 : ∃ (s : State) (die n : Nat) (be pfw : Bool) (r : RbRun) (c : State × Nat × Nat × Bool), ((tabGet s.fab.rb die).join = some r) ∧ (r.waiting = false) ∧ (isolated s die = false) ∧ (busStall s (24 + die) r.dst (256 * r.left) = none) ∧ (c = readbackCopy s die r.frame r.dst (if be || pfw then min n r.left else r.left) 0 false) :=
  ⟨{ State.reset with fab := { rb := [(0, some { frame := 0, left := 1, dst := 0, waiting := false })] } }, 0, 0, true, false, { frame := 0, left := 1, dst := 0, waiting := false }, _, by decide +kernel, by decide +kernel, by decide +kernel, by decide +kernel, rfl⟩

theorem meets_FabricRowsComplete_13 : ∃ (s : State) (die i v : Nat), (isFabric die = true) ∧ (i < 16) ∧ (releasedAt s die 375 = true) ∧ (isolated s die = false) ∧ (v = tabOr 0 s.fab.evo die) :=
  ⟨{ State.reset with fab := { staticOn := [2] } }, 2, 15, 0, by decide +kernel, by decide +kernel, by decide +kernel, by decide +kernel, rfl⟩

theorem meets_BankRowsComplete_1 : ∃ (s u : State) (x x1 : Bank) (sh : Nat × Nat) (ecc : Bool) (a old mask v : Nat) (shown : Option Nat) (d : Option (Nat × Nat)) (now out : (BitVec 72 × Nat) × (BitVec 72 × Nat)) (die mem : Nat) (portB : Bool) (we : BitVec 8) (addr : Nat) (din : BitVec 72) (srst : Bool), (bankClocked s die mem portB = true) ∧ (bankCfg s die mem 0 4 2 = 0) ∧ (sh = shapeOf (bankWidth s die mem)) ∧ (ecc = bankEcc s die mem) ∧ (a = addr % sh.2) ∧ (x = bankMem s die mem) ∧ (old = rowWord x sh.1 a) ∧ (mask = weMask sh.1 ecc we.toNat) ∧ (v = (if ecc then eccJoin (eccSplit din.toNat).1 else din.toNat)) ∧ (x1 = rowPut x sh.1 a mask v) ∧ (shown = (if mask = 0 then some old else if bankCfg s die mem 0 (if portB then 10 else 8) 2 = 1 then some (rowWord x1 sh.1 a)
        else if bankCfg s die mem 0 (if portB then 10 else 8) 2 = 2 then none else some old)) ∧ (d = shown.map (eccDeliver ecc)) ∧ (now = portNow x portB) ∧ (out = portOut1 (bankCfg s die mem 0 (if portB then 13 else 12) 1 = 1) srst now.1 now.2 (d.map fun r => (BitVec.ofNat 72 r.1, r.2))) ∧ (u = bankErr (setBank s die mem (portPut x1 portB out)) die mem portB ((d.map (·.2)).getD 0) a) :=
  ⟨memOn 0 0 0, _, _, _, _, _, _, _, _, _, _, _, _, _, 0, 0, true, 0xFF, 1023, 5, false, by decide +kernel, by decide +kernel, rfl, rfl, rfl, rfl, rfl, rfl, rfl, rfl, rfl, rfl, rfl, rfl, rfl⟩

theorem meets_BankRowsComplete_2 : ∃ (s : State) (die mem : Nat) (portB : Bool) (we : BitVec 8) (addr : Nat) (din : BitVec 72) (srst coll : Bool), (bankClocked s die mem portB = true) :=
  ⟨memOn 0 0 0, 0, 0, true, 0xFF, 1023, 5, true, false, by decide +kernel⟩

theorem meets_BankRowsComplete_3 : ∃ (s t : State) (die mem : Nat) (we : BitVec 8) (addr : Nat) (din : BitVec 72) (srst : Bool), (bankClocked s die mem true = true) ∧ (bankCfg s die mem 0 4 2 = 0) ∧ ((weMask (shapeOf (bankWidth s die mem)).1 (bankEcc s die mem) we.toNat != 0) = true) ∧ (exec (.bankAccess die mem true true we addr din srst false) s = .next t) :=
  ⟨memOn 0 0 0, _, 0, 0, 0xFF, 1023, 5, false, by decide +kernel, by decide +kernel, by decide +kernel, rfl⟩

theorem meets_BankRowsComplete_4 : ∃ (s : State) (e : Nat × Nat) (die mem : Nat) (din : BitVec 72) (popToo : Bool), (bankClocked s die mem false = true) ∧ (isFifo s die mem = true) ∧ (e = queueEnds s die mem) ∧ (e.1 = mem) ∧ (writeView s die e ≠ queueCap s die e) ∧ ((popToo && oneClock s die mem && decide (headView s die e ≠ 0)) = false) :=
  ⟨memOn 16 0 0, _, 0, 0, 7, true, by decide +kernel, by decide +kernel, rfl, by decide +kernel, by decide +kernel, by decide +kernel⟩

theorem meets_BankRowsComplete_5 : ∃ (s : State) (e : Nat × Nat) (die mem : Nat) (din : BitVec 72), (bankClocked s die mem false = true) ∧ (isFifo s die mem = true) ∧ (e = queueEnds s die mem) ∧ (e.1 = mem) ∧ (oneClock s die mem = true) ∧ (headView s die e ≠ 0) :=
  ⟨bankQ (memOn 16 0 0) [3], _, 0, 0, 7, by decide +kernel, by decide +kernel, rfl, by decide +kernel, by decide +kernel, by decide +kernel⟩

theorem meets_BankRowsComplete_6 : ∃ (s : State) (e : Nat × Nat) (die mem : Nat), (bankClocked s die mem true = true) ∧ (isFifo s die mem = true) ∧ (e = queueEnds s die mem) ∧ (e.2 = mem) ∧ (headView s die e ≠ 0) :=
  ⟨bankQ (memOn 16 0 0) [3], _, 0, 0, by decide +kernel, by decide +kernel, rfl, by decide +kernel, by decide +kernel⟩

theorem meets_BankRowsComplete_7 : ∃ (s : State) (die mem : Nat), (bankClocked s die mem false = true) ∧ (bankCfg s die mem 0 4 2 = 3) :=
  ⟨memOn 48 0 0, 0, 0, by decide +kernel, by decide +kernel⟩

theorem meets_BankRowsComplete_8 : ∃ (s : State) (die mem : Nat), (bankClocked s die mem true = true) ∧ (bankCfg s die mem 0 4 2 = 3) ∧ ((bankMem s die mem).unseenW < (bankMem s die mem).tok) :=
  ⟨setBank (memOn 48 0 0) 0 0 { tok := 1 }, 0, 0, by decide +kernel, by decide +kernel, by decide +kernel⟩

theorem meets_BankRowsComplete_9 : ∃ (s : State) (die mem : Nat), (bankClocked s die mem true = true) ∧ (bankCfg s die mem 0 4 2 = 3) ∧ (oneClock s die mem = true) ∧ (tokMax s die mem ≠ 0 ∨ (bankMem s die mem).unseenW < (bankMem s die mem).tok) :=
  ⟨memOn (48 + (BitVec.ofNat 2048 1 <<< 112)) 0 0, 0, 0, by decide +kernel, by decide +kernel, by decide +kernel, by decide +kernel⟩

theorem meets_BankRowsComplete_10 : ∃ (s : State) (e : Nat × Nat) (die mem : Nat) (v : BitVec 72) (rest : List (BitVec 72)), (cascade s die mem = some e) ∧ (bankClocked s die e.1 false = true) ∧ (mem < e.2) ∧ ((bankMem s die (mem + 1)).q.length < (shapeOf (bankWidth s die mem)).2) ∧ ((bankMem s die mem).q = v :: rest) :=
  ⟨bankQ cascOn [3], (0, 1), 0, 0, 3, [], by decide +kernel, by decide +kernel, by decide +kernel, by decide +kernel, by decide +kernel⟩

theorem meets_BankRowsComplete_11 : ∃ (s : State) (die mem : Nat), (mem < 2048) :=
  ⟨State.reset, 0, 2047, by decide +kernel⟩

theorem meets_BankRowsComplete_12 : ∃ (s : State) (die mem : Nat), (mem < 2048) :=
  ⟨State.reset, 0, 2047, by decide +kernel⟩

theorem meets_BankRowsComplete_13 : ∃ (s : State) (die mem : Nat), (mem < 32) :=
  ⟨State.reset, 0, 31, by decide +kernel⟩

theorem meets_BankRowsComplete_14 : ∃ (s : State) (die mem : Nat), (mem < 32) :=
  ⟨State.reset, 0, 31, by decide +kernel⟩

theorem meets_BankRowsComplete_15 : ∃ (s : State) (die mem : Nat), (isFabric die = true) ∧ (isolated s die = false) ∧ (mem < 32) ∧ (deepFifo s die mem = true) :=
  ⟨memOn 0 0 1, 0, 0, by decide +kernel, by decide +kernel, by decide +kernel, by decide +kernel⟩

theorem meets_BankRowsComplete_16 : ∃ (s : State) (e : Nat × Nat) (die mem : Nat), (isFabric die = true) ∧ (isolated s die = false) ∧ (mem < 2048) ∧ (e = queueEnds s die mem) ∧ (e.2 = mem) ∧ (isFifo s die mem = true) ∧ (bankCfg s die mem 0 4 2 ≠ 3) :=
  ⟨memOn 16 0 0, _, 0, 0, by decide +kernel, by decide +kernel, by decide +kernel, rfl, by decide +kernel, by decide +kernel, by decide +kernel⟩

theorem meets_BankRowsComplete_17 : ∃ (s : State) (e : Nat × Nat) (die mem : Nat), (isFabric die = true) ∧ (isolated s die = false) ∧ (mem < 2048) ∧ (e = queueEnds s die mem) ∧ (e.2 = mem) ∧ (bankCfg s die mem 0 4 2 = 3) :=
  ⟨memOn 48 0 0, _, 0, 0, by decide +kernel, by decide +kernel, by decide +kernel, rfl, by decide +kernel, by decide +kernel⟩

theorem meets_DeepRowsComplete_1 : ∃ (s : State) (x : Deep) (die mem : Nat) (we : Bool) (addr : Nat) (data : BitVec 64) (be : BitVec 8), (deepClocked s die mem = true) ∧ (deepFifo s die mem = false) ∧ ((deepMem s die mem).reqs.length < 16) ∧ (x = { deepMem s die mem with rspValid := false }) :=
  ⟨memOn 0 0 0, _, 0, 0, true, 131072, 1, 0xFF, by decide +kernel, by decide +kernel, by decide +kernel, rfl⟩

theorem meets_DeepRowsComplete_2 : ∃ (s u : State) (die mem addr : Nat) (data : BitVec 64) (be : BitVec 8), (deepClocked s die mem = true) ∧ (deepFifo s die mem = true) ∧ (u = setDeep s die mem { deepMem s die mem with rspValid := false }) ∧ (deepPushNoc u die mem = false) :=
  ⟨memOn 0 0 1, _, 0, 0, 0, 1, 0xFF, by decide +kernel, by decide +kernel, rfl, by decide +kernel⟩

theorem meets_DeepRowsComplete_3 : ∃ (s u : State) (die mem addr : Nat) (data : BitVec 64) (be : BitVec 8) (r : State × Nat × Bool), (deepClocked s die mem = true) ∧ (deepFifo s die mem = true) ∧ (u = setDeep s die mem { deepMem s die mem with rspValid := false }) ∧ (deepPopNoc u die mem = false) ∧ (deepReadView u die mem ≠ 0) ∧ (r = deepPop u die mem 0) :=
  ⟨deepQ (memOn 0 0 1) [0], _, 0, 0, 0, 1, 0xFF, _, by decide +kernel, by decide +kernel, rfl, by decide +kernel, by decide +kernel, rfl⟩

theorem meets_DeepRowsComplete_4 : ∃ (s u : State) (die mem : Nat) (r : DmReq) (rest : List DmReq) (v : State × Nat × Bool), (deepClocked s die mem = true) ∧ ((deepMem s die mem).reqs = r :: rest) ∧ (r.we = false) ∧ (u = setDeep s die mem { deepMem s die mem with reqs := rest }) ∧ (v = deepRead u die mem r.addr 0) :=
  ⟨setDeep (memOn 0 0 0) 0 0 { reqs := [{ we := false, addr := 5, data := 9, be := 0 }] }, _, 0, 0, { we := false, addr := 5, data := 9, be := 0 }, [], _, by decide +kernel, by decide +kernel, by decide +kernel, rfl, rfl⟩

theorem meets_DeepRowsComplete_5 : ∃ (s u t : State) (die mem : Nat) (r : DmReq) (rest : List DmReq) (v : Nat × State), (deepClocked s die mem = true) ∧ ((deepMem s die mem).reqs = r :: rest) ∧ (r.we = true) ∧ (r.be = 0xFF) ∧ (u = setDeep s die mem { deepMem s die mem with reqs := rest }) ∧ (t = deepPut u die mem r.addr (eccWord (ofBytes ((List.range 8).map fun i => BitVec.ofNat 8 (r.data.toNat / 256 ^ i))))) ∧ (v = freeVal t 64) :=
  ⟨setDeep (memOn 0 0 0) 0 0 { reqs := [{ we := true, addr := 5, data := 9, be := 0xFF }] }, _, _, 0, 0, { we := true, addr := 5, data := 9, be := 0xFF }, [], _, by decide +kernel, by decide +kernel, by decide +kernel, by decide +kernel, rfl, rfl, rfl⟩

theorem meets_DeepRowsComplete_6 : ∃ (s u w t : State) (die mem : Nat) (r : DmReq) (rest : List DmReq) (old : Nat × Nat) (v : Nat × State), (deepClocked s die mem = true) ∧ ((deepMem s die mem).reqs = r :: rest) ∧ (r.we = true) ∧ (r.be ≠ 0xFF) ∧ (u = setDeep s die mem { deepMem s die mem with reqs := rest }) ∧ (old = eccRead (tabOr 0 (deepMem s die mem).words r.addr)) ∧ (w = deepErr u die mem r.addr old.2 0 false) ∧ (t = (if old.2 = 2 then w else deepPut w die mem r.addr (eccWord (ofBytes ((List.range 8).map fun i =>
        BitVec.ofNat 8 ((if r.be.getLsbD i then r.data.toNat else old.1) / 256 ^ i)))))) ∧ (v = freeVal t 64) :=
  ⟨setDeep (memOn 0 0 0) 0 0 { reqs := [{ we := true, addr := 5, data := 9, be := 3 }] }, _, _, _, 0, 0, { we := true, addr := 5, data := 9, be := 3 }, [], _, _, by decide +kernel, by decide +kernel, by decide +kernel, by decide +kernel, rfl, rfl, rfl, rfl, rfl⟩

theorem meets_DeepRowsComplete_7 : ∃ (s u : State) (die mem : Nat) (we : Bool) (off len : Nat) (bytes : List (BitVec 8)) (r : State × Nat × List Byte), (isFabric die = true) ∧ (isolated s die = false) ∧ (mem < 32) ∧ (u = domTouch (nocClock s die) die (deepDomain mem)) ∧ ((domOf u die (deepDomain mem)).state < 2) ∧ (deepFifo u die mem = false) ∧ (we = true → bytes.length = len) ∧ (r = deepNoc u die mem we off len bytes) :=
  ⟨memOn 0 0 0, _, 0, 31, true, 0, 1, [7], _, by decide +kernel, by decide +kernel, by decide +kernel, rfl, by decide +kernel, by decide +kernel, by decide +kernel, rfl⟩

theorem meets_DeepRowsComplete_8 : ∃ (s u : State) (die mem off : Nat) (bytes : List (BitVec 8)) (r : State × Nat), (isFabric die = true) ∧ (isolated s die = false) ∧ (mem < 32) ∧ (u = domTouch (nocClock s die) die (deepDomain mem)) ∧ ((domOf u die (deepDomain mem)).state < 2) ∧ (deepFifo u die mem = true) ∧ (r = deepNocPush u die mem off bytes) :=
  ⟨memOn 0 0 3, _, 0, 0, 0, [1, 2, 3, 4, 5, 6, 7, 8], _, by decide +kernel, by decide +kernel, by decide +kernel, rfl, by decide +kernel, by decide +kernel, rfl⟩

theorem meets_DeepRowsComplete_9 : ∃ (s u : State) (die mem off len : Nat) (peek : Bool) (r : State × Nat × List Byte), (isFabric die = true) ∧ (isolated s die = false) ∧ (mem < 32) ∧ (u = domTouch (nocClock s die) die (deepDomain mem)) ∧ ((domOf u die (deepDomain mem)).state < 2) ∧ (deepFifo u die mem = true) ∧ (r = deepNocPop u die mem off len peek) :=
  ⟨memOn 0 0 5, _, 0, 0, 0x100, 8, false, _, by decide +kernel, by decide +kernel, by decide +kernel, rfl, by decide +kernel, by decide +kernel, rfl⟩

theorem meets_DeepRowsComplete_10 : ∃ (s : State) (die mem w : Nat) (v : BitVec 72) (rest : List (Nat × BitVec 72)), ((deepMem s die mem).wb = (w, v) :: rest) ∧ (deepReach s die mem = true) :=
  ⟨setDeep State.reset 0 0 { wb := [(4, 5)] }, 0, 0, 4, 5, [], by decide +kernel, by decide +kernel⟩

theorem meets_DeepRowsComplete_11 : ∃ (s : State) (die mem : Nat), (deepReach s die mem = true) ∧ (gateShut s (8 + die) = false) ∧ (flag s (dmPage die mem) DM_CTRL_PATROL_EN = true) ∧ (deepFifo s die mem = false) :=
  ⟨putFlag State.reset (dmPage 0 0) DM_CTRL_PATROL_EN true, 0, 0, by decide +kernel, by decide +kernel, by decide +kernel, by decide +kernel⟩

theorem meets_DeepRowsComplete_12 : ∃ (s : State) (die mem : Nat) (v : BitVec 72), (deepReach s die mem = true) ∧ (gateShut s (8 + die) = false) ∧ (flag s (dmPage die mem) DM_CTRL_PATROL_EN = true) ∧ (deepFifo s die mem = true) ∧ ((deepMem s die mem).q[(deepMem s die mem).patrol]? = some v) :=
  ⟨putFlag (deepQ (memOn 0 0 1) [0]) (dmPage 0 0) DM_CTRL_PATROL_EN true, 0, 0, 0, by decide +kernel, by decide +kernel, by decide +kernel, by decide +kernel, by decide +kernel⟩

theorem meets_PartitionCommandsComplete_1 : ∃ (s u : State) (ini die part : Nat) (e : PartEntry), (part < 64) ∧ (writeOkAt s ini (icPage die + 0x050) (partWord 1 part) = true) ∧ (u = storedAt s (icPage die + 0x050) (partWord 1 part)) ∧ ((dieParts u die).find? (·.no == part) = some e) :=
  ⟨atPart State.reset 4, _, 4, 0, 1, part1, by decide +kernel, by decide +kernel, rfl, by decide +kernel⟩

theorem meets_PartitionCommandsComplete_2 : ∃ (s u : State) (ini die part : Nat) (e : PartEntry), (part < 64) ∧ (writeOkAt s ini (icPage die + 0x050) (partWord 2 part) = true) ∧ (u = storedAt s (icPage die + 0x050) (partWord 2 part)) ∧ ((dieParts u die).find? (·.no == part) = some e) :=
  ⟨atPart State.reset 3, _, 4, 0, 1, part1, by decide +kernel, by decide +kernel, rfl, by decide +kernel⟩

theorem meets_PartitionCommandsComplete_3 : ∃ (s u : State) (ini die part : Nat) (e : PartEntry), (part < 64) ∧ (writeOkAt s ini (icPage die + 0x050) (partWord 3 part) = true) ∧ (u = storedAt s (icPage die + 0x050) (partWord 3 part)) ∧ ((dieParts u die).find? (·.no == part) = some e) :=
  ⟨atPart State.reset 3, _, 4, 0, 1, part1, by decide +kernel, by decide +kernel, rfl, by decide +kernel⟩

theorem meets_PartitionCommandsComplete_4 : ∃ (s u : State) (ini die part : Nat) (e : PartEntry), (part < 64) ∧ (writeOkAt s ini (icPage die + 0x050) (partWord 4 part) = true) ∧ (u = storedAt s (icPage die + 0x050) (partWord 4 part)) ∧ ((dieParts u die).find? (·.no == part) = some e) :=
  ⟨atPart State.reset 2, _, 4, 0, 1, part1, by decide +kernel, by decide +kernel, rfl, by decide +kernel⟩

theorem meets_PartitionCommandsComplete_5 : ∃ (s u : State) (ini die part : Nat) (e : PartEntry), (part < 64) ∧ (writeOkAt s ini (icPage die + 0x050) (partWord 5 part) = true) ∧ (u = storedAt s (icPage die + 0x050) (partWord 5 part)) ∧ ((dieParts u die).find? (·.no == part) = some e) :=
  ⟨atPart State.reset 2, _, 4, 0, 1, part1, by decide +kernel, by decide +kernel, rfl, by decide +kernel⟩

theorem meets_PartitionCommandsComplete_6 : ∃ (s u : State) (die part : Nat) (e : PartEntry), ((dieParts s die).find? (·.no == part) = some e) ∧ (s.part.releasing.contains part = true) ∧ (releasePassed s e = true) ∧ (u = { s with part := { s.part with releasing := setDel s.part.releasing part } }) :=
  ⟨{ atPart State.reset 2 with part := { parts := [part1], releasing := [1] } }, _, 0, 1, part1, by decide +kernel, by decide +kernel, by decide +kernel, rfl⟩

theorem meets_PartialLoadComplete_1 : ∃ (s u v : State) (die : Nat) (word : BitVec 64) (last : Bool) (l : IcpLoad), (icpReady s die = true) ∧ (u = (if (icpLoad s die).isSome then s else icpBegin s die)) ∧ (icpLoad u die = some l) ∧ (l.entered = false) ∧ (icpWordBad l word last = none) ∧ (v = icpPut u die { l with bytes := l.bytes + 8, last := last, buf := l.buf ++ [] }) :=
  ⟨icpOn, _, _, 0, 7, false, { }, by decide +kernel, rfl, by decide +kernel, by decide +kernel, by decide +kernel, rfl⟩

theorem meets_PartialLoadComplete_2 : ∃ (s v : State) (die : Nat) (word : BitVec 64) (last : Bool) (l : IcpLoad), (icpReady s die = true) ∧ (icpLoad s die = some l) ∧ (l.entered = true) ∧ (icpWordBad l word last = none) ∧ (v = icpPut s die { l with bytes := l.bytes + 8, last := last, buf := l.buf ++ icpBytes l word }) :=
  ⟨icpAt icpOn { bytes := 8192, entered := true, hdr := { imageLen := 8196 } }, _, 0, 0xFFFFFFFF, true, { bytes := 8192, entered := true, hdr := { imageLen := 8196 } }, by decide +kernel, by decide +kernel, by decide +kernel, by decide +kernel, rfl⟩

theorem meets_PartialLoadComplete_3 : ∃ (s u v : State) (die : Nat) (word : BitVec 64) (last : Bool) (l : IcpLoad) (r : Nat), (icpReady s die = true) ∧ (u = (if (icpLoad s die).isSome then s else icpBegin s die)) ∧ (icpLoad u die = some l) ∧ (icpWordBad l word last = some r) ∧ (v = icpPut u die { l with bytes := l.bytes + 8, last := last, buf := l.buf ++ (if l.entered then icpBytes l word else []) }) :=
  ⟨icpOn, _, _, 0, 7, true, { }, 0xB, by decide +kernel, rfl, by decide +kernel, by decide +kernel, rfl⟩

theorem meets_PartialLoadComplete_4 : ∃ (s : State) (die : Nat), ((icpLoad s die).isSome = true) ∧ (flag s (icPage die) IC_STAT_RELOAD = false) :=
  ⟨icpAt icpOn { }, 0, by decide +kernel, by decide +kernel⟩

theorem meets_PartialLoadComplete_5 : ∃ (s : State) (die : Nat) (l : IcpLoad), (icpLoad s die = some l) ∧ (flag s (icPage die) IC_STAT_RELOAD = false) :=
  ⟨icpAt icpOn { }, 0, { }, by decide +kernel, by decide +kernel⟩

theorem meets_PartialLoadComplete_6 : ∃ (s : State) (die : Nat) (h : Header) (keyHash : Nat) (sigOk : Bool) (nodes : List (BitVec 256)) (l : IcpLoad) (r : Nat), (icpLoad s die = some l) ∧ (l.entered = false) ∧ (flag s (icPage die) IC_STAT_RELOAD = false) ∧ (partialResult s die h keyHash sigOk = some r) ∧ ((if r < 5 then 1024 else 4097) ≤ l.bytes) :=
  ⟨icpAt icpOn { bytes := 1024 }, 0, { }, 0, true, [], { bytes := 1024 }, 1, by decide +kernel, by decide +kernel, by decide +kernel, by decide +kernel, by decide +kernel⟩

theorem meets_PartialLoadComplete_7 : ∃ (s u : State) (die : Nat) (h : Header) (keyHash : Nat) (sigOk : Bool) (nodes : List (BitVec 256)) (l : IcpLoad) (e : PartEntry) (st : Nat), (icpLoad s die = some l) ∧ (l.entered = false) ∧ (flag s (icPage die) IC_STAT_RELOAD = false) ∧ (partialResult s die h keyHash sigOk = none) ∧ (4097 ≤ l.bytes) ∧ ((dieParts s die).find? (·.no == h.part.partNo) = some e) ∧ (u = putFlag (putF s (icPage die) IC_STAT_PART h.part.partNo) (icPage die) IC_STAT_SIGCHK false) ∧ (st = partStateOn u die e.no) :=
  ⟨icpAt { icpOn with part := { icpOn.part with parts := [part1L] }, sec := { slots := [{ hash := 7, valid := true }] } } { bytes := 4104 }, _, 0, hdrPart, 7, true, [], { bytes := 4104 }, part1L, _, by decide +kernel, by decide +kernel, by decide +kernel, by decide +kernel, by decide +kernel, by decide +kernel, rfl, rfl⟩

theorem meets_PartialLoadComplete_8 : ∃ (s : State) (die : Nat) (l : IcpLoad) (e : PartEntry) (n : Nat), (icpLoad s die = some l) ∧ (partEntry s (getF s (icPage die) IC_STAT_PART) = some e) ∧ (l.entered = true) ∧ (flag s (icPage die) IC_STAT_RELOAD = false) ∧ (e.die = die) ∧ (scrubHolds s e = false) ∧ (l.prog.frames ≠ (icpStream l.hdr).frames) ∧ (n = min 256 ((icpStream l.hdr).frames - 256 * l.group)) :=
  ⟨icpAt (putF { icpOn with part := { icpOn.part with parts := [part1] } } (icPage 0) IC_STAT_PART 1) { bytes := 12800, entered := true, hdr := hdrPart, buf := List.replicate 260 0 }, 0, { bytes := 12800, entered := true, hdr := hdrPart, buf := List.replicate 260 0 }, part1, _, by decide +kernel, by decide +kernel, by decide +kernel, by decide +kernel, by decide +kernel, by decide +kernel, by decide +kernel, rfl⟩

theorem meets_PartialLoadComplete_9 : ∃ (s : State) (die g : Nat) (rest : List Nat) (recs : List ImgRec) (l : IcpLoad) (e : PartEntry) (x : StreamDesc), (icpLoad s die = some l) ∧ (partEntry s (getF s (icPage die) IC_STAT_PART) = some e) ∧ (l.todo = g :: rest) ∧ (flag s (icPage die) IC_STAT_RELOAD = true) ∧ (e.die = die) ∧ (scrubHolds s e = false) ∧ (x = hdrStream s.load.hdr die) ∧ (recs.length = min 256 (x.frames - 256 * (g - x.firstGroup))) :=
  ⟨putFlag (icpAt (putF { State.reset with part := { parts := [part1] }, load := { hdr := hdrFull } } (icPage 0) IC_STAT_PART 1) { entered := true, todo := [1] }) (icPage 0) IC_STAT_RELOAD true, 0, 1, [], [{ }], { entered := true, todo := [1] }, part1, _, by decide +kernel, by decide +kernel, by decide +kernel, by decide +kernel, by decide +kernel, by decide +kernel, rfl, by decide +kernel⟩

theorem meets_LeControlRowsComplete_1 : ∃ (s : State) (die eng : Nat) (i : LeInstr), (issues s die eng i = true) ∧ (i.c = .nop) :=
  ⟨leAt (cI .nop), 0, 0, cI .nop, by decide +kernel, by decide +kernel⟩

theorem meets_LeControlRowsComplete_2 : ∃ (s : State) (die eng : Nat) (i : LeInstr), (issues s die eng i = true) ∧ (i.c = .end_) :=
  ⟨leAt (cI .end_), 0, 0, cI .end_, by decide +kernel, by decide +kernel⟩

theorem meets_LeControlRowsComplete_3 : ∃ (s : State) (die eng : Nat) (i : LeInstr) (t : Nat), (issues s die eng i = true) ∧ (i.c = .br 0 t) :=
  ⟨leAt (cI (.br 0 5)), 0, 0, cI (.br 0 5), 5, by decide +kernel, by decide +kernel⟩

theorem meets_LeControlRowsComplete_4 : ∃ (s : State) (die eng : Nat) (i : LeInstr) (t : Nat), (issues s die eng i = true) ∧ (i.c = .br 1 t) :=
  ⟨leAt (cI (.br 1 5)), 0, 0, cI (.br 1 5), 5, by decide +kernel, by decide +kernel⟩

theorem meets_LeControlRowsComplete_5 : ∃ (s : State) (die eng : Nat) (i : LeInstr) (t : Nat), (issues s die eng i = true) ∧ (i.c = .br 2 t) :=
  ⟨leAt (cI (.br 2 5)), 0, 0, cI (.br 2 5), 5, by decide +kernel, by decide +kernel⟩

theorem meets_LeControlRowsComplete_6 : ∃ (s : State) (die eng : Nat) (i : LeInstr) (t : Nat), (issues s die eng i = true) ∧ (i.c = .br 3 t) :=
  ⟨leAt (cI (.br 3 5)), 0, 0, cI (.br 3 5), 5, by decide +kernel, by decide +kernel⟩

theorem meets_LeControlRowsComplete_7 : ∃ (s : State) (die eng : Nat) (i : LeInstr) (t : Nat), (issues s die eng i = true) ∧ (i.c = .br 4 t) :=
  ⟨leAt (cI (.br 4 5)), 0, 0, cI (.br 4 5), 5, by decide +kernel, by decide +kernel⟩

theorem meets_LeControlRowsComplete_8 : ∃ (s : State) (die eng : Nat) (i : LeInstr) (t : Nat), (issues s die eng i = true) ∧ (i.c = .br 5 t) :=
  ⟨leAt (cI (.br 5 2047)), 0, 0, cI (.br 5 2047), 2047, by decide +kernel, by decide +kernel⟩

theorem meets_LeControlRowsComplete_9 : ∃ (s : State) (die eng : Nat) (i : LeInstr) (t : Nat), (issues s die eng i = true) ∧ (i.c = .call t) :=
  ⟨leAt (cI (.call 7)), 0, 0, cI (.call 7), 7, by decide +kernel, by decide +kernel⟩

theorem meets_LeControlRowsComplete_10 : ∃ (s : State) (die eng : Nat) (i : LeInstr), (issues s die eng i = true) ∧ (i.c = .ret) :=
  ⟨leAt (cI .ret), 0, 0, cI .ret, by decide +kernel, by decide +kernel⟩

theorem meets_LeControlRowsComplete_11 : ∃ (s : State) (die eng : Nat) (i : LeInstr) (t : Nat), (issues s die eng i = true) ∧ (i.c = .lexit t) :=
  ⟨leAt (cI (.lexit 7)), 0, 0, cI (.lexit 7), 7, by decide +kernel, by decide +kernel⟩

theorem meets_LeControlRowsComplete_12 : ∃ (s : State) (die eng : Nat) (i : LeInstr) (r len : Nat), (issues s die eng i = true) ∧ (i.c = .loopd r len) :=
  ⟨leAt (cI (.loopd 3 127)), 0, 0, cI (.loopd 3 127), 3, 127, by decide +kernel, by decide +kernel⟩

theorem meets_LeControlRowsComplete_13 : ∃ (s : State) (die eng : Nat) (i : LeInstr) (len n : Nat), (issues s die eng i = true) ∧ (i.c = .loopi len n) :=
  ⟨leAt (cI (.loopi 4 65535)), 0, 0, cI (.loopi 4 65535), 4, 65535, by decide +kernel, by decide +kernel⟩

theorem meets_LeControlRowsComplete_14 : ∃ (s : State) (die eng : Nat) (i : LeInstr) (reg r : Nat), (issues s die eng i = true) ∧ (i.c = .movto reg r) :=
  ⟨leAt (cI (.movto 0x21 3)), 0, 0, cI (.movto 0x21 3), 0x21, 3, by decide +kernel, by decide +kernel⟩

theorem meets_LeControlRowsComplete_15 : ∃ (s : State) (die eng : Nat) (i : LeInstr) (reg r : Nat), (issues s die eng i = true) ∧ (i.c = .movfrom reg r) :=
  ⟨leAt (cI (.movfrom 0x58 15)), 0, 0, cI (.movfrom 0x58 15), 0x58, 15, by decide +kernel, by decide +kernel⟩

theorem meets_LeControlRowsComplete_16 : ∃ (s : State) (die eng : Nat) (i : LeInstr) (reg imm : Nat), (issues s die eng i = true) ∧ (i.c = .setr reg imm) :=
  ⟨leAt (cI (.setr 0x0F 0xFFFFFF)), 0, 0, cI (.setr 0x0F 0xFFFFFF), 0x0F, 0xFFFFFF, by decide +kernel, by decide +kernel⟩

theorem meets_LeControlRowsComplete_17 : ∃ (s : State) (die eng : Nat) (i : LeInstr) (k : Nat), (issues s die eng i = true) ∧ (i.c = .ngo k) :=
  ⟨leAt (cI (.ngo 3)), 0, 0, cI (.ngo 3), 3, by decide +kernel, by decide +kernel⟩

theorem meets_LeControlRowsComplete_18 : ∃ (s : State) (die eng : Nat) (i : LeInstr) (mask : Nat), (issues s die eng i = true) ∧ (i.c = .nwait mask) :=
  ⟨leAt (cI (.nwait 15)), 0, 0, cI (.nwait 15), 15, by decide +kernel, by decide +kernel⟩

theorem meets_LeControlRowsComplete_19 : ∃ (s : State) (die eng : Nat) (i : LeInstr) (mask : Nat), (issues s die eng i = true) ∧ (i.c = .clrf mask) :=
  ⟨leAt (cI (.clrf 255)), 0, 0, cI (.clrf 255), 255, by decide +kernel, by decide +kernel⟩

theorem meets_LeControlRowsComplete_20 : ∃ (s : State) (die eng : Nat) (i : LeInstr), (atInstr s die eng i = true) ∧ (i.c = .trap) ∧ (leIllegal (leFetched s die eng) die eng (engOf (leFetched s die eng) die eng) i = false) :=
  ⟨leAt (cI .trap), 0, 0, cI .trap, by decide +kernel, by decide +kernel, by decide +kernel⟩

theorem meets_LeDataRowsComplete_1 : ∃ (s : State) (die eng : Nat) (w : LeInstr) (y : Bool), (issues s die eng w = true) ∧ (slotOf w y = .nop) :=
  ⟨leAt (xI .nop), 0, 0, xI .nop, false, by decide +kernel, by decide +kernel⟩

theorem meets_LeDataRowsComplete_2 : ∃ (s : State) (die eng : Nat) (w : LeInstr) (y : Bool) (port g : Nat), (issues s die eng w = true) ∧ (slotOf w y = .pop port g) :=
  ⟨leAt (xI (.pop 0 3)), 0, 0, xI (.pop 0 3), false, 0, 3, by decide +kernel, by decide +kernel⟩

theorem meets_LeDataRowsComplete_3 : ∃ (s : State) (die eng : Nat) (w : LeInstr) (y : Bool) (port g : Nat) (last : Bool), (issues s die eng w = true) ∧ (slotOf w y = .push port g last) :=
  ⟨leAt ({ xI .nop with y := .push 1 3 true }), 0, 0, { xI .nop with y := .push 1 3 true }, true, 1, 3, true, by decide +kernel, by decide +kernel⟩

theorem meets_LeDataRowsComplete_4 : ∃ (s : State) (die eng : Nat) (w : LeInstr) (y : Bool) (i am r : Nat) (q : Bool), (issues s die eng w = true) ∧ (slotOf w y = .ld i am r q) :=
  ⟨leAt (xI (.ld 7 1 12 true)), 0, 0, xI (.ld 7 1 12 true), false, 7, 1, 12, true, by decide +kernel, by decide +kernel⟩

theorem meets_LeDataRowsComplete_5 : ∃ (s : State) (die eng : Nat) (w : LeInstr) (y : Bool) (i am r : Nat) (q : Bool), (issues s die eng w = true) ∧ (slotOf w y = .st i am r q) :=
  ⟨leAt ({ xI .nop with y := .st 7 3 15 false }), 0, 0, { xI .nop with y := .st 7 3 15 false }, true, 7, 3, 15, false, by decide +kernel, by decide +kernel⟩

theorem meets_LeDataRowsComplete_6 : ∃ (s : State) (die eng : Nat) (w : LeInstr) (y : Bool) (i am : Nat), (issues s die eng w = true) ∧ (slotOf w y = .pmod i am) :=
  ⟨leAt (xI (.pmod 7 2)), 0, 0, xI (.pmod 7 2), false, 7, 2, by decide +kernel, by decide +kernel⟩

theorem meets_LeDataRowsComplete_7 : ∃ (s : State) (die eng : Nat) (i : LeInstr), (issues s die eng i = true) ∧ (i.m.mop = 0) :=
  ⟨leAt (cI .nop), 0, 0, cI .nop, by decide +kernel, by decide +kernel⟩

theorem meets_LeDataRowsComplete_8 : ∃ (s : State) (die eng : Nat) (i : LeInstr) (f : MFields), (issues s die eng i = true) ∧ (i.m = { mop := 1, f := f }) :=
  ⟨leAt (mI 1 { h := 1, ga := 3, bb := true, bs := 9, sa := true, sb := true, lm := 15, fs := true }), 0, 0, mI 1 { h := 1, ga := 3, bb := true, bs := 9, sa := true, sb := true, lm := 15, fs := true }, { h := 1, ga := 3, bb := true, bs := 9, sa := true, sb := true, lm := 15, fs := true }, by decide +kernel, by decide +kernel⟩

theorem meets_LeDataRowsComplete_9 : ∃ (s : State) (die eng : Nat) (i : LeInstr) (f : MFields), (issues s die eng i = true) ∧ (i.m = { mop := 2, f := f }) :=
  ⟨leAt (mI 2 { h := 1, ga := 3, bb := true, bs := 9, sa := true, sb := true, lm := 15, fs := true }), 0, 0, mI 2 { h := 1, ga := 3, bb := true, bs := 9, sa := true, sb := true, lm := 15, fs := true }, { h := 1, ga := 3, bb := true, bs := 9, sa := true, sb := true, lm := 15, fs := true }, by decide +kernel, by decide +kernel⟩

theorem meets_LeDataRowsComplete_10 : ∃ (s : State) (die eng : Nat) (i : LeInstr) (f : MFields), (issues s die eng i = true) ∧ (i.m = { mop := 3, f := f }) :=
  ⟨leAt (mI 3 { h := 1, ga := 3, bb := true, bs := 9, sa := true, sb := true, lm := 15, fs := true }), 0, 0, mI 3 { h := 1, ga := 3, bb := true, bs := 9, sa := true, sb := true, lm := 15, fs := true }, { h := 1, ga := 3, bb := true, bs := 9, sa := true, sb := true, lm := 15, fs := true }, by decide +kernel, by decide +kernel⟩

theorem meets_LeDataRowsComplete_11 : ∃ (s : State) (die eng : Nat) (i : LeInstr) (f : MFields), (issues s die eng i = true) ∧ (i.m = { mop := 4, f := f }) :=
  ⟨leAt (mI 4 { h := 1, lm := 15 }), 0, 0, mI 4 { h := 1, lm := 15 }, { h := 1, lm := 15 }, by decide +kernel, by decide +kernel⟩

theorem meets_LeDataRowsComplete_12 : ∃ (s : State) (die eng : Nat) (i : LeInstr) (f : MFields), (issues s die eng i = true) ∧ (i.m = { mop := 5, f := f }) :=
  ⟨leAt (mI 5 { h := 1, ga := 3, sa := true, lm := 15 }), 0, 0, mI 5 { h := 1, ga := 3, sa := true, lm := 15 }, { h := 1, ga := 3, sa := true, lm := 15 }, by decide +kernel, by decide +kernel⟩

theorem meets_LeDataRowsComplete_13 : ∃ (s : State) (die eng : Nat) (i : LeInstr) (f : MFields), (issues s die eng i = true) ∧ (i.m = { mop := 6, f := f }) :=
  ⟨leAt (mI 6 { h := 1, ga := 3, sa := true, lm := 15 }), 0, 0, mI 6 { h := 1, ga := 3, sa := true, lm := 15 }, { h := 1, ga := 3, sa := true, lm := 15 }, by decide +kernel, by decide +kernel⟩

theorem meets_LeDataRowsComplete_14 : ∃ (s : State) (die eng : Nat) (i : LeInstr) (f : MFields), (issues s die eng i = true) ∧ (i.m = { mop := 7, f := f }) :=
  ⟨leAt (mI 7 { h := 1, ga := 3, sa := true, lm := 15 }), 0, 0, mI 7 { h := 1, ga := 3, sa := true, lm := 15 }, { h := 1, ga := 3, sa := true, lm := 15 }, by decide +kernel, by decide +kernel⟩

theorem meets_LeDataRowsComplete_15 : ∃ (s : State) (die eng : Nat) (i : LeInstr) (f : MFields), (issues s die eng i = true) ∧ (i.m = { mop := 8, f := f }) :=
  ⟨leAt (mI 8 { h := 1, lm := 15 }), 0, 0, mI 8 { h := 1, lm := 15 }, { h := 1, lm := 15 }, by decide +kernel, by decide +kernel⟩

theorem meets_LeDataRowsComplete_16 : ∃ (s : State) (die eng : Nat) (i : LeInstr) (f : MFields), (issues s die eng i = true) ∧ (i.m = { mop := 9, f := f }) :=
  ⟨leAt (mI 9 { h := 1, lm := 15 }), 0, 0, mI 9 { h := 1, lm := 15 }, { h := 1, lm := 15 }, by decide +kernel, by decide +kernel⟩

theorem meets_LeDataRowsComplete_17 : ∃ (s : State) (die eng : Nat) (i : LeInstr) (f : MFields), (issues s die eng i = true) ∧ (i.m = { mop := 10, f := f }) :=
  ⟨leAt (mI 10 { h := 1, lm := 15 }), 0, 0, mI 10 { h := 1, lm := 15 }, { h := 1, lm := 15 }, by decide +kernel, by decide +kernel⟩

theorem meets_LeDataRowsComplete_18 : ∃ (s : State) (die eng : Nat) (i : LeInstr) (f : MFields), (issues s die eng i = true) ∧ (i.m = { mop := 11, f := f }) :=
  ⟨leAt (mI 11 { h := 1, lm := 15 }), 0, 0, mI 11 { h := 1, lm := 15 }, { h := 1, lm := 15 }, by decide +kernel, by decide +kernel⟩

theorem meets_LeDataRowsComplete_19 : ∃ (s : State) (die eng : Nat) (i : LeInstr) (f : MFields), (issues s die eng i = true) ∧ (i.m = { mop := 12, f := f }) :=
  ⟨leAt (mI 12 { h := 1, bs := 2, lm := 15 }), 0, 0, mI 12 { h := 1, bs := 2, lm := 15 }, { h := 1, bs := 2, lm := 15 }, by decide +kernel, by decide +kernel⟩

theorem meets_LeDataRowsComplete_20 : ∃ (s : State) (die eng : Nat) (i : LeInstr) (f : MFields), (issues s die eng i = true) ∧ (i.m = { mop := 13, f := f }) :=
  ⟨leAt (mI 13 { h := 1, bs := 2, lm := 15 }), 0, 0, mI 13 { h := 1, bs := 2, lm := 15 }, { h := 1, bs := 2, lm := 15 }, by decide +kernel, by decide +kernel⟩

theorem meets_LeDataRowsComplete_21 : ∃ (s : State) (die eng : Nat) (i : LeInstr) (f : MFields), (issues s die eng i = true) ∧ (i.m = { mop := 14, f := f }) :=
  ⟨leAt (mI 14 { h := 1, ga := 3, sa := true, lm := 15 }), 0, 0, mI 14 { h := 1, ga := 3, sa := true, lm := 15 }, { h := 1, ga := 3, sa := true, lm := 15 }, by decide +kernel, by decide +kernel⟩

theorem meets_LeDataRowsComplete_22 : ∃ (s : State) (die eng : Nat) (i : LeInstr) (f : MFields), (issues s die eng i = true) ∧ (i.m = { mop := 15, f := f }) :=
  ⟨leAt (mI 15 { h := 1, ga := 3, bs := 8, sa := true, lm := 15, aux := 2 }), 0, 0, mI 15 { h := 1, ga := 3, bs := 8, sa := true, lm := 15, aux := 2 }, { h := 1, ga := 3, bs := 8, sa := true, lm := 15, aux := 2 }, by decide +kernel, by decide +kernel⟩

theorem meets_LeDataRowsComplete_23 : ∃ (s : State) (die eng : Nat) (i : LeInstr) (f : MFields), (issues s die eng i = true) ∧ (i.m = { mop := 16, f := f }) :=
  ⟨leAt (mI 16 { h := 1, ga := 3, bs := 8, sa := true, lm := 15, aux := 2 }), 0, 0, mI 16 { h := 1, ga := 3, bs := 8, sa := true, lm := 15, aux := 2 }, { h := 1, ga := 3, bs := 8, sa := true, lm := 15, aux := 2 }, by decide +kernel, by decide +kernel⟩

theorem meets_LeDataRowsComplete_24 : ∃ (s : State) (die eng : Nat) (i : LeInstr) (f : MFields), (issues s die eng i = true) ∧ (i.m = { mop := 17, f := f }) :=
  ⟨leAt (mI 17 { h := 1, lm := 15 }), 0, 0, mI 17 { h := 1, lm := 15 }, { h := 1, lm := 15 }, by decide +kernel, by decide +kernel⟩

theorem meets_LeDataRowsComplete_25 : ∃ (s : State) (die eng : Nat) (i : LeInstr) (f : MFields), (issues s die eng i = true) ∧ (i.m = { mop := 18, f := f }) :=
  ⟨leAt (mI 18 { h := 1, lm := 15 }), 0, 0, mI 18 { h := 1, lm := 15 }, { h := 1, lm := 15 }, by decide +kernel, by decide +kernel⟩

theorem meets_EngineCommandsComplete_1 : ∃ (s : State) (ini die eng : Nat) (w : Word), (eng < 288) ∧ (writeOkAt s ini (lePage die eng + 0x064) w = true) :=
  ⟨leWith { mode := .idle }, 4, 0, 0, 5, by decide +kernel, by decide +kernel⟩

theorem meets_EngineCommandsComplete_2 : ∃ (s u : State) (r : State × Nat × Option Nat) (ini die eng : Nat), (eng < 288) ∧ (reaches s ini die (0x6000 + eng) 0x064 false = true) ∧ (u = reach s die (0x6000 + eng) 0x064 false) ∧ (r = mdataGet u die eng) ∧ (r.2.2 = none) :=
  ⟨leWith { mode := .idle }, _, _, 4, 0, 0, by decide +kernel, by decide +kernel, rfl, rfl, by decide +kernel⟩

theorem meets_EngineCommandsComplete_3 : ∃ (s u : State) (r : State × Nat × Option Nat) (ini die eng code : Nat), (eng < 288) ∧ (reaches s ini die (0x6000 + eng) 0x064 false = true) ∧ (u = reach s die (0x6000 + eng) 0x064 false) ∧ (r = mdataGet u die eng) ∧ (r.2.2 = some code) :=
  ⟨putF (leWith { mode := .idle }) (lePage 0 0) LE_MADDR_ADDR 0x3051, _, _, 4, 0, 0, 0x0001, by decide +kernel, by decide +kernel, rfl, rfl, by decide +kernel⟩

theorem meets_EngineCommandsComplete_4 : ∃ (s u : State) (ini die eng vec : Nat), (eng < 288) ∧ (writeOkAt s ini (lePage die eng + 0x04C) (BitVec.ofNat 32 (2 ^ 31 + vec % 8)) = true) ∧ (u = storedAt s (lePage die eng + 0x04C) (BitVec.ofNat 32 (2 ^ 31 + vec % 8))) :=
  ⟨putF (leWith { mode := .idle }) (lePage 0 0) LE_CFG_SRC_EN 7, _, 4, 0, 0, 15, by decide +kernel, by decide +kernel, rfl⟩

theorem meets_EngineCommandsComplete_5 : ∃ (s u : State) (ini die eng : Nat), (eng < 288) ∧ (writeOkAt s ini (lePage die eng + 0x04C) 0x40000000 = true) ∧ (u = storedAt s (lePage die eng + 0x04C) 0x40000000) :=
  ⟨leWith { mode := .run, cur := some { src := .fabric, vec := 0, arg := 0 } }, _, 4, 0, 0, by decide +kernel, by decide +kernel, rfl⟩

theorem meets_EngineCommandsComplete_6 : ∃ (s u : State) (ini die eng : Nat), (eng < 288) ∧ (writeOkAt s ini (lePage die eng + 0x04C) 0x20000000 = true) ∧ (u = storedAt s (lePage die eng + 0x04C) 0x20000000) ∧ ((engOf u die eng).mode = .exc) :=
  ⟨leWith { mode := .exc }, _, 4, 0, 0, by decide +kernel, by decide +kernel, rfl, by decide +kernel⟩

theorem meets_EngineCommandsComplete_7 : ∃ (s : State) (die eng vec : Nat) (arg : BitVec 24), (portsLive s die eng = true) ∧ ((domOf s die (16 + eng / 72)).state < 2) ∧ (startRefused s die eng 0 = none) :=
  ⟨putF (putFlag (leRunning { mode := .idle }) (lePage 0 0) PG_CTRL_ENABLE true) (lePage 0 0) LE_CFG_SRC_EN 7, 0, 0, 15, 3, by decide +kernel, by decide +kernel, by decide +kernel⟩

theorem meets_EngineCommandsComplete_8 : ∃ (s : State) (die eng vec : Nat) (arg : BitVec 24), (portsLive s die eng = true) ∧ (2 ≤ (domOf s die (16 + eng / 72)).state) :=
  ⟨setDom (putF (putFlag (leRunning { mode := .idle }) (lePage 0 0) PG_CTRL_ENABLE true) (lePage 0 0) LE_CFG_SRC_EN 7) 0 16 { state := 2 }, 0, 0, 15, 3, by decide +kernel, by decide +kernel⟩

theorem meets_EngineCommandsComplete_9 : ∃ (s u v : State) (die eng : Nat) (a : LeStart) (q : List LeStart) (r : Nat × Nat) (y : Engine), ((engOf s die eng).startq = a :: q) ∧ ((engOf s die eng).mode = .idle) ∧ (leFrozen s die eng = false) ∧ (gateShut s (16 + die) = false) ∧ (r = eccRead (imemWord (engOf s die eng) a.vec)) ∧ (u = putF (setOpen (shadowApply s (lePage die eng)) die eng false) (lePage die eng) LE_PC_SRC (srcCode a.src)) ∧ (v = (if r.2 = 1 then evtPulse (countUp u (lePage die eng) LE_ERR_SBE 1) (lePage die eng) 3 else u)) ∧ (y = { engOf s die eng with startq := q, cur := some a, mode := .run, ending := none, stall := 0, bpPassed := none, haz := [] }) :=
  ⟨leWith { mode := .idle, startq := [{ src := .software, vec := 3, arg := 1 }] }, _, _, 0, 0, { src := .software, vec := 3, arg := 1 }, [], _, _, by decide +kernel, by decide +kernel, by decide +kernel, by decide +kernel, rfl, rfl, rfl, rfl⟩

theorem meets_EngineCommandsComplete_10 : ∃ (s : State) (die set : Nat), (setIdle s die set = true) ∧ (s.le.gated.contains (setKey die set) = false) :=
  ⟨[0, 1, 2, 3].foldl (fun s k => putFlag s (lePage 0 k) LE_CFG_AUTOGATE true) State.reset, 0, 0, by decide +kernel, by decide +kernel⟩

theorem meets_EngineEventsComplete_1 : ∃ (s : State) (die eng : Nat) (y : Engine), ((engOf s die eng).ending.isSome = true) ∧ (((engOf s die eng).descs.any fun (d : Nat × LeDesc) => d.2.ofRun && d.2.busy) = false) ∧ (gateShut s (16 + die) = false) ∧ (y = engOf s die eng) :=
  ⟨leWith { mode := .run, ending := some .ok }, 0, 0, _, by decide +kernel, by decide +kernel, by decide +kernel, rfl⟩

theorem meets_EngineEventsComplete_2 : ∃ (s : State) (die eng : Nat), ((engOf s die eng).mode = .run) ∧ ((engOf s die eng).stall ≠ 0 ∧ (engOf s die eng).stall ≤ 3) ∧ (gateShut s (16 + die) = false) ∧ (getF s (lePage die eng) LE_CFG_STALL_TMO ≠ 0) :=
  ⟨putF (leWith { mode := .run, stall := 1 }) (lePage 0 0) LE_CFG_STALL_TMO 5, 0, 0, by decide +kernel, by decide +kernel, by decide +kernel, by decide +kernel⟩

theorem meets_EngineEventsComplete_3 : ∃ (s : State) (die eng port : Nat) (data : BitVec 96) (last : Bool), (portsLive s die eng = true) ∧ (portEn s die eng (port % 2) = true) ∧ ((engOf s die eng).mode ≠ .off ∧ (engOf s die eng).mode ≠ .direct) ∧ ((if port % 2 = 0 then (engOf s die eng).si0 else (engOf s die eng).si1).length < 8) :=
  ⟨leRunning { mode := .idle }, 0, 0, 1, 5, true, by decide +kernel, by decide +kernel, by decide +kernel, by decide +kernel⟩

theorem meets_EngineEventsComplete_4 : ∃ (s : State) (die eng port : Nat), (portsLive s die eng = true) ∧ (portEn s die eng (2 + port % 2) = true) :=
  ⟨leRunning { mode := .idle, so0 := [{ data := 5, last := true }] }, 0, 0, 0, by decide +kernel, by decide +kernel⟩

theorem meets_EngineEventsComplete_5 : ∃ (s : State) (x : Engine) (d : LeDesc) (die eng k : Nat) (bs : List Byte), (x = engOf s die eng) ∧ (d = leDesc x k) ∧ (d.busy = true) ∧ (d.resp = some (0, bs)) :=
  ⟨leWith { mode := .run, descs := [(2, { busy := true, count := 1, resp := some (0, [7, 0, 0, 0]) })] }, _, _, 0, 0, 2, [7, 0, 0, 0], rfl, rfl, by decide +kernel, by decide +kernel⟩

theorem meets_EngineEventsComplete_6 : ∃ (s : State) (d : LeDesc) (die eng k code : Nat) (bs : List Byte), (d = leDesc (engOf s die eng) k) ∧ (d.busy = true) ∧ (d.resp = some (code, bs)) ∧ (code ≠ 0) :=
  ⟨leWith { mode := .run, descs := [(2, { busy := true, count := 1, resp := some (3, []) })] }, _, 0, 0, 2, 3, [], rfl, by decide +kernel, by decide +kernel, by decide +kernel⟩

theorem meets_EngineEventsComplete_7 : ∃ (s : State) (die eng op : Nat) (a b : BitVec 96) (hi : Bool) (r : Engine × BitVec 96), ((engOf s die eng).mode = .direct) ∧ (gateShut s (16 + die) = false) ∧ (enabled s (lePage die eng) = true) ∧ (sclk s die eng = true) ∧ (1 ≤ op ∧ op ≤ 4) ∧ (r = directEdge (leMd s (lePage die eng)) (engOf s die eng) a b op hi) :=
  ⟨putFlag (leRunning { mode := .direct }) (lePage 0 0) PG_CTRL_ENABLE true, 0, 0, 2, 1, 1, true, _, by decide +kernel, by decide +kernel, by decide +kernel, by decide +kernel, by decide +kernel, rfl⟩

theorem meets_EngineEventsComplete_8 : ∃ (s : State) (die eng : Nat), ((engOf s die eng).mode = .run) ∧ ((engOf s die eng).ending = none) ∧ (bpHere s (lePage die eng) (engOf s die eng) = true) :=
  ⟨putFlag (leWith { mode := .run }) (lePage 0 0) (LE_BP_EN.nth 0) true, 0, 0, by decide +kernel, by decide +kernel, by decide +kernel⟩

theorem meets_EngineEventsComplete_9 : ∃ (s : State) (die eng : Nat), ((engOf s die eng).watchHit = true) :=
  ⟨leWith { mode := .run, watchHit := true }, 0, 0, by decide +kernel⟩

theorem meets_PacketsComplete_1 : ∃ (s : State) (p : Packet), (inFlight s p = true) ∧ (p.cmd = 0) ∧ (inOrder s p = true) :=
  ⟨inNet { cmd := 0, dst := 2048 }, { cmd := 0, dst := 2048 }, by decide +kernel, by decide +kernel, by decide +kernel⟩

theorem meets_PacketsComplete_2 : ∃ (s : State) (p : Packet), (inFlight s p = true) ∧ (p.cmd = 1) ∧ (inOrder s p = true) :=
  ⟨inNet { cmd := 1, dst := 2048 }, { cmd := 1, dst := 2048 }, by decide +kernel, by decide +kernel, by decide +kernel⟩

theorem meets_PacketsComplete_3 : ∃ (s : State) (p : Packet), (inFlight s p = true) ∧ (p.cmd = 2) ∧ (inOrder s p = true) :=
  ⟨inNet { cmd := 2, dst := 2048 }, { cmd := 2, dst := 2048 }, by decide +kernel, by decide +kernel, by decide +kernel⟩

theorem meets_PacketsComplete_4 : ∃ (s : State) (p : Packet), (inFlight s p = true) ∧ (p.cmd = 3) ∧ (inOrder s p = true) :=
  ⟨inNet { cmd := 3, dst := 2048 }, { cmd := 3, dst := 2048 }, by decide +kernel, by decide +kernel, by decide +kernel⟩

theorem meets_PacketsComplete_5 : ∃ (s : State) (p : Packet) (lat : Nat) (o : Outst), (inFlight s p = true) ∧ ((flightDel s p).noc.outst.find? (fun o => iniNode o.ini == p.dst && o.tag == p.tag) = some o) :=
  ⟨{ inNet { cmd := 4, dst := iniNode 0, tag := 3 } with noc := { (inNet { cmd := 4, dst := iniNode 0, tag := 3 }).noc with outst := [outst0] } }, { cmd := 4, dst := iniNode 0, tag := 3 }, 9, outst0, by decide +kernel, by decide +kernel⟩

theorem meets_PacketsComplete_6 : ∃ (s : State) (p : Packet) (i : Nat), (inFlight s p = true) ∧ (nodeIni p.dst = some i) :=
  ⟨inNet { cmd := 5, dst := iniNode 0, arg0 := 2 }, { cmd := 5, dst := iniNode 0, arg0 := 2 }, 0, by decide +kernel, by decide +kernel⟩

theorem meets_PacketsComplete_7 : ∃ (s u : State) (p : Packet) (die : Nat) (r : State × Nat), (inFlight s p = true) ∧ (p.cmd = 8) ∧ (die = nodeDie p.dst) ∧ (u = (if isFabric die then cdReopen (flightDel s p) (24 + die) else if isLane die then cdReopen (flightDel s p) (32 + die - 9) else flightDel s p)) ∧ ((isolated u die && getF u DI (DI_STAT_STATE.nth die) = 1) = false) ∧ ((p.poison || p.chkBad) = false) ∧ (r = cfgFrame u die p.addr (BitVec.ofNat 2048 (ofBytes p.data))) :=
  ⟨inNet { cmd := 8, dst := 5 }, _, { cmd := 8, dst := 5 }, _, _, by decide +kernel, by decide +kernel, rfl, rfl, by decide +kernel, by decide +kernel, rfl⟩

theorem meets_PacketsComplete_8 : ∃ (s : State) (p : Packet), (inFlight s p = true) ∧ (p.cmd = 9) ∧ (isDrain p = false) :=
  ⟨inNet { cmd := 9, src := 3 }, { cmd := 9, src := 3 }, by decide +kernel, by decide +kernel, by decide +kernel⟩

theorem meets_PacketsComplete_9 : ∃ (s : State) (p : Packet), (inFlight s p = true) ∧ (p.cmd = 9) ∧ (isDrain p = true) :=
  ⟨inNet (drainPkt 2048 0), drainPkt 2048 0, by simp [inFlight, inNet, samePkt], by rfl, by simp [isDrain, drainPkt]⟩

theorem meets_PacketsComplete_10 : ∃ (s : State) (p : Packet), (inFlight s p = true) ∧ (p.cmd = 10) ∧ ((p.src ≠ 72 ∧ p.src ≠ 73) ∨ p.code = 0) :=
  ⟨inNet { cmd := 10, src := 72 }, { cmd := 10, src := 72 }, by decide +kernel, by decide +kernel, by decide +kernel⟩

theorem meets_PacketsComplete_11 : ∃ (s u : State) (p : Packet) (die : Nat), (inFlight s p = true) ∧ (p.cmd = 10) ∧ (p.src = 72 ∨ p.src = 73) ∧ (p.code ≠ 0) ∧ (die = nodeDie p.srcNode) ∧ (u = drainAnswered (mrspTaken s p) p) ∧ (rejoinAt u die 3 = true) :=
  ⟨putF (putF (inNet { cmd := 10, src := 72, code := 4, srcNode := 512 }) DI (DI_STAT_STATE.nth 2) 2) DI (DI_STAT_STEP.nth 2) 3, _, { cmd := 10, src := 72, code := 4, srcNode := 512 }, _, by decide +kernel, by decide +kernel, by decide +kernel, by decide +kernel, rfl, rfl, by decide +kernel⟩

theorem meets_PacketsComplete_12 : ∃ (s : State) (a : Access), (mayAccess s a = true) :=
  ⟨setHart State.reset 0 { running := true }, { ini := 0, kind := 0, addr := 0, size := 4 }, by decide +kernel⟩

theorem meets_PacketsComplete_13 : ∃ (s u : State) (h r : State × Packet) (node port flaw : Nat) (p : Packet), (nodeRtr node < routerCount (nodeDie node)) ∧ (nodeEp node = 0) ∧ (inFlight s p = true) ∧ (seamAt (nodeDie node) (nodeRtr node) port = none) ∧ (flaw ≠ 3) ∧ (h = hiddenCheck (watchHead s (nodePage node) port p) (nodePage node) port flaw p) ∧ (r = routerCheck h.1 (nodePage node) port h.2) ∧ (u = flightUrg r.1 r.2) :=
  ⟨inNet { cmd := 1, dst := 2048 }, _, _, _, 2048, 0, 2, { cmd := 1, dst := 2048 }, by decide +kernel, by decide +kernel, by decide +kernel, by decide +kernel, by decide +kernel, rfl, rfl, rfl⟩

theorem meets_PacketsComplete_14 : ∃ (s : State) (node port : Nat) (p : Packet), (nodeRtr node < routerCount (nodeDie node)) ∧ (nodeEp node = 0) ∧ (inFlight s p = true) ∧ (seamAt (nodeDie node) (nodeRtr node) port = none) :=
  ⟨inNet { cmd := 1, dst := 2048 }, 2048, 0, { cmd := 1, dst := 2048 }, by decide +kernel, by decide +kernel, by decide +kernel, by decide +kernel⟩

theorem meets_PacketsComplete_15 : ∃ (s : State) (node port m k flaw : Nat) (p : Packet), (nodeRtr node < routerCount (nodeDie node)) ∧ (nodeEp node = 0) ∧ (inFlight s p = true) ∧ (seamAt (nodeDie node) (nodeRtr node) port = some (m, k)) ∧ (seamQReady s (nodeDie node) m k p = true) :=
  ⟨setEp (inNet { cmd := 1, dst := 2048 }) 8 8 { links := [(0, { queue := [(1, [packetHeader { cmd := 1, dst := 2048 }])] })] }, 2048, 2, 8, 0, 1, { cmd := 1, dst := 2048 }, by decide +kernel, by decide +kernel, by decide +kernel, by decide +kernel, by decide +kernel⟩

theorem meets_PacketsComplete_16 : ∃ (s u : State) (node : Nat), (getF s (nodePage node) NR_CFG_AGE ≠ 0) ∧ (u = { s with noc := { s.noc with heads := s.noc.heads.map (fun (h : HeadWait) =>
        if h.node = node && h.out.isNone then { h with pkt := { h.pkt with urg := min 7 (h.pkt.urg + 1) } } else h) } }) :=
  ⟨putF State.reset (nodePage 2048) NR_CFG_AGE 5, _, 2048, by decide +kernel, rfl⟩

theorem meets_PacketsComplete_18 : ∃ (s : State) (ini target : Nat), (quotaOf s ini target ≠ 0) ∧ (pairDeferred s ini target = false) ∧ ((s.noc.outst.any fun o => bridgeId o.ini = bridgeId ini && o.target = target) = false) :=
  ⟨State.reset, 0, 0, by decide +kernel, by decide +kernel, by decide +kernel⟩

theorem meets_NetworkControlComplete_1 : ∃ (s u : State) (ini : Nat), (writeOkAt s ini (RT + 0x04C) 0x80000000 = true) ∧ (u = storedAt s (RT + 0x04C) 0x80000000) :=
  ⟨State.reset, _, 4, by decide +kernel, rfl⟩

theorem meets_NetworkControlComplete_2 : ∃ (s u : State) (ini : Nat), (writeOkAt s ini (RT + 0x04C) 0x80000001 = true) ∧ (u = storedAt s (RT + 0x04C) 0x80000001) :=
  ⟨State.reset, _, 4, by decide +kernel, rfl⟩

theorem meets_NetworkControlComplete_3 : ∃ (s : State) (node : Nat) (p : Packet) (t : RouteTab), ((s.noc.flight.find? fun p => isDrain p && p.dst = node) = some p) ∧ (drainBlock (flightDel s p) p.dst p.tag = some t) ∧ (isolated (flightDel s p) (nodeDie p.dst) = false) :=
  ⟨{ State.reset with noc := { flight := [drainPkt 2048 0], run := some { blocks := [tab0], apply := true } } }, 2048, drainPkt 2048 0, tab0, by simp [isDrain, drainPkt], by decide +kernel, by decide +kernel⟩

theorem meets_NetworkControlComplete_4 : ∃ (s : State) (node : Nat) (p : Packet), ((s.noc.flight.find? fun p => isDrain p && p.dst = node) = some p) ∧ (drainBlock (flightDel s p) p.dst p.tag = none ∨ isolated (flightDel s p) (nodeDie p.dst) = true) :=
  ⟨{ State.reset with noc := { flight := [drainPkt 2048 0] } }, 2048, drainPkt 2048 0, by simp [isDrain, drainPkt], by decide +kernel⟩

theorem meets_NetworkControlComplete_5 : ∃ (s u v : State) (node : Nat) (r : RouteRun) (t : RouteTab), ((tabGet s.noc.drainNew node).join = some t) ∧ (s.noc.run = some r) ∧ (drainBusy s node = false) ∧ (u = { s with noc := { s.noc with drainNew := tabDel s.noc.drainNew node, routes := tabPut s.noc.routes node (some t), loose := s.noc.flight } }) ∧ (v = putFlag (putF u (nodePage node) NR_STAT_EPOCH ((getF u (nodePage node) NR_STAT_EPOCH + 1) % 4096)) (nodePage node) NR_STAT_DRAINING false) :=
  ⟨{ State.reset with noc := { drainNew := [(2048, some tab0)], run := some { blocks := [tab0], apply := true } } }, _, _, 2048, { blocks := [tab0], apply := true }, tab0, by decide +kernel, by decide +kernel, by decide +kernel, rfl, rfl⟩

theorem meets_NetworkControlComplete_6 : ∃ (s u : State) (node : Nat) (r : RouteRun) (t : RouteTab), ((tabGet s.noc.drainNew node).join = some t) ∧ (s.noc.run = some r) ∧ (u = { s with noc := { s.noc with drainNew := tabDel s.noc.drainNew node } }) :=
  ⟨{ State.reset with noc := { drainNew := [(2048, some tab0)], run := some { blocks := [tab0], apply := true } } }, _, 2048, { blocks := [tab0], apply := true }, tab0, by decide +kernel, by decide +kernel, rfl⟩

theorem meets_NetworkControlComplete_7 : ∃ (s : State) (ini k : Nat) (w : Word), (k < 32) ∧ (writeOkAt s ini (QU + (0x040 + 4 * k)) w = true) :=
  ⟨State.reset, 4, 31, 0, by decide +kernel, by decide +kernel⟩

theorem meets_NetworkControlComplete_8 : ∃ (s u t : State) (ini node a : Nat) (on : Bool) (w old : Word), (nodeOk node = true) ∧ (a = nodePage node + (0x400 + 256 * nodeEp node)) ∧ (w = setWord s (nodePage node) [(brF NR_BR_CTRL_ISOLATE node, ofBool on)]) ∧ (writeOkAt s ini a w = true) ∧ (u = storedAt s a w) ∧ (old = getReg (reachAt s a) a) ∧ (t = (if on then isoEnter u node 1 true true else if wGet old 31 1 = 1 then unitsGo (isoLeave u node 1 true true) else u)) :=
  ⟨State.reset, _, _, 4, 2048, _, true, _, _, by decide +kernel, rfl, rfl, by decide +kernel, rfl, rfl, rfl⟩

theorem meets_NetworkControlComplete_9 : ∃ (s u t : State) (ini node a : Nat) (w old : Word), (nodeOk node = true) ∧ (a = nodePage node + (0x400 + 256 * nodeEp node)) ∧ (w = setWord s (nodePage node) [(brF NR_BR_CTRL_STAT_CLR node, 1)]) ∧ (writeOkAt s ini a w = true) ∧ (u = storedAt s a w) ∧ (old = getReg (reachAt s a) a) ∧ (t = (if wGet w 31 1 = 1 then isoEnter u node 1 true true else if wGet old 31 1 = 1 then unitsGo (isoLeave u node 1 true true) else u)) :=
  ⟨State.reset, _, _, 4, 2048, _, _, _, by decide +kernel, rfl, rfl, by decide +kernel, rfl, rfl, rfl⟩

theorem meets_NetworkControlComplete_10 : ∃ (s : State) (node : Nat), (brGet s node NR_BR_TMO_TGT_TMO ≠ 0) ∧ ((s.noc.slots.any fun x => x.1 == node && x.2.cmd < 2) = true) :=
  ⟨putF { State.reset with noc := { slots := [(2048, { cmd := 0 })] } } (nodePage 2048) (brF NR_BR_TMO_TGT_TMO 2048) 3, 2048, by decide +kernel, by decide +kernel⟩

theorem meets_NetworkControlComplete_11 : ∃ (s u : State) (ini tag : Nat) (o : Outst), (s.noc.outst.find? (fun o => o.ini == ini && o.tag == tag && !o.absorbed) = some o) ∧ (brGet s (iniNode ini) NR_BR_TMO_RSP_TMO ≠ 0) ∧ (u = { s with noc := { s.noc with outst := s.noc.outst.map (fun (x : Outst) => if x == o then { x with absorbed := true } else x) } }) :=
  ⟨putF { State.reset with noc := { outst := [outst0] } } (nodePage (iniNode 0)) (brF NR_BR_TMO_RSP_TMO (iniNode 0)) 3, _, 0, 3, outst0, by decide +kernel, by decide +kernel, rfl⟩

theorem meets_NetworkControlComplete_12 : ∃ (s : State) (die port : Nat) (b : PortBeat), (isFabric die = true) ∧ (port < 48) ∧ ((nocPort s die port).rq = [] → rqReady s die port b = true) ∧ (portRuns s die port = true) :=
  ⟨setNocPort portUp 0 0 { rq := [{ kind := 1 }] }, 0, 0, { kind := 1 }, by decide +kernel, by decide +kernel, by decide +kernel, by decide +kernel⟩

theorem meets_NetworkControlComplete_13 : ∃ (s : State) (die port : Nat) (b : PortBeat) (r : List PortBeat), ((nocPort s die port).rs = b :: r) ∧ (portRuns s die port = true) :=
  ⟨setNocPort portUp 0 0 { rs := [{ }] }, 0, 0, { }, [], by decide +kernel, by decide +kernel⟩

theorem meets_NetworkControlComplete_14 : ∃ (s u : State) (die port : Nat) (b : PortBeat) (r : List PortBeat), ((nocPort s die port).tq = b :: r) ∧ (u = setNocPort s die port { nocPort s die port with tq := r, tqOut := some b }) ∧ (b.last = false ∨ b.kind < 2 ∨ u.noc.slots.find? (fun y => y.1 == portNode die port && y.2.arg0 == b.tag && 2 ≤ y.2.cmd) = none) ∧ (portRuns s die port = true) :=
  ⟨setNocPort portUp 0 0 { tq := [{ }] }, _, 0, 0, { }, [], by decide +kernel, rfl, by decide +kernel, by decide +kernel⟩

theorem meets_NetworkControlComplete_15 : ∃ (s u : State) (die port : Nat) (b : PortBeat) (r : List PortBeat) (y : Nat × Packet), ((nocPort s die port).tq = b :: r) ∧ (u = setNocPort s die port { nocPort s die port with tq := r, tqOut := some b }) ∧ (b.last = true) ∧ (2 ≤ b.kind) ∧ (u.noc.slots.find? (fun y => y.1 == portNode die port && y.2.arg0 == b.tag && 2 ≤ y.2.cmd) = some y) ∧ (portRuns s die port = true) :=
  ⟨{ setNocPort portUp 0 0 { tq := [{ kind := 2, last := true }] } with noc := { (setNocPort portUp 0 0 { tq := [{ kind := 2, last := true }] }).noc with slots := [(portNode 0 0, { cmd := 2 })] } }, _, 0, 0, { kind := 2, last := true }, [], (portNode 0 0, { cmd := 2 }), by decide +kernel, rfl, by decide +kernel, by decide +kernel, by decide +kernel, by decide +kernel⟩

theorem meets_NetworkControlComplete_16 : ∃ (s : State) (die port : Nat) (b : PortBeat), (isFabric die = true) ∧ (port < 48) ∧ (portRuns s die port = true) :=
  ⟨portUp, 0, 0, { last := true }, by decide +kernel, by decide +kernel, by decide +kernel⟩

theorem meets_SeamFramesComplete_1 : ∃ (s : State) (die seam link ch seq flaw : Nat) (flit : BitVec 256), (seamOn die seam = true) ∧ (seamState s die seam = 7 ∨ (seamState s die seam = 6 ∧ ch = 0)) ∧ (link < seamLinks seam) ∧ (ch < 5) ∧ (seq = (epLink (epOf s die seam) link).rxSeq) :=
  ⟨joinedUp .ready, 0, 0, 2, 4, 0, 1, 5, by decide +kernel, by decide +kernel, by decide +kernel, by decide +kernel, by decide +kernel⟩

theorem meets_SeamFramesComplete_2 : ∃ (s : State) (die seam link ch seq flaw : Nat) (flit : BitVec 256), (seamOn die seam = true) ∧ (seamState s die seam = 7 ∨ (seamState s die seam = 6 ∧ ch = 0)) ∧ (link < seamLinks seam) ∧ (ch < 5) ∧ (seq ≠ (epLink (epOf s die seam) link).rxSeq) :=
  ⟨joinedUp .ready, 0, 0, 2, 4, 1, 0, 5, by decide +kernel, by decide +kernel, by decide +kernel, by decide +kernel, by decide +kernel⟩

theorem meets_SeamFramesComplete_3 : ∃ (s : State) (die seam link ch seq flaw : Nat) (flit : BitVec 256) (crcOk : Bool), (seamOn die seam = true) ∧ (seamState s die seam ≠ 0 ∧ seamState s die seam ≠ 8) ∧ (crcOk = false ∨ 5 ≤ ch) :=
  ⟨joinedUp .ready, 0, 0, 0, 5, 0, 0, 5, true, by decide +kernel, by decide +kernel, by decide +kernel⟩

theorem meets_SeamFramesComplete_4 : ∃ (s : State) (die seam : Nat) (acks : List (Nat × Bool)) (crcOk : Bool), (seamOn die seam = true) ∧ (seamState s die seam ≠ 0 ∧ seamState s die seam ≠ 8) :=
  ⟨joinedUp .ready, 0, 0, [(3, true)], true, by decide +kernel, by decide +kernel⟩

theorem meets_SeamFramesComplete_5 : ∃ (s : State) (die seam : Nat) (counters : List Nat) (crcOk : Bool), (seamOn die seam = true) ∧ (seamState s die seam ≠ 0 ∧ seamState s die seam ≠ 8) :=
  ⟨joinedUp .ready, 0, 0, [3], true, by decide +kernel, by decide +kernel⟩

theorem meets_SeamFramesComplete_6 : ∃ (s : State) (die seam : Nat) (counters : List Nat) (crcOk : Bool), (seamOn die seam = true) ∧ (seamState s die seam ≠ 0 ∧ seamState s die seam ≠ 8) :=
  ⟨joinedUp .ready, 0, 0, [3], true, by decide +kernel, by decide +kernel⟩

theorem meets_SeamFramesComplete_7 : ∃ (s : State) (die seam fromDie seamNo : Nat) (widthReq vcEn : Bool) (epoch : Nat), (seamOn die seam = true) ∧ (seamState s die seam ≠ 0 ∧ seamState s die seam ≠ 8) ∧ (fromDie = seamFar die seam) ∧ (seamNo = seam) ∧ ((epochWanted s seam).elim true (· == epoch) = true) :=
  ⟨joinedUp .ready, 0, 0, 1, 0, true, true, 0, by decide +kernel, by decide +kernel, by decide +kernel, by decide +kernel, by decide +kernel⟩

theorem meets_SeamFramesComplete_8 : ∃ (s : State) (die seam : Nat) (widthReq reply crcOk : Bool), (seamOn die seam = true) ∧ (seamState s die seam ≠ 0 ∧ seamState s die seam ≠ 8) :=
  ⟨joinedUp .ready, 0, 0, true, false, true, by decide +kernel, by decide +kernel⟩

theorem meets_SeamFramesComplete_9 : ∃ (s : State) (die seam : Nat) (crcOk : Bool), (seamOn die seam = true) ∧ (seamState s die seam ≠ 0 ∧ seamState s die seam ≠ 8) :=
  ⟨joinedUp .ready, 0, 0, false, by decide +kernel, by decide +kernel⟩

theorem meets_SeamFramesComplete_10 : ∃ (s : State) (die seam kind : Nat), (seamOn die seam = true) ∧ (seamReady s die seam = true) :=
  ⟨joinedUp .ready, 0, 0, 2, by decide +kernel, by decide +kernel⟩

theorem meets_SeamFramesComplete_11 : ∃ (s : State) (die seam link : Nat), (seamOn die seam = true) ∧ (seamReady s die seam = true) ∧ ((epLink (epOf s die seam) link).replay ≠ []) :=
  ⟨setEp (joinedUp .ready) 0 0 { links := [(1, { replay := [{ seq := 0, ch := 0, flit := 5 }] })] }, 0, 0, 1, by decide +kernel, by decide +kernel, by decide +kernel⟩

theorem meets_SeamFramesComplete_12 : ∃ (s : State) (die seam : Nat), (seamOn die seam = true) :=
  ⟨joinedUp .ready, 0, 0, by decide +kernel⟩

theorem meets_SeamFramesComplete_13 : ∃ (s : State) (die seam st : Nat), (seamOn die seam = true) ∧ (seamState s die seam = st) ∧ (st = 2 ∨ st = 3 ∨ st = 4) :=
  ⟨putF State.reset (smPage 0 0) SM_STAT_STATE 4, 0, 0, 4, by decide +kernel, by decide +kernel, by decide +kernel⟩

theorem meets_SeamFramesComplete_14 : ∃ (s : State) (die seam : Nat), (seamOn die seam = true) ∧ (seamReady s die seam = true) ∧ ((epOf s die seam).step = .widening) :=
  ⟨setEp (joinedUp .ready) 0 0 { step := .widening }, 0, 0, by decide +kernel, by decide +kernel, by decide +kernel⟩

theorem meets_SeamFramesComplete_15 : ∃ (s u : State) (die seam : Nat), (seamOn die seam = true) ∧ (2 ≤ seamState s die seam) ∧ (seamState s die seam ≤ 4) ∧ (u = raiseFrom (evtPulse (seamTo s die seam 1) (smPage die seam) 3) (smPage die seam) 0 0x0601 seam) :=
  ⟨putF (atPhase .ready) (smPage 0 0) SM_STAT_STATE 4, _, 0, 0, by decide +kernel, by decide +kernel, by decide +kernel, rfl⟩

theorem meets_SeamFramesComplete_16 : ∃ (s u : State) (die seam us : Nat), (seamOn die seam = true) ∧ (seamState s die seam = 5) ∧ (creditReady s die seam = true) ∧ (u = setEp s die seam (linksClear (epOf s die seam))) :=
  ⟨putF State.reset (smPage 0 0) SM_STAT_STATE 5, _, 0, 0, 70000, by decide +kernel, by decide +kernel, by decide +kernel, rfl⟩

theorem meets_SeamFramesComplete_17 : ∃ (s : State) (die seam : Nat) (x : WidthStep), ((epOf s die seam).step = x) ∧ (x ≠ .none ∧ x ≠ .widening) :=
  ⟨setEp (joinedUp .ready) 0 0 { step := .draining true }, 0, 0, .draining true, by decide +kernel, by decide +kernel⟩

theorem meets_SeamFramesComplete_18 : ∃ (s : State) (die seam link ch unseen : Nat), (seamOn die seam = true) ∧ (seamState s die seam = 7 ∨ (seamState s die seam = 6 ∧ ch = 0)) ∧ (link < seamLinks seam) ∧ (ch < 5) ∧ (unseen = (tabOr 0 (epLink (epOf s (seamFar die seam) seam) link).freed ch + 256 - tabOr 0 (epLink (epOf s die seam) link).freedSeen ch) % 256) :=
  ⟨joinedUp .ready, 0, 0, 2, 4, _, by decide +kernel, by decide +kernel, by decide +kernel, by decide +kernel, rfl⟩

theorem meets_SeamControlComplete_1 : ∃ (s : State) (w : Word) (ini die seam : Nat), (seamOn die seam = true) ∧ (w = setWord s (smPage die seam) [(SM_CTRL_RETRAIN, 1)]) ∧ (writeOkAt s ini (smPage die seam + 0x040) w = true) :=
  ⟨joinedUp .ready, _, 4, 0, 0, by decide +kernel, rfl, by decide +kernel⟩

theorem meets_SeamControlComplete_2 : ∃ (s : State) (w : Word) (ini die seam : Nat) (on : Bool), (seamOn die seam = true) ∧ (w = setWord s (smPage die seam) [(SM_CTRL_VC_EN, ofBool on)]) ∧ (writeOkAt s ini (smPage die seam + 0x040) w = true) :=
  ⟨joinedUp .ready, _, 4, 0, 0, true, by decide +kernel, rfl, by decide +kernel⟩

theorem meets_SeamControlComplete_3 : ∃ (s : State) (w : Word) (ini die seam : Nat) (half : Bool), (seamOn die seam = true) ∧ (w = setWord s (smPage die seam) [(SM_CTRL_WIDTH_REQ, ofBool half)]) ∧ (writeOkAt s ini (smPage die seam + 0x040) w = true) :=
  ⟨joinedUp .ready, _, 4, 0, 0, true, by decide +kernel, rfl, by decide +kernel⟩

theorem meets_SeamControlComplete_4 : ∃ (s u : State) (ini die : Nat), (writeOkAt s ini (DI + 0x040) (BitVec.ofNat 32 (2 ^ 31 + die % 16)) = true) ∧ (u = storedAt s (DI + 0x040) (BitVec.ofNat 32 (2 ^ 31 + die % 16))) :=
  ⟨joinedUp .ready, _, 4, 14, by decide +kernel, rfl⟩

theorem meets_SeamControlComplete_5 : ∃ (s : State) (die : Nat), (beatsRun s = true) :=
  ⟨atPhase .ready, 8, by decide +kernel⟩

theorem meets_SeamControlComplete_6 : ∃ (s : State) (die : Nat), (s.start.phase = .ready) ∧ ((dieSeams die).all (fun m => !seamReady s die m) = true) :=
  ⟨atPhase .ready, 3, by decide +kernel, by decide +kernel⟩

theorem meets_SeamControlComplete_7 : ∃ (s : State) (die : Nat), (beatsRun s = true) :=
  ⟨atPhase .ready, 14, by decide +kernel⟩

theorem meets_SeamControlComplete_8 : ∃ (s u : State) (ini die : Nat), (writeOkAt s ini (DI + 0x040) (BitVec.ofNat 32 (2 ^ 30 + die % 16)) = true) ∧ (u = storedAt s (DI + 0x040) (BitVec.ofNat 32 (2 ^ 30 + die % 16))) :=
  ⟨putF (putF (joinedUp .ready) DI (DI_STAT_STATE.nth 2) 1) DI (DI_STAT_CAUSE.nth 2) 1, _, 4, 2, by decide +kernel, rfl⟩

theorem meets_SeamControlComplete_9 : ∃ (s : State) (die : Nat), (die ≠ 8) ∧ (die < 15) ∧ (nBit (getF s DI DI_CFG_AUTO_REJOIN) die = true) ∧ (getF s DI (DI_STAT_STATE.nth die) = 1) ∧ (s.seam.rejoinFailed.contains die = false) ∧ (causeEnded s die = true) :=
  ⟨putF (putF (putF (joinedUp .ready) DI (DI_STAT_STATE.nth 2) 1) DI (DI_STAT_CAUSE.nth 2) 1) DI DI_CFG_AUTO_REJOIN 4, 2, by decide +kernel, by decide +kernel, by decide +kernel, by decide +kernel, by decide +kernel, by decide +kernel⟩

theorem meets_SeamControlComplete_10 : ∃ (s : State) (die k : Nat), (getF s DI (DI_STAT_STEP.nth die) = k) ∧ (rejoinAt s die k = true) ∧ (rejoinLead s die = die) ∧ (rejoinStepReady s die k = true) :=
  ⟨putF (putF (joinedUp .ready) DI (DI_STAT_STATE.nth 2) 2) DI (DI_STAT_STEP.nth 2) 5, 2, 5, by decide +kernel, by decide +kernel, by decide +kernel, by decide +kernel⟩

theorem meets_SeamControlComplete_11 : ∃ (s : State) (die k : Nat), (getF s DI (DI_STAT_STEP.nth die) = k) ∧ (rejoinAt s die k = true) ∧ (rejoinLead s die = die) :=
  ⟨putF (putF (joinedUp .ready) DI (DI_STAT_STATE.nth 2) 2) DI (DI_STAT_STEP.nth 2) 5, 2, 5, by decide +kernel, by decide +kernel, by decide +kernel⟩

theorem meets_LaneEventsComplete_1 : ∃ (s : State) (lane : Nat), (laneHere s lane = true) ∧ (laneShown s lane ≠ 0) :=
  ⟨laneIn 2, 127, by decide +kernel, by decide +kernel⟩

theorem meets_LaneEventsComplete_2 : ∃ (s : State) (lane : Nat), (laneHere s lane = true) ∧ (nBit (getF s (laneQuad lane) LQ_QSTAT_SYN_LOCK) (laneK lane) = true) :=
  ⟨putF State.reset (laneQuad 127) LQ_QSTAT_SYN_LOCK 15, 127, by decide +kernel, by decide +kernel⟩

theorem meets_LaneEventsComplete_3 : ∃ (s u v : State) (lane : Nat), (laneHere s lane = true) ∧ (laneState s lane ≠ 0) ∧ (u = putFlag s (laneQuad lane) (lf LQ_STAT_SIGDET lane) true) ∧ (v = (if 2 ≤ laneState u lane then putFlag u (laneQuad lane) (lf LQ_STAT_CDR_LOCK lane) true else u)) ∧ (bundleOn v lane = none) :=
  ⟨laneIn 2, _, _, 127, by decide +kernel, by decide +kernel, rfl, rfl, by decide +kernel⟩

theorem meets_LaneEventsComplete_4 : ∃ (s u v : State) (lane k : Nat), (laneHere s lane = true) ∧ (laneState s lane ≠ 0) ∧ (u = putFlag s (laneQuad lane) (lf LQ_STAT_SIGDET lane) true) ∧ (v = (if 2 ≤ laneState u lane then putFlag u (laneQuad lane) (lf LQ_STAT_CDR_LOCK lane) true else u)) ∧ (bundleOn v lane = some k) :=
  ⟨bundleAt 2, _, _, 0, 0, by decide +kernel, by decide +kernel, rfl, rfl, by decide +kernel⟩

theorem meets_LaneEventsComplete_5 : ∃ (s u : State) (lane k : Nat) (together : Bool), (laneHere s lane = true) ∧ (laneState s lane ≠ 0) ∧ (u = putFlag (putFlag s (laneQuad lane) (lf LQ_STAT_SIGDET lane) false) (laneQuad lane) (lf LQ_STAT_CDR_LOCK lane) false) ∧ (bundleOn u lane = some k) ∧ (bundleState u (laneDie lane) k = 4) :=
  ⟨bundleAt 4, _, 0, 0, true, by decide +kernel, by decide +kernel, rfl, by decide +kernel, by decide +kernel⟩

theorem meets_LaneEventsComplete_6 : ∃ (s u : State) (lane : Nat) (together : Bool), (laneHere s lane = true) ∧ (laneState s lane ≠ 0) ∧ (u = putFlag (putFlag s (laneQuad lane) (lf LQ_STAT_SIGDET lane) false) (laneQuad lane) (lf LQ_STAT_CDR_LOCK lane) false) ∧ ((bundleOn u lane).elim true (bundleState u (laneDie lane) · != 4) = true) :=
  ⟨laneIn 2, _, 127, true, by decide +kernel, by decide +kernel, rfl, by decide +kernel⟩

theorem meets_LaneEventsComplete_7 : ∃ (s : State) (lane : Nat) (eyes : List (Int × Int)) (above : List Nat) (cfg : LaneSettings) (ms : Nat) (r : State × Nat), (lfmCounts s lane = true) ∧ (r = lfmStore s lane eyes above) :=
  ⟨laneIn 2, 127, [(300, 100)], [5000, 10], { }, 7, _, by decide +kernel, rfl⟩

theorem meets_LaneEventsComplete_8 : ∃ (s u v : State) (lane : Nat), (laneHere s lane = true) ∧ (laneState s lane = 2) ∧ (flag s (laneQuad lane) (lf LQ_STAT_SEEDED lane) = true) ∧ ((laneOf s lane).reached = false) ∧ (u = putFlag (putFlag s (laneQuad lane) (lf LQ_STAT_SEED_REJ lane) true) (laneQuad lane) (lf LQ_STAT_SEEDED lane) false) ∧ (v = evtPulse (setLane u lane { laneOf s lane with scratch := true, hist := [], converged := false, rcv := { farTaps := (laneOf s lane).rcv.farTaps, preTx := (laneOf s lane).rcv.preTx, preRx := (laneOf s lane).rcv.preRx } }) (laneQuad lane) (4 * laneK lane + 1)) :=
  ⟨putFlag (laneIn 2) (laneQuad 127) (lf LQ_STAT_SEEDED 127) true, _, _, 127, by decide +kernel, by decide +kernel, by decide +kernel, by decide +kernel, rfl, rfl⟩

theorem meets_LaneEventsComplete_9 : ∃ (s : State) (die k : Nat), (bundleIn s die k [2, 3] = true) :=
  ⟨bundleAt 2, 9, 0, by decide +kernel⟩

theorem meets_LaneEventsComplete_10 : ∃ (s : State) (die k : Nat) (logical : List Nat) (inverted : List Bool) (skew : Nat), (bundleIn s die k [3] = true) :=
  ⟨bundleAt 3, 9, 0, [0], [false], 5, by decide +kernel⟩

theorem meets_LaneEventsComplete_11 : ∃ (s : State) (die k : Nat), (bundleIn s die k [4] = true) :=
  ⟨bundleAt 4, 9, 0, by decide +kernel⟩

theorem meets_LaneEventsComplete_12 : ∃ (s : State) (die k : Nat), (bundleIn s die k [4] = true) ∧ (flag s (lbPage die) LB_CFG_IDLE_AWARE = true) ∧ (flag s (lbPage die) (LB_BSTAT_RX_IDLE.nth k) = false) ∧ (((bundleLanes s die k).any fun x => decide (getF s (laneQuad x) (lf LQ_STAT_LFM x) < getF s (lbPage die) LB_CFG_LFM_MIN)) = true) :=
  ⟨putF (putF (bundleAt 4) (lbPage 9) LB_CFG_IDLE_AWARE 1) (lbPage 9) LB_CFG_LFM_MIN 9, 9, 0, by decide +kernel, by decide +kernel, by decide +kernel, by decide +kernel⟩

theorem meets_LaneEventsComplete_13 : ∃ (s : State) (lane : Nat), (laneHere s lane = true) ∧ (laneState s lane = 5) ∧ (flag s (laneQuad lane) (lf LQ_PCHK_EN lane) = true) :=
  ⟨putFlag (laneIn 5) (laneQuad 127) (lf LQ_PCHK_EN 127) true, 127, by decide +kernel, by decide +kernel, by decide +kernel⟩

theorem meets_LaneEventsComplete_14 : ∃ (s : State) (lane : Nat), (laneHere s lane = true) ∧ (flag s (laneQuad lane) (lf LQ_PCHK_LOCK lane) = true) :=
  ⟨putFlag State.reset (laneQuad 127) (lf LQ_PCHK_LOCK 127) true, 127, by decide +kernel, by decide +kernel⟩

theorem meets_LaneCommandsComplete_1 : ∃ (s : State) (w : Word) (ini die k : Nat) (on : Bool), (k < 16) ∧ (w = setWord s (lbPage die) [(LB_BCFG_EN.nth k, ofBool on)]) ∧ (writeOkAt s ini (lbPage die + (0x080 + 8 * k)) w = true) :=
  ⟨bundleAt 0, _, 4, 9, 0, true, by decide +kernel, rfl, by decide +kernel⟩

theorem meets_LaneCommandsComplete_2 : ∃ (s : State) (w : Word) (ini die k : Nat), (k < 16) ∧ (w = setWord s (lbPage die) [(LB_BCFG_RETRAIN.nth k, 1)]) ∧ (writeOkAt s ini (lbPage die + (0x080 + 8 * k)) w = true) :=
  ⟨State.reset, _, 4, 9, 15, by decide +kernel, rfl, by decide +kernel⟩

theorem meets_LaneCommandsComplete_3 : ∃ (s : State) (w : Word) (ini die k : Nat) (on : Bool), (k < 16) ∧ (w = setWord s (lbPage die) [(LB_BCFG_IDLE.nth k, ofBool on)]) ∧ (writeOkAt s ini (lbPage die + (0x080 + 8 * k)) w = true) :=
  ⟨bundleAt 0, _, 4, 9, 0, true, by decide +kernel, rfl, by decide +kernel⟩

theorem meets_LaneCommandsComplete_4 : ∃ (s u : State) (w : Word) (ini lane : Nat), (lane < 128) ∧ (w = setWord s (laneQuad lane) [(lf LQ_CTRL_SEED_SAVE lane, 1)]) ∧ (writeOkAt s ini (laneQuad lane + (0x114 + 0x80 * laneK lane)) w = true) ∧ (u = storedAt s (laneQuad lane + (0x114 + 0x80 * laneK lane)) w) :=
  ⟨State.reset, _, _, 4, 127, by decide +kernel, rfl, by decide +kernel, rfl⟩

theorem meets_LaneCommandsComplete_5 : ∃ (s u : State) (w : Word) (ini lane : Nat), (lane < 128) ∧ (w = setWord s (laneQuad lane) [(lf LQ_CTRL_SEED_CLR lane, 1)]) ∧ (writeOkAt s ini (laneQuad lane + (0x114 + 0x80 * laneK lane)) w = true) ∧ (u = storedAt s (laneQuad lane + (0x114 + 0x80 * laneK lane)) w) ∧ (wGet w 0 1 = 0) :=
  ⟨State.reset, _, _, 4, 127, by decide +kernel, rfl, by decide +kernel, rfl, by decide +kernel⟩

theorem meets_LaneCommandsComplete_6 : ∃ (s u : State) (w : Word) (ini lane : Nat), (lane < 128) ∧ (w = setWord s (laneQuad lane) [(lf LQ_PCHK_CLR lane, 1)]) ∧ (writeOkAt s ini (laneQuad lane + (0x134 + 0x80 * laneK lane)) w = true) ∧ (u = storedAt s (laneQuad lane + (0x134 + 0x80 * laneK lane)) w) :=
  ⟨State.reset, _, _, 4, 127, by decide +kernel, rfl, by decide +kernel, rfl⟩

theorem meets_LaneCommandsComplete_7 : ∃ (s u : State) (w : Word) (ini lane : Nat), (lane < 128) ∧ (w = setWord s (laneQuad lane) [(lf LQ_PGEN_INJ_GO lane, 1)]) ∧ (writeOkAt s ini (laneQuad lane + (0x130 + 0x80 * laneK lane)) w = true) ∧ (u = storedAt s (laneQuad lane + (0x130 + 0x80 * laneK lane)) w) :=
  ⟨State.reset, _, _, 4, 127, by decide +kernel, rfl, by decide +kernel, rfl⟩

theorem meets_FlowEventsComplete_1 : ∃ (s : State) (die port : Nat) (bytes : List (BitVec 8)) (fcsOk : Bool) (sec : SecTag) (ended : Bool), (macHere s die = true) ∧ (port < 16) ∧ (flag s (fePage die port) FE_STAT_LINK = true) ∧ (enabled s (fsPage die) = true) :=
  ⟨flowUp, 9, 0, [1, 2, 3], true, { }, true, by decide +kernel, by decide +kernel, by decide +kernel, by decide +kernel⟩

theorem meets_FlowEventsComplete_2 : ∃ (s : State) (die port queue : Nat) (f : EthFrame), (macHere s die = true) ∧ (port < 16) ∧ (queue < 8) ∧ (flag s (fePage die port) FE_STAT_LINK = true) ∧ (portBusy s die port = false) ∧ (overLong s die port queue = none) ∧ ((∀ q < 8, queue < q → canBegin s die port q = none)) ∧ (canBegin s die port queue = some f) :=
  ⟨flowQ (sendable 3), 9, 0, 0, sendable 3, by decide +kernel, by decide +kernel, by decide +kernel, by decide +kernel, by decide +kernel, by decide +kernel, by decide +kernel, by decide +kernel⟩

theorem meets_FlowEventsComplete_3 : ∃ (s : State) (die port queue : Nat) (f : EthFrame), (macHere s die = true) ∧ (port < 16) ∧ (queue < 8) ∧ (flag s (fePage die port) FE_STAT_LINK = true) ∧ (portBusy s die port = false) ∧ (overLong s die port queue = some f) :=
  ⟨putF (flowQ { sendable 3 with bytes := List.replicate 200 0 }) (fePage 9 0) (FE_QCFG_MAX_SDU.nth 0) 100, 9, 0, 0, { sendable 3 with bytes := List.replicate 200 0 }, by decide +kernel, by decide +kernel, by decide +kernel, by decide +kernel, by decide +kernel, by decide +kernel⟩

theorem meets_FlowEventsComplete_4 : ∃ (s : State) (die port : Nat) (f : EthFrame), (macHere s die = true) ∧ ((sliceOf s die).frames.find? (fun f => f.egPort = port && f.started && f.complete) = some f) :=
  ⟨flowQ { sendable 3 with started := true }, 9, 0, { sendable 3 with started := true }, by decide +kernel, by decide +kernel⟩

theorem meets_FlowEventsComplete_5 : ∃ (s : State) (die id : Nat) (f : EthFrame), (sliceHere s die = true) ∧ ((sliceOf s die).frames.find? (fun f => f.id = id && !f.queued) = some f) :=
  ⟨flowQ { sendable 3 with queued := false }, 9, 3, { sendable 3 with queued := false }, by decide +kernel, by decide +kernel⟩

theorem meets_FlowEventsComplete_6 : ∃ (s : State) (die id : Nat) (f : EthFrame), (sliceHere s die = true) ∧ ((sliceOf s die).frames.find? (fun f => f.id = id && !f.complete) = some f) :=
  ⟨flowQ { sendable 3 with complete := false }, 9, 3, { sendable 3 with complete := false }, by decide +kernel, by decide +kernel⟩

theorem meets_FlowEventsComplete_7 : ∃ (s : State) (die ctx : Nat), (sliceHere s die = true) ∧ (ctx < 65536) ∧ (metered (sliceOf s die) ctx = true) ∧ (2 ^ 30 ≤ (s.hub.now + 2 ^ 32 - (tblGet (sliceOf s die) 0 ctx 10).toNat) % 2 ^ 32) :=
  ⟨{ setSlice State.reset 9 (tblPut (sliceOf State.reset 9) 0 5 5 0xFFFFFFFF) with hub := { now := 2 ^ 31 } }, 9, 5, by decide +kernel, by decide +kernel, by decide +kernel, by decide +kernel⟩

theorem meets_FlowEventsComplete_8 : ∃ (s : State) (die ctx : Nat), (sliceHere s die = true) ∧ (ctx < 65536) ∧ (wGet (tblGet (sliceOf s die) 0 ctx 0) 9 1 = 1) :=
  ⟨setSlice State.reset 9 (tblPut (sliceOf State.reset 9) 0 5 0 512), 9, 5, by decide +kernel, by decide +kernel, by decide +kernel⟩

theorem meets_FlowEventsComplete_9 : ∃ (s : State) (die port : Nat), (sliceHere s die = true) ∧ (port < 16) :=
  ⟨State.reset, 9, 15, by decide +kernel, by decide +kernel⟩

theorem meets_FlowEventsComplete_10 : ∃ (s : State) (die port t : Nat), (sliceHere s die = true) ∧ (port < 16) ∧ (tabGet (sliceOf s die).gclAt port = some t) ∧ (gclPoint s die port t ≤ s.hub.now) :=
  ⟨{ setSlice State.reset 9 { sliceOf State.reset 9 with gclAt := [(3, 0)] } with hub := { now := 2 ^ 40 } }, 9, 3, 0, by decide +kernel, by decide +kernel, by decide +kernel, by decide +kernel⟩

theorem meets_FlowEventsComplete_11 : ∃ (s : State) (die : Nat), (sliceHere s die = true) :=
  ⟨State.reset, 9, by decide +kernel⟩

theorem meets_FlowEventsComplete_12 : ∃ (s u : State) (die : Nat) (r : State × Nat × List Byte), (sliceHere s die = true) ∧ (enabled s (fsPage die) = true) ∧ (getF s (fsPage die) FS_INJ_TAIL_INDEX ≠ getF s (fsPage die) FS_INJ_HEAD_INDEX) ∧ (busStall s (65 + 2 * (die - 9)) (ringAt s die 0x20 + 4096 * getF s (fsPage die) FS_INJ_TAIL_INDEX) 4096 = none) ∧ (r = busRead s (65 + 2 * (die - 9)) (ringAt s die 0x20 + 4096 * getF s (fsPage die) FS_INJ_TAIL_INDEX) 4096) ∧ (u = putF r.1 (fsPage die) FS_INJ_TAIL_INDEX ((getF s (fsPage die) FS_INJ_TAIL_INDEX + 1) % getF s (fsPage die) FS_INJ_CFG_SLOTS)) :=
  ⟨putF flowUp (fsPage 9) FS_INJ_HEAD_INDEX 3, _, 9, _, by decide +kernel, by decide +kernel, by decide +kernel, by decide +kernel, rfl, rfl⟩

theorem meets_FlowCommandsComplete_1 : ∃ (s u : State) (ini die : Nat), (writeOkAt s ini (fsPage die + 0x0C0) (flowWord 0 0) = true) ∧ (u = storedAt s (fsPage die + 0x0C0) (flowWord 0 0)) :=
  ⟨flowUp, _, 4, 9, by decide +kernel, rfl⟩

theorem meets_FlowCommandsComplete_2 : ∃ (s u : State) (ini die ctx : Nat), (writeOkAt s ini (fsPage die + 0x0C0) (flowWord 1 ctx) = true) ∧ (u = storedAt s (fsPage die + 0x0C0) (flowWord 1 ctx)) :=
  ⟨flowUp, _, 4, 9, 7, by decide +kernel, rfl⟩

theorem meets_FlowCommandsComplete_3 : ∃ (s u : State) (ini die : Nat), (writeOkAt s ini (fsPage die + 0x0C0) (flowWord 2 0) = true) ∧ (u = storedAt s (fsPage die + 0x0C0) (flowWord 2 0)) :=
  ⟨flowUp, _, 4, 9, by decide +kernel, rfl⟩

theorem meets_FlowCommandsComplete_4 : ∃ (s u : State) (ini die table index : Nat), (writeOkAt s ini (fsPage die + 0x060) (tblWord 0 table index) = true) ∧ (u = storedAt s (fsPage die + 0x060) (tblWord 0 table index)) :=
  ⟨flowUp, _, 4, 9, 0, 7, by decide +kernel, rfl⟩

theorem meets_FlowCommandsComplete_5 : ∃ (s u : State) (ini die table index : Nat), (writeOkAt s ini (fsPage die + 0x060) (tblWord 1 table index) = true) ∧ (u = storedAt s (fsPage die + 0x060) (tblWord 1 table index)) :=
  ⟨flowUp, _, 4, 9, 1, 7, by decide +kernel, rfl⟩

theorem meets_FlowCommandsComplete_6 : ∃ (s u : State) (ini die table index : Nat), (writeOkAt s ini (fsPage die + 0x060) (tblWord 2 table index) = true) ∧ (u = storedAt s (fsPage die + 0x060) (tblWord 2 table index)) :=
  ⟨flowUp, _, 4, 9, 0, 7, by decide +kernel, rfl⟩

theorem meets_FlowCommandsComplete_7 : ∃ (s u : State) (ini die table index : Nat), (writeOkAt s ini (fsPage die + 0x060) (tblWord 3 table index) = true) ∧ (u = storedAt s (fsPage die + 0x060) (tblWord 3 table index)) :=
  ⟨flowUp, _, 4, 9, 0, 7, by decide +kernel, rfl⟩

theorem meets_FlowCommandsComplete_8 : ∃ (s u : State) (ini die ctx : Nat), (writeOkAt s ini (fsPage die + 0x100) (flowWord 0 ctx) = true) ∧ (u = storedAt s (fsPage die + 0x100) (flowWord 0 ctx)) :=
  ⟨flowUp, _, 4, 9, 7, by decide +kernel, rfl⟩

theorem meets_FlowCommandsComplete_9 : ∃ (s u : State) (ini die ctx : Nat), (writeOkAt s ini (fsPage die + 0x100) (flowWord 1 ctx) = true) ∧ (u = storedAt s (fsPage die + 0x100) (flowWord 1 ctx)) :=
  ⟨flowUp, _, 4, 9, 7, by decide +kernel, rfl⟩

theorem meets_FlowCommandsComplete_10 : ∃ (s u : State) (w old : Word) (ini die i : Nat), (i < 16) ∧ (w = setWord s (fsPage die) [(FS_TRUNK_RESERVE.nth i, 1)]) ∧ (writeOkAt s ini (fsPage die + (0x140 + 4 * i)) w = true) ∧ (u = storedAt s (fsPage die + (0x140 + 4 * i)) w) ∧ (old = getReg (reachAt s (fsPage die + (0x140 + 4 * i))) (fsPage die + (0x140 + 4 * i))) :=
  ⟨flowUp, _, _, _, 4, 9, 15, by decide +kernel, rfl, by decide +kernel, rfl, rfl⟩

theorem meets_FlowCommandsComplete_11 : ∃ (s u : State) (w old : Word) (ini die i : Nat), (i < 16) ∧ (w = setWord s (fsPage die) [(FS_TRUNK_RESERVE.nth i, 0)]) ∧ (writeOkAt s ini (fsPage die + (0x140 + 4 * i)) w = true) ∧ (u = storedAt s (fsPage die + (0x140 + 4 * i)) w) ∧ (old = getReg (reachAt s (fsPage die + (0x140 + 4 * i))) (fsPage die + (0x140 + 4 * i))) :=
  ⟨flowUp, _, _, _, 4, 9, 15, by decide +kernel, rfl, by decide +kernel, rfl, rfl⟩

theorem meets_FlowCommandsComplete_12 : ∃ (s : State) (ini die : Nat) (w : Word), (writeOkAt s ini (fsPage die + 0x1AC) w = true) :=
  ⟨flowUp, 4, 9, 0, by decide +kernel⟩

theorem meets_FlowCommandsComplete_13 : ∃ (s u : State) (r : State × Nat) (ini die port : Nat) (peek : Bool), (port < 16) ∧ (reaches s ini die (0x9100 + port) 0x120 false = true) ∧ (u = reach s die (0x9100 + port) 0x120 false) ∧ (r = txtsRead u die port peek) :=
  ⟨flowUp, _, _, 4, 9, 15, false, by decide +kernel, by decide +kernel, rfl, rfl⟩

theorem meets_DramRowsComplete_1 : ∃ (s u : State) (ini ch : Nat) (w old : Word), (ch < 4) ∧ (w = setWord s (mcPage ch) [(PG_CTRL_ENABLE, 1)]) ∧ (writeOkAt s ini (mcPage ch + 0x008) w = true) ∧ (u = storedAt s (mcPage ch + 0x008) w) ∧ (old = getReg (reachAt s (mcPage ch + 0x008)) (mcPage ch + 0x008)) :=
  ⟨State.reset, _, 4, 3, _, _, by decide +kernel, rfl, by decide +kernel, rfl, rfl⟩

theorem meets_DramRowsComplete_2 : ∃ (s u : State) (ini ch : Nat) (w old : Word), (ch < 4) ∧ (w = setWord s (mcPage ch) [(PG_CTRL_ENABLE, 0)]) ∧ (writeOkAt s ini (mcPage ch + 0x008) w = true) ∧ (u = storedAt s (mcPage ch + 0x008) w) ∧ (old = getReg (reachAt s (mcPage ch + 0x008)) (mcPage ch + 0x008)) :=
  ⟨ddrUp 3, _, 4, 3, _, _, by decide +kernel, rfl, by decide +kernel, rfl, rfl⟩

theorem meets_DramRowsComplete_3 : ∃ (s u : State) (ch cause ranks dens g : Nat), (ch < 4) ∧ (mcState s ch = 1) ∧ ((chanOf s ch).capSet = false) ∧ (chanCap s ch cause ranks dens = some g) ∧ (u = setChan s ch { chanOf s ch with capSet := true, dens := if flag s (mcPage ch) MC_GEOM_SPD then dens else getF s (mcPage ch) MC_GEOM_DENS }) :=
  ⟨ddrTrain 3, _, 3, 0, 1, 1, 64, by decide +kernel, by decide +kernel, by decide +kernel, by decide +kernel, rfl⟩

theorem meets_DramRowsComplete_4 : ∃ (s : State) (ch ms : Nat) (ok : Bool), (chanHere s ch = true) ∧ (mcState s ch = 1) ∧ ((chanOf s ch).capSet = true) :=
  ⟨setChan (ddrTrain 3) 3 { capSet := true }, 3, 255, true, by decide +kernel, by decide +kernel, by decide +kernel⟩

theorem meets_DramRowsComplete_5 : ∃ (s u : State) (ini ilv : Nat) (w old : Word), (w = setWord s (mcPage 0) [(MC_CFG_ILV, ilv % 4)]) ∧ (writeOkAt s ini (mcPage 0 + 0x040) w = true) ∧ (u = storedAt s (mcPage 0 + 0x040) w) ∧ (old = getReg (reachAt s (mcPage 0 + 0x040)) (mcPage 0 + 0x040)) :=
  ⟨State.reset, _, 4, 2, _, _, rfl, by decide +kernel, rfl, rfl⟩

theorem meets_DramRowsComplete_6 : ∃ (s : State) (ch line ini : Nat) (errs : List (Nat × Nat × Nat)) (hit tagBad : Bool) (r : State × LineRead), (chanHere s ch = true) ∧ (64 * line < ddrCap s ch) ∧ (mcState s ch = 2) ∧ (r = lineRead s ch line ini errs hit tagBad) :=
  ⟨ddrUp 3, 3, 0, 4, [], true, false, _, by decide +kernel, by decide +kernel, by decide +kernel, rfl⟩

theorem meets_DramRowsComplete_7 : ∃ (s u : State) (ch : Nat) (l : LateCheck) (bs : List (BitVec 8)), (s.ddr.late.find? (·.ch == ch) = some l) ∧ (l.tagOk = true) ∧ (l.wb = some bs) ∧ (u = lateTaken s l) :=
  ⟨ddrLate { late0 with wb := some [1] }, _, 3, { late0 with wb := some [1] }, [1], by decide +kernel, by decide +kernel, by decide +kernel, rfl⟩

theorem meets_DramRowsComplete_8 : ∃ (s u : State) (ch : Nat) (l : LateCheck), (s.ddr.late.find? (·.ch == ch) = some l) ∧ (l.tagOk = true) ∧ (l.wb = none) ∧ (u = lateTaken s l) :=
  ⟨ddrLate late0, _, 3, late0, by decide +kernel, by decide +kernel, by decide +kernel, rfl⟩

theorem meets_DramRowsComplete_9 : ∃ (s t u v : State) (ch act : Nat) (l : LateCheck), (s.ddr.late.find? (·.ch == ch) = some l) ∧ (l.tagOk = false) ∧ (t = mcFirst (lateTaken s l) ch 3 l.line l.sym l.ini) ∧ (u = countUp (countUp t (mcPage ch) (RNG_LATE_COUNT.nth l.range) 1) (mcPage ch) MC_TAG_CNT_LATE 1) ∧ (v = alarm (evtPulse u (mcPage ch) 4) 1 (regDie (mcPage ch)) l.ini) ∧ (act = getF v (mcPage ch) (RNG_CTRL_ACTION.nth l.range)) :=
  ⟨ddrLate { late0 with tagOk := false }, _, _, _, 3, _, { late0 with tagOk := false }, by decide +kernel, by decide +kernel, rfl, rfl, rfl, rfl⟩

theorem meets_DramRowsComplete_10 : ∃ (s : State) (ch line off ini : Nat) (bytes : List (BitVec 8)) (poison : Bool) (errs : List (Nat × Nat × Nat)) (hit tagBad : Bool), (chanHere s ch = true) ∧ (64 * line < ddrCap s ch) ∧ (mcState s ch = 2) ∧ (bytes ≠ []) ∧ (off + bytes.length ≤ 64) :=
  ⟨ddrUp 3, 3, 0, 63, 4, [7], false, [], true, false, by decide +kernel, by decide +kernel, by decide +kernel, by decide +kernel, by decide +kernel⟩

theorem meets_DramRowsComplete_11 : ∃ (s : State) (ch line : Nat) (w : Nat × Nat × List (BitVec 8)), (chanHere s ch = true) ∧ (mcState s ch = 2) ∧ ((chanOf s ch).wb.find? (fun w => sameDram (dramPlace s ch (64 * w.1)) (dramPlace s ch (64 * line))) = some w) :=
  ⟨setChan (ddrUp 3) 3 { chanOf (ddrUp 3) 3 with wb := [(0, 0, [1])] }, 3, 0x2000, (0, 0, [1]), by decide +kernel, by decide +kernel, by decide +kernel⟩

theorem meets_DramRowsComplete_12 : ∃ (s u : State) (ch : Nat) (errs : List (Nat × Nat × Nat)) (hit tagBad : Bool) (c : DdrChan), (chanHere s ch = true) ∧ (mcState s ch = 2) ∧ (gateShut s (40 + ch) = false) ∧ (flag s (mcPage ch) MC_CFG_PATROL_EN = true) ∧ (c = chanOf s ch) ∧ (c.cm ≠ 0) ∧ (u = setChan s ch { c with patrol := (c.patrol + 1) % (c.cm * 2 ^ 24) }) :=
  ⟨putFlag (ddrUp 3) (mcPage 3) MC_CFG_PATROL_EN true, _, 3, [(0, 0, 1), (0, 1, 1)], true, false, _, by decide +kernel, by decide +kernel, by decide +kernel, by decide +kernel, rfl, by decide +kernel, rfl⟩

theorem meets_DramRowsComplete_13 : ∃ (s u : State) (ini ch range : Nat) (w old : Word), (ch < 4) ∧ (range < 16) ∧ (w = setWord s (mcPage ch) [(RNG_CTRL_EN.nth range, 1)]) ∧ (writeOkAt s ini (mcPage ch + (0x100 + 32 * range)) w = true) ∧ (u = storedAt s (mcPage ch + (0x100 + 32 * range)) w) ∧ (old = getReg (reachAt s (mcPage ch + (0x100 + 32 * range))) (mcPage ch + (0x100 + 32 * range))) :=
  ⟨rangeReady, _, 4, 3, 15, _, _, by decide +kernel, by decide +kernel, rfl, by decide +kernel, rfl, rfl⟩

theorem meets_DramRowsComplete_14 : ∃ (s u : State) (ini ch range : Nat) (w old : Word), (ch < 4) ∧ (range < 16) ∧ (w = setWord s (mcPage ch) [(RNG_CTRL_EN.nth range, 0)]) ∧ (writeOkAt s ini (mcPage ch + (0x100 + 32 * range)) w = true) ∧ (u = storedAt s (mcPage ch + (0x100 + 32 * range)) w) ∧ (old = getReg (reachAt s (mcPage ch + (0x100 + 32 * range))) (mcPage ch + (0x100 + 32 * range))) :=
  ⟨ddrUp 3, _, 4, 3, 15, _, _, by decide +kernel, by decide +kernel, rfl, by decide +kernel, rfl, rfl⟩

theorem meets_DramRowsComplete_15 : ∃ (s u : State) (ch range : Nat), (chanHere s ch = true) ∧ (mcState s ch = 2) ∧ ((chanOf s ch).init.contains range = true) ∧ (u = setChan s ch (rangeZeroed s ch range)) :=
  ⟨setChan (ddrUp 3) 3 { chanOf (ddrUp 3) 3 with init := [2] }, _, 3, 2, by decide +kernel, by decide +kernel, by decide +kernel, rfl⟩

theorem meets_DramRowsComplete_16 : ∃ (s u : State) (ini ch : Nat) (val : Word), (ch < 4) ∧ (writeOkAt s ini (mcPage ch + 0x074) val = true) ∧ (u = storedAt s (mcPage ch + 0x074) val) :=
  ⟨State.reset, _, 4, 3, 0xFFFFFFFF, by decide +kernel, by decide +kernel, rfl⟩

theorem meets_DramRowsComplete_17 : ∃ (s u : State) (ini ch id : Nat) (w : Word), (ch < 4) ∧ (w = BitVec.ofNat 32 (2 ^ 31 + id % 1024)) ∧ (writeOkAt s ini (mcPage ch + 0x078) w = true) ∧ (u = storedAt s (mcPage ch + 0x078) w) :=
  ⟨State.reset, _, 4, 3, 1023, _, by decide +kernel, rfl, by decide +kernel, rfl⟩

theorem meets_HubRegistersComplete_1 : ∃ (s u : State) (ini en : Nat) (w old : Word), (w = BitVec.ofNat 32 (en % 16)) ∧ (writeOkAt s ini (CL + 0x040) w = true) ∧ (u = storedAt s (CL + 0x040) w) ∧ (old = getReg (reachAt s (CL + 0x040)) (CL + 0x040)) :=
  ⟨State.reset, _, 4, 15, _, _, rfl, by decide +kernel, rfl, rfl⟩

theorem meets_HubRegistersComplete_2 : ∃ (s u : State) (ini : Nat), (writeOkAt s ini (CL + 0x04C) (BitVec.ofNat 32 (2 ^ 31 + 0)) = true) ∧ (u = storedAt s (CL + 0x04C) (BitVec.ofNat 32 (2 ^ 31 + 0))) :=
  ⟨State.reset, _, 4, by decide +kernel, rfl⟩

theorem meets_HubRegistersComplete_3 : ∃ (s u : State) (ini : Nat), (writeOkAt s ini (CL + 0x04C) (BitVec.ofNat 32 (2 ^ 31 + 1)) = true) ∧ (u = storedAt s (CL + 0x04C) (BitVec.ofNat 32 (2 ^ 31 + 1))) :=
  ⟨State.reset, _, 4, by decide +kernel, rfl⟩

theorem meets_HubRegistersComplete_4 : ∃ (s u : State) (ini : Nat), (writeOkAt s ini (CL + 0x04C) (BitVec.ofNat 32 (2 ^ 31 + 2)) = true) ∧ (u = storedAt s (CL + 0x04C) (BitVec.ofNat 32 (2 ^ 31 + 2))) :=
  ⟨State.reset, _, 4, by decide +kernel, rfl⟩

theorem meets_HubRegistersComplete_5 : ∃ (s u : State) (ini ch : Nat) (w : Word), (ch < 8) ∧ (w = setWord s HD [(HD_CTRL_GO.nth ch, 1)]) ∧ (writeOkAt s ini (HD + (0x114 + 32 * ch)) w = true) ∧ (u = storedAt s (HD + (0x114 + 32 * ch)) w) :=
  ⟨putF State.reset HD (HD_SRC_LO_ADDR.nth 7) 4096, _, 4, 7, _, by decide +kernel, rfl, by decide +kernel, rfl⟩

theorem meets_HubRegistersComplete_6 : ∃ (s u : State) (ini ch : Nat) (w : Word), (ch < 8) ∧ (w = setWord s HD [(HD_CTRL_ABORT.nth ch, 1)]) ∧ (wGet w 31 1 = 0) ∧ (writeOkAt s ini (HD + (0x114 + 32 * ch)) w = true) ∧ (u = storedAt s (HD + (0x114 + 32 * ch)) w) :=
  ⟨putF State.reset HD (HD_STAT_RESULT.nth 7) 0xF, _, 4, 7, _, by decide +kernel, rfl, by decide +kernel, by decide +kernel, rfl⟩

theorem meets_HubRegistersComplete_7 : ∃ (s u : State) (ini : Nat) (w : Word), (w = setWord s TB [(TB_CTRL_SET, 1)]) ∧ (writeOkAt s ini (TB + 0x040) w = true) ∧ (u = storedAt s (TB + 0x040) w) :=
  ⟨State.reset, _, 4, _, rfl, by decide +kernel, rfl⟩

theorem meets_HubRegistersComplete_8 : ∃ (s u : State) (ini : Nat) (w : Word), (w = setWord s TB [(TB_CTRL_STEP, 1)]) ∧ (wGet w 31 1 = 0) ∧ (writeOkAt s ini (TB + 0x040) w = true) ∧ (u = storedAt s (TB + 0x040) w) :=
  ⟨State.reset, _, 4, _, rfl, by decide +kernel, by decide +kernel, rfl⟩

theorem meets_HubRegistersComplete_9 : ∃ (s u : State) (ini : Nat), (reaches s ini 8 0xC060 0x044 false = true) ∧ (u = reach s 8 0xC060 0x044 false) :=
  ⟨State.reset, _, 4, by decide +kernel, rfl⟩

theorem meets_HubRegistersComplete_10 : ∃ (s u : State) (ini k : Nat) (peek : Bool) (r : State × Nat), (k < 256) ∧ (reaches s ini 8 0xC020 (0x100 + 4 * k) false = true) ∧ (u = reach s 8 0xC020 (0x100 + 4 * k) false) ∧ (r = lockTake u ini k peek) :=
  ⟨State.reset, _, 4, 255, false, _, by decide +kernel, by decide +kernel, rfl, rfl⟩

theorem meets_HubRegistersComplete_11 : ∃ (s u : State) (ini k : Nat) (val : Word), (k < 256) ∧ (writeOkAt s ini (LK + (0x100 + 4 * k)) val = true) ∧ (u = storedAt s (LK + (0x100 + 4 * k)) val) :=
  ⟨setLock State.reset 255 (some 4), _, 4, 255, 0, by decide +kernel, by decide +kernel, rfl⟩

theorem meets_HubRegistersComplete_12 : ∃ (s u : State) (ini k : Nat) (w : Word), (w = BitVec.ofNat 32 (2 ^ 31 + k % 256)) ∧ (writeOkAt s ini (LK + 0x040) w = true) ∧ (u = storedAt s (LK + 0x040) w) :=
  ⟨setHart (setLock State.reset 255 (some 0)) 0 { hartOf State.reset 0 with halted := true }, _, 6, 255, _, rfl, by decide +kernel, rfl⟩

theorem meets_HubRegistersComplete_13 : ∃ (s u : State) (ini word : Nat) (val old : Word), (word < 2) ∧ (writeOkAt s ini (EV + (0x044 + 4 * word)) val = true) ∧ (u = storedAt s (EV + (0x044 + 4 * word)) val) ∧ (old = getReg (reachAt s (EV + (0x044 + 4 * word))) (EV + (0x044 + 4 * word))) :=
  ⟨State.reset, _, 4, 1, 0x3FFF, _, by decide +kernel, by decide +kernel, rfl, rfl⟩

theorem meets_HubRegistersComplete_14 : ∃ (s u : State) (ini c : Nat) (peek : Bool), (c < 4) ∧ (reaches s ini 8 0xC030 (0x070 + 4 * c) false = true) ∧ (u = reach s 8 0xC030 (0x070 + 4 * c) false) ∧ (claimSource u c = none) :=
  ⟨State.reset, _, 4, 3, false, by decide +kernel, by decide +kernel, rfl, by decide +kernel⟩

theorem meets_HubRegistersComplete_15 : ∃ (s u : State) (ini c x : Nat) (peek : Bool), (c < 4) ∧ (reaches s ini 8 0xC030 (0x070 + 4 * c) false = true) ∧ (u = reach s 8 0xC030 (0x070 + 4 * c) false) ∧ (claimSource u c = some x) :=
  ⟨{ State.reset with hub := { State.reset.hub with pending := [4 * 77 + 3], routes := [(2 * 77, 0x10)] } }, _, 4, 3, 77, false, by decide +kernel, by decide +kernel, rfl, by decide +kernel⟩

theorem meets_HubRegistersComplete_16 : ∃ (s u : State) (ini c v : Nat) (w : Word), (c < 4) ∧ (w = BitVec.ofNat 32 (v % 1024)) ∧ (writeOkAt s ini (EV + (0x080 + 4 * c)) w = true) ∧ (u = storedAt s (EV + (0x080 + 4 * c)) w) :=
  ⟨{ State.reset with hub := { State.reset.hub with service := [4 * 77 + 3] } }, _, 4, 3, 77, _, by decide +kernel, rfl, by decide +kernel, rfl⟩

theorem meets_HubRegistersComplete_17 : ∃ (s u : State) (ini pc fn : Nat) (val : Word), (pc < 2) ∧ (fn < 2) ∧ (writeOkAt s ini (pcPage pc + (0x080 + 4 * fn)) val = true) ∧ (u = storedAt s (pcPage pc + (0x080 + 4 * fn)) val) :=
  ⟨State.reset, _, 4, 1, 1, 0xFF, by decide +kernel, by decide +kernel, by decide +kernel, rfl⟩

theorem meets_HubEventsComplete_1 : ∃ (s : State), (s.hub.cmo.isSome = true) ∧ (writingBack s = false) :=
  ⟨{ State.reset with hub := { State.reset.hub with cmo := some (0, 0, 1) } }, by decide +kernel, by decide +kernel⟩

theorem meets_HubEventsComplete_2 : ∃ (s : State) (ch bytes result : Nat) (r : State × Nat × Nat), (ch < 8) ∧ (s.pow.torpor = false) ∧ (dmaRuns s ch = true) ∧ (dmaEnds s ch bytes result = true) ∧ (gateShut s 5 = false) ∧ (targetsStall s (dmaRange s ch).1 bytes = none ∧ targetsStall s (dmaRange s ch).2.1 bytes = none) ∧ (result = 0xE ∨ quenched s 5 = false) ∧ (r = busCopy s 5 (dmaRange s ch).1 (dmaRange s ch).2.1 (chunks 256 bytes) 0) :=
  ⟨putF State.reset HD (HD_STAT_RESULT.nth 7) 0xF, 7, 0, 4, _, by decide +kernel, by decide +kernel, by decide +kernel, by decide +kernel, by decide +kernel, by decide +kernel, by decide +kernel, rfl⟩

theorem meets_HubEventsComplete_3 : ∃ (s : State), (flag s TB TB_CTRL_CMP_EN = true) ∧ (s.hub.tbOn = true) :=
  ⟨putFlag { State.reset with hub := { State.reset.hub with tbOn := true } } TB TB_CTRL_CMP_EN true, by decide +kernel, by decide +kernel⟩

theorem meets_HubEventsComplete_4 : ∃ (s : State) (src : Nat), (src < 640) :=
  ⟨State.reset, 639, by decide +kernel⟩

theorem meets_HubEventsComplete_5 : ∃ (s : State) (src : Nat) (b : Bool), (src < 640) :=
  ⟨State.reset, 639, true, by decide +kernel⟩

theorem meets_HubEventsComplete_6 : ∃ (s : State) (die line n : Nat), (die < 8) ∧ (line < 64) ∧ (n = tabOr 0 s.hub.evi (64 * die + line)) ∧ (n ≠ 0) :=
  ⟨{ State.reset with hub := { State.reset.hub with evi := [(64 * 7 + 63, 2)] } }, 7, 63, _, by decide +kernel, by decide +kernel, rfl, by decide +kernel⟩

theorem meets_HubEventsComplete_7 : ∃ (s u : State) (pc : Nat), (pc < 2) ∧ (isolated s (regDie (pcPage pc)) = false) ∧ (u = pcieDown s pc) :=
  ⟨joinedUp .ready, _, 1, by decide +kernel, by decide +kernel, rfl⟩

theorem meets_HubEventsComplete_8 : ∃ (s : State) (pc : Nat), (pc < 2) ∧ (isolated s (regDie (pcPage pc)) = false) :=
  ⟨joinedUp .ready, 1, by decide +kernel, by decide +kernel⟩

theorem meets_HubEventsComplete_9 : ∃ (s : State) (pc width gen : Nat) (flit : Bool), (pc < 2) ∧ (isolated s (regDie (pcPage pc)) = false) ∧ (flag s (pcPage pc) PC_STAT_PERST = false) ∧ ((pcieOf s pc).training = true) ∧ (flag s (pcPage pc) PC_STAT_LINK_UP = false) :=
  ⟨putFlag (setPcie (joinedUp .ready) 1 { training := true }) (pcPage 1) PC_STAT_PERST false, 1, 16, 6, true, by decide +kernel, by decide +kernel, by decide +kernel, by decide +kernel, by decide +kernel⟩

theorem meets_HubEventsComplete_10 : ∃ (s : State) (pc : Nat), (pc < 2) :=
  ⟨State.reset, 1, by decide +kernel⟩

theorem meets_HubEventsComplete_11 : ∃ (s : State) (ini pc : Nat) (val : Word), (pc < 2) ∧ (iniAssigned ini = true) ∧ (isolated s (regDie (pcPage pc)) = false) :=
  ⟨joinedUp .ready, 8, 1, 0x80000000, by decide +kernel, by decide +kernel, by decide +kernel⟩

theorem meets_MailboxRowsComplete_1 : ∃ (s u : State) (ini m : Nat) (bar0 : Bool), (m < 96) ∧ (writeOk s ini bar0 (regDie (mbPage m)) (regBlk (mbPage m)) (mbOff m 0x020) 1 = true) ∧ (u = stored s (regDie (mbPage m)) (regBlk (mbPage m)) (mbOff m 0x020) 1) :=
  ⟨setReg State.reset (mbPage 63 + 0x12C + 0x40 * 7) 0xC000C000, _, 4, 63, false, by decide +kernel, by decide +kernel, rfl⟩

theorem meets_MailboxRowsComplete_2 : ∃ (s u : State) (ini m : Nat) (bar0 : Bool), (m < 96) ∧ (writeOk s ini bar0 (regDie (mbPage m)) (regBlk (mbPage m)) (mbOff m 0x034) 1 = true) ∧ (u = stored s (regDie (mbPage m)) (regBlk (mbPage m)) (mbOff m 0x034) 1) :=
  ⟨setMbox (setReg State.reset (mbPage 63 + 0x12C + 0x40 * 7) 0xC000C000) 63 { full := true, sender := 4, seq := 1 }, _, 4, 63, false, by decide +kernel, by decide +kernel, rfl⟩

theorem meets_MailboxRowsComplete_3 : ∃ (s u : State) (ini m : Nat) (bar0 peek : Bool), (m < 96) ∧ (reaches s ini (regDie (mbPage m)) (regBlk (mbPage m)) (mbOff m 0x024) false = true) ∧ (u = reach s (regDie (mbPage m)) (regBlk (mbPage m)) (mbOff m 0x024) false) ∧ (mbFault u ini bar0 false peek (regDie (mbPage m)) (regBlk (mbPage m)) (mbOff m 0x024) 0 = none) :=
  ⟨setMbox (setReg State.reset (mbPage 63 + 0x12C + 0x40 * 7) 0xC000C000) 63 { full := true, sender := 3, seq := 1 }, _, 4, 63, false, false, by decide +kernel, by decide +kernel, rfl, by decide +kernel⟩

theorem meets_MailboxRowsComplete_4 : ∃ (s u : State) (m : Nat), (m < 96) ∧ ((mboxOf s m).full = true) ∧ ((mboxOf s m).timeout = false) ∧ (u = mbEvents (setMbox s m { mboxOf s m with timeout := true }) m) :=
  ⟨setMbox State.reset 95 { full := true }, _, 95, by decide +kernel, by decide +kernel, by decide +kernel, rfl⟩

theorem meets_MailboxRowsComplete_5 : ∃ (s : State) (m : Nat), (m < 96) :=
  ⟨State.reset, 95, by decide +kernel⟩

theorem meets_MailboxRowsComplete_6 : ∃ (s : State) (pc fn vec : Nat), (pc < 2) ∧ (fn < 2) ∧ (vec < 16) ∧ (fnExists s pc fn = true) ∧ (flag s (pcPage pc) PC_STAT_PERST = false) :=
  ⟨putFlag State.reset (pcPage 1) PC_STAT_PERST false, 1, 0, 15, by decide +kernel, by decide +kernel, by decide +kernel, by decide +kernel, by decide +kernel⟩

theorem meets_MailboxRowsComplete_7 : ∃ (s : State) (m : Nat), (48 ≤ m ∧ m < 64) ∧ ((mboxOf s m).full = true) ∧ ((mboxOf s m).sender ≠ 16 + m % 8) ∧ (isolated s (m % 8) = false) ∧ (s.pow.torpor = false) ∧ (newtTurn s m = true) :=
  ⟨setMbox (joinedUp .ready) 63 { full := true, sender := 1 }, 63, by decide +kernel, by decide +kernel, by decide +kernel, by decide +kernel, by decide +kernel, by decide +kernel⟩

theorem meets_MailboxRowsComplete_8 : ∃ (s : State) (n : Nat), (n < 8) :=
  ⟨State.reset, 7, by decide +kernel⟩

theorem meets_MailboxRowsComplete_9 : ∃ (s : State) (n : Nat) (r : Nat × State), (n < 8) ∧ (r = freeVal s 32) :=
  ⟨State.reset, 7, _, by decide +kernel, rfl⟩

theorem meets_PowerRowsComplete_1 : ∃ (s : State) (die idx : Nat), (droppable die idx = true) ∧ ((domOf s die idx).state = 0) ∧ (domVoted s die idx = false) ∧ (domHeld s die idx = false) ∧ (domKind die idx ≠ 0x03) :=
  ⟨atPhase .ready, 7, 0, by decide +kernel, by decide +kernel, by decide +kernel, by decide +kernel, by decide +kernel⟩

theorem meets_PowerRowsComplete_2 : ∃ (s u : State) (die idx : Nat), (droppable die idx = true) ∧ ((domOf s die idx).state = 0) ∧ (domVoted s die idx = false) ∧ (domHeld s die idx = false) ∧ (domKind die idx = 0x03) ∧ (u = setDom s die idx { domOf s die idx with state := 1 }) :=
  ⟨atPhase .ready, _, 8, 3, by decide +kernel, by decide +kernel, by decide +kernel, by decide +kernel, by decide +kernel, rfl⟩

theorem meets_PowerRowsComplete_3 : ∃ (s : State) (die idx : Nat), (droppable die idx = true) ∧ ((domOf s die idx).state = 1) ∧ (cachesDirty s die idx = false) :=
  ⟨setDom State.reset 7 0 { state := 1 }, 7, 0, by decide +kernel, by decide +kernel, by decide +kernel⟩

theorem meets_PowerRowsComplete_4 : ∃ (s u : State) (die idx : Nat), (droppable die idx = true) ∧ ((domOf s die idx).state = 1) ∧ (u = putFlag (setDom s die idx { domOf s die idx with state := 0 }) (pdPage die idx) PD_STAT_DROP_DENIED true) :=
  ⟨setDom State.reset 7 0 { state := 1 }, _, 7, 0, by decide +kernel, by decide +kernel, rfl⟩

theorem meets_PowerRowsComplete_5 : ∃ (s : State) (die idx : Nat), (droppable die idx = true) :=
  ⟨setDom State.reset 7 0 { state := 2 }, 7, 0, by decide +kernel⟩

theorem meets_PowerRowsComplete_6 : ∃ (s : State) (die idx us : Nat), (droppable die idx = true) ∧ ((domOf s die idx).state = 3) ∧ (isolated s die = false) :=
  ⟨setDom (joinedUp .ready) 7 0 { state := 3 }, 7, 0, 100000, by decide +kernel, by decide +kernel, by decide +kernel⟩

theorem meets_PowerRowsComplete_7 : ∃ (s : State) (die idx : Nat), ((domOf s die idx).state = 3) :=
  ⟨setDom State.reset 7 0 { state := 3 }, 7, 0, by decide +kernel⟩

theorem meets_PowerRowsComplete_8 : ∃ (s u : State) (ini : Nat) (val old : Word), (writeOkAt s ini (pdPage 8 1 + 0x060) val = true) ∧ (u = storedAt s (pdPage 8 1 + 0x060) val) ∧ (old = getReg (reachAt s (pdPage 8 1 + 0x060)) (pdPage 8 1 + 0x060)) :=
  ⟨State.reset, _, 4, 1, _, by decide +kernel, rfl, rfl⟩

theorem meets_PowerRowsComplete_9 : ∃ (s : State), (torporDue s = true) :=
  ⟨torporReady, by decide +kernel⟩

theorem meets_PowerRowsComplete_10 : ∃ (s u : State) (why : Nat), (s.shut.way = .torpor) ∧ (s.shut.step = 10) ∧ (u = torporOn s) ∧ (u.pow.exitAtEntry = some why) :=
  ⟨{ State.reset with shut := { way := .torpor, step := 10 }, pow := { State.reset.pow with exitAtEntry := some 2 } }, _, 2, by decide +kernel, by decide +kernel, rfl, by decide +kernel⟩

theorem meets_PowerRowsComplete_11 : ∃ (s u : State), (s.shut.way = .torpor) ∧ (s.shut.step = 10) ∧ (u = torporOn s) ∧ (u.pow.exitAtEntry = none) :=
  ⟨{ State.reset with shut := { way := .torpor, step := 10 } }, _, by decide +kernel, by decide +kernel, rfl, by decide +kernel⟩

theorem meets_PowerRowsComplete_12 : ∃ (s : State), (flag s (pdPage 8 0) PD_ALARM_CTRL_ALARM_EN = true) ∧ (flag s CU CU_OSC_STAT_RTC_OK = true) ∧ (s.pow.rtc = alarmTime s) :=
  ⟨putFlag (putFlag State.reset (pdPage 8 0) PD_ALARM_CTRL_ALARM_EN true) CU CU_OSC_STAT_RTC_OK true, by decide +kernel, by decide +kernel, by decide +kernel⟩

theorem meets_PowerRowsComplete_13 : ∃ (s u : State) (ini : Nat) (val old : Word), (writeOkAt s ini (pdPage 8 0 + 0x064) val = true) ∧ (u = storedAt s (pdPage 8 0 + 0x064) val) ∧ (old = getReg (reachAt s (pdPage 8 0 + 0x064)) (pdPage 8 0 + 0x064)) :=
  ⟨State.reset, _, 4, 0xFFFF, _, by decide +kernel, rfl, rfl⟩

theorem meets_GovernorRowsComplete_1 : ∃ (s u : State) (temps : List (Option Int)) (milliwatts : Nat), (govSamples s = true) ∧ (u = govRead s temps milliwatts) :=
  ⟨atPhase .ready, _, [some 70, none], 100000, by decide +kernel, rfl⟩

theorem meets_GovernorRowsComplete_2 : ∃ (s : State) (d : Nat), ((descOf s d).revoked = true) ∧ ((descOf s d).held ≠ 0) ∧ ((descOf s d).throttled = false) :=
  ⟨setDesc State.reset 4095 { descOf State.reset 4095 with revoked := true, held := 1 }, 4095, by decide +kernel, by decide +kernel, by decide +kernel⟩

theorem meets_GovernorRowsComplete_4 : ∃ (s u : State) (ini d : Nat) (w : Word), (w = BitVec.ofNat 32 (d % 4096)) ∧ (writeOkAt s ini (DS + 0x054) w = true) ∧ (u = storedAt s (DS + 0x054) w) :=
  ⟨State.reset, _, 4, 4095, _, rfl, by decide +kernel, rfl⟩

theorem meets_GovernorRowsComplete_5 : ∃ (s u : State), (enabled s DS = true) ∧ (u = abortIsolated s 4096) ∧ (issuePick u 64 = none) :=
  ⟨putFlag State.reset DS PG_CTRL_ENABLE true, _, by decide +kernel, rfl, by decide +kernel⟩

theorem meets_GovernorRowsComplete_6 : ∃ (s u : State) (q d : Nat), (enabled s DS = true) ∧ (u = abortIsolated s 4096) ∧ (issuePick u 64 = some (q, d)) :=
  ⟨issuable, _, 63, 4095, by decide +kernel, rfl, by decide +kernel⟩

theorem meets_GovernorRowsComplete_8 : ∃ (s : State) (q : Nat), (readyQ s q ≠ []) :=
  ⟨setReadyQ State.reset 63 [1], 63, by decide +kernel⟩

theorem meets_GovernorRowsComplete_9 : ∃ (s u : State) (ini d status : Nat) (w : Word), (w = BitVec.ofNat 32 (status % 4 * 65536 + d % 4096)) ∧ (writeOkAt s ini (DS + 0x058) w = true) ∧ (u = storedAt s (DS + 0x058) w) :=
  ⟨setDesc State.reset 4095 { descOf State.reset 4095 with state := 2, w0 := 1 }, _, 4, 4095, 1, _, rfl, by decide +kernel, rfl⟩

theorem meets_GovernorRowsComplete_10 : ∃ (s u : State) (ini d count : Nat) (w : Word), (w = BitVec.ofNat 32 (count % 2048 * 65536 + d % 4096)) ∧ (writeOkAt s ini (DS + 0x05C) w = true) ∧ (u = storedAt s (DS + 0x05C) w) :=
  ⟨setDesc State.reset 4095 { descOf State.reset 4095 with state := 2, held := 5 }, _, 4, 4095, 5, _, rfl, by decide +kernel, rfl⟩

theorem meets_GovernorRowsComplete_11 : ∃ (s u : State) (ini : Nat) (peek : Bool), (reaches s ini 8 0xC050 0x060 false = true) ∧ (u = reach s 8 0xC050 0x060 false) :=
  ⟨State.reset, _, 4, false, by decide +kernel, rfl⟩

theorem meets_GovernorRowsComplete_12 : ∃ (s u : State) (ini c : Nat) (peek : Bool), (c < 4) ∧ (reaches s ini 8 0xC050 (0x070 + 4 * c) false = true) ∧ (u = reach s 8 0xC050 (0x070 + 4 * c) false) :=
  ⟨State.reset, _, 4, 3, false, by decide +kernel, by decide +kernel, rfl⟩

theorem meets_GovernorRowsComplete_13 : ∃ (s u : State) (ini n : Nat) (peek : Bool), (n < 8) ∧ (reaches s ini 8 0xC050 (0x080 + 4 * n) false = true) ∧ (u = reach s 8 0xC050 (0x080 + 4 * n) false) :=
  ⟨State.reset, _, 4, 7, false, by decide +kernel, by decide +kernel, rfl⟩

theorem meets_SecurityRowsComplete_1 : ∃ (s u : State) (m : Nat) (bufOk : Bool) (r : SecRes), (u = secTake s) ∧ (secRuns u m = true) ∧ (reqWord u 0 = 1) ∧ (secStall u 1 = none) ∧ (r = attestRun bufOk u) :=
  ⟨secReq 1, _, 47, true, _, rfl, by decide +kernel, by decide +kernel, by decide +kernel, rfl⟩

theorem meets_SecurityRowsComplete_2 : ∃ (s u : State) (m : Nat) (bufOk : Bool) (r : SecRes), (u = secTake s) ∧ (secRuns u m = true) ∧ (reqWord u 0 = 2) ∧ (secStall u 2 = none) ∧ (r = getCertRun bufOk u) :=
  ⟨secReq 2, _, 47, true, _, rfl, by decide +kernel, by decide +kernel, by decide +kernel, rfl⟩

theorem meets_SecurityRowsComplete_3 : ∃ (s u : State) (m : Nat) (keepOk : Bool) (r : SecRes), (u = secTake s) ∧ (secRuns u m = true) ∧ (reqWord u 0 = 3) ∧ (secStall u 3 = none) ∧ (r = commitVersionRun keepOk u) :=
  ⟨secReq 3, _, 47, true, _, rfl, by decide +kernel, by decide +kernel, by decide +kernel, rfl⟩

theorem meets_SecurityRowsComplete_4 : ∃ (s u : State) (m : Nat) (keepOk : Bool) (r : SecRes), (u = secTake s) ∧ (secRuns u m = true) ∧ (reqWord u 0 = 4) ∧ (secStall u 4 = none) ∧ (r = setCtrRun keepOk u) :=
  ⟨secReq 4, _, 47, true, _, rfl, by decide +kernel, by decide +kernel, by decide +kernel, rfl⟩

theorem meets_SecurityRowsComplete_5 : ∃ (s u : State) (m : Nat) (bufOk keepOk : Bool) (r : SecRes), (u = secTake s) ∧ (secRuns u m = true) ∧ (reqWord u 0 = 5) ∧ (secStall u 5 = none) ∧ (r = signerAddRun bufOk keepOk u) :=
  ⟨secReq 5, _, 47, true, true, _, rfl, by decide +kernel, by decide +kernel, by decide +kernel, rfl⟩

theorem meets_SecurityRowsComplete_6 : ∃ (s u : State) (m : Nat) (keepOk : Bool) (r : SecRes), (u = secTake s) ∧ (secRuns u m = true) ∧ (reqWord u 0 = 6) ∧ (secStall u 6 = none) ∧ (r = signerRevokeRun keepOk u) :=
  ⟨secReq 6, _, 47, true, _, rfl, by decide +kernel, by decide +kernel, by decide +kernel, rfl⟩

theorem meets_SecurityRowsComplete_7 : ∃ (s u : State) (m : Nat) (token bufOk keepOk : Bool) (r : SecRes), (u = secTake s) ∧ (secRuns u m = true) ∧ (reqWord u 0 = 7) ∧ (secStall u 7 = none) ∧ (r = lcAdvanceRun m token bufOk keepOk u) :=
  ⟨secReq 7, _, 47, true, true, true, _, rfl, by decide +kernel, by decide +kernel, by decide +kernel, rfl⟩

theorem meets_SecurityRowsComplete_8 : ∃ (s u : State) (m : Nat) (nonce : List (BitVec 8)) (bufOk : Bool) (r : SecRes), (u = secTake s) ∧ (secRuns u m = true) ∧ (reqWord u 0 = 8) ∧ (secStall u 8 = none) ∧ (r = returnNonceRun nonce bufOk u) :=
  ⟨secReq 8, _, 47, [1], true, _, rfl, by decide +kernel, by decide +kernel, by decide +kernel, rfl⟩

theorem meets_SecurityRowsComplete_9 : ∃ (s u : State) (m : Nat) (pub : List (BitVec 8)) (bufOk keepOk : Bool) (r : SecRes), (u = secTake s) ∧ (secRuns u m = true) ∧ (reqWord u 0 = 9) ∧ (secStall u 9 = none) ∧ (r = provisionRun pub bufOk keepOk u) :=
  ⟨secReq 9, _, 47, [1], true, true, _, rfl, by decide +kernel, by decide +kernel, by decide +kernel, rfl⟩

theorem meets_SecurityRowsComplete_10 : ∃ (s u : State) (m : Nat) (bufOk keepOk : Bool) (r : SecRes), (u = secTake s) ∧ (secRuns u m = true) ∧ (reqWord u 0 = 0xA) ∧ (secStall u 0xA = none) ∧ (r = certWriteRun bufOk keepOk u) :=
  ⟨secReq 0xA, _, 47, true, true, _, rfl, by decide +kernel, by decide +kernel, by decide +kernel, rfl⟩

theorem meets_SecurityRowsComplete_11 : ∃ (s u : State) (m : Nat) (keepOk : Bool) (r : SecRes), (u = secTake s) ∧ (secRuns u m = true) ∧ (reqWord u 0 = 0xB) ∧ (secStall u 0xB = none) ∧ (r = clearStestRun keepOk u) :=
  ⟨secReq 0xB, _, 47, true, _, rfl, by decide +kernel, by decide +kernel, by decide +kernel, rfl⟩

theorem meets_SecurityRowsComplete_12 : ∃ (s u : State) (m : Nat), (u = secTake s) ∧ (secRuns u m = true) ∧ (reqWord u 0 = 0 ∨ 0xB < reqWord u 0) :=
  ⟨secReq 12, _, 47, rfl, by decide +kernel, by decide +kernel⟩

theorem meets_SecurityRowsComplete_13 : ∃ (s u : State) (ini : Nat), (writeOkAt s ini (SC + 0x0A0) 1 = true) ∧ (u = storedAt s (SC + 0x0A0) 1) :=
  ⟨{ State.reset with sec := { State.reset.sec with lc := 1 } }, _, 6, by decide +kernel, rfl⟩

theorem meets_ErrorRowsComplete_1 : ∃ (s : State) (cls die src code info : Nat), (errClass code = some cls) :=
  ⟨State.reset, 3, 7, 0xF000, 0x0F01, 5, by decide +kernel⟩

theorem meets_ErrorRowsComplete_2 : ∃ (s : State), (s.err.fatal = true) ∧ (flag s ER ER_CTRL_FATAL_RESET = true) :=
  ⟨putFlag { State.reset with err := { State.reset.err with fatal := true } } ER ER_CTRL_FATAL_RESET true, by decide +kernel, by decide +kernel⟩

theorem meets_ErrorRowsComplete_3 : ∃ (s u : State) (ini : Nat) (val : Word) (n : ErrRec), (writeOkAt s ini (ER + 0x040) (val ||| 0x80000000) = true) ∧ (u = storedAt s (ER + 0x040) (val ||| 0x80000000)) ∧ (u.err.next = some n) :=
  ⟨{ State.reset with err := { State.reset.err with first := some errRec0, next := some errRec0, handling := true } }, _, 4, 0, errRec0, by decide +kernel, rfl, by decide +kernel⟩

theorem meets_ErrorRowsComplete_4 : ∃ (s u : State) (ini : Nat) (val : Word), (writeOkAt s ini (ER + 0x040) (val ||| 0x80000000) = true) ∧ (u = storedAt s (ER + 0x040) (val ||| 0x80000000)) ∧ (u.err.next = none) :=
  ⟨{ State.reset with err := { State.reset.err with first := some errRec0, handling := true } }, _, 4, 0, by decide +kernel, rfl, by decide +kernel⟩

theorem meets_ErrorRowsComplete_5 : ∃ (s : State) (die : Nat) (errs : List (Nat × BitVec 72)) (x : AxEngine) (good seen : Frame), (axScans s die = true) ∧ (scrubSkips s die (axOf s die).pos = false) ∧ (x = axOf s die) ∧ (good = cfgGet s die x.pos) ∧ (seen = cfgSeen s die x.pos) :=
  ⟨scanning, 7, [(31, 2)], _, _, _, by decide +kernel, by decide +kernel, rfl, rfl, rfl⟩

theorem meets_ErrorRowsComplete_6 : ∃ (s : State) (die : Nat) (reads : List RegenRead) (f : Frame), ((axOf s die).state = 2) ∧ (isFabric die = true) ∧ (isolated s die = false) ∧ (regenGood s die reads = some f) ∧ (gateShut s (24 + die) = false) :=
  ⟨regenReady, 7, [regenRead0], 0, by decide +kernel, by decide +kernel, by decide +kernel, by rw [regenGood_regenReady], by decide +kernel⟩

theorem meets_ErrorRowsComplete_7 : ∃ (s : State) (die : Nat) (reads : List RegenRead), ((axOf s die).state = 2) ∧ (isFabric die = true) ∧ (isolated s die = false) ∧ (regenGood s die reads = none) ∧ (gateShut s (24 + die) = false) :=
  ⟨setAx (joinedUp .ready) 7 { state := 2, pos := 0x53000 }, 7, [], by decide +kernel, by decide +kernel, by decide +kernel, by decide +kernel, by decide +kernel⟩

theorem meets_ErrorRowsComplete_8 : ∃ (s u : State) (ini die : Nat) (val : Word), (writeOkAt s ini (axPage die + 0x040) val = true) ∧ (u = storedAt s (axPage die + 0x040) val) :=
  ⟨joinedUp .ready, _, 4, 7, 0, by decide +kernel, rfl⟩

theorem meets_ErrorRowsComplete_9 : ∃ (s : State) (die : Nat) (x : AxEngine), (isFabric die = true) ∧ (x = axOf s die) ∧ (axVote x = true) ∧ (isolated s die = false) ∧ (x.state = 1 ∨ x.state = 2) :=
  ⟨scanning, 7, _, by decide +kernel, rfl, by decide +kernel, by decide +kernel, by decide +kernel⟩

theorem meets_ErrorRowsComplete_11 : ∃ (s u : State) (ini : Nat) (val : Word), (writeOkAt s ini (BB + 0x04C) val = true) ∧ (u = storedAt s (BB + 0x04C) val) :=
  ⟨State.reset, _, 4, 0xFFFFFFFF, by decide +kernel, rfl⟩

theorem meets_ErrorRowsComplete_12 : ∃ (s : State) (reason : Nat) (ok : Bool), (1 ≤ reason) ∧ (reason ≤ 5) :=
  ⟨State.reset, 5, false, by decide +kernel, by decide +kernel⟩

theorem meets_ErrorRowsComplete_13 : ∃ (s u : State) (ini : Nat) (w : Word), (w = setWord s BB [(BB_XFER_CTRL_GO, 1)]) ∧ (writeOkAt s ini (BB + 0x06C) w = true) ∧ (u = storedAt s (BB + 0x06C) w) :=
  ⟨State.reset, _, 4, _, rfl, by decide +kernel, rfl⟩

theorem meets_ErrorRowsComplete_14 : ∃ (s : State) (ok : Bool) (c : BbCopy), (getF s BB BB_XFER_STAT_RESULT = 0xF) ∧ (copySel s = some c) ∧ (busStall s 9 (getF s BB BB_XFER_LO_ADDR * 256 + getF s BB BB_XFER_HI_ADDR * 2 ^ 32) (528 * 256) = none) :=
  ⟨bbSending, true, bbCopy0, by decide +kernel, by decide +kernel, by decide +kernel⟩

theorem meets_ErrorRowsComplete_15 : ∃ (s : State) (ok : Bool), (getF s BB BB_XFER_STAT_RESULT = 0xF) ∧ (copySel s = none) :=
  ⟨putF State.reset BB BB_XFER_STAT_RESULT 0xF, true, by decide +kernel, by decide +kernel⟩

theorem meets_ShutdownRowsComplete_3 : ∃ (s : State), (s.shut.way ≠ .none) :=
  ⟨{ State.reset with shut := { way := .lastGasp, step := 1 } }, by decide +kernel⟩

theorem meets_ShutdownRowsComplete_4 : ∃ (s : State) (die net : Nat), (capHas s die net = true) :=
  ⟨{ State.reset with shut := { capLeft := [(7, [31])] } }, 7, 31, by decide +kernel⟩

theorem meets_ShutdownRowsComplete_5 : ∃ (s : State) (die net : Nat), (capHas s die net = true) :=
  ⟨{ State.reset with shut := { capLeft := [(7, [31])] } }, 7, 31, by decide +kernel⟩

theorem meets_ShutdownRowsComplete_6 : ∃ (s u : State) (ini : Nat), (writeOkAt s ini (SD + 0x040) 0x40000000 = true) ∧ (u = storedAt s (SD + 0x040) 0x40000000) :=
  ⟨atPhase .ready, _, 4, by decide +kernel, rfl⟩

theorem meets_ShutdownRowsComplete_7 : ∃ (s u : State) (ini : Nat), (writeOkAt s ini (SD + 0x040) 0x20000000 = true) ∧ (u = storedAt s (SD + 0x040) 0x20000000) :=
  ⟨atPhase .ready, _, 4, by decide +kernel, rfl⟩

theorem meets_ShutdownRowsComplete_8 : ∃ (s u : State) (ini : Nat), (writeOkAt s ini (SD + 0x040) 0x80000000 = true) ∧ (u = storedAt s (SD + 0x040) 0x80000000) :=
  ⟨atPhase .ready, _, 4, by decide +kernel, rfl⟩

theorem meets_ShutdownRowsComplete_9 : ∃ (s : State), (getF s SD SD_STAT_ARM_RESULT = 0xF) :=
  ⟨putF State.reset SD SD_STAT_ARM_RESULT 0xF, by decide +kernel⟩

theorem meets_ShutdownRowsComplete_10 : ∃ (s u : State), (u = { s with pin := { s.pin with shdnN := false } }) :=
  ⟨atPhase .safe, _, rfl⟩

theorem meets_ShutdownRowsComplete_11 : ∃ (s u : State) (ms : Nat) (fail : Option (Nat × Nat × Nat)), (s.shut.way = .orderly) ∧ (s.shut.step = 9) ∧ (u = testSaved s (testRecOf s ms fail)) :=
  ⟨{ State.reset with shut := { way := .orderly, step := 9 } }, _, 900, some (8, 1, 5), by decide +kernel, by decide +kernel, rfl⟩

theorem meets_ShutdownRowsComplete_12 : ∃ (s u : State) (ini die : Nat) (val : Word), (writeOkAt s ini (stPage die + 0x040) (val ||| 0x80000000) = true) ∧ (u = storedAt s (stPage die + 0x040) (val ||| 0x80000000)) :=
  ⟨stReady, _, 4, 8, 4, by decide +kernel, rfl⟩

theorem meets_ShutdownRowsComplete_13 : ∃ (s : State) (die : Nat) (fail : Option Nat), (flag s (stPage die) ST_STAT_BUSY = true) :=
  ⟨putFlag State.reset (stPage 8) ST_STAT_BUSY true, 8, some 3, by decide +kernel⟩

theorem meets_ShutdownRowsComplete_14 : ∃ (s : State) (rail : Nat), (rail < 9) ∧ (s.pow.torpor = false) :=
  ⟨atPhase .ready, 8, by decide +kernel, by decide +kernel⟩

theorem meets_ShutdownRowsComplete_15 : ∃ (s : State), (s.pow.torpor = false) ∧ (tooHot s = true) ∧ (s.shut.way ≠ .lastGasp ∧ s.shut.way ≠ .torpor) ∧ (starting s.start.phase = true ∨ s.start.phase = .ready ∨ s.start.phase = .safe ∨ s.shut.way = .orderly) :=
  ⟨{ atPhase .safe with pow := { sens := [(3, some 125)] } }, by decide +kernel, by decide +kernel, by decide +kernel, by decide +kernel⟩

theorem meets_ShutdownRowsComplete_16 : ∃ (s u : State) (ini die a i : Nat) (val : Word), (die ≠ 8) ∧ (a < 8) ∧ (i < 3) ∧ (writeOkAt s ini (ioPage die a + (0x040 + 4 * i)) val = true) ∧ (u = storedAt s (ioPage die a + (0x040 + 4 * i)) val) :=
  ⟨joinedUp .ready, _, 4, 7, 0, 2, 0, by decide +kernel, by decide +kernel, by decide +kernel, by decide +kernel, rfl⟩

theorem meets_TestPortRowsComplete_7 : ∃ (s : State) (ir : Nat), (ir < 256) ∧ (tapCodes.contains ir = false) :=
  ⟨State.reset, 255, by decide +kernel, by decide +kernel⟩

theorem meets_TestPortRowsComplete_8 : ∃ (s u : State) (dr : BitVec 80), (u = tapLoad s 0x10 (dbgAccValue s)) ∧ (u.dbg.acc = none) ∧ (u.dbg.dbgLost = false) ∧ (nGet dr.toNat 32 42 % 4 = 0) :=
  ⟨dbgHere, _, 0, rfl, by decide +kernel, by decide +kernel, by decide +kernel⟩

theorem meets_TestPortRowsComplete_9 : ∃ (s u : State) (dr : BitVec 80), (u = tapLoad s 0x10 (dbgAccValue s)) ∧ (u.dbg.acc = none) ∧ (u.dbg.dbgLost = false) ∧ (nGet dr.toNat 32 42 % 4 ≠ 0) :=
  ⟨dbgHere, _, BitVec.ofNat 80 (2 ^ 32), rfl, by decide +kernel, by decide +kernel, by decide +kernel⟩

theorem meets_TestPortRowsComplete_10 : ∃ (s u : State) (dr : BitVec 80), (u = tapLoad s 0x10 (dbgAccValue s)) ∧ (u.dbg.acc.isSome = true ∨ u.dbg.dbgLost = true) :=
  ⟨{ State.reset with dbg := { State.reset.dbg with dbgLost := true } }, _, 0, rfl, by decide +kernel⟩

theorem meets_TestPortRowsComplete_11 : ∃ (s : State) (x : Nat × Bool × Bool × Word) (n : Nat × Nat), (s.dbg.acc = some x) ∧ (busUp s = true) ∧ (s.dbg.lost = false) ∧ (destOf s x.1 = some n) ∧ (accessOk s x.1 4 x.2.1 = true) ∧ (quenched s 6 = false) ∧ (causesT s n.1 = [] ∧ portShut s n.1 = false) ∧ (isolated s (nodeDie n.1) = false) :=
  ⟨accAt (0x31000000000, true, false, 7), (0x31000000000, true, false, 7), (2056, 3367262748672), by decide +kernel, by decide +kernel, by decide +kernel, by decide +kernel, by decide +kernel, by decide +kernel, by decide +kernel, by decide +kernel⟩

theorem meets_TestPortRowsComplete_12 : ∃ (s : State) (x : Nat × Bool × Bool × Word) (n : Nat × Nat), (s.dbg.acc = some x) ∧ (busUp s = true) ∧ (s.dbg.lost = false) ∧ (destOf s x.1 = some n) ∧ (accessOk s x.1 4 x.2.1 = true) ∧ (quenched s 6 = false) ∧ (causesT s n.1 ≠ [] ∨ portShut s n.1 = true ∨ isolated s (nodeDie n.1) = true) :=
  ⟨targetCut, (0x31000000000, true, false, 7), (2056, 3367262748672), by decide +kernel, by decide +kernel, by decide +kernel, by decide +kernel, by decide +kernel, by decide +kernel, by decide +kernel⟩

theorem meets_TestPortRowsComplete_13 : ∃ (s : State) (x : Nat × Bool × Bool × Word), (s.dbg.acc = some x) ∧ (busUp s = true) ∧ (s.dbg.lost = false) ∧ (destOf s x.1 = none) :=
  ⟨accAt (0, true, false, 7), (0, true, false, 7), by decide +kernel, by decide +kernel, by decide +kernel, by decide +kernel⟩

theorem meets_TestPortRowsComplete_14 : ∃ (s : State) (x : Nat × Bool × Bool × Word), (s.dbg.acc = some x) ∧ (busUp s = true) ∧ (s.dbg.lost = true) :=
  ⟨{ accAt (0, false, false, 0) with dbg := { (accAt (0, false, false, 0)).dbg with lost := true } }, (0, false, false, 0), by decide +kernel, by decide +kernel, by decide +kernel⟩

theorem meets_TestPortRowsComplete_15 : ∃ (s u : State) (dr : Word), (u = tapLoad s 0x11 (dbgStatValue s)) :=
  ⟨State.reset, _, 0x80000000, rfl⟩

theorem meets_DebugRowsComplete_1 : ∃ (s u : State) (ini cores : Nat) (w : Word), (w = setWord s DB [(DB_HALT_HALT_REQ, cores % 16)]) ∧ (writeOkAt s ini (DB + 0x040) w = true) ∧ (u = storedAt s (DB + 0x040) w) :=
  ⟨State.reset, _, 4, 15, _, rfl, by decide +kernel, rfl⟩

theorem meets_DebugRowsComplete_2 : ∃ (s u : State) (ini cores : Nat) (w : Word), (w = setWord s DB [(DB_HALT_RESUME_REQ, cores % 16)]) ∧ (writeOkAt s ini (DB + 0x040) w = true) ∧ (u = storedAt s (DB + 0x040) w) :=
  ⟨setHart State.reset 0 { halted := true }, _, 4, 1, _, rfl, by decide +kernel, rfl⟩

theorem meets_DebugRowsComplete_3 : ∃ (s u : State) (ini cores : Nat) (w : Word), (w = setWord s DB [(DB_HALT_STEP, cores % 16)]) ∧ (writeOkAt s ini (DB + 0x040) w = true) ∧ (u = storedAt s (DB + 0x040) w) :=
  ⟨setHart State.reset 0 { halted := true }, _, 4, 1, _, rfl, by decide +kernel, rfl⟩

theorem meets_DebugRowsComplete_4 : ∃ (s : State) (c cause hit : Nat) (regs : List (Nat × BitVec 64)), (c < 4) ∧ ((hartOf s c).running = true) ∧ ((hartOf s c).halted = false) ∧ (coreBusy s c = false) ∧ (hitsOk s c hit = true) ∧ (haltCause s c cause hit regs = true) :=
  ⟨{ setHart State.reset 3 { running := true } with dbg := { State.reset.dbg with stepping := [3] } }, 3, 4, 0, [], by decide +kernel, by decide +kernel, by decide +kernel, by decide +kernel, by decide +kernel, by decide +kernel⟩

theorem meets_DebugRowsComplete_5 : ∃ (s u : State) (ini : Nat) (val : Word), (writeOkAt s ini (DB + 0x060) (val ||| 0x80000000) = true) ∧ (u = storedAt s (DB + 0x060) (val ||| 0x80000000)) :=
  ⟨setHart State.reset 3 { halted := true }, _, 6, 0x30001, by decide +kernel, rfl⟩

theorem meets_DebugRowsComplete_6 : ∃ (s u : State) (ini die eng : Nat) (w : Word), (w = dbLeWord 1 die eng) ∧ (writeOkAt s ini (DB + 0x070) w = true) ∧ (u = storedAt s (DB + 0x070) w) :=
  ⟨setEng (joinedUp .ready) 7 287 { mode := .run }, _, 6, 7, 287, _, rfl, by decide +kernel, rfl⟩

theorem meets_DebugRowsComplete_7 : ∃ (s u : State) (ini die eng : Nat) (w : Word), (w = dbLeWord 2 die eng) ∧ (writeOkAt s ini (DB + 0x070) w = true) ∧ (u = storedAt s (DB + 0x070) w) :=
  ⟨leHeld, _, 6, 7, 287, _, rfl, by decide +kernel, rfl⟩

theorem meets_DebugRowsComplete_8 : ∃ (s u : State) (ini die eng : Nat) (w : Word), (w = dbLeWord 3 die eng) ∧ (writeOkAt s ini (DB + 0x070) w = true) ∧ (u = storedAt s (DB + 0x070) w) :=
  ⟨leHeld, _, 6, 7, 287, _, rfl, by decide +kernel, rfl⟩

theorem meets_DebugRowsComplete_9 : ∃ (s u : State) (e : TraceEnt) (rest : List TraceEnt), (s.dbg.traceQ = e :: rest) ∧ (flag s TR TR_CFG_EN = true) ∧ (traceStopped s = false) ∧ (u = traceTaken s rest) :=
  ⟨putFlag { State.reset with dbg := { State.reset.dbg with traceQ := [{ time := 1, kind := 1, src := 0, data := 5 }] } } TR TR_CFG_EN true, _, { time := 1, kind := 1, src := 0, data := 5 }, [], by decide +kernel, by decide +kernel, by decide +kernel, rfl⟩

theorem meets_DebugRowsComplete_10 : ∃ (s u : State) (ini c : Nat) (val : Word), (c < 4) ∧ (writeOkAt s ini (WD + (0x054 + 16 * c)) val = true) ∧ (u = storedAt s (WD + (0x054 + 16 * c)) val) :=
  ⟨State.reset, _, 4, 3, 0xA5, by decide +kernel, by decide +kernel, rfl⟩

theorem meets_DebugRowsComplete_11 : ∃ (s u v : State) (c : Nat), (c < 4) ∧ (flag s WD (WD_CTRL_EN.nth c) = true) ∧ (((hartOf s c).halted && nBit (getF s WD WD_CFG_FREEZE) c) = false) ∧ (u = evtPulse (putF s WD WD_STAT_BITTEN (nSet (getF s WD WD_STAT_BITTEN) c true)) WD c) ∧ (v = (if nBit (getF u WD WD_CFG_RESET_EN) c then coreReset u c else u)) :=
  ⟨putFlag State.reset WD (WD_CTRL_EN.nth 3) true, _, _, 3, by decide +kernel, by decide +kernel, by decide +kernel, rfl, rfl⟩

theorem meets_DebugRowsComplete_12 : ∃ (s u : State) (ini : Nat) (val old : Word), (writeOkAt s ini (WD + 0x090) val = true) ∧ (u = storedAt s (WD + 0x090) val) ∧ (old = getReg (reachAt s (WD + 0x090)) (WD + 0x090)) :=
  ⟨State.reset, _, 4, 0x80000064, _, by decide +kernel, rfl, rfl⟩

theorem meets_DebugRowsComplete_13 : ∃ (s u : State) (ini : Nat) (val : Word), (writeOkAt s ini (WD + 0x094) val = true) ∧ (u = storedAt s (WD + 0x094) val) :=
  ⟨State.reset, _, 4, 0xA5, by decide +kernel, rfl⟩

theorem meets_DebugRowsComplete_14 : ∃ (s : State), (flag s WD WD_SENT_CTRL_EN = true) ∧ (s.pow.torpor = false) ∧ (flag s WD WD_SENT_CTRL_SENT_FREEZE = false ∨ (List.range 4).any (fun c => (hartOf s c).halted) = false) :=
  ⟨putFlag State.reset WD WD_SENT_CTRL_EN true, by decide +kernel, by decide +kernel, by decide +kernel⟩

end Sys2Proof.Tests
end

section
/-! PROOFS. The package (01_package.md): the endpoint blocks of the seams and the slots of the fabric windows. -/

namespace Sys2Proof.Machine

/-! ### Endpoint blocks of seams (R20, R22) -/

theorem seamOn_iff {die m : Nat} :
    seamOn die m = true ↔ m < 18 ∧ ((seamDies m).1 = die ∨ (seamDies m).2 = die) := by
  simp [seamOn]

/-- Page function 2 of a die holds the pages of its seams and no others. -/
theorem pageOf_seamBlock (die : Nat) {m : Nat} (hm : m < 4096) :
    pageOf die (0x2000 + m) = if seamOn die m then some .sm else none := by
  have hfun : (0x2000 + m) / 4096 = 2 := by omega
  have hinst : (0x2000 + m) % 4096 = m := by omega
  simp only [pageOf, hfun, hinst]

theorem pageOf_seamBlock_eq_sm_iff (die : Nat) {m : Nat} (hm : m < 4096) :
    pageOf die (0x2000 + m) = some .sm ↔ m < 18 ∧ ((seamDies m).1 = die ∨ (seamDies m).2 = die) := by
  rw [pageOf_seamBlock die hm, ← seamOn_iff]
  simp

/-- The table of R20 row by row: a seam joins two different dies of the package. -/
theorem seamDies_distinct :
    ∀ m < 18, (seamDies m).1 ≠ (seamDies m).2 ∧ (seamDies m).1 < 15 ∧ (seamDies m).2 < 15 := by
  decide

/-- Settles O7: a block of page function 2 is decided by `seamOn` alone, and SH5 is seam 10 of the table. -/
theorem seamEndpointPages : Obligations.SeamEndpointPages := by
  unfold Obligations.SeamEndpointPages
  refine ⟨fun die m hm => pageOf_seamBlock_eq_sm_iff die hm, seamDies_distinct, fun die => ?_⟩
  have hsh5 := pageOf_seamBlock_eq_sm_iff die (m := 10) (by decide)
  simpa [seamDies, eq_comm] using hsh5

/-! ### Node numbers -/

@[simp] theorem nodeDie_mkNode {d r e : Nat} (hr : r < 32) (he : e < 8) : nodeDie (mkNode d r e) = d := by
  unfold nodeDie mkNode; omega

@[simp] theorem nodeRtr_mkNode {d r e : Nat} (hr : r < 32) (he : e < 8) : nodeRtr (mkNode d r e) = r := by
  unfold nodeRtr mkNode; omega

@[simp] theorem nodeEp_mkNode {d r e : Nat} (he : e < 8) : nodeEp (mkNode d r e) = e := by
  unfold nodeEp mkNode; omega

/-! ### Fabric NoC ports and their slots (R27, R303) -/

theorem nodeDie_portNode {n p : Nat} (hp : p < 48) : nodeDie (portNode n p) = n :=
  nodeDie_mkNode (by omega) (by split <;> decide)

theorem nodeRtr_portNode {n p : Nat} (hp : p < 48) : nodeRtr (portNode n p) = 8 * (p % 3) + p / 6 :=
  nodeRtr_mkNode (by omega) (by split <;> decide)

theorem nodeEp_portNode (n p : Nat) : nodeEp (portNode n p) = if p % 6 < 3 then 0 else 1 :=
  nodeEp_mkNode (by split <;> decide)

/-- Routers stand eight in a row (R292): a router's number gives its row and its place there. -/
theorem routerGrid_injective {y x y' x' : Nat} (hx : x < 8) (hx' : x' < 8) (h : 8 * y + x = 8 * y' + x') :
    y = y' ∧ x = x' := by
  omega

/-- The router of a port gives `p % 3` and its group of six `p / 6`, and its endpoint the half of that group. -/
theorem portNode_injective {n p n' p' : Nat} (hp : p < 48) (hp' : p' < 48) (h : portNode n p = portNode n' p') :
    n = n' ∧ p = p' := by
  have hdie : n = n' := by simpa [nodeDie_portNode, hp, hp'] using congrArg nodeDie h
  have hrtr : 8 * (p % 3) + p / 6 = 8 * (p' % 3) + p' / 6 := by
    simpa [nodeRtr_portNode, hp, hp'] using congrArg nodeRtr h
  have hep : (if p % 6 < 3 then 0 else 1) = if p' % 6 < 3 then 0 else 1 := by
    simpa only [nodeEp_portNode] using congrArg nodeEp h
  obtain ⟨hrem, hsix⟩ := routerGrid_injective (by omega) (by omega) hrtr
  have hport : p = p' := by
    split at hep <;> split at hep <;> omega
  exact ⟨hdie, hport⟩

/-- An address of the fabric windows goes by its die and slot numbers. -/
theorem destOf_fabric (s : State) {a : Nat} (hlo : 0x20000000000 ≤ a) (hhi : a < 0x30000000000) :
    destOf s a =
      if a / 0x80000000 % 64 < 48 then
        some (portNode ((a - 0x20000000000) / 0x2000000000) (a / 0x80000000 % 64), (a / 0x80000000 + 1) * 0x80000000)
      else none := by
  unfold destOf
  rw [if_neg (Nat.not_lt.mpr hlo), if_pos hhi]

/-- The windows and the slots are aligned: division takes die, slot and offset apart again. -/
theorem destOf_slot (s : State) {n p x : Nat} (hn : n < 8) (hp : p < 64) (hx : x < 0x80000000) :
    destOf s (0x20000000000 + n * 0x2000000000 + p * 0x80000000 + x) =
      if p < 48 then some (portNode n p, 0x20000000000 + n * 0x2000000000 + (p + 1) * 0x80000000) else none := by
  generalize ha : 0x20000000000 + n * 0x2000000000 + p * 0x80000000 + x = a
  have hdie : (a - 0x20000000000) / 0x2000000000 = n := by omega
  have hslot : a / 0x80000000 % 64 = p := by omega
  have hend : (a / 0x80000000 + 1) * 0x80000000 = 0x20000000000 + n * 0x2000000000 + (p + 1) * 0x80000000 := by omega
  rw [destOf_fabric s (by omega) (by omega), hdie, hslot, hend]

/-- Settles O8: the address map takes a slot's address apart, and a port's node gives its die and its number back. -/
theorem fabricPortSlots : Obligations.FabricPortSlots := by
  unfold Obligations.FabricPortSlots
  exact ⟨fun s _ _ _ hn hp hx => destOf_slot s hn hp hx, fun _ _ _ _ _ hp _ hp' h => portNode_injective hp hp' h⟩

end Sys2Proof.Machine
end

section
/-! PROOFS. Register pages (02_register_pages.md): the fault registers of a page, rejected writes, and POP reads of an empty
queue. -/

namespace Sys2Proof.Machine

/-! ### The fault registers of a page (R47) -/

/-- A one-bit field reads 0 or 1. -/
theorem getF_bit (s : State) (page : Nat) {f : FieldRef} (h : f.wid = 1) : getF s page f = 0 ∨ getF s page f = 1 := by
  unfold getF wGet nGet
  rw [h]
  omega

theorem getF_countUp_self (s : State) (page : Nat) (f : FieldRef) (n : Nat) (h : f.lsb + f.wid ≤ 32) :
    getF (countUp s page f n) page f = min (getF s page f + n) (2 ^ f.wid - 1) := by
  have hpos : 0 < 2 ^ f.wid := Nat.two_pow_pos _
  unfold countUp
  rw [getF_putF_self _ _ _ _ h, Nat.mod_eq_of_lt (by omega)]

/-- Setting a field leaves every other register. -/
theorem getReg_putF_ne (s : State) {page a : Nat} {f : FieldRef} (v : Nat) (h : a ≠ page + f.off) :
    getReg (putF s page f v) a = getReg s a :=
  getReg_setReg_ne s _ h

/-- Counting a fault leaves the fields of PG_FAULT. -/
theorem getF_countFault (s : State) (page : Nat) {f : FieldRef} (h : f.off = 0x020) :
    getF (countUp s page PG_FAULT_CNT_COUNT 1) page f = getF s page f :=
  getF_putF_ne s _ (by simp [h, PG_FAULT_CNT_COUNT])

theorem pageFault_of_valid {s : State} {page : Nat} (code : Nat) (h : getF s page PG_FAULT_VALID = 1) :
    pageFault s page code = countUp s page PG_FAULT_CNT_COUNT 1 := by
  simp [pageFault, flag, getF_countFault s page (f := PG_FAULT_VALID) rfl, h]

theorem pageFault_of_not_valid {s : State} {page : Nat} (code : Nat) (h : getF s page PG_FAULT_VALID = 0) :
    pageFault s page code =
      putFlag (putF (countUp s page PG_FAULT_CNT_COUNT 1) page PG_FAULT_CODE code) page PG_FAULT_VALID true := by
  simp [pageFault, flag, getF_countFault s page (f := PG_FAULT_VALID) rfl, h]

theorem getF_pageFault_count (s : State) (page code : Nat) :
    getF (pageFault s page code) page PG_FAULT_CNT_COUNT = min (getF s page PG_FAULT_CNT_COUNT + 1) 65535 := by
  have hcount := getF_countUp_self s page PG_FAULT_CNT_COUNT 1 (by decide)
  rcases getF_bit s page (f := PG_FAULT_VALID) rfl with h | h
  · rw [pageFault_of_not_valid code h, putFlag, getF_putF_of _ _ _ (by decide) (by decide),
      getF_putF_of _ _ _ (by decide) (by decide)]
    exact hcount
  · rw [pageFault_of_valid code h]
    exact hcount

theorem getF_pageFault_valid (s : State) (page code : Nat) : getF (pageFault s page code) page PG_FAULT_VALID = 1 := by
  rcases getF_bit s page (f := PG_FAULT_VALID) rfl with h | h
  · rw [pageFault_of_not_valid code h]
    exact getF_putF_self _ _ _ _ (by decide)
  · rw [pageFault_of_valid code h, getF_countFault s page rfl, h]

/-- The first fault's code is latched. -/
theorem getF_pageFault_code_first {s : State} {page code : Nat} (hc : code < 65536) (h : getF s page PG_FAULT_VALID = 0) :
    getF (pageFault s page code) page PG_FAULT_CODE = code := by
  rw [pageFault_of_not_valid code h, putFlag, getF_putF_of _ _ _ (by decide) (by decide), getF_putF_self _ _ _ _ (by decide)]
  exact Nat.mod_eq_of_lt hc

/-- A later fault leaves the code latched before it. -/
theorem getF_pageFault_code_later {s : State} {page : Nat} (code : Nat) (h : getF s page PG_FAULT_VALID = 1) :
    getF (pageFault s page code) page PG_FAULT_CODE = getF s page PG_FAULT_CODE := by
  rw [pageFault_of_valid code h, getF_countFault s page rfl]

/-- A fault leaves every register but PG_FAULT and PG_FAULT_CNT. -/
theorem getReg_pageFault_ne (s : State) {page a : Nat} (code : Nat) (hf : a ≠ page + 0x020) (hn : a ≠ page + 0x024) :
    getReg (pageFault s page code) a = getReg s a := by
  have hcount : getReg (countUp s page PG_FAULT_CNT_COUNT 1) a = getReg s a := getReg_putF_ne s _ hn
  rcases getF_bit s page (f := PG_FAULT_VALID) rfl with h | h
  · rw [pageFault_of_not_valid code h, putFlag, getReg_putF_ne _ _ hf, getReg_putF_ne _ _ hf]
    exact hcount
  · rw [pageFault_of_valid code h]
    exact hcount

/-- A fault touches the register store alone. -/
theorem pageFault_frame (s : State) (page code : Nat) :
    pageFault s page code = { s with pg := { s.pg with regs := (pageFault s page code).pg.regs } } := by
  rcases getF_bit s page (f := PG_FAULT_VALID) rfl with h | h
  · rw [pageFault_of_not_valid code h]; rfl
  · rw [pageFault_of_valid code h]; rfl

/-! ### Rejected writes (R39) -/

/-- A write that reaches its page is answered with what the page decides. -/
theorem cmdWrite_reaches (s : State) (ini : Nat) (bar0 : Bool) (die blk off : Nat) (w : Word) (p : Page)
    (hp : pageOf die blk = some p) (h : reaches s ini die blk off true = true) :
    cmdWrite s ini bar0 die blk off w =
      regAnswer (regWrite (reach s die blk off true) ini bar0 p die blk off w).1 ini (pg die blk + off) true
        (regWrite (reach s die blk off true) ini bar0 p die blk off w).2 0 := by
  unfold reaches at h
  simp only [hp, Bool.and_eq_true, decide_eq_true_eq, Bool.not_eq_true'] at h
  obtain ⟨⟨⟨⟨⟨⟨hassigned, hup⟩, hquenched⟩, hcounter⟩, hdie⟩, hoff⟩, hcut, harrive⟩ := h
  have hblk := blk_lt_of_pageOf hp
  simp only [cmdWrite, cmdAccess, hassigned, hup, hquenched, hcounter, Bool.not_true, Bool.or_self, Bool.false_eq_true,
    if_false]
  rw [anyWrite, if_neg (by omega), if_neg (by omega),
    accWrite_reaches (regDie_pg die blk off (by omega)) (regBlk_pg die blk off hblk hoff) (regOff_pg die blk off hoff) hp
      hcut harrive]
  rfl

/-- Off the flow-slice pages a rejected write is a fault of its page and no more. -/
theorem regWrite_rejected {s : State} {ini : Nat} {bar0 : Bool} {p : Page} {die blk off : Nat} {w : Word} {code : Nat}
    (hfs : p ≠ .fs) (h : writeFault s ini bar0 p die blk off w = some code) :
    regWrite s ini bar0 p die blk off w = (pageFault s (pg die blk) code, 4) := by
  simp only [regWrite, h, writeReject, if_neg hfs]

/-- Settles O5: a fault counts and, where VALID is 0, latches besides; a rejected write comes down to one. -/
theorem faultRegistersLatch : Obligations.FaultRegistersLatch := by
  unfold Obligations.FaultRegistersLatch
  refine ⟨fun s page code hc => ⟨getF_pageFault_count s page code, getF_pageFault_valid s page code,
    getF_pageFault_code_first hc, getF_pageFault_code_later code, fun _ => getReg_pageFault_ne s code,
    pageFault_frame s page code⟩, ?_⟩
  intro s ini die blk off code bar0 w p hp hfs hreach hreject
  have hexec : exec (.registerWrite ini bar0 die blk off w) s = .next (cmdWrite s ini bar0 die blk off w) := rfl
  rw [hexec, cmdWrite_reaches s ini bar0 die blk off w p hp hreach, regWrite_rejected hfs hreject]

/-! ### POP reads of an empty queue (R41) -/

theorem cqPop_empty {s : State} (peek : Bool) (h : s.pow.cq = []) : cqPop s peek = (s, 0) := by
  simp [cqPop, h]

theorem mqPop_empty {s : State} {c : Nat} (peek : Bool) (h : tabOr [] s.pow.mq c = []) : mqPop s c peek = (s, 0) := by
  simp [mqPop, h]

theorem pqPop_empty {s : State} {n : Nat} (peek : Bool) (h : tabOr [] s.pow.pq n = []) : pqPop s n peek = (s, 0) := by
  simp [pqPop, h]

theorem txtsRead_empty {s : State} {die port : Nat} (peek : Bool) (h : tabOr [] (sliceOf s die).txts port = []) :
    txtsRead s die port peek = (s, 0) := by
  simp [txtsRead, h]

/-- The words of DS_MQ, one a core. -/
theorem dsRead_mq (s : State) (peek : Bool) {c : Nat} (hc : c < 4) :
    dsRead s peek (DS_MQ_VALID.nth c).off = some (mqPop s c peek) := by
  have hoff : (DS_MQ_VALID.nth c).off = 0x070 + 4 * c := rfl
  have hcore : (0x070 + 4 * c - 0x070) / 4 = c := by omega
  rw [hoff, dsRead, if_neg (by omega), if_pos (by simp; omega), hcore]

/-- The words of DS_PQ, one a die. -/
theorem dsRead_pq (s : State) (peek : Bool) {n : Nat} (hn : n < 8) :
    dsRead s peek (DS_PQ_VALID.nth n).off = some (pqPop s n peek) := by
  have hoff : (DS_PQ_VALID.nth n).off = 0x080 + 4 * n := rfl
  have hdie : (0x080 + 4 * n - 0x080) / 4 = n := by omega
  rw [hoff, dsRead, if_neg (by omega), if_neg (by simp), if_pos (by simp; omega), hdie]

/-- EV_CLAIM of a core that has nothing to claim. -/
theorem evRead_claim_empty {s : State} {c : Nat} (peek : Bool) (hc : c < 4) (h : claimSource s c = none) :
    evRead s peek (EV_CLAIM_VALID.nth c).off = some (s, 0) := by
  have hoff : (EV_CLAIM_VALID.nth c).off = 0x070 + 4 * c := rfl
  have hcore : (0x070 + 4 * c - 0x070) / 4 = c := by omega
  rw [hoff, evRead, if_neg (by omega), if_neg (by omega), if_pos (by simp; omega), hcore]
  simp only [h]

/-- Each mailbox's window of 64 bytes has its MB_TAKE at 0x24. -/
theorem mbTake_off_mod (i : Nat) : (MB_TAKE_VALID.nth i).off % 64 = 0x24 := by
  have hoff : (MB_TAKE_VALID.nth i).off = 0x124 + 0x40 * i := rfl
  omega

/-- MB_TAKE of a mailbox that is not full. -/
theorem mbRead_take_empty {s : State} {m : Nat} (ini : Nat) (peek : Bool) (h : (mboxOf s m).full = false) :
    mbRead s ini peek m 0x24 = some (s, 0) := by
  simp [mbRead, h]

/-- A page's own rule decides a read that passes its checks. -/
theorem regRead_special {s : State} {ini : Nat} {bar0 peek : Bool} {p : Page} {die blk off : Nat} {r : State × Nat}
    (hf : readFault s ini bar0 peek p die blk off = none) (hle : p = .le → off ≠ 0x064)
    (hr : specialRead s ini peek p die blk off = some r) : regRead s ini bar0 peek p die blk off = (r.1, 0, r.2) := by
  simp only [regRead, hf, hr]
  rw [if_neg (by simpa using hle)]

/-- Settles O6: by the rule of each POP register, and by what a command makes of a page's own rule for a read. -/
theorem popReadsEmpty : Obligations.PopReadsEmpty := by
  unfold Obligations.PopReadsEmpty
  refine ⟨by decide, fun s ini die blk peek => ⟨?cq, ?mq, ?pq, ?txts, ?claim, ?take⟩, ?command⟩
  case cq => exact fun h => congrArg some (cqPop_empty peek h)
  case mq => exact fun c hc h => (dsRead_mq s peek hc).trans (congrArg some (mqPop_empty peek h))
  case pq => exact fun n hn h => (dsRead_pq s peek hn).trans (congrArg some (pqPop_empty peek h))
  case txts => exact fun h => congrArg some (txtsRead_empty peek h)
  case claim => exact fun c hc h => evRead_claim_empty peek hc h
  case take =>
    intro i _ m hm h
    have hread : mbRead s ini peek m ((MB_TAKE_VALID.nth i).off % 64) = some (s, 0) := by
      rw [mbTake_off_mod, mbRead_take_empty ini peek h]
    constructor <;> simp only [specialRead, hm, hread]
  case command =>
    intro s u ini die blk off bar0 peek p hp hreach hu hle hf hr
    subst hu
    have hexec : exec (.registerReadClear ini bar0 die blk off peek) s = .next (cmdRead s ini bar0 die blk off peek) := rfl
    rw [hexec, cmdRead_ok s ini bar0 peek die blk off p hp hreach, regRead_special hf hle hr, regAnswer_ok]

end Sys2Proof.Machine
end

section
/-! PROOFS. Memories (08_memories.md): the SEC-DED code of every bank and deep memory (R196). A stored word with bits inverted
decodes by the XOR of the columns of those bits. The columns are distinct and of odd weight, so one of them names its bit and
the XOR of two is neither 0 nor a column. -/

namespace Sys2Proof.Machine

/-! ### Set bits of a number -/

theorem nBit_eq_testBit (n i : Nat) : nBit n i = n.testBit i := by
  rw [nBit, Nat.testBit_eq_decide_div_mod_eq, Bool.beq_eq_decide_eq]

theorem bitsOf_succ (n v : Nat) : bitsOf (n + 1) v = bitsOf n v ++ if v.testBit n then [n] else [] := by
  simp [bitsOf, List.range_succ, List.filter_cons, nBit_eq_testBit]

/-- The XOR of what `f` gives each set bit is linear. -/
theorem foldl_xor_bitsOf_xor (f : Nat → Nat) (n x y : Nat) :
    (bitsOf n (x ^^^ y)).foldl (fun c i => c ^^^ f i) 0 =
      (bitsOf n x).foldl (fun c i => c ^^^ f i) 0 ^^^ (bitsOf n y).foldl (fun c i => c ^^^ f i) 0 := by
  induction n with
  | zero => simp [bitsOf]
  | succ n ih =>
    simp only [bitsOf_succ, List.foldl_append, ih, Nat.testBit_xor]
    cases x.testBit n <;> cases y.testBit n <;>
      simp [Nat.xor_assoc, Nat.xor_comm, Nat.xor_left_comm]

theorem length_bitsOf_xor_mod_two (n x y : Nat) :
    (bitsOf n (x ^^^ y)).length % 2 = ((bitsOf n x).length + (bitsOf n y).length) % 2 := by
  induction n with
  | zero => rfl
  | succ n ih =>
    simp only [bitsOf_succ, List.length_append, Nat.testBit_xor]
    cases x.testBit n <;> cases y.testBit n <;> simp <;> omega

theorem weight_xor_mod_two (x y : Nat) : weight (x ^^^ y) % 2 = (weight x + weight y) % 2 :=
  length_bitsOf_xor_mod_two 8 x y

/-! ### The columns -/

/-- The eight-bit values of weight `k`, ascending. -/
def bytesOfWeight (k : Nat) : List Nat := (List.range 256).filter (weight · = k)

theorem mem_bytesOfWeight {k v : Nat} : v ∈ bytesOfWeight k ↔ v < 256 ∧ weight v = k := by
  simp [bytesOfWeight]

theorem bytesOfWeight_ascending (k : Nat) : (bytesOfWeight k).Pairwise (· < ·) :=
  List.pairwise_lt_range.filter _

theorem length_bytesOfWeight_three : (bytesOfWeight 3).length = 56 := by decide +kernel

theorem length_bytesOfWeight_five : (bytesOfWeight 5).length = 56 := by decide +kernel

theorem eccCols_eq : eccCols = bytesOfWeight 3 ++ (bytesOfWeight 5).take 8 := rfl

theorem eccCols_take : eccCols.take 56 = bytesOfWeight 3 := List.take_left' length_bytesOfWeight_three

theorem eccCols_drop : eccCols.drop 56 = (bytesOfWeight 5).take 8 := List.drop_left' length_bytesOfWeight_three

@[simp] theorem length_eccCols : eccCols.length = 64 := by
  simp [eccCols_eq, length_bytesOfWeight_three, length_bytesOfWeight_five]

/-- What an ascending list keeps of itself in front is below the rest. -/
theorem lt_of_mem_take_of_not_mem_take {l : List Nat} (hl : l.Pairwise (· < ·)) {n u v : Nat} (hu : u ∈ l.take n) (hv : v ∈ l)
    (hn : v ∉ l.take n) : u < v := by
  rw [← List.take_append_drop n l] at hl hv
  exact (List.pairwise_append.1 hl).2.2 u hu v ((List.mem_append.1 hv).resolve_left hn)

/-- The columns of all 72 bits of a stored word: the data bits', then the check bits'. -/
def storedCols : List Nat := eccCols ++ (List.range 8).map (2 ^ ·)

theorem storedCols_nodup : storedCols.Nodup := by decide +kernel

theorem eccCols_nodup : eccCols.Nodup := storedCols_nodup.of_append_left

theorem weight_of_mem_eccCols {v : Nat} (h : v ∈ eccCols) : weight v = 3 ∨ weight v = 5 := by
  rcases List.mem_append.1 h with h | h
  · exact .inl (mem_bytesOfWeight.1 h).2
  · exact .inr (mem_bytesOfWeight.1 (List.mem_of_mem_take h)).2

theorem weight_two_pow : ∀ c < 8, weight (2 ^ c) = 1 := by decide

theorem weight_odd_of_mem_storedCols {v : Nat} (h : v ∈ storedCols) : weight v % 2 = 1 := by
  rcases List.mem_append.1 h with h | h
  · have := weight_of_mem_eccCols h
    omega
  · obtain ⟨c, hc, rfl⟩ := List.mem_map.1 h
    rw [weight_two_pow c (List.mem_range.1 hc)]

/-- Column of data bit `i`. -/
theorem getD_eccCols {i : Nat} (h : i < 64) : eccCols.getD i 0 = eccCols[i]'(by simpa using h) :=
  List.getD_eq_getElem _ _ _

theorem getD_eccCols_mem {i : Nat} (h : i < 64) : eccCols.getD i 0 ∈ eccCols := by
  rw [getD_eccCols h]; exact List.getElem_mem _

theorem getD_eccCols_inj {i j : Nat} (hi : i < 64) (hj : j < 64) (h : eccCols.getD i 0 = eccCols.getD j 0) : i = j := by
  rw [getD_eccCols hi, getD_eccCols hj] at h
  exact eccCols_nodup.getElem_inj_iff.1 h

theorem getD_eccCols_mem_storedCols {i : Nat} (h : i < 64) : eccCols.getD i 0 ∈ storedCols :=
  List.mem_append_left _ (getD_eccCols_mem h)

theorem two_pow_mem_storedCols {c : Nat} (h : c < 8) : 2 ^ c ∈ storedCols :=
  List.mem_append_right _ (List.mem_map_of_mem (List.mem_range.2 h))

/-! ### The syndrome and what it decodes to -/

theorem eccCheck_xor (x y : Nat) : eccCheck (x ^^^ y) = eccCheck x ^^^ eccCheck y :=
  foldl_xor_bitsOf_xor (eccCols.getD · 0) 64 x y

theorem eccCheck_two_pow : ∀ i < 64, eccCheck (2 ^ i) = eccCols.getD i 0 := by decide +kernel

/-- With the data bits of `x` and the check bits of `y` inverted, the syndrome is that of the errors alone. -/
theorem syndrome_of_errors (d x y : Nat) : eccCheck (d ^^^ x) ^^^ (eccCheck d ^^^ y) = eccCheck x ^^^ y := by
  rw [eccCheck_xor, Nat.xor_comm (eccCheck d), Nat.xor_assoc, Nat.xor_xor_cancel_left]

theorem syndrome_of_data_errors (d x : Nat) : eccCheck (d ^^^ x) ^^^ eccCheck d = eccCheck x := by
  simpa using syndrome_of_errors d x 0

theorem eccDecode_clean {data check : Nat} (h : eccCheck data ^^^ check = 0) : eccDecode data check = .clean := by
  simp [eccDecode, h]

theorem eccDecode_checkBit {data check c : Nat} (hc : c < 8) (h : eccCheck data ^^^ check = 2 ^ c) :
    eccDecode data check = .corrected data := by
  simp [eccDecode, h, weight_two_pow c hc]

theorem eccDecode_dataBit {data check i : Nat} (hi : i < 64) (h : eccCheck data ^^^ check = eccCols.getD i 0) :
    eccDecode data check = .corrected (data ^^^ 2 ^ i) := by
  have hw := weight_of_mem_eccCols (getD_eccCols_mem hi)
  have h0 : eccCols.getD i 0 ≠ 0 := by
    intro h
    rw [h] at hw
    exact absurd hw (by decide)
  have hfind : eccCols.findIdx (· == eccCols.getD i 0) = i := by
    rw [getD_eccCols hi]
    exact eccCols_nodup.idxOf_getElem i _
  simp only [eccDecode, h, hfind]
  rw [if_neg h0, if_neg (by omega), if_pos hi]

theorem eccDecode_uncorrectable {data check : Nat} (h0 : eccCheck data ^^^ check ≠ 0) (h1 : weight (eccCheck data ^^^ check) ≠ 1)
    (hcol : eccCheck data ^^^ check ∉ eccCols) : eccDecode data check = .uncorrectable := by
  have hfind : ¬ eccCols.findIdx (· == eccCheck data ^^^ check) < 64 := fun h =>
    hcol (List.idxOf_lt_length_iff.1 (length_eccCols.symm ▸ h))
  simp only [eccDecode]
  rw [if_neg h0, if_neg h1, if_neg hfind]

/-- Two different columns are of odd weight, so their XOR is of even weight: it is no column, and not 0. -/
theorem eccDecode_two_columns {data check a b : Nat} (ha : a ∈ storedCols) (hb : b ∈ storedCols) (hab : a ≠ b)
    (h : eccCheck data ^^^ check = a ^^^ b) : eccDecode data check = .uncorrectable := by
  have heven : weight (a ^^^ b) % 2 = 0 := by
    have hxor := weight_xor_mod_two a b
    have hwa := weight_odd_of_mem_storedCols ha
    have hwb := weight_odd_of_mem_storedCols hb
    omega
  apply eccDecode_uncorrectable <;> rw [h]
  · rwa [Ne, Nat.xor_eq_zero_iff]
  · omega
  · intro hmem
    have hw := weight_of_mem_eccCols hmem
    omega

/-! ### The code -/

theorem eccCols_of_weights :
    eccCols.length = 64 ∧ (eccCols.take 56).Pairwise (· < ·) ∧ (eccCols.drop 56).Pairwise (· < ·) ∧
      (∀ v < 256, weight v = 3 ↔ v ∈ eccCols.take 56) ∧ (∀ v ∈ eccCols.drop 56, weight v = 5) ∧
      (∀ v < 256, weight v = 5 → v ∉ eccCols → ∀ u ∈ eccCols.drop 56, u < v) := by
  rw [eccCols_take, eccCols_drop]
  refine ⟨length_eccCols, bytesOfWeight_ascending 3, (bytesOfWeight_ascending 5).sublist (List.take_sublist ..), ?_, ?_, ?_⟩
  · exact fun v hv => by simp [mem_bytesOfWeight, hv]
  · exact fun v hv => (mem_bytesOfWeight.1 (List.mem_of_mem_take hv)).2
  · intro v hv hw hout u hu
    exact lt_of_mem_take_of_not_mem_take (bytesOfWeight_ascending 5) hu (mem_bytesOfWeight.2 ⟨hv, hw⟩)
      fun hmem => hout (List.mem_append_right _ hmem)

/-- Settles O14: the syndrome is the XOR of the columns of the inverted bits, and each clause decodes it by its rule. -/
theorem secDedCode : Obligations.SecDedCode := by
  unfold Obligations.SecDedCode
  refine ⟨eccCols_of_weights, fun d => ⟨?clean, ?dataBit, ?checkBit, ?dataData, ?dataCheck, ?checkCheck⟩⟩
  case clean => exact eccDecode_clean (Nat.xor_self _)
  case dataBit =>
    intro i hi
    have hsyn : eccCheck (d ^^^ 2 ^ i) ^^^ eccCheck d = eccCols.getD i 0 := by
      rw [syndrome_of_data_errors, eccCheck_two_pow i hi]
    rw [eccDecode_dataBit hi hsyn, Nat.xor_xor_cancel_right]
  case checkBit => exact fun c hc => eccDecode_checkBit hc (Nat.xor_xor_cancel_left ..)
  case dataData =>
    intro i hi j hj hij
    refine eccDecode_two_columns (getD_eccCols_mem_storedCols hi) (getD_eccCols_mem_storedCols hj)
      (fun h => hij (getD_eccCols_inj hi hj h)) ?_
    rw [Nat.xor_assoc, syndrome_of_data_errors, eccCheck_xor, eccCheck_two_pow i hi, eccCheck_two_pow j hj]
  case dataCheck =>
    intro i hi c hc
    refine eccDecode_two_columns (getD_eccCols_mem_storedCols hi) (two_pow_mem_storedCols hc) ?_ ?_
    · intro h
      have hw := weight_of_mem_eccCols (getD_eccCols_mem hi)
      rw [h, weight_two_pow c hc] at hw
      omega
    · rw [syndrome_of_errors, eccCheck_two_pow i hi]
  case checkCheck =>
    intro c hc e he hce
    refine eccDecode_two_columns (two_pow_mem_storedCols hc) (two_pow_mem_storedCols he)
      (fun h => hce (Nat.pow_right_injective le_rfl h)) ?_
    rw [Nat.xor_assoc, Nat.xor_xor_cancel_left]

end Sys2Proof.Machine
end

section
/-! PROOFS. Arithmetic of the loop engines (10_loop_engines.md): accumulation (R241, R242), extraction (R244), the addresses of
circular buffers (R247) and the winner of a reduce (R250). The words of the machine are residues, and each rule says when the
residue read back is the exact number: where that number lies in the range of the reading. -/

namespace Sys2Proof.Machine

/-! ### Readings of words (R241, R244) -/

theorem signed_eq_bmod {n : Nat} (hn : 0 < n) (v : Nat) : signed n v = Int.bmod v (2 ^ n) := by
  have hhalf : (((2 ^ n : Nat) : Int) + 1) / 2 = (2 ^ (n - 1) : Nat) := by
    rw [← mul_pow_sub_one hn.ne' 2]
    omega
  simp only [signed, Int.bmod, hhalf]
  norm_cast

theorem signed_eq_toInt {n : Nat} (hn : 0 < n) (a : BitVec n) : signed n a.toNat = a.toInt := by
  rw [signed_eq_bmod hn, BitVec.toInt_eq_toNat_bmod]

theorem natCast_toNat_emod_two_pow (x : Int) (n : Nat) : (((x % 2 ^ n).toNat : Nat) : Int) = x % 2 ^ n :=
  Int.toNat_of_nonneg (Int.emod_nonneg x (by positivity))

theorem signed_emod {n : Nat} (hn : 0 < n) (x : Int) : signed n (x % 2 ^ n).toNat = Int.bmod x (2 ^ n) := by
  rw [signed_eq_bmod hn, natCast_toNat_emod_two_pow]
  exact_mod_cast Int.emod_bmod (x := x) (n := 2 ^ n)

/-- The bits of an integer, taken through its residue, are its two's complement. -/
theorem ofNat_toNat_emod_two_pow (n : Nat) (x : Int) : BitVec.ofNat n (x % 2 ^ n).toNat = BitVec.ofInt n x := by
  rw [← BitVec.ofInt_natCast, natCast_toNat_emod_two_pow]
  apply BitVec.eq_of_toInt_eq
  rw [BitVec.toInt_ofInt, BitVec.toInt_ofInt]
  exact_mod_cast Int.emod_bmod (x := x) (n := 2 ^ n)

/-- The least number read in `n` bits, signed or not. -/
def readingMin (sgn : Bool) (n : Nat) : Int := if sgn then -(2 ^ (n - 1)) else 0

/-- The greatest number read in `n` bits, signed or not. -/
def readingMax (sgn : Bool) (n : Nat) : Int := if sgn then 2 ^ (n - 1) - 1 else 2 ^ n - 1

theorem readingMin_le_readingMax (sgn : Bool) (n : Nat) : readingMin sgn n ≤ readingMax sgn n := by
  have hhalf : (0 : Int) < 2 ^ (n - 1) := by positivity
  have hfull : (0 : Int) < 2 ^ n := by positivity
  cases sgn <;> simp only [readingMin, readingMax, if_true, Bool.false_eq_true, if_false] <;> omega

/-- A number in range is read back from its low bits. -/
theorem reading_emod {sgn : Bool} {n : Nat} {x : Int} (hn : 0 < n) (hmin : readingMin sgn n ≤ x)
    (hmax : x ≤ readingMax sgn n) :
    reading sgn n (x % 2 ^ n).toNat = x := by
  cases sgn with
  | true =>
    simp only [readingMin, readingMax, if_true] at hmin hmax
    have hpow := mul_pow_sub_one hn.ne' (2 : Int)
    simp only [reading, if_true, signed_emod hn]
    apply Int.bmod_eq_of_le_mul_two <;> push_cast <;> omega
  | false =>
    simp only [readingMin, readingMax, Bool.false_eq_true, if_false] at hmin hmax
    simp only [reading, Bool.false_eq_true, if_false]
    push_cast
    rw [natCast_toNat_emod_two_pow, Int.emod_emod, Int.emod_eq_of_lt hmin (by omega)]

theorem readingMin_le_reading (sgn : Bool) {n : Nat} (hn : 0 < n) (v : Nat) : readingMin sgn n ≤ reading sgn n v := by
  cases sgn with
  | true =>
    rw [readingMin, reading, if_pos rfl, if_pos rfl, signed_eq_bmod hn]
    have hlow := Int.le_bmod (x := v) (m := 2 ^ n) (by positivity)
    rw [← mul_pow_sub_one hn.ne' 2] at hlow ⊢
    push_cast at hlow ⊢
    omega
  | false => exact Int.natCast_nonneg _

theorem reading_le_readingMax (sgn : Bool) {n : Nat} (hn : 0 < n) (v : Nat) : reading sgn n v ≤ readingMax sgn n := by
  cases sgn with
  | true =>
    rw [readingMax, reading, if_pos rfl, if_pos rfl, signed_eq_bmod hn]
    have hhigh := Int.bmod_le (x := v) (m := 2 ^ n) (by positivity)
    rw [← mul_pow_sub_one hn.ne' 2] at hhigh ⊢
    push_cast at hhigh ⊢
    omega
  | false =>
    have hlt : ((v % 2 ^ n : Nat) : Int) < 2 ^ n := by exact_mod_cast Nat.mod_lt v (by positivity)
    exact Int.le_sub_one_of_lt hlt

/-! ### Accumulation (R241, R242) -/

theorem leFit_of_mem {n : Nat} (asat : Bool) {v : Int} (hmin : -(2 ^ (n - 1)) ≤ v) (hmax : v ≤ 2 ^ (n - 1) - 1) :
    leFit n asat v = (v, false) := by
  rw [leFit, if_neg hmin.not_gt, if_neg (Int.le_sub_one_iff.1 hmax).not_ge]

theorem leFit_of_lt {n : Nat} (asat : Bool) {v : Int} (hlt : v < -(2 ^ (n - 1))) :
    leFit n asat v = (if asat then -(2 ^ (n - 1)) else signed n (v % 2 ^ n).toNat, true) := if_pos hlt

theorem leFit_of_gt {n : Nat} (asat : Bool) {v : Int} (hgt : 2 ^ (n - 1) - 1 < v) :
    leFit n asat v = (if asat then 2 ^ (n - 1) - 1 else signed n (v % 2 ^ n).toNat, true) := by
  have hpos : (0 : Int) < 2 ^ (n - 1) := by positivity
  rw [leFit, if_neg (by omega), if_pos (Int.sub_one_lt_iff.1 hgt)]

/-- An accumulator keeps the low bits of what is read back as signed. -/
theorem ofInt_signed_emod {n : Nat} (hn : 0 < n) (x : Int) :
    BitVec.ofInt n (signed n (x % 2 ^ n).toNat) = BitVec.ofInt n x := by
  apply BitVec.eq_of_toInt_eq
  simp only [BitVec.toInt_ofInt, signed_emod hn, Int.bmod_bmod]

theorem accParts_whole (a : BitVec 56) : accParts false a = [a.toInt] :=
  congrArg (fun x : Int => [x]) (signed_eq_toInt (by decide) a)

theorem accJoin_whole (x : Int) : accJoin false [x] = BitVec.ofInt 56 x := ofNat_toNat_emod_two_pow 56 x

/-- The operand of one lane outside packed mode and whether its product was limited. -/
def laneArg (md : LeMd) (mop : Nat) (sa sb : Bool) (a b : BitVec 24) : Int × Bool :=
  accArg md mop sa sb (reading sa 24 a.toNat) (reading sb 24 b.toNat)

/-- The exact result of one lane outside packed mode. -/
def laneExact (md : LeMd) (mop : Nat) (sa sb : Bool) (t o : BitVec 56) (a b : BitVec 24) : Int :=
  accOp mop t.toInt o.toInt (laneArg md mop sa sb a b).1

section Lane
variable {md : LeMd} {mop : Nat} {sa sb : Bool} {t o : BitVec 56} {a b : BitVec 24}

/-- Outside packed mode a lane is one part: its exact result, fitted to 56 bits. -/
theorem laneAcc_whole (hwhole : md.packed = false) :
    laneAcc md mop sa sb t o a b =
      (BitVec.ofInt 56 (leFit 56 md.asat (laneExact md mop sa sb t o a b)).1,
        (leFit 56 md.asat (laneExact md mop sa sb t o a b)).2 || (laneArg md mop sa sb a b).2) := by
  simp [laneAcc, hwhole, accParts_whole, accJoin_whole, opParts, accBits, laneExact, laneArg]

theorem laneAcc_of_mem (hwhole : md.packed = false) (hmin : -(2 ^ 55) ≤ laneExact md mop sa sb t o a b)
    (hmax : laneExact md mop sa sb t o a b ≤ 2 ^ 55 - 1) :
    (laneAcc md mop sa sb t o a b).1.toInt = laneExact md mop sa sb t o a b ∧
      (laneAcc md mop sa sb t o a b).2 = (laneArg md mop sa sb a b).2 := by
  rw [laneAcc_whole hwhole, leFit_of_mem (n := 56) md.asat hmin hmax]
  exact ⟨BitVec.toInt_ofInt_eq_self (by decide) hmin (Int.le_sub_one_iff.1 hmax), Bool.false_or _⟩

/-- Outside the range the overflow is flagged, and ASAT chooses between the bound and the low 56 bits. -/
theorem laneAcc_of_overflow (hwhole : md.packed = false) {bound : Int} (hmin : -(2 ^ 55) ≤ bound) (hmax : bound < 2 ^ 55)
    (hfit : leFit 56 md.asat (laneExact md mop sa sb t o a b) =
      (if md.asat then bound else signed 56 (laneExact md mop sa sb t o a b % 2 ^ 56).toNat, true)) :
    (laneAcc md mop sa sb t o a b).2 = true ∧ (md.asat = true → (laneAcc md mop sa sb t o a b).1.toInt = bound) ∧
      (md.asat = false → (laneAcc md mop sa sb t o a b).1 = BitVec.ofInt 56 (laneExact md mop sa sb t o a b)) := by
  rw [laneAcc_whole hwhole, hfit]
  refine ⟨rfl, fun hclamp => ?_, fun hwrap => ?_⟩
  · rw [hclamp]
    exact BitVec.toInt_ofInt_eq_self (by decide) hmin hmax
  · rw [hwrap]
    exact ofInt_signed_emod (by decide) _

end Lane

/-! ### Sums of products (R241, R242) -/

/-- The product of two operands as a lane reads them. -/
def laneProduct (sa sb : Bool) (p : BitVec 24 × BitVec 24) : Int := reading sa 24 p.1.toNat * reading sb 24 p.2.toNat

/-- The greatest magnitude of an operand of 24 bits. -/
def operandLimit (sgn : Bool) : Int := if sgn then 2 ^ 23 else 2 ^ 24 - 1

/-- The greatest magnitude a product of two operands is taken to have: one bound for every product with a signed operand. -/
def productLimit (sa sb : Bool) : Int := if sa || sb then 2 ^ 47 - 2 ^ 23 else (2 ^ 24 - 1) ^ 2

theorem abs_reading_le (sgn : Bool) (v : Nat) : |reading sgn 24 v| ≤ operandLimit sgn := by
  have hmin := readingMin_le_reading sgn (n := 24) (by decide) v
  have hmax := reading_le_readingMax sgn (n := 24) (by decide) v
  rw [abs_le]
  cases sgn <;> simp [readingMin, readingMax, operandLimit] at * <;> omega

theorem abs_laneProduct_le (sa sb : Bool) (p : BitVec 24 × BitVec 24) : |laneProduct sa sb p| ≤ productLimit sa sb := by
  rw [laneProduct, abs_mul]
  calc |reading sa 24 p.1.toNat| * |reading sb 24 p.2.toNat|
      ≤ operandLimit sa * operandLimit sb :=
        mul_le_mul (abs_reading_le sa _) (abs_reading_le sb _) (abs_nonneg _) (by cases sa <;> decide)
    _ ≤ productLimit sa sb := by cases sa <;> cases sb <;> decide

/-- One accumulation of a product (MOP 2), its overflow joined to those before it. -/
def macStep (md : LeMd) (sa sb : Bool) (acc : BitVec 56 × Bool) (p : BitVec 24 × BitVec 24) : BitVec 56 × Bool :=
  ((laneAcc md 2 sa sb acc.1 0 p.1 p.2).1, acc.2 || (laneAcc md 2 sa sb acc.1 0 p.1 p.2).2)

section Sums
variable {md : LeMd} {sa sb : Bool}

theorem laneArg_mac (hfrac : md.frac = false) (p : BitVec 24 × BitVec 24) :
    laneArg md 2 sa sb p.1 p.2 = (laneProduct sa sb p, false) := by
  simp [laneArg, accArg, leProduct, hfrac, laneProduct]

theorem laneExact_mac (hfrac : md.frac = false) (t o : BitVec 56) (p : BitVec 24 × BitVec 24) :
    laneExact md 2 sa sb t o p.1 p.2 = t.toInt + laneProduct sa sb p := by
  rw [laneExact, laneArg_mac hfrac, accOp]

/-- Where the accumulator and one more product stay below 2^55, an accumulation is exact. -/
theorem macStep_exact (hwhole : md.packed = false) (hfrac : md.frac = false) {acc : BitVec 56 × Bool}
    (hroom : |acc.1.toInt| + productLimit sa sb < 2 ^ 55) (p : BitVec 24 × BitVec 24) :
    (macStep md sa sb acc p).1.toInt = acc.1.toInt + laneProduct sa sb p ∧ (macStep md sa sb acc p).2 = acc.2 := by
  have habs : |acc.1.toInt + laneProduct sa sb p| < 2 ^ 55 :=
    ((abs_add_le _ _).trans (add_le_add_right (abs_laneProduct_le sa sb p) _)).trans_lt hroom
  obtain ⟨hmin, hmax⟩ := abs_lt.1 habs
  rw [← laneExact_mac hfrac acc.1 0 p] at hmin hmax
  obtain ⟨hval, hov⟩ := laneAcc_of_mem hwhole hmin.le (Int.le_sub_one_of_lt hmax)
  rw [laneArg_mac hfrac] at hov
  exact ⟨hval.trans (laneExact_mac hfrac _ _ _), by rw [macStep, hov, Bool.or_false]⟩

/-- Each product takes at most its limit of the room left below 2^55. -/
theorem foldl_macStep_exact (hwhole : md.packed = false) (hfrac : md.frac = false) (ps : List (BitVec 24 × BitVec 24)) :
    ∀ acc : BitVec 56 × Bool, |acc.1.toInt| + ps.length * productLimit sa sb < 2 ^ 55 →
      (ps.foldl (macStep md sa sb) acc).2 = acc.2 ∧
        (ps.foldl (macStep md sa sb) acc).1.toInt = acc.1.toInt + (ps.map (laneProduct sa sb)).sum := by
  induction ps with
  | nil => simp
  | cons p ps ih =>
    intro acc hroom
    have hlimit : 0 ≤ productLimit sa sb := (abs_nonneg _).trans (abs_laneProduct_le sa sb p)
    have hrest : 0 ≤ (ps.length : Int) * productLimit sa sb := by positivity
    rw [List.length_cons, Nat.cast_succ, add_one_mul] at hroom
    obtain ⟨hval, hov⟩ := macStep_exact hwhole hfrac (by linarith) p
    have hgrow := (abs_add_le acc.1.toInt (laneProduct sa sb p)).trans (add_le_add_right (abs_laneProduct_le sa sb p) _)
    obtain ⟨hovAll, hvalAll⟩ := ih (macStep md sa sb acc p) (by rw [hval]; linarith)
    rw [List.foldl_cons, List.map_cons, List.sum_cons]
    exact ⟨hovAll.trans hov, by rw [hvalAll, hval, add_assoc]⟩

end Sums

theorem productLimit_mul_count (sa sb : Bool) : (if sa || sb then 256 else 128 : Nat) * productLimit sa sb < 2 ^ 55 := by
  cases sa <;> cases sb <;> decide

/-- Settles O10: one lane by where its exact result lies, and the sum by induction on the products with the room left. -/
theorem leAccumulation : Obligations.LeAccumulation := by
  unfold Obligations.LeAccumulation
  refine ⟨fun md mop sa sb t o a b hwhole => ?_, fun md sa sb ps hwhole hfrac hcount => ?_⟩
  · exact ⟨fun ⟨hmin, hmax⟩ => laneAcc_of_mem hwhole hmin hmax,
      fun hlt => laneAcc_of_overflow hwhole (by decide) (by decide) (leFit_of_lt md.asat hlt),
      fun hgt => laneAcc_of_overflow hwhole (by decide) (by decide) (leFit_of_gt md.asat hgt)⟩
  · have hlimit : 0 ≤ productLimit sa sb := (abs_nonneg _).trans (abs_laneProduct_le sa sb (0, 0))
    have hroom : (ps.length : Int) * productLimit sa sb < 2 ^ 55 :=
      (mul_le_mul_of_nonneg_right (by exact_mod_cast hcount) hlimit).trans_lt (productLimit_mul_count sa sb)
    obtain ⟨hov, hval⟩ := foldl_macStep_exact hwhole hfrac ps (0, false) (by simpa using hroom)
    exact ⟨hov, hval.trans (zero_add _)⟩

/-! ### Rounding (R244) -/

theorem leRound_noShift (rnd : Nat) (v : Int) : leRound rnd 0 v = v := rfl

theorem leRound_trunc {sh : Nat} (hsh : 0 < sh) (v : Int) : leRound 0 sh v = v / 2 ^ sh := if_neg hsh.ne'

theorem leRound_halfUp {sh : Nat} (hsh : 0 < sh) (v : Int) : leRound 1 sh v = (v + 2 ^ (sh - 1)) / 2 ^ sh := if_neg hsh.ne'

theorem leRound_conv {sh : Nat} (hsh : 0 < sh) (v : Int) :
    leRound 2 sh v = if v % 2 ^ sh < 2 ^ (sh - 1) then v / 2 ^ sh
      else if 2 ^ (sh - 1) < v % 2 ^ sh then v / 2 ^ sh + 1 else v / 2 ^ sh + v / 2 ^ sh % 2 := if_neg hsh.ne'

/-- HALFUP adds half a unit and then truncates. -/
theorem leRound_halfUp_error {sh : Nat} (hsh : 0 < sh) (v : Int) :
    -(2 ^ sh) ≤ 2 * (v - leRound 1 sh v * 2 ^ sh) ∧ 2 * (v - leRound 1 sh v * 2 ^ sh) < 2 ^ sh := by
  have hunit := mul_pow_sub_one hsh.ne' (2 : Int)
  have hpos : (0 : Int) < 2 ^ sh := by positivity
  have hlow := Int.ediv_mul_le (v + 2 ^ (sh - 1)) hpos.ne'
  have hhigh := Int.lt_ediv_add_one_mul_self (v + 2 ^ (sh - 1)) hpos
  rw [leRound_halfUp hsh]
  constructor <;> linarith

/-- CONV decides by the remainder: below half a unit, above it, or a tie, which goes to the even one of the two quotients. -/
theorem leRound_conv_error {sh : Nat} (hsh : 0 < sh) (v : Int) :
    -(2 ^ sh) ≤ 2 * (v - leRound 2 sh v * 2 ^ sh) ∧ 2 * (v - leRound 2 sh v * 2 ^ sh) ≤ 2 ^ sh ∧
      (2 * (v - leRound 2 sh v * 2 ^ sh) = 2 ^ sh ∨ 2 * (v - leRound 2 sh v * 2 ^ sh) = -(2 ^ sh) →
        leRound 2 sh v % 2 = 0) := by
  have hunit := mul_pow_sub_one hsh.ne' (2 : Int)
  have hpos : (0 : Int) < 2 ^ sh := by positivity
  have hrem := Int.emod_nonneg v hpos.ne'
  have hlt := Int.emod_lt_of_pos v hpos
  have hdiv := Int.ediv_mul_add_emod v (2 ^ sh)
  rw [leRound_conv hsh]
  generalize v / 2 ^ sh = q at *
  generalize v % 2 ^ sh = r at *
  generalize (2 : Int) ^ sh = unit at *
  generalize (2 : Int) ^ (sh - 1) = half at *
  split
  next hbelow => refine ⟨by linarith, by linarith, ?_⟩; rintro (h | h) <;> linarith
  next hnotBelow =>
    split
    next habove => refine ⟨by linarith, by linarith, ?_⟩; rintro (h | h) <;> linarith
    next hnotAbove =>
      have htie : r = half := by omega
      rcases Int.emod_two_eq_zero_or_one q with heven | hodd
      · rw [heven]
        exact ⟨by linarith, by linarith, fun _ => by omega⟩
      · rw [hodd]
        exact ⟨by linarith, by linarith, fun _ => by omega⟩

/-! ### Extraction (R244) -/

theorem leExtractN_eq (n rnd sh : Nat) (esat sgn : Bool) (v : Int) :
    leExtractN n rnd sh esat sgn v =
      if leRound rnd sh v < readingMin sgn n then
        (((if esat then readingMin sgn n else leRound rnd sh v) % 2 ^ n).toNat, true)
      else if readingMax sgn n < leRound rnd sh v then
        (((if esat then readingMax sgn n else leRound rnd sh v) % 2 ^ n).toNat, true)
      else ((leRound rnd sh v % 2 ^ n).toNat, false) := rfl

section Extraction
variable {n rnd sh : Nat} {sgn : Bool} {v : Int}

theorem leExtractN_of_mem (esat : Bool) (hmin : readingMin sgn n ≤ leRound rnd sh v)
    (hmax : leRound rnd sh v ≤ readingMax sgn n) :
    leExtractN n rnd sh esat sgn v = ((leRound rnd sh v % 2 ^ n).toNat, false) := by
  rw [leExtractN_eq, if_neg hmin.not_gt, if_neg hmax.not_gt]

/-- The bound of the range on the side of `r`, for an `r` outside it. -/
def nearBound (sgn : Bool) (n : Nat) (r : Int) : Int := if r < readingMin sgn n then readingMin sgn n else readingMax sgn n

theorem reading_nearBound (hn : 0 < n) (r : Int) : reading sgn n (nearBound sgn n r % 2 ^ n).toNat = nearBound sgn n r := by
  have hle := readingMin_le_readingMax sgn n
  unfold nearBound
  split
  · exact reading_emod hn le_rfl hle
  · exact reading_emod hn hle le_rfl

theorem leExtractN_of_not_mem (esat : Bool)
    (hout : leRound rnd sh v < readingMin sgn n ∨ readingMax sgn n < leRound rnd sh v) :
    leExtractN n rnd sh esat sgn v =
      (((if esat then nearBound sgn n (leRound rnd sh v) else leRound rnd sh v) % 2 ^ n).toNat, true) := by
  rw [leExtractN_eq, nearBound]
  split
  next => rfl
  next hmin => rw [if_pos (hout.resolve_left hmin)]

end Extraction

/-- Settles O11: each rounding is bounded by the division it makes, and the extracted bits read as the number they were
taken from. -/
theorem leExtraction : Obligations.LeExtraction := by
  unfold Obligations.LeExtraction
  refine ⟨leRound_noShift, fun sh v hsh => ?trunc, fun sh v hsh => leRound_halfUp_error hsh v,
    fun sh v hsh => leRound_conv_error hsh v, ?extract⟩
  case trunc =>
    have hpos : (0 : Int) < 2 ^ sh := by positivity
    rw [leRound_trunc hsh]
    exact ⟨Int.ediv_mul_le v hpos.ne', Int.lt_ediv_add_one_mul_self v hpos⟩
  case extract =>
    rintro n rnd sh esat sgn v _ _ hn rfl rfl
    refine ⟨fun ⟨hmin, hmax⟩ => ?_, fun hout => ?_⟩
    · rw [leExtractN_of_mem esat hmin hmax]
      exact ⟨rfl, reading_emod hn hmin hmax⟩
    · rw [leExtractN_of_not_mem esat hout]
      refine ⟨rfl, ?_, ?_⟩ <;> rintro rfl
      · exact reading_nearBound hn _
      · exact natCast_toNat_emod_two_pow _ n

/-! ### Addresses of circular buffers (R247) -/

theorem leMod_zero_length (p b : BitVec 16) (m : Int) : leMod p b 0 m = BitVec.ofInt 16 (p.toNat + m) :=
  ofNat_toNat_emod_two_pow 16 _

/-- The place in its buffer of the address that P and `m` give. -/
def bufferOffset (p b : BitVec 16) (l : BitVec 13) (m : Int) : Int := ((p.toNat : Int) - b.toNat + m) % l.toNat

section Buffer
variable {l : BitVec 13} (p b : BitVec 16) (hl : l ≠ 0) (m : Int)
include hl

/-- No sign of its argument takes the remainder out of 0 to L - 1. -/
theorem bufferOffset_range : 0 ≤ bufferOffset p b l m ∧ bufferOffset p b l m < l.toNat := by
  have hpos : (0 : Int) < l.toNat := by exact_mod_cast Nat.pos_of_ne_zero fun h => hl (BitVec.eq_of_toNat_eq h)
  exact ⟨Int.emod_nonneg _ hpos.ne', Int.emod_lt_of_pos _ hpos⟩

theorem leMod_of_length : leMod p b l m = BitVec.ofInt 16 (b.toNat + bufferOffset p b l m) := by
  rw [leMod, if_neg hl]
  exact ofNat_toNat_emod_two_pow 16 _

theorem toNat_leMod_of_fits (hfit : b.toNat + l.toNat ≤ 65536) :
    ((leMod p b l m).toNat : Int) = b.toNat + bufferOffset p b l m := by
  obtain ⟨hlow, hhigh⟩ := bufferOffset_range p b hl m
  rw [leMod_of_length p b hl m, BitVec.toNat_ofInt, Int.toNat_of_nonneg (Int.emod_nonneg _ (by decide))]
  exact Int.emod_eq_of_lt (by omega) (by push_cast; omega)

end Buffer

/-- Settles O12: the number below L is the offset in the buffer, and the quotient by L is the multiple it differs by. -/
theorem leModuloAddress : Obligations.LeModuloAddress := by
  unfold Obligations.LeModuloAddress
  refine ⟨leMod_zero_length, fun p b l m hl => ?_⟩
  obtain ⟨hlow, hhigh⟩ := bufferOffset_range p b hl m
  refine ⟨bufferOffset p b l m, ((p.toNat : Int) - b.toNat + m) / l.toNat, hlow, hhigh, (Int.ediv_mul_add_emod ..).symm,
    leMod_of_length p b hl m, fun hfit => ?_⟩
  have haddr := toNat_leMod_of_fits p b hl m hfit
  omega

/-! ### The winner of a reduce (R250) -/

/-- Lane `w` comes before lane `k` in the order of R250: the extreme value, then the smaller index, then the lower lane. -/
def LaneWins (isMax : Bool) (v : Nat → Int) (ix : Nat → Nat) (w k : Nat) : Prop :=
  (if isMax then v k ≤ v w else v w ≤ v k) ∧ (v k = v w → ix w ≤ ix k ∧ (ix k = ix w → w ≤ k))

/-- Lane `k` is strictly better than lane `w`: by its value, or by its index at equal value. -/
def laneBeats (isMax : Bool) (v : Nat → Int) (ix : Nat → Nat) (w k : Nat) : Bool :=
  (if isMax then decide (v w < v k) else decide (v k < v w)) || (v k = v w && decide (ix k < ix w))

/-- The better of the best lane so far and the next one. -/
def pickLane (isMax : Bool) (v : Nat → Int) (ix : Nat → Nat) (w k : Nat) : Nat :=
  if laneBeats isMax v ix w k then k else w

theorem leWinner_eq_foldl (isMax : Bool) (v : Nat → Int) (ix : Nat → Nat) :
    leWinner isMax v ix = [1, 2, 3].foldl (pickLane isMax v ix) 0 := rfl

section Lanes
variable {isMax : Bool} {v : Nat → Int} {ix : Nat → Nat}

theorem LaneWins.refl (w : Nat) : LaneWins isMax v ix w w := by
  cases isMax <;> simp [LaneWins]

theorem LaneWins.trans {a b c : Nat} (hab : LaneWins isMax v ix a b) (hbc : LaneWins isMax v ix b c) :
    LaneWins isMax v ix a c := by
  cases isMax <;> simp only [LaneWins, if_true, Bool.false_eq_true, if_false] at * <;> omega

theorem LaneWins.of_laneBeats {w k : Nat} (hbeats : laneBeats isMax v ix w k = true) : LaneWins isMax v ix k w := by
  cases isMax <;> simp [laneBeats, LaneWins] at * <;> omega

/-- A tie keeps the lower lane. -/
theorem LaneWins.of_not_laneBeats {w k : Nat} (hwk : w < k) (hbeats : ¬laneBeats isMax v ix w k = true) :
    LaneWins isMax v ix w k := by
  cases isMax <;> simp [laneBeats, LaneWins] at * <;> omega

theorem pickLane_cases {w k : Nat} (hwk : w < k) :
    pickLane isMax v ix w k = k ∧ LaneWins isMax v ix k w ∨ pickLane isMax v ix w k = w ∧ LaneWins isMax v ix w k := by
  by_cases hbeats : laneBeats isMax v ix w k = true
  · exact .inl ⟨if_pos hbeats, .of_laneBeats hbeats⟩
  · exact .inr ⟨if_neg hbeats, .of_not_laneBeats hwk hbeats⟩

/-- The fold of a reduce over lanes in ascending order ends on one of them, and that lane wins over all. -/
theorem foldl_pickLane_wins (ks : List Nat) :
    ∀ w, (w :: ks).Pairwise (· < ·) → ks.foldl (pickLane isMax v ix) w ∈ w :: ks ∧
      ∀ k ∈ w :: ks, LaneWins isMax v ix (ks.foldl (pickLane isMax v ix) w) k := by
  induction ks with
  | nil => simp [LaneWins.refl]
  | cons k ks ih =>
    intro w hasc
    obtain ⟨hw, hk⟩ := List.pairwise_cons.1 hasc
    have hskip : (w :: ks).Pairwise (· < ·) :=
      List.pairwise_cons.2 ⟨fun j hj => hw j (List.mem_cons_of_mem _ hj), (List.pairwise_cons.1 hk).2⟩
    rw [List.foldl_cons]
    have hcases := pickLane_cases (isMax := isMax) (v := v) (ix := ix) (hw k List.mem_cons_self)
    rcases hcases with ⟨hpick, hwin⟩ | ⟨hpick, hwin⟩
    · rw [hpick]
      obtain ⟨hmem, hall⟩ := ih k hk
      exact ⟨List.mem_cons_of_mem _ hmem,
        List.forall_mem_cons.2 ⟨(hall k List.mem_cons_self).trans hwin, hall⟩⟩
    · rw [hpick]
      obtain ⟨hmem, hall⟩ := ih w hskip
      obtain ⟨hself, hrest⟩ := List.forall_mem_cons.1 hall
      refine ⟨?_, List.forall_mem_cons.2 ⟨hself, List.forall_mem_cons.2 ⟨hself.trans hwin, hrest⟩⟩⟩
      exact List.mem_cons.2 ((List.mem_cons.1 hmem).imp_right (List.mem_cons_of_mem _))

end Lanes

/-- Settles O13: each step of the fold keeps the lane that wins over all lanes seen. -/
theorem leReduceWinner : Obligations.LeReduceWinner := by
  unfold Obligations.LeReduceWinner
  intro isMax v ix
  rw [leWinner_eq_foldl]
  obtain ⟨hmem, hall⟩ := foldl_pickLane_wins (isMax := isMax) (v := v) (ix := ix) [1, 2, 3] 0 (by decide)
  have hlanes : ∀ k, k ∈ [0, 1, 2, 3] ↔ k < 4 := fun k => by simp; omega
  exact ⟨(hlanes _).1 hmem, fun k hk => hall k ((hlanes k).2 hk)⟩

end Sys2Proof.Machine
end

section
/-! PROOFS. Flow slices (15_flow_slices.md): the buckets of a meter (R392) and sequence recovery (R395). Both act on the
state words of one entry of the context table, and each rule says what those words are after it. -/

namespace Sys2Proof.Machine

/-! ### Words of the tables (R417) -/

theorem wGet_lt (w : Word) (lsb wid : Nat) : wGet w lsb wid < 2 ^ wid := Nat.mod_lt _ (Nat.two_pow_pos wid)

@[simp] theorem tblGet_tblPut_word_ne (x : Slice) (t e : Nat) {w w' : Nat} (v : Word) (h : w' ≠ w) :
    tblGet (tblPut x t e w v) t e w' = tblGet x t e w' :=
  tblGet_tblPut_ne x t e w t e w' v fun hkey => h (Nat.add_left_cancel hkey)

/-- A key gives its table, entry and word back: an entry has at most 16 words and a table at most 65536 entries. -/
theorem tblKey_injective {t e w t' e' w' : Nat} (he : e < 65536) (hw : w < 16) (he' : e' < 65536) (hw' : w' < 16)
    (h : tblKey t e w = tblKey t' e' w') : (t, e, w) = (t', e', w') := by
  unfold tblKey at h
  obtain ⟨rfl, rfl, rfl⟩ : t = t' ∧ e = e' ∧ w = w' := by omega
  rfl

/-! ### Meters (R392) -/

section Meter
variable (x : Slice) (c t l : Nat)

/-- The time since LAST. -/
def meterInterval : Nat := (t + 2 ^ 32 - (tblGet x 0 c 10).toNat) % 2 ^ 32

/-- What CIR adds to CT by time `t`, before the bound. -/
def committedFill : Nat := (tblGet x 0 c 8).toNat + wGet (tblGet x 0 c 4) 0 20 * meterInterval x c t * 256 / 8000

/-- CBS in bucket units. -/
def committedBurst : Nat := wGet (tblGet x 0 c 6) 0 24 * 256

/-- What EIR, and with CF the overflow of the committed bucket, add to ET by time `t`, before the bound. -/
def excessFill : Nat :=
  (tblGet x 0 c 9).toNat + wGet (tblGet x 0 c 5) 0 20 * meterInterval x c t * 256 / 8000 +
    if wGet (tblGet x 0 c 6) 24 1 = 1 then committedFill x c t - committedBurst x c else 0

/-- EBS in bucket units. -/
def excessBurst : Nat := wGet (tblGet x 0 c 7) 0 24 * 256

theorem committedBurst_lt : committedBurst x c < 2 ^ 32 := by
  have hcbs := wGet_lt (tblGet x 0 c 6) 0 24
  unfold committedBurst
  omega

theorem excessBurst_lt : excessBurst x c < 2 ^ 32 := by
  have hebs := wGet_lt (tblGet x 0 c 7) 0 24
  unfold excessBurst
  omega

/-- The fill writes CT, ET and LAST and nothing more. -/
theorem meterFill_eq : meterFill x c t =
    tblPut (tblPut (tblPut x 0 c 8 (BitVec.ofNat 32 (min (committedFill x c t) (committedBurst x c))))
      0 c 9 (BitVec.ofNat 32 (min (excessBurst x c) (excessFill x c t)))) 0 c 10 (BitVec.ofNat 32 t) := by
  simp only [meterFill, committedFill, committedBurst, excessFill, excessBurst, meterInterval,
    Nat.mod_eq_of_lt (BitVec.isLt _), Nat.mul_comm 256]

theorem meterFill_committed :
    (tblGet (meterFill x c t) 0 c 8).toNat = min (committedFill x c t) (committedBurst x c) := by
  simpa [meterFill_eq] using (min_le_right (committedFill x c t) _).trans_lt (committedBurst_lt x c)

theorem meterFill_excess :
    (tblGet (meterFill x c t) 0 c 9).toNat = min (excessBurst x c) (excessFill x c t) := by
  simpa [meterFill_eq] using (min_le_left _ (excessFill x c t)).trans_lt (excessBurst_lt x c)

theorem meterFill_last (ht : t < 2 ^ 32) : (tblGet (meterFill x c t) 0 c 10).toNat = t := by
  simpa [meterFill_eq] using ht

/-- What a frame of `l` bytes pays by its colour. A red frame may set RED_LOCK, which is no bucket. -/
inductive MeterPays (x : Slice) (c l : Nat) : Slice × Nat → Prop where
  | green (hct : l * 256 ≤ (tblGet x 0 c 8).toNat) :
      MeterPays x c l (tblPut x 0 c 8 (BitVec.ofNat 32 ((tblGet x 0 c 8).toNat - l * 256)), 0)
  | yellow (hct : (tblGet x 0 c 8).toNat < l * 256) (het : l * 256 ≤ (tblGet x 0 c 9).toNat) :
      MeterPays x c l (tblPut x 0 c 9 (BitVec.ofNat 32 ((tblGet x 0 c 9).toNat - l * 256)), 1)
  | red (y : Slice) (hct : tblGet y 0 c 8 = tblGet x 0 c 8) (het : tblGet y 0 c 9 = tblGet x 0 c 9) :
      MeterPays x c l (y, 2)

theorem meterColour_pays : MeterPays x c l (meterColour x c l) := by
  unfold meterColour
  dsimp only
  split_ifs with hlock hct het hall
  · exact .red x rfl rfl
  · exact .green hct
  · exact .yellow (by omega) het
  · exact .red _ (by simp) (by simp)
  · exact .red x rfl rfl

end Meter

/-- Settles O19: the fill bounds each bucket by its burst, and the colour names the one bucket that is written. -/
theorem meterBuckets : Obligations.MeterBuckets := by
  unfold Obligations.MeterBuckets
  intro x c t l _ ht
  refine ⟨meterFill_committed x c t, meterFill_excess x c t, meterFill_last x c t ht, ?_⟩
  have hpays := meterColour_pays (meterFill x c t) c l
  generalize meterColour (meterFill x c t) c l = r at hpays ⊢
  cases hpays with
  | green hct => simpa [hct] using (Nat.sub_le _ (l * 256)).trans_lt (BitVec.isLt (tblGet (meterFill x c t) 0 c 8))
  | yellow hct het => simpa [hct] using (Nat.sub_le _ (l * 256)).trans_lt (BitVec.isLt (tblGet (meterFill x c t) 0 c 9))
  | red y hct het => simp [hct, het]

/-! ### Sequence recovery (R395) -/

/-- How far a number is ahead of RCV_SEQ in state word `w`, as the 16-bit signed difference. -/
def rcvDelta (w : Word) (seq : Nat) : Int := signed 16 (seq + 65536 - wGet w 0 16)

/-- The context with RCV_SEQ and its flags in `w` and HISTORY in `h`. -/
def rcvPut (x : Slice) (c : Nat) (w h : Word) : Slice := tblPut (tblPut x 0 c 11 w) 0 c 12 h

/-- State words `w` and `h` that answer `seq` as a duplicate: the match algorithm by RCV_SEQ, the vector one by HISTORY. -/
def SeqReceived (w h : Word) (seq : Nat) : Prop :=
  wGet w 21 1 ≠ 1 ∧
    if wGet w 22 1 = 1 then wGet w 0 16 = seq else rcvDelta w seq ≤ 0 ∧ wGet h (-rcvDelta w seq).toNat 1 = 1

/-- The ways in which `seq` is accepted, with the state words before and after. -/
inductive SeqAccepted (w h : Word) (seq : Nat) : Word → Word → Prop where
  | takeAny (hany : wGet w 21 1 = 1) : SeqAccepted w h seq (wPut (wPut w 0 16 seq) 21 1 0) 1
  | matched (hany : wGet w 21 1 ≠ 1) (halg : wGet w 22 1 = 1) : SeqAccepted w h seq (wPut w 0 16 seq) h
  | ahead (hany : wGet w 21 1 ≠ 1) (halg : wGet w 22 1 ≠ 1) (hpos : 0 < rcvDelta w seq) :
      SeqAccepted w h seq (wPut w 0 16 seq) ((h <<< (rcvDelta w seq).toNat) ||| 1)
  | late (hany : wGet w 21 1 ≠ 1) (halg : wGet w 22 1 ≠ 1) (hnonpos : rcvDelta w seq ≤ 0)
      (hlen : -(wGet w 16 5 : Int) < rcvDelta w seq) :
      SeqAccepted w h seq w (wPut h (-rcvDelta w seq).toNat 1 1)

section Recovery
variable {x : Slice} {c seq : Nat} {w h w' h' : Word}

@[simp] theorem tblGet_rcvPut_rcv : tblGet (rcvPut x c w h) 0 c 11 = w := by simp [rcvPut]

@[simp] theorem tblGet_rcvPut_history : tblGet (rcvPut x c w h) 0 c 12 = h := by simp [rcvPut]

theorem tblGet_rcvPut_ne (hc : c < 65536) {t e i : Nat} (hrcv : (t, e, i) ≠ (0, c, 11)) (hhist : (t, e, i) ≠ (0, c, 12))
    (hi : i < 16) (he : e < 65536) : tblGet (rcvPut x c w h) t e i = tblGet x t e i := by
  rw [rcvPut, tblGet_tblPut_ne _ _ _ _ _ _ _ _ (mt (tblKey_injective he hi hc (by decide)) hhist),
    tblGet_tblPut_ne _ _ _ _ _ _ _ _ (mt (tblKey_injective he hi hc (by decide)) hrcv)]

theorem recover_of_received (hrec : SeqReceived (tblGet x 0 c 11) (tblGet x 0 c 12) seq) :
    (recover x c seq).2 = true := by
  obtain ⟨hany, hrec⟩ := hrec
  unfold recover
  dsimp only
  rw [if_neg hany]
  by_cases halg : wGet (tblGet x 0 c 11) 22 1 = 1
  · rw [if_pos halg] at hrec ⊢
    rw [if_pos hrec.symm]
  · rw [if_neg halg] at hrec ⊢
    obtain ⟨hnonpos, hbit⟩ := hrec
    unfold rcvDelta at hnonpos hbit
    rw [if_neg (not_lt.2 hnonpos), if_pos hbit, ite_self]

theorem recover_accepted (hacc : (recover x c seq).2 = false) :
    ∃ w' h', SeqAccepted (tblGet x 0 c 11) (tblGet x 0 c 12) seq w' h' ∧ (recover x c seq).1 = rcvPut x c w' h' := by
  unfold recover at hacc ⊢
  dsimp only at hacc ⊢
  split_ifs at hacc ⊢ with hany halg hseq hrogue hpos hbit
  · exact ⟨_, _, .takeAny hany, rfl⟩
  · exact ⟨_, _, .matched hany halg, rfl⟩
  · exact ⟨_, _, .ahead hany halg hpos, rfl⟩
  · have hlen : -(wGet (tblGet x 0 c 11) 16 5 : Int) < rcvDelta (tblGet x 0 c 11) seq := by
      simp only [Bool.or_eq_true, decide_eq_true_eq, not_or, not_le] at hrogue
      exact hrogue.2
    exact ⟨_, _, .late hany halg (not_lt.1 hpos) hlen, rfl⟩

theorem rcvDelta_eq_zero (hrcv : wGet w 0 16 = seq) : rcvDelta w seq = 0 := by
  rw [rcvDelta, hrcv, Nat.add_sub_cancel_left]
  rfl

/-- Any word in which bit 0 is set shows RCV_SEQ itself as received. -/
theorem wGet_or_one (w : Word) : wGet (w ||| 1) 0 1 = 1 := by
  simp [wGet, nGet, Nat.or_mod_two_eq_one]

/-- A word that holds the accepted number as RCV_SEQ answers it as a duplicate, whatever the algorithm. -/
theorem seqReceived_of_rcv (hany : wGet w 21 1 ≠ 1) (hrcv : wGet w 0 16 = seq) (hbit : wGet w 22 1 ≠ 1 → wGet h 0 1 = 1) :
    SeqReceived w h seq := by
  refine ⟨hany, ?_⟩
  split_ifs with halg
  · exact hrcv
  · simp [rcvDelta_eq_zero hrcv, hbit halg]

theorem wGet_rcv_wPut (hseq : seq < 65536) : wGet (wPut w 0 16 seq) 0 16 = seq := 
  (wGet_wPut_self _ _ _ _ (by decide)).trans (Nat.mod_eq_of_lt hseq)

theorem wGet_flag_wPut_rcv {i : Nat} (hi : 16 ≤ i) : wGet (wPut w 0 16 seq) i 1 = wGet w i 1 :=
  wGet_wPut_ne _ _ (by decide) (.inl hi)

theorem SeqAccepted.rcv_eq (hacc : SeqAccepted w h seq w' h') (hseq : seq < 65536)
    (hmoves : wGet w 21 1 = 1 ∨ wGet w 22 1 = 1 ∨ 0 < rcvDelta w seq) : wGet w' 0 16 = seq := by
  cases hacc with
  | takeAny hany => rw [wGet_wPut_ne _ _ (by decide) (.inr (by decide)), wGet_rcv_wPut hseq]
  | matched | ahead => exact wGet_rcv_wPut hseq
  | late hany halg hnonpos hlen => omega

theorem SeqAccepted.received (hacc : SeqAccepted w h seq w' h') (hseq : seq < 65536) : SeqReceived w' h' seq := by
  have hrcv := hacc.rcv_eq hseq
  cases hacc with
  | takeAny hany =>
    refine seqReceived_of_rcv ?_ (hrcv (.inl hany)) fun _ => by decide
    rw [wGet_wPut_self _ _ _ _ (by decide)]
    decide
  | matched hany halg =>
    refine seqReceived_of_rcv ?_ (hrcv (.inr (.inl halg))) fun hvec => ?_
    · rwa [wGet_flag_wPut_rcv (by decide)]
    · exact absurd ((wGet_flag_wPut_rcv (by decide)).trans halg) hvec
  | ahead hany halg hpos =>
    refine seqReceived_of_rcv ?_ (hrcv (.inr (.inr hpos))) fun _ => wGet_or_one _
    rwa [wGet_flag_wPut_rcv (by decide)]
  | late hany halg hnonpos hlen =>
    have hwid := wGet_lt w 16 5
    refine ⟨hany, ?_⟩
    rw [if_neg halg, wGet_wPut_self _ _ _ _ (by omega)]
    exact ⟨hnonpos, rfl⟩

end Recovery

/-- Settles O18: however a number is accepted, the state words that are left answer it as a duplicate. -/
theorem recoveryDropsDuplicates : Obligations.RecoveryDropsDuplicates := by
  unfold Obligations.RecoveryDropsDuplicates
  intro x c seq hc hseq haccepted
  obtain ⟨w', h', hacc, hput⟩ := recover_accepted haccepted
  rw [hput]
  refine ⟨recover_of_received ?_, fun hmoves => ?_, fun t e w hrcv hhist hw he => tblGet_rcvPut_ne hc hrcv hhist hw he⟩
  · simpa using hacc.received hseq
  · simpa using hacc.rcv_eq hseq hmoves

end Sys2Proof.Machine
end


section
/-! PROOFS. External memory (16_external_memory.md): the symbol code of a beat (R428, R429). The check symbols are the remainder
of x²·d(x) by g(x), so the codeword is a multiple of g(x) and vanishes at its roots 1 and α. One failed symbol scales S0 to S1
by the power of α of its place, and those powers are distinct. -/

namespace Sys2Proof.Machine

section SymbolCode

variable {x y v j k m : Nat} {d : List Nat}

/-! ### GF(16): products by powers of α -/

theorem gfAlpha_lt_sixteen : ∀ x < 16, gfAlpha x < 16 := by decide

theorem gfAlpha_xor : ∀ x < 16, ∀ y < 16, gfAlpha (x ^^^ y) = gfAlpha x ^^^ gfAlpha y := by decide +kernel

theorem gfPow_lt_sixteen (hx : x < 16) : gfPow x k < 16 := by
  induction k with
  | zero => exact hx
  | succ j ih => exact gfAlpha_lt_sixteen _ ih

theorem gfPow_xor (hx : x < 16) (hy : y < 16) : gfPow (x ^^^ y) k = gfPow x k ^^^ gfPow y k := by
  induction k with
  | zero => rfl
  | succ j ih =>
    calc gfAlpha (gfPow (x ^^^ y) j)
      _ = gfAlpha (gfPow x j ^^^ gfPow y j) := by rw [ih]
      _ = gfAlpha (gfPow x j) ^^^ gfAlpha (gfPow y j) :=
          gfAlpha_xor _ (gfPow_lt_sixteen hx) _ (gfPow_lt_sixteen hy)

theorem gfPow_gfPow (x k n : Nat) : gfPow (gfPow x k) n = gfPow x (k + n) := by
  induction n with
  | zero => rfl
  | succ j ih => exact congrArg gfAlpha ih

@[simp] theorem gfPow_zero_left (k : Nat) : gfPow 0 k = 0 := by
  induction k with
  | zero => rfl
  | succ j ih => rw [gfPow, ih, gfAlpha, if_neg (by decide), Nat.mul_zero]

theorem xor_lt_sixteen (hx : x < 16) (hy : y < 16) : x ^^^ y < 16 :=
  Nat.xor_lt_two_pow (n := 4) hx hy

/-! ### Values of a polynomial of symbols -/

/-- The value c(α^m) of the polynomial whose coefficients are the symbols of `c`, symbol 0 first. R429 reads S0 = c(1) at
m = 0 and S1 = c(α) at m = 1. -/
def symbolsAt (m : Nat) (c : List Nat) : Nat := c.foldr (fun x h => x ^^^ gfPow h m) 0

@[simp] theorem symbolsAt_nil : symbolsAt m [] = 0 := rfl

@[simp] theorem symbolsAt_cons : symbolsAt m (x :: d) = x ^^^ gfPow (symbolsAt m d) m := rfl

theorem symbolsAt_lt_sixteen (hd : ∀ x ∈ d, x < 16) : symbolsAt m d < 16 := by
  induction d with
  | nil => simp
  | cons x d ih =>
    rw [List.forall_mem_cons] at hd
    exact xor_lt_sixteen hd.1 (gfPow_lt_sixteen (ih hd.2))

/-- S0 as the reader sums it is the value at 1. -/
theorem foldl_xor_eq_symbolsAt (c : List Nat) : c.foldl (· ^^^ ·) 0 = symbolsAt 0 c :=
  List.foldl_eq_foldr ..

/-- S1 as the reader sums it, symbol by symbol with the power of its place, is the value at α. -/
theorem foldl_zipIdx_eq_symbolsAt (hd : ∀ x ∈ d, x < 16) (a k : Nat) :
    (d.zipIdx k).foldl (fun n e => n ^^^ gfPow e.1 e.2) a = a ^^^ gfPow (symbolsAt 1 d) k := by
  induction d generalizing a k with
  | nil => simp
  | cons x d ih =>
    rw [List.forall_mem_cons] at hd
    have hval := symbolsAt_lt_sixteen (m := 1) hd.2
    calc ((x :: d).zipIdx k).foldl (fun n e => n ^^^ gfPow e.1 e.2) a
      _ = a ^^^ gfPow x k ^^^ gfPow (symbolsAt 1 d) (1 + k) := by
          rw [List.zipIdx_cons, List.foldl_cons, ih hd.2, Nat.add_comm]
      _ = a ^^^ gfPow (symbolsAt 1 (x :: d)) k := by
          rw [symbolsAt_cons, gfPow_xor hd.1 (gfPow_lt_sixteen hval), gfPow_gfPow, Nat.xor_assoc]

/-! ### The remainder and the codeword -/

/-- One step of the division by g(x). -/
theorem rsCheck_cons (x : Nat) (d : List Nat) :
    rsCheck (x :: d) =
      ((rsCheck d).2 ^^^ gfPow ((rsCheck d).1 ^^^ x) 4, gfPow ((rsCheck d).1 ^^^ x) 1) := by
  simp [rsCheck]

theorem rsCheck_lt_sixteen (hd : ∀ x ∈ d, x < 16) : (rsCheck d).1 < 16 ∧ (rsCheck d).2 < 16 := by
  induction d with
  | nil => decide
  | cons x d ih =>
    rw [List.forall_mem_cons] at hd
    obtain ⟨h1, h0⟩ := ih hd.2
    have hq := xor_lt_sixteen h1 hd.1
    rw [rsCheck_cons]
    exact ⟨xor_lt_sixteen h0 (gfPow_lt_sixteen hq), gfPow_lt_sixteen hq⟩

/-- 1 and α are the roots of the generator g(x) = x² + α⁴·x + α, here times any symbol. -/
theorem generator_root : ∀ m < 2, ∀ q < 16, gfPow q 1 ^^^ gfPow q (4 + m) = gfPow q (2 * m) := by decide +kernel

/-- The remainder agrees with x²·d(x) at each root of g(x). -/
theorem rsCheck_at_root (hm : m < 2) (hd : ∀ x ∈ d, x < 16) :
    (rsCheck d).2 ^^^ gfPow (rsCheck d).1 m = gfPow (symbolsAt m d) (2 * m) := by
  induction d with
  | nil => simp [rsCheck]
  | cons x d ih =>
    rw [List.forall_mem_cons] at hd
    obtain ⟨hx, hd⟩ := hd
    obtain ⟨h1, h0⟩ := rsCheck_lt_sixteen hd
    have hrem := ih hd
    have hval := symbolsAt_lt_sixteen (m := m) hd
    rw [rsCheck_cons, symbolsAt_cons]
    generalize (rsCheck d).1 = r1, (rsCheck d).2 = r0, symbolsAt m d = h at *
    have hq := xor_lt_sixteen h1 hx
    calc gfPow (r1 ^^^ x) 1 ^^^ gfPow (r0 ^^^ gfPow (r1 ^^^ x) 4) m
      _ = gfPow (r1 ^^^ x) 1 ^^^ gfPow (r1 ^^^ x) (4 + m) ^^^ gfPow r0 m := by
          rw [gfPow_xor h0 (gfPow_lt_sixteen hq), gfPow_gfPow, Nat.xor_comm (gfPow r0 m), Nat.xor_assoc]
      _ = gfPow x (2 * m) ^^^ gfPow (r0 ^^^ gfPow r1 m) m := by
          rw [generator_root m hm _ hq, gfPow_xor h1 hx, gfPow_xor h0 (gfPow_lt_sixteen h1), gfPow_gfPow,
            Nat.two_mul]
          ac_rfl
      _ = gfPow (x ^^^ gfPow h m) (2 * m) := by
          rw [hrem, gfPow_xor hx (gfPow_lt_sixteen hval), gfPow_gfPow, gfPow_gfPow, Nat.add_comm]

/-- The codeword is a multiple of g(x): it vanishes at each root. -/
theorem symbolsAt_codeword (hm : m < 2) (hd : ∀ x ∈ d, x < 16) :
    symbolsAt m ([(rsCheck d).2, (rsCheck d).1] ++ d) = 0 := by
  have hval := symbolsAt_lt_sixteen (m := m) hd
  obtain ⟨h1, h0⟩ := rsCheck_lt_sixteen hd
  calc symbolsAt m ([(rsCheck d).2, (rsCheck d).1] ++ d)
    _ = (rsCheck d).2 ^^^ gfPow (rsCheck d).1 m ^^^ gfPow (symbolsAt m d) (2 * m) := by
        simp [gfPow_xor h1 (gfPow_lt_sixteen hval), gfPow_gfPow, Nat.two_mul, Nat.xor_assoc]
    _ = 0 := by rw [rsCheck_at_root hm hd, Nat.xor_self]

/-! ### One failed symbol -/

/-- The powers of α that can name a symbol carry a non-zero value to different values. -/
theorem gfPow_inj : ∀ v < 16, 0 < v → ∀ i < 10, ∀ j < 10, gfPow v i = gfPow v j → i = j := by decide +kernel

theorem gfPow_ne_zero : ∀ v < 16, 0 < v → ∀ j < 10, gfPow v j ≠ 0 := by decide +kernel

theorem rsDecode_single (hv : v < 16) (hpos : 0 < v) (hj : j < 10) :
    rsDecode [(j, v)] = some (some (j, v)) := by
  have hfind : (List.range 10).find? (fun i => gfPow v i == gfPow v j) = some j := by
    rw [List.find?_range_eq_some]
    refine ⟨beq_self_eq_true _, List.mem_range.2 hj, fun i hij => ?_⟩
    simpa using fun heq => hij.ne (gfPow_inj v hv hpos i (hij.trans hj) j hj heq)
  simp [rsDecode, Nat.mod_eq_of_lt hv, hpos.ne', gfPow_ne_zero v hv hpos j hj, hfind]

end SymbolCode

/-- Settles O23: the codeword is a multiple of g(x), so it vanishes at the roots 1 and α; and one failed symbol is the one
whose power of α takes S0 to S1. -/
theorem symbolCodeHolds : Obligations.SymbolCodeHolds := by
  unfold Obligations.SymbolCodeHolds
  refine ⟨fun d _ hd => ?_, fun j hj v hv hpos => rsDecode_single hv hpos hj⟩
  obtain ⟨h1, h0⟩ := rsCheck_lt_sixteen hd
  have hc : ∀ x ∈ [(rsCheck d).2, (rsCheck d).1] ++ d, x < 16 := by
    simpa [h0, h1] using hd
  refine ⟨⟨?_, ?_⟩, h1, h0⟩
  · rw [foldl_xor_eq_symbolsAt, symbolsAt_codeword (by decide) hd]
  · rw [foldl_zipIdx_eq_symbolsAt hc, symbolsAt_codeword (by decide) hd]
    rfl

end Sys2Proof.Machine
end

section
/-! PROOFS. Processors and messages (17_processors.md): the counts of a mailbox (R454, R456), lock words (R459), and what an
access of a system core does in the caches, with the record of one that fails (R446, R448). -/

namespace Sys2Proof.Machine

/-! ### What leaves the mailboxes alone -/

@[simp] theorem domTouch_hub (s : State) (die i : Nat) : (domTouch s die i).hub = s.hub := by
  unfold domTouch
  split
  · rfl
  · dsimp only
    split <;> rfl

@[simp] theorem bbPush_hub (s : State) (src cls die kind p0 p1 : Nat) : (bbPush s src cls die kind p0 p1).hub = s.hub := by
  unfold bbPush
  split <;> rfl

@[simp] theorem wfiFollow_mbox (s : State) : (wfiFollow s).hub.mbox = s.hub.mbox := by
  unfold wfiFollow
  refine List.foldlRecOn (motive := fun t : State => t.hub.mbox = s.hub.mbox) _ _ rfl fun t ht c _ => ?_
  split
  · simpa [setHart] using ht
  · exact ht

@[simp] theorem coreStir_mbox (s : State) : (coreStir s).hub.mbox = s.hub.mbox := by
  unfold coreStir
  split <;> simp

@[simp] theorem hubEvent_mbox (s : State) (src pend : Nat) (pulse : Bool) :
    (hubEvent s src pend pulse).hub.mbox = s.hub.mbox := by
  simp only [hubEvent, apply_ite State.hub, apply_ite HubState.mbox, bbPush_hub, coreStir_mbox, ite_self]

@[simp] theorem srcLevel_mbox (s : State) (src pend : Nat) (b : Bool) : (srcLevel s src pend b).hub.mbox = s.hub.mbox := by
  simp only [srcLevel, apply_ite State.hub, apply_ite HubState.mbox, hubEvent_mbox, ite_self]

@[simp] theorem pageOut_mbox (s : State) (page : Nat) : (pageOut s page).hub.mbox = s.hub.mbox := by
  unfold pageOut
  dsimp only
  split
  · rfl
  · split <;> simp

@[simp] theorem evtLevel_mbox (s : State) (page n : Nat) (b : Bool) : (evtLevel s page n b).hub.mbox = s.hub.mbox := by
  unfold evtLevel evtPend
  dsimp only
  split <;> simp

@[simp] theorem msixRaise_mbox (s : State) (pc fn vec : Nat) : (msixRaise s pc fn vec).hub.mbox = s.hub.mbox := by
  simp only [msixRaise, setPcie, apply_ite State.hub, apply_ite HubState.mbox, ite_self]

@[simp] theorem mbEvents_mbox (s : State) (m : Nat) : (mbEvents s m).hub.mbox = s.hub.mbox := by
  simp [mbEvents]

@[simp] theorem mbVector_mbox (s : State) (m : Nat) : (mbVector s m).hub.mbox = s.hub.mbox := by
  unfold mbVector
  split <;> simp

/-! ### The mailbox after a send, a take and a withdrawal (R454) -/

@[simp] theorem mboxOf_setMbox_self (s : State) (m : Nat) (b : Mbox) : mboxOf (setMbox s m b) m = b :=
  tabOr_tabPutD_self _ _ m b

theorem mboxOf_setMbox_ne (s : State) {m k : Nat} (b : Mbox) (h : k ≠ m) : mboxOf (setMbox s m b) k = mboxOf s k :=
  tabOr_tabPutD_ne _ _ b h

theorem mboxOf_congr {s t : State} (h : s.hub.mbox = t.hub.mbox) (k : Nat) : mboxOf s k = mboxOf t k := by
  simp only [mboxOf, h]

/-- What a send makes of a mailbox. -/
def Mbox.sent (b : Mbox) (ini : Nat) : Mbox :=
  { b with full := true, timeout := false, sender := ini, seq := (b.seq + 1) % 65536 }

/-- What a take makes of a mailbox. -/
def Mbox.tookOut (b : Mbox) : Mbox := { b with full := false, timeout := false, taken := (b.taken + 1) % 65536 }

/-- What a withdrawal makes of a mailbox. -/
def Mbox.withdrew (b : Mbox) : Mbox := { b with full := false, timeout := false, wdraw := (b.wdraw + 1) % 65536 }

/-- A send sets its mailbox; the events and the vector that follow touch none. -/
theorem mboxOf_mbSend (s : State) (m ini k : Nat) :
    mboxOf (mbSend s m ini) k = mboxOf (setMbox s m ((mboxOf s m).sent ini)) k := by
  refine mboxOf_congr ?_ k
  unfold mbSend
  dsimp only
  split
  · exact mbEvents_mbox ..
  · exact (mbVector_mbox ..).trans (mbEvents_mbox ..)

theorem mboxOf_mbTaken (s : State) (m k : Nat) :
    mboxOf (mbTaken s m) k = mboxOf (setMbox s m (mboxOf s m).tookOut) k := mboxOf_congr (mbEvents_mbox ..) k

theorem mboxOf_mbWithdrawn (s : State) (m k : Nat) :
    mboxOf (mbWithdrawn s m) k = mboxOf (setMbox s m (mboxOf s m).withdrew) k := mboxOf_congr (mbEvents_mbox ..) k

/-- R456: SEQ is TAKEN plus WDRAW plus FULL modulo 65536. -/
def Mbox.balanced (b : Mbox) : Prop := b.seq = (b.taken + b.wdraw + ofBool b.full) % 65536

theorem Mbox.balanced_sent {b : Mbox} (ini : Nat) (hfull : b.full = false) (hb : b.balanced) : (b.sent ini).balanced := by
  simp only [Mbox.balanced, Mbox.sent, hfull, ofBool, Bool.false_eq_true, if_true, if_false] at hb ⊢
  omega

theorem Mbox.balanced_tookOut {b : Mbox} (hfull : b.full = true) (hb : b.balanced) : b.tookOut.balanced := by
  simp only [Mbox.balanced, Mbox.tookOut, hfull, ofBool, Bool.false_eq_true, if_true, if_false] at hb ⊢
  omega

theorem Mbox.balanced_withdrew {b : Mbox} (hfull : b.full = true) (hb : b.balanced) : b.withdrew.balanced := by
  simp only [Mbox.balanced, Mbox.withdrew, hfull, ofBool, Bool.false_eq_true, if_true, if_false] at hb ⊢
  omega

/-- Settles O16: each of the three operations sets its own mailbox, to one that is balanced where the mailbox before was. -/
theorem mailboxLedger : Obligations.MailboxLedger := by
  unfold Obligations.MailboxLedger
  rintro s m ini b rfl -
  simp only [List.forall_mem_cons, List.not_mem_nil, false_imp_iff, implies_true, and_true, mboxOf_mbSend, mboxOf_mbTaken,
    mboxOf_mbWithdrawn, mboxOf_setMbox_self]
  have hother : ∀ (x : Mbox) (k : Nat), k ≠ m → mboxOf (setMbox s m x) k = mboxOf s k :=
    fun x _ hk => mboxOf_setMbox_ne s x hk
  exact ⟨Mbox.balanced_sent ini, rfl, rfl, rfl, fun hf hb => ⟨Mbox.balanced_tookOut hf hb, Mbox.balanced_withdrew hf hb⟩,
    ⟨⟨rfl, rfl⟩, rfl, rfl⟩, ⟨rfl, hother _⟩, ⟨rfl, hother _⟩, rfl, hother _⟩

/-! ### Lock words (R459) -/

@[simp] theorem lockOf_setLock_self (s : State) (k : Nat) (h : Option Nat) : lockOf (setLock s k h) k = h := by
  cases h with
  | none => simp [lockOf, setLock, tabGet_tabDel_self]
  | some i => simp [lockOf, setLock, tabGet_tabPut_self]

theorem lockOf_setLock_ne (s : State) {k j : Nat} (h : Option Nat) (hj : j ≠ k) : lockOf (setLock s k h) j = lockOf s j := by
  cases h with
  | none => simp [lockOf, setLock, tabGet_tabDel_ne _ hj]
  | some i => simp [lockOf, setLock, tabGet_tabPut_ne _ _ hj]

theorem lockTake_free {s : State} {k : Nat} (ini : Nat) (peek : Bool) (h : lockOf s k = none) :
    lockTake s ini k peek = (if peek then s else setLock s k (some ini), 0) := by
  simp [lockTake, h]

theorem lockTake_held {s : State} {k i : Nat} (ini : Nat) (peek : Bool) (h : lockOf s k = some i) :
    lockTake s ini k peek = (s, if i = ini && !peek then 0 else 2 ^ 31 + i) := by
  simp [lockTake, h]

section LockWord
variable {k : Nat} (hk : k < 256) (s : State) (ini : Nat)
include hk

theorem lockOff_range : 0x100 ≤ 0x100 + 4 * k ∧ 0x100 + 4 * k < 0x500 ∧ (0x100 + 4 * k - 0x100) / 4 = k := by omega

theorem lkRead_lock (peek : Bool) : lkRead s ini peek (0x100 + 4 * k) = some (lockTake s ini k peek) := by
  obtain ⟨hlo, hhi, hidx⟩ := lockOff_range hk
  simp only [lkRead, hlo, hhi, hidx, decide_true, Bool.and_self, if_true]

theorem lkFault_lock (w : Word) : lkFault s ini (0x100 + 4 * k) w =
    if w ≠ 0 then some 0x0001 else if lockOf s k = some ini then none else some 0x0100 := by
  obtain ⟨hlo, hhi, hidx⟩ := lockOff_range hk
  have hforce : 0x100 + 4 * k ≠ 0x040 := by omega
  simp only [lkFault, hforce, hlo, hhi, hidx, decide_true, Bool.and_self, if_true, if_false, bne_iff_ne]

theorem lkWritten_lock (w : Word) : lkWritten s (0x100 + 4 * k) w = setLock s k none := by
  obtain ⟨-, hhi, -⟩ := lockOff_range hk
  have hforce : 0x100 + 4 * k ≠ 0x040 := by omega
  simp [lkWritten, hforce, hhi]

end LockWord

/-- Settles O17: the page's rule for a lock word is `lockTake` for a read, and for a write the release of the lock. -/
theorem lockWords : Obligations.LockWords := by
  unfold Obligations.LockWords
  refine ⟨by decide, fun s ini k w hk => ?_⟩
  have hread : ∀ peek, specialRead s ini peek .lk 8 0xC020 (0x100 + 4 * k) = some (lockTake s ini k peek) :=
    lkRead_lock hk s ini
  simp only [hread, Option.some.injEq]
  refine ⟨?acquires, ?peekFree, ?own, ?others, ?peekHeld, lkFault_lock hk s ini w, ?release⟩
  case acquires =>
    exact fun h => ⟨setLock s k (some ini), lockTake_free ini false h, lockOf_setLock_self ..,
      fun j hj => lockOf_setLock_ne s _ hj, rfl⟩
  case peekFree => exact fun h => lockTake_free ini true h
  case own => exact fun h => by simp [lockTake_held ini false h]
  case others => exact fun i h hne => by simp [lockTake_held ini false h, hne]
  case peekHeld => exact fun i h => by simp [lockTake_held ini true h]
  case release =>
    exact fun s0 old => ⟨(blockWritten_lk ..).trans (lkWritten_lock hk s 0), lockOf_setLock_self ..,
      fun j hj => lockOf_setLock_ne s _ hj⟩

/-! ### The record of a failed access (R448) -/

theorem getF_putF_nth_self (s : State) (page c : Nat) (f : FieldRef) (v : Nat) (hfit : f.lsb + f.wid ≤ 32) :
    getF (putF s page (f.nth c) v) page (f.nth c) = v % 2 ^ f.wid :=
  getF_putF_self s page (f.nth c) v hfit

/-- Fields of one array of registers, or of arrays that lie side by side. -/
theorem getF_putF_nth_of (s : State) (page c : Nat) {f g : FieldRef} (v : Nat) (hstride : g.stride = f.stride)
    (hfit : f.lsb + f.wid ≤ 32) (hapart : g.off ≠ f.off ∨ f.lsb + f.wid ≤ g.lsb ∨ g.lsb + g.wid ≤ f.lsb) :
    getF (putF s page (f.nth c) v) page (g.nth c) = getF s page (g.nth c) :=
  getF_putF_of s page v hfit (hapart.imp_left (by simp [FieldRef.nth, hstride]))

section BusErrorRecord
variable {s : State} {c : Nat} (code a : Nat) (b : Bool)

theorem berrNote_of_valid (hvalid : flag s CL (CL_BERR_VALID.nth c) = true) :
    berrNote s c code a b = putFlag s CL (CL_BERR_OVF.nth c) true := if_pos hvalid

section Latched
variable (hfree : flag s CL (CL_BERR_VALID.nth c) = false)
include hfree

theorem berrNote_of_not_valid : berrNote s c code a b =
    putFlag (putF (putF (putF (putFlag s CL (CL_BERR_ASYNC.nth c) b) CL (CL_BERR_CODE.nth c) code)
      CL (CL_BERRA_LO_ADDR.nth c) (a % 2 ^ 32)) CL (CL_BERRA_HI_ADDR.nth c) (a / 2 ^ 32)) CL (CL_BERR_VALID.nth c) true :=
  if_neg (by simp [hfree])

theorem flag_berrNote_valid : flag (berrNote s c code a b) CL (CL_BERR_VALID.nth c) = true := by
  simp (disch := decide) only [berrNote_of_not_valid code a b hfree, flag, putFlag, getF_putF_nth_self]
  rfl

theorem flag_berrNote_async : flag (berrNote s c code a b) CL (CL_BERR_ASYNC.nth c) = b := by
  simp (disch := decide) only [berrNote_of_not_valid code a b hfree, flag, putFlag, getF_putF_nth_self, getF_putF_nth_of]
  cases b <;> rfl

theorem getF_berrNote_code (hcode : code < 16) : getF (berrNote s c code a b) CL (CL_BERR_CODE.nth c) = code := by
  simp (disch := decide) only [berrNote_of_not_valid code a b hfree, putFlag, getF_putF_nth_self, getF_putF_nth_of]
  exact Nat.mod_eq_of_lt hcode

theorem getF_berrNote_low :
    getF (berrNote s c code a b) CL (CL_BERRA_LO_ADDR.nth c) = a % 2 ^ 32 := by
  simp (disch := decide) only [berrNote_of_not_valid code a b hfree, putFlag, getF_putF_nth_self, getF_putF_nth_of]
  exact Nat.mod_mod a _

theorem getF_berrNote_high (ha : a < 2 ^ 42) :
    getF (berrNote s c code a b) CL (CL_BERRA_HI_ADDR.nth c) = a / 2 ^ 32 := by
  simp (disch := decide) only [berrNote_of_not_valid code a b hfree, putFlag, getF_putF_nth_self, getF_putF_nth_of]
  exact Nat.mod_eq_of_lt (Nat.div_lt_of_lt_mul ha)

end Latched
end BusErrorRecord

/-! ### Forbidden accesses (R446) -/

theorem use_ne_evict_of_forbidden {x : Access} (h : useForbidden x = true) : (x.use == .evict) = false :=
  Bool.eq_false_iff.2 fun hevict => by simp [useForbidden, eq_of_beq hevict] at h

theorem coreTake_of_forbidden (s : State) {x : Access} (h : useForbidden x = true) : coreTake s x = coreEnd s x 1 [] :=
  if_pos h

theorem exec_accessInject_forbidden {s : State} {x : Access} (hmay : mayAccess s x = true) (hini : x.ini < 4)
    (h : useForbidden x = true) : exec (.accessInject x) s = .next (coreEnd (coreBegun s x.ini) x 1 []) := by
  have hexec : exec (.accessInject x) s = execAccessInject x s := rfl
  rw [hexec, execAccessInject, if_pos hmay, accessMake, if_pos hini, use_ne_evict_of_forbidden h, if_neg Bool.false_ne_true,
    coreTake_of_forbidden _ h]

/-! ### Accesses whose lines are cached, and SC without a reservation (R446) -/

section CoreTry
variable {s : State} {x : Access}

theorem coreTry_scFails (huse : x.use = .sc) (hresv : (hartOf s x.ini).resv ≠ some (x.addr / 64)) :
    coreTry s x = scFailed s x := if_pos (by simp [scFails, huse, hresv])

/-- A load or store that is not written through is made in the caches where they hold all its lines. -/
theorem coreTry_of_cached (huse : x.use = .plain) (hlines : ∀ l ∈ accLines x, (lineAt s l).isSome = true)
    (hback : x.kind = 0 ∨ keepArea x.addr = false) : coreTry s x = coreHit s x := by
  have hsc : scFails s x = false := by simp [scFails, huse]
  have hthrough : (x.kind != 0 && x.use == .plain && keepArea x.addr) = false := by
    rcases hback with hkind | hkeep <;> simp [*]
  have hall : (accLines x).find? (fun l => (lineAt s l).isNone) = none :=
    List.find?_eq_none.2 fun l hl => by simp [Option.isSome_iff_ne_none.1 (hlines l hl)]
  simp only [coreTry, hsc, hthrough, hall, Bool.false_eq_true, if_false]

theorem coreHit_load (huse : x.use = .plain) (hkind : x.kind = 0) : coreHit s x = coreEnd s x 0 (cacheRead s x) := by
  simp [coreHit, huse, hkind]

theorem coreHit_store (huse : x.use = .plain) (hkind : x.kind ≠ 0) :
    coreHit s x = coreEnd (cacheWrite s x x.data true) x 0 [] := by
  simp [coreHit, huse, hkind]

end CoreTry

/-! ### A load after a store to the same line (R446) -/

@[simp] theorem lineAt_setLine_self (s : State) (l : Nat) (e : CacheLine) : lineAt (setLine s l e) l = some e :=
  tabGet_tabPut_self ..

@[simp] theorem lineAt_setHart (s : State) (c l : Nat) (h : Hart) : lineAt (setHart s c h) l = lineAt s l := rfl

section OneLine
variable {s : State} {x : Access}

theorem accLines_of_one_line (hsize : 0 < x.size) (hfit : x.addr % 64 + x.size ≤ 64) : accLines x = [x.addr / 64] := by
  have hcount : (x.addr + x.size + 63) / 64 - x.addr / 64 = 1 := by omega
  simp [accLines, hcount]

/-- Ending reservations leaves the line that a store has reached. -/
theorem lineAt_cacheWrite {l : Nat} {e : CacheLine} (bs : List Byte) (dirty : Bool) (hline : accLines x = [l])
    (he : lineAt s l = some e) : lineAt (cacheWrite s x bs dirty) l = some (lineStored e l x.addr x.ini bs dirty) := by
  unfold cacheWrite
  refine List.foldlRecOn (motive := fun t : State => lineAt t l = some _) _ _ ?_ fun t ht c _ => ?_
  · simp [hline, he]
  · split <;> exact ht

/-- Byte `i` of a store, read back from the line its address lies in. -/
theorem getD_lineStored {a i : Nat} {bs : List Byte} (e : CacheLine) (c : Nat) (dirty : Bool) (hi : i < bs.length)
    (hfit : a % 64 + i < 64) : (lineStored e (a / 64) a c bs dirty).bytes.getD ((a + i) % 64) 0 = bs[i] := by
  have hplace : 64 * (a / 64) + (a + i) % 64 = a + i := by omega
  have hmod : (a + i) % 64 < 64 := Nat.mod_lt _ (by decide)
  simp [lineStored, hmod, hplace, hi]

theorem cacheRead_cacheWrite {e : CacheLine} (hsize : 0 < x.size) (hfit : x.addr % 64 + x.size ≤ 64)
    (hdata : x.data.length = x.size) (he : lineAt s (x.addr / 64) = some e) :
    cacheRead (cacheWrite s x x.data true) x = x.data := by
  have hline := lineAt_cacheWrite x.data true (accLines_of_one_line hsize hfit) he
  refine List.ext_getElem (by simp [cacheRead, hdata]) fun i hread hi => ?_
  have hsame : (x.addr + i) / 64 = x.addr / 64 := by omega
  simp only [cacheRead, List.getElem_map, List.getElem_range, hsame, hline, Option.elim_some]
  exact getD_lineStored e x.ini true hi (by omega)

end OneLine

/-- Settles O20: by the fields of the record, the caches' rule for each kind of access, and the line a store leaves. -/
theorem coreAccesses : Obligations.CoreAccesses := by
  unfold Obligations.CoreAccesses
  refine ⟨?record, fun s x => exec_accessInject_forbidden, ?hits, fun s x e => cacheRead_cacheWrite,
    fun s x => coreTry_scFails⟩
  case record =>
    refine fun s c code a k b _ hcode ha => ⟨?_, berrNote_of_valid code a b, rfl, rfl⟩
    rintro hfree t rfl
    refine ⟨flag_berrNote_valid code a b hfree, getF_berrNote_code code a b hfree hcode,
      flag_berrNote_async code a b hfree, ?_⟩
    rw [getF_berrNote_low code a b hfree, getF_berrNote_high code a b hfree ha]
    omega
  case hits =>
    refine fun s x huse hlines => ⟨fun hkind => ?_, fun hkind hkeep => ?_⟩
    · rw [coreTry_of_cached huse hlines (.inl hkind), coreHit_load huse hkind]
    · rw [coreTry_of_cached huse hlines (.inr hkeep), coreHit_store huse hkind]

end Sys2Proof.Machine
end

section
/-! PROOFS. The instruction word of the loop engines (11_loop_programs.md R272 to R285): each slot is decoded from its bits as
it was encoded, and what a slot's bits decode to encodes to those bits. The immediate of a long form stands in the place of
the X and Y slots. -/

namespace Sys2Proof.Machine

/-! ### One-bit fields -/

theorem ofBool_lt_two (b : Bool) : ofBool b < 2 := by cases b <;> decide

@[simp] theorem decide_ofBool_eq_one (b : Bool) : decide (ofBool b = 1) = b := by cases b <;> rfl

theorem ofBool_decide_mod_two (n : Nat) : ofBool (decide (n % 2 = 1)) = n % 2 := by
  rcases Nat.mod_two_eq_zero_or_one n with h | h <;> simp [h, ofBool]

theorem zeroed_eq_some {α : Type} {n : Nat} {v o : α} : zeroed n v = some o ↔ n = 0 ∧ v = o := by
  simp [zeroed]

/-! ### The C slot (R274) -/

/-- The immediate of a long form (R273). -/
def COp.imm : COp → Option Nat
  | .loopi _ n => some n
  | .setr _ n => some n
  | _ => none

/-- The operation code, the upper five bits of a C slot. -/
def COp.code : COp → Nat
  | .nop => 0x00
  | .end_ => 0x01
  | .trap => 0x02
  | .br k _ => 0x03 + k
  | .call _ => 0x09
  | .ret => 0x0A
  | .lexit _ => 0x0B
  | .loopd _ _ => 0x0C
  | .movto _ _ => 0x0D
  | .movfrom _ _ => 0x0E
  | .ngo _ => 0x0F
  | .nwait _ => 0x10
  | .clrf _ => 0x11
  | .loopi _ _ => 0x18
  | .setr _ _ => 0x19

/-- The operands, the lower eleven bits of a C slot. -/
def COp.args : COp → Nat
  | .nop | .end_ | .trap | .ret => 0
  | .br _ t | .call t | .lexit t => t
  | .loopd r len => r * 128 + len
  | .movto reg r | .movfrom reg r => reg * 16 + r
  | .ngo k => k
  | .nwait mask | .clrf mask => mask
  | .loopi len _ => len
  | .setr reg _ => reg

theorem encC_eq (o : COp) : encC o = o.code * 2048 + o.args := by
  cases o <;> simp only [encC, COp.code, COp.args] <;> omega

theorem COp.code_lt {o : COp} (hwf : o.wf = true) : o.code < 32 := by
  cases o <;> simp [COp.wf, COp.code] at hwf ⊢
  omega

theorem COp.args_lt {o : COp} (hwf : o.wf = true) : o.args < 2048 := by
  cases o <;> simp [COp.wf, COp.args] at hwf ⊢ <;> omega

theorem encC_lt {o : COp} (hwf : o.wf = true) : encC o < 65536 := by
  have hcode := COp.code_lt hwf
  have hargs := COp.args_lt hwf
  rw [encC_eq]; omega

theorem encC_div {o : COp} (hwf : o.wf = true) : encC o / 2048 = o.code := by
  have hargs := COp.args_lt hwf
  rw [encC_eq]; omega

theorem encC_mod {o : COp} (hwf : o.wf = true) : encC o % 2048 = o.args := by
  have hargs := COp.args_lt hwf
  rw [encC_eq]; omega

theorem longForm_encC {o : COp} (hwf : o.wf = true) : longForm (encC o) = o.imm.isSome := by
  rw [longForm, encC_div hwf]
  cases o with
  | br k t =>
    simp only [COp.wf, Bool.and_eq_true, decide_eq_true_eq] at hwf
    have hlow : 3 + k ≠ 0x18 ∧ 3 + k ≠ 0x19 := by omega
    simp [COp.code, COp.imm, hlow]
  | _ => rfl

/-- A C slot is decoded as it was encoded, beside whatever stands in the X and Y slots unless the form is long. -/
theorem decC_encC {o : COp} {xy : Nat} (hwf : o.wf = true) (himm : ∀ n, o.imm = some n → xy = n) :
    decC (encC o) xy = some o := by
  rw [decC, encC_div hwf, encC_mod hwf]
  cases o with
  | nop | end_ | trap | ret | call | lexit => simp [COp.code, COp.args, zeroed]
  | br k t =>
    simp [COp.wf] at hwf
    have hk : k = 0 ∨ k = 1 ∨ k = 2 ∨ k = 3 ∨ k = 4 ∨ k = 5 := by omega
    rcases hk with rfl | rfl | rfl | rfl | rfl | rfl <;> rfl
  | loopd r len =>
    simp [COp.wf] at hwf
    have hr : (r * 128 + len) / 128 = r := by omega
    have hlen : (r * 128 + len) % 128 = len := by omega
    simp [COp.code, COp.args, hr, hlen]
  | movto reg r | movfrom reg r =>
    simp [COp.wf] at hwf
    have hreg : (reg * 16 + r) / 16 = reg := by omega
    have hr : (reg * 16 + r) % 16 = r := by omega
    simp [COp.code, COp.args, hreg, hr, hwf]
  | ngo k | nwait mask | clrf mask =>
    simp [COp.wf] at hwf
    simp [COp.code, COp.args, zeroed]
    omega
  | loopi len n =>
    obtain rfl := himm n rfl
    simp [COp.wf] at hwf
    simp [COp.code, COp.args, zeroed]
    omega
  | setr reg imm =>
    obtain rfl := himm imm rfl
    simp only [COp.wf, Bool.and_eq_true, decide_eq_true_eq] at hwf
    obtain ⟨⟨⟨hreg, -⟩, hmove⟩, hfits⟩ := hwf
    have hfield : reg % 128 = reg := Nat.mod_eq_of_lt hreg
    have hsink : reg / 128 = 0 := Nat.div_eq_of_lt hreg
    simp only [COp.code, COp.args, hfield, hsink, hmove]
    cases hr : lregAt reg with
    | none => simp [hr] at hfits
    | some r =>
      simp only [hr, decide_eq_true_eq] at hfits
      simp [hfits]

/-- What a C slot decodes to is well formed and encodes to that slot; a long form has taken its immediate whole. -/
theorem decC_eq_some {c xy : Nat} {o : COp} (hxy : xy < 2 ^ 24) (h : decC c xy = some o) :
    o.wf = true ∧ encC o = c ∧ ∀ n, o.imm = some n → xy = n := by
  have hcode : c / 2048 * 2048 + c % 2048 = c := Nat.div_add_mod' c 2048
  have hv : c % 2048 < 2048 := Nat.mod_lt _ (by decide)
  suffices hfields : o.wf = true ∧ (o.code = c / 2048 ∧ o.args = c % 2048) ∧ ∀ n, o.imm = some n → xy = n by
    obtain ⟨hwf, ⟨hop, hargs⟩, himm⟩ := hfields
    exact ⟨hwf, by rw [encC_eq, hop, hargs, hcode], himm⟩
  clear hcode
  unfold decC at h
  generalize c % 2048 = v at *
  generalize c / 2048 = k at *
  dsimp only at h
  split at h
  case h_1 | h_2 | h_3 | h_11 => -- no operand
    obtain ⟨rfl, rfl⟩ := zeroed_eq_some.1 h
    simp [COp.wf, COp.code, COp.args, COp.imm]
  case h_4 | h_5 | h_6 | h_7 | h_8 | h_9 | h_10 | h_12 => -- a branch target
    obtain rfl := Option.some.inj h
    simp [COp.wf, COp.code, COp.args, COp.imm, hv]
  case h_13 => -- LOOPD
    obtain rfl := Option.some.inj h
    simp [COp.wf, COp.code, COp.args, COp.imm]
    omega
  case h_14 | h_15 => -- MOVTO, MOVFROM
    split at h
    · obtain rfl := Option.some.inj h
      simp [COp.wf, COp.code, COp.args, COp.imm, *]
      omega
    · cases h
  case h_16 | h_18 => -- NGO, CLRF
    obtain ⟨hsmall, rfl⟩ := zeroed_eq_some.1 h
    simp [COp.wf, COp.code, COp.args, COp.imm]
    omega
  case h_17 => -- NWAIT
    split at h
    · rename_i hmask
      obtain rfl := Option.some.inj h
      simp at hmask
      simp [COp.wf, COp.code, COp.args, COp.imm]
      omega
    · cases h
  case h_19 => -- LOOPI
    obtain ⟨hsmall, rfl⟩ := zeroed_eq_some.1 h
    simp [COp.wf, COp.code, COp.args, COp.imm]
    omega
  case h_20 => -- SETR
    split at h
    · cases h
    · rename_i r hr
      split at h
      · rename_i hok
        simp only [Bool.and_eq_true, decide_eq_true_eq] at hok
        obtain ⟨⟨hsink, hmove⟩, hfits⟩ := hok
        have hfield : v % 128 = v := by omega
        obtain rfl := Option.some.inj h
        simp only [hfield] at *
        simp [COp.wf, COp.code, COp.args, COp.imm, hr, hmove, hfits]
        omega
      · cases h
  case h_21 => cases h

/-! ### The X and Y slots (R279) -/

/-- The operation, the upper two bits of an X or Y slot. -/
def XOp.code : XOp → Nat
  | .nop | .pop .. | .push .. => 0
  | .ld .. => 1
  | .st .. => 2
  | .pmod .. => 3

theorem encX_div {o : XOp} (hwf : o.wf = true) : encX o / 1024 = o.code := by
  cases o with
  | nop => rfl
  | pop | pmod => simp [XOp.wf, encX, XOp.code] at hwf ⊢; omega
  | push _ _ b | ld _ _ _ b | st _ _ _ b =>
    have hb := ofBool_lt_two b
    simp [XOp.wf, encX, XOp.code] at hwf ⊢
    omega

theorem encX_lt {o : XOp} (hwf : o.wf = true) : encX o < 4096 := by
  have hcode : o.code < 4 := by cases o <;> simp [XOp.code]
  have hdiv := encX_div hwf
  omega

/-- An X or Y slot is decoded as it was encoded. -/
theorem decX_encX {o : XOp} (hwf : o.wf = true) : decX (encX o) = some o := by
  have hop := encX_div hwf
  generalize hv : encX o = v at *
  cases o with
  | nop => subst hv; rfl
  | pop port g =>
    simp only [XOp.wf, Bool.and_eq_true, decide_eq_true_eq] at hwf
    simp only [encX] at hv
    have hfields : v / 256 % 4 = 1 ∧ v % 32 = 0 ∧ v / 128 % 2 = port ∧ v / 32 % 4 = g := by omega
    simp [decX, hop, XOp.code, hfields, zeroed]
  | push port g last =>
    have hlast := ofBool_lt_two last
    simp only [XOp.wf, Bool.and_eq_true, decide_eq_true_eq] at hwf
    simp only [encX] at hv
    have hfields : v / 256 % 4 = 2 ∧ v % 16 = 0 ∧ v / 128 % 2 = port ∧ v / 32 % 4 = g ∧ v / 16 % 2 = ofBool last := by
      omega
    simp [decX, hop, XOp.code, hfields, zeroed]
  | ld i am r q | st i am r q =>
    have hq := ofBool_lt_two q
    simp only [XOp.wf, Bool.and_eq_true, decide_eq_true_eq, Bool.not_eq_true'] at hwf
    obtain ⟨⟨⟨hi, ham⟩, hr⟩, hgroup⟩ := hwf
    simp only [encX] at hv
    have hfields : v / 128 % 8 = i ∧ v / 32 % 4 = am ∧ v / 2 % 16 = r ∧ v % 2 = ofBool q := by omega
    simp only [decX, hop, XOp.code, hfields, decide_ofBool_eq_one, hgroup]
    rfl
  | pmod i am =>
    simp only [XOp.wf, Bool.and_eq_true, decide_eq_true_eq, Bool.or_eq_true] at hwf
    simp only [encX] at hv
    have hfields : v / 128 % 8 = i ∧ v / 32 % 4 = am ∧ v % 32 = 0 := by omega
    simp [decX, hop, XOp.code, hfields, hwf.2]

/-- What an X or Y slot decodes to is well formed and encodes to that slot. -/
theorem decX_eq_some {v : Nat} {o : XOp} (hv : v < 4096) (h : decX v = some o) : o.wf = true ∧ encX o = v := by
  unfold decX at h
  dsimp only at h
  split at h
  case h_1 hop =>
    split at h
    case h_1 => -- NOP
      obtain ⟨hzero, rfl⟩ := zeroed_eq_some.1 h
      simp [XOp.wf, encX]
      omega
    case h_2 => -- POP
      obtain ⟨hzero, rfl⟩ := zeroed_eq_some.1 h
      simp [XOp.wf, encX]
      omega
    case h_3 => -- PUSH
      obtain ⟨hzero, rfl⟩ := zeroed_eq_some.1 h
      simp [XOp.wf, encX, ofBool_decide_mod_two]
      omega
    case h_4 => cases h
  case h_2 | h_3 => -- LD, ST
    split at h
    · cases h
    · rename_i hgroup
      obtain rfl := Option.some.inj h
      have hranges : v / 128 % 8 < 8 ∧ v / 32 % 4 < 4 ∧ v / 2 % 16 < 16 := by omega
      refine ⟨?_, ?_⟩
      · simpa only [XOp.wf, hranges, decide_true, Bool.true_and, Bool.not_eq_true', Bool.not_eq_true] using hgroup
      · simp only [encX, ofBool_decide_mod_two]
        omega
  case h_4 => -- PMOD
    split at h
    · rename_i hmod
      obtain rfl := Option.some.inj h
      rename_i hnop hld hst
      have hop : v / 1024 = 3 := by
        have hcode : v / 1024 ≠ 0 ∧ v / 1024 ≠ 1 ∧ v / 1024 ≠ 2 := ⟨hnop, hld, hst⟩
        omega
      simp only [Bool.and_eq_true, decide_eq_true_eq] at hmod
      refine ⟨?_, ?_⟩
      · simpa [XOp.wf, Nat.mod_lt] using hmod.1
      · simp only [encX]
        omega
    · cases h

/-! ### The M slot (R283 to R285) -/

/-- No operation has a code above RMIN's. -/
theorem mop_le_of_fieldsOk {mop : Nat} {f : MFields} (h : mFieldsOk mop f = true) : mop ≤ 18 := by
  unfold mFieldsOk at h
  dsimp only at h
  split at h
  case h_20 => cases h
  all_goals omega

/-- The fields of an M slot are within the slot. -/
def mRanged (f : MFields) : Prop := f.h < 2 ∧ f.ga < 4 ∧ f.bs < 16 ∧ f.lm < 16 ∧ f.aux < 16

theorem MOp.wf_iff (o : MOp) : o.wf = true ↔ mRanged o.f ∧ mFieldsOk o.mop o.f = true := by
  simp [MOp.wf, mRanged, and_assoc]

theorem mFields_ranged (v : Nat) : mRanged (mFields v) := by
  simp only [mRanged, mFields]
  omega

/-- The code and the fields of an M slot lie side by side. -/
theorem encM_fields {o : MOp} (h : mRanged o.f) : encM o / 2 ^ 19 = o.mop ∧ mFields (encM o) = o.f := by
  obtain ⟨mop, ⟨half, ga, bb, bs, sa, sb, fs, lm, aux⟩⟩ := o
  have hbb := ofBool_lt_two bb
  have hsa := ofBool_lt_two sa
  have hsb := ofBool_lt_two sb
  have hfs := ofBool_lt_two fs
  simp only [mRanged] at h
  generalize hv : encM _ = v
  simp only [encM] at hv
  have hmop : v / 2 ^ 19 = mop := by omega
  have hbits : v / 2 ^ 15 % 2 = ofBool bb ∧ v / 2 ^ 10 % 2 = ofBool sa ∧ v / 2 ^ 9 % 2 = ofBool sb ∧
      v / 2 ^ 8 % 2 = ofBool fs := by refine ⟨?_, ?_, ?_, ?_⟩ <;> omega
  have hnums : v / 2 ^ 18 % 2 = half ∧ v / 2 ^ 16 % 4 = ga ∧ v / 2 ^ 11 % 16 = bs ∧ v / 16 % 16 = lm ∧ v % 16 = aux := by
    refine ⟨?_, ?_, ?_, ?_, ?_⟩ <;> omega
  refine ⟨hmop, ?_⟩
  simp only [mFields, hbits, hnums, decide_ofBool_eq_one]

theorem encM_mFields (v : Nat) : encM { mop := v / 2 ^ 19, f := mFields v } = v := by
  simp only [encM, mFields, ofBool_decide_mod_two]
  omega

theorem encM_lt {o : MOp} (hwf : o.wf = true) : encM o < 2 ^ 24 := by
  obtain ⟨hrange, hok⟩ := (MOp.wf_iff o).1 hwf
  have hmop := mop_le_of_fieldsOk hok
  have hcode := (encM_fields hrange).1
  omega

/-- An M slot is decoded as it was encoded. -/
theorem decM_encM {o : MOp} (hwf : o.wf = true) : decM (encM o) = some o := by
  obtain ⟨hrange, hok⟩ := (MOp.wf_iff o).1 hwf
  obtain ⟨hmop, hfields⟩ := encM_fields hrange
  rw [decM, hmop, hfields, if_pos hok]

/-- What an M slot decodes to is well formed and encodes to that slot. -/
theorem decM_eq_some {v : Nat} {o : MOp} (h : decM v = some o) : o.wf = true ∧ encM o = v := by
  unfold decM at h
  split at h
  · rename_i hok
    obtain rfl := Option.some.inj h
    exact ⟨(MOp.wf_iff _).2 ⟨mFields_ranged v, hok⟩, encM_mFields v⟩
  · cases h

/-! ### Whole words (R272, R273) -/

/-- The bits of the X and Y slots: two operations, or the immediate of a long form. -/
def LeInstr.xyBits (i : LeInstr) : Nat := i.c.imm.getD (encX i.x * 4096 + encX i.y)

theorem encWord_eq (i : LeInstr) : encWord i = encC i.c * 2 ^ 48 + i.xyBits * 2 ^ 24 + encM i.m := by
  obtain ⟨c, x, y, m⟩ := i
  cases c <;> rfl

/-- An instruction is well formed when its slots are, and a long form leaves X and Y without operation. -/
theorem LeInstr.wf_iff (i : LeInstr) : i.wf = true ↔
    i.c.wf = true ∧ i.x.wf = true ∧ i.y.wf = true ∧ i.m.wf = true ∧ (i.c.imm.isSome = true → i.x = .nop ∧ i.y = .nop) := by
  obtain ⟨c, x, y, m⟩ := i
  cases c <;> simp [LeInstr.wf, COp.imm, and_assoc]

theorem COp.imm_lt {o : COp} {n : Nat} (hwf : o.wf = true) (himm : o.imm = some n) : n < 2 ^ 24 := by
  cases o <;> simp [COp.wf, COp.imm] at hwf himm <;> omega

theorem LeInstr.xyBits_lt {i : LeInstr} (hc : i.c.wf = true) (hx : i.x.wf = true) (hy : i.y.wf = true) :
    i.xyBits < 2 ^ 24 := by
  unfold LeInstr.xyBits
  cases himm : i.c.imm with
  | some n => exact COp.imm_lt hc himm
  | none =>
    have hx := encX_lt hx
    have hy := encX_lt hy
    simp only [Option.getD_none]
    omega

/-- The slots lie side by side in the word. -/
theorem encWord_slots {i : LeInstr} (hc : i.c.wf = true) (hx : i.x.wf = true) (hy : i.y.wf = true) (hm : i.m.wf = true) :
    encWord i < 2 ^ 64 ∧ encWord i / 2 ^ 48 % 65536 = encC i.c ∧ encWord i / 2 ^ 24 % 2 ^ 24 = i.xyBits ∧
      encWord i % 2 ^ 24 = encM i.m := by
  have hcbits := encC_lt hc
  have hxybits := LeInstr.xyBits_lt hc hx hy
  have hmbits := encM_lt hm
  rw [encWord_eq]
  refine ⟨?_, ?_, ?_, ?_⟩ <;> omega

theorem LeInstr.xyBits_of_short {i : LeInstr} (hy : i.y.wf = true) (himm : i.c.imm = none) :
    i.xyBits / 4096 = encX i.x ∧ i.xyBits % 4096 = encX i.y := by
  have hylt := encX_lt hy
  simp only [LeInstr.xyBits, himm, Option.getD_none]
  omega

/-- A word is an instruction's when each slot decodes to the operation that the instruction has there. -/
theorem decWord_eq_some_iff {w : Nat} {i : LeInstr} : decWord w = some i ↔
    decC (w / 2 ^ 48 % 65536) (w / 2 ^ 24 % 2 ^ 24) = some i.c ∧ decM (w % 2 ^ 24) = some i.m ∧
      if longForm (w / 2 ^ 48 % 65536) then i.x = .nop ∧ i.y = .nop
      else decX (w / 2 ^ 24 % 2 ^ 24 / 4096) = some i.x ∧ decX (w / 2 ^ 24 % 2 ^ 24 % 4096) = some i.y := by
  obtain ⟨c, x, y, m⟩ := i
  unfold decWord
  dsimp only
  constructor
  · intro h
    split at h
    case h_1 hc hm =>
      split at h
      case isTrue hlong =>
        cases h
        exact ⟨hc, hm, by rw [if_pos hlong]; exact ⟨rfl, rfl⟩⟩
      case isFalse hshort =>
        split at h
        case h_1 hx hy =>
          cases h
          exact ⟨hc, hm, by rw [if_neg hshort]; exact ⟨hx, hy⟩⟩
        case h_2 => cases h
    case h_2 => cases h
  · rintro ⟨hc, hm, hxy⟩
    rw [hc, hm]
    split at hxy
    case isTrue hlong =>
      obtain ⟨rfl, rfl⟩ := hxy
      exact if_pos hlong
    case isFalse hshort =>
      rw [hxy.1, hxy.2]
      exact if_neg hshort

/-- Settles O21: each slot is decoded from its own bits, and a long form has no X and Y operations to decode. -/
theorem leWordsDecodeBack : Obligations.LeWordsDecodeBack := by
  unfold Obligations.LeWordsDecodeBack
  intro i hwf
  obtain ⟨hc, hx, hy, hm, hlong⟩ := (LeInstr.wf_iff i).1 hwf
  obtain ⟨hlt, hcbits, hxybits, hmbits⟩ := encWord_slots hc hx hy hm
  refine ⟨hlt, decWord_eq_some_iff.2 ?_⟩
  rw [hcbits, hxybits, hmbits, longForm_encC hc]
  refine ⟨decC_encC hc fun n hn => by rw [LeInstr.xyBits, hn]; rfl, decM_encM hm, ?_⟩
  cases himm : i.c.imm with
  | some n => exact hlong (by rw [himm]; rfl)
  | none =>
    obtain ⟨hupper, hlower⟩ := LeInstr.xyBits_of_short hy himm
    rw [hupper, hlower]
    exact ⟨decX_encX hx, decX_encX hy⟩

/-- Settles O22: what each slot decodes to encodes to that slot's bits, and the slots make up the word. -/
theorem leWordsHaveOneReading : Obligations.LeWordsHaveOneReading := by
  unfold Obligations.LeWordsHaveOneReading
  intro w i hw h
  obtain ⟨hc, hm, hxy⟩ := decWord_eq_some_iff.1 h
  obtain ⟨hcwf, hcbits, himm⟩ := decC_eq_some (Nat.mod_lt _ (by decide)) hc
  obtain ⟨hmwf, hmbits⟩ := decM_eq_some hm
  have hlong := longForm_encC hcwf
  rw [hcbits] at hlong
  rw [hlong] at hxy
  have hwhole : i.x.wf = true ∧ i.y.wf = true ∧ (i.c.imm.isSome = true → i.x = .nop ∧ i.y = .nop) ∧
      i.xyBits = w / 2 ^ 24 % 2 ^ 24 := by
    cases hi : i.c.imm with
    | some n =>
      rw [hi, if_pos (by rfl)] at hxy
      obtain ⟨hx, hy⟩ := hxy
      exact ⟨by rw [hx]; rfl, by rw [hy]; rfl, fun _ => ⟨hx, hy⟩, by rw [LeInstr.xyBits, hi, himm n hi]; rfl⟩
    | none =>
      rw [hi, if_neg (by simp)] at hxy
      obtain ⟨hx, hxbits⟩ := decX_eq_some (by omega) hxy.1
      obtain ⟨hy, hybits⟩ := decX_eq_some (Nat.mod_lt _ (by decide)) hxy.2
      refine ⟨hx, hy, by simp, ?_⟩
      rw [LeInstr.xyBits, hi, hxbits, hybits]
      exact Nat.div_add_mod' _ 4096
  obtain ⟨hx, hy, hnop, hxybits⟩ := hwhole
  refine ⟨(LeInstr.wf_iff i).2 ⟨hcwf, hx, hy, hmwf, hnop⟩, ?_⟩
  rw [encWord_eq, hcbits, hxybits, hmbits]
  omega

end Sys2Proof.Machine
end

section
/-! PROOFS. Memories as bytes by address (17_processors.md; log 6): what a write leaves to read, and the canonical form, in which
equal memories are equal data. -/

namespace Sys2Proof.Machine

/-! ### Reading after writing -/

theorem memGet_memWrite_outside (m : List Host.Cell) {a c : Nat} (bs : List Byte) (h : c < a ∨ a + bs.length ≤ c) :
    memGet (memWrite m a bs) c = memGet m c := by
  induction bs generalizing m a with
  | nil => rfl
  | cons b r ih =>
    rw [List.length_cons] at h
    rw [memWrite, ih _ (by omega), memGet_memPut_ne m b (by omega)]

theorem memRead_memWrite_self (m : List Host.Cell) (a : Nat) (bs : List Byte) :
    memRead (memWrite m a bs) a bs.length = bs := by
  induction bs generalizing m a with
  | nil => rfl
  | cons b r ih =>
    rw [List.length_cons, memRead, memWrite, ih, memGet_memWrite_outside _ r (.inl (Nat.lt_succ_self a)),
      memGet_memPut_self]

/-! ### Canonical memories are given by their bytes -/

theorem memGet_of_tabAbove {a : Nat} {t : List Host.Cell} (h : tabAbove a t) {c : Nat} (hc : c ≤ a) : memGet t c = 0 := by
  induction t with
  | nil => rfl
  | cons e r ih =>
    obtain ⟨i, v⟩ := e
    have hi : a < i := h (i, v) (List.mem_cons_self ..)
    have hr : memGet r c = 0 := ih fun e he => h e (List.mem_cons_of_mem _ he)
    have hne : i ≠ c := by omega
    simpa [memGet, tabOr, tabGet, hne] using hr

theorem memGet_cons_self (i : Nat) (v : Byte) (r : List Host.Cell) : memGet ((i, v) :: r) i = v := by
  simp [memGet, tabOr, tabGet]

theorem memGet_cons_ne {i c : Nat} (v : Byte) (r : List Host.Cell) (h : i ≠ c) : memGet ((i, v) :: r) c = memGet r c := by
  simp [memGet, tabOr, tabGet, h]

theorem memWf_cons (i : Nat) (v : Byte) (r : List Host.Cell) :
    memWf ((i, v) :: r) = true ↔ tabAbove i r ∧ v ≠ 0 ∧ memWf r = true := by
  simp only [memWf, Bool.and_eq_true, tabSorted_cons, List.all_cons, bne_iff_ne, ne_eq]
  tauto

/-- The first byte listed is the first that is not 0. -/
theorem memWf_head_le {i j : Nat} {v w : Byte} {r q : List Host.Cell} (hi : memWf ((i, v) :: r) = true)
    (hj : memWf ((j, w) :: q) = true) (h : ∀ c, memGet ((i, v) :: r) c = memGet ((j, w) :: q) c) : j ≤ i := by
  obtain ⟨-, hv, -⟩ := (memWf_cons i v r).1 hi
  obtain ⟨hq, -, -⟩ := (memWf_cons j w q).1 hj
  by_contra hlt
  have hzero : memGet ((j, w) :: q) i = 0 := by
    rw [memGet_cons_ne w q (by omega), memGet_of_tabAbove hq (by omega)]
  exact hv (by rw [← memGet_cons_self i v r, h i, hzero])

theorem memWf_ext {m n : List Host.Cell} (hm : memWf m = true) (hn : memWf n = true) (h : ∀ c, memGet m c = memGet n c) :
    m = n := by
  induction m generalizing n with
  | nil =>
    cases n with
    | nil => rfl
    | cons e q =>
      obtain ⟨j, w⟩ := e
      exact absurd ((memGet_cons_self j w q).symm.trans (h j).symm) ((memWf_cons j w q).1 hn).2.1
  | cons e r ih =>
    obtain ⟨i, v⟩ := e
    cases n with
    | nil => exact absurd ((memGet_cons_self i v r).symm.trans (h i)) ((memWf_cons i v r).1 hm).2.1
    | cons f q =>
      obtain ⟨j, w⟩ := f
      obtain rfl : i = j := Nat.le_antisymm (memWf_head_le hn hm fun c => (h c).symm) (memWf_head_le hm hn h)
      obtain ⟨hr, -, hrwf⟩ := (memWf_cons i v r).1 hm
      obtain ⟨hq, -, hqwf⟩ := (memWf_cons i w q).1 hn
      have hvw : v = w := by simpa [memGet_cons_self] using h i
      have hrest : r = q := ih hrwf hqwf fun c => by
        by_cases hc : i = c
        · subst hc
          rw [memGet_of_tabAbove hr le_rfl, memGet_of_tabAbove hq le_rfl]
        · simpa [memGet_cons_ne _ _ hc] using h c
      rw [hvw, hrest]

/-- Settles O15: by induction on the bytes written and on the bytes listed. -/
theorem memoryBytes : Obligations.MemoryBytes := by
  unfold Obligations.MemoryBytes
  exact fun m a bs => ⟨memRead_memWrite_self m a bs, fun c hc => memGet_memWrite_outside m bs hc, memWf_memWrite a bs,
    fun n => memWf_ext⟩

end Sys2Proof.Machine
end

section
/-! PROOFS. The frame of a loop-engine instruction (10_loop_engines.md, 11_loop_programs.md): what the four slots leave unchanged
together, by what each of them leaves. -/

namespace Sys2Proof.Machine

/-! ### A whole instruction -/

/-- Registers a well-formed instruction names as written. -/
def LeInstr.writes (i : LeInstr) : List Nat := cWrites i.c ++ xWrites i.x ++ xWrites i.y ++ mWrites i.m

/-- Bank words the X and Y slots store to, by the address registers at issue. -/
def LeInstr.stores (x0 : Engine) (i : LeInstr) : List Nat := xStored x0 i.x ++ xStored x0 i.y

/-- Ports the X and Y slots pop or push. -/
def LeInstr.ports (i : LeInstr) : List Nat := portsOf i.x ++ portsOf i.y

theorem LeInstr.slots_subset_writes (i : LeInstr) :
    cWrites i.c ⊆ i.writes ∧ xWrites i.x ⊆ i.writes ∧ xWrites i.y ⊆ i.writes ∧ mWrites i.m ⊆ i.writes := by
  refine ⟨?_, ?_, ?_, ?_⟩ <;>
  · intro j hj
    simp [LeInstr.writes, hj]

theorem not_mem_ports {i : LeInstr} {k : Nat} (hx : xyPort i.x ≠ some k) (hy : xyPort i.y ≠ some k) : k ∉ i.ports := by
  simp [LeInstr.ports, portsOf, hx, hy]

theorem keeps_leHazards (ws st po : List Nat) (x0 x : Engine) (i : LeInstr) : EngKeeps ws st po x (leHazards x0 x i) := by
  constructor <;> simp [leHazards, hazAge, dReg, aReg, bankAt]

theorem keeps_leEffect (md : LeMd) (x0 : Engine) {i : LeInstr} (hwf : i.wf = true) :
    EngKeeps i.writes (i.stores x0) i.ports x0 (leEffect md x0 i) := by
  obtain ⟨-, hx, hy, hm, -⟩ := (LeInstr.wf_iff i).1 hwf
  have hmop : i.m.mop ≤ 18 := mop_le_of_fieldsOk ((MOp.wf_iff i.m).1 hm).2
  have hready : EngKeeps i.writes (i.stores x0) i.ports x0 { x0 with stall := 0, bpPassed := none } := by
    constructor <;> simp [dReg, aReg, bankAt]
  obtain ⟨hcw, hxw, hyw, hmw⟩ := i.slots_subset_writes
  have hcs := fun x => (keeps_cEffect (st := i.stores x0) (po := i.ports) x0 x i.c).mono hcw (List.Subset.refl _)
    (List.Subset.refl _)
  have hxs := fun x => (keeps_xyEffect x0 x i.x hx).mono hxw (List.subset_append_left _ (xStored x0 i.y))
    (List.subset_append_left _ (portsOf i.y))
  have hys := fun x => (keeps_xyEffect x0 x i.y hy).mono hyw (List.subset_append_right (xStored x0 i.x) _)
    (List.subset_append_right (portsOf i.x) _)
  have hms := fun x => (keeps_mEffect (st := i.stores x0) (po := i.ports) md x0 x i.m hmop).mono hmw (List.Subset.refl _)
    (List.Subset.refl _)
  exact hready.trans ((keeps_cControl x0 _ i.c).trans ((hcs _).trans ((hxs _).trans ((hys _).trans (hms _)))))

/-- Settles O9: each slot keeps what it does not write, and the hazards noted after them are no register. -/
theorem leInstructionFrame : Obligations.LeInstructionFrame := by
  unfold Obligations.LeInstructionFrame
  rintro md x0 i x ws hwf rfl rfl
  have hkeeps := (keeps_leEffect md x0 hwf).trans (keeps_leHazards _ _ _ x0 (leEffect md x0 i) i)
  exact ⟨hkeeps.d, hkeeps.p, hkeeps.a, hkeeps.ix, hkeeps.b, hkeeps.l, hkeeps.m, hkeeps.bank,
    fun hx hy => hkeeps.si0 (not_mem_ports hx hy), fun hx hy => hkeeps.si1 (not_mem_ports hx hy),
    fun hx hy => hkeeps.so0 (not_mem_ports hx hy), fun hx hy => hkeeps.so1 (not_mem_ports hx hy), hkeeps.rest⟩

end Sys2Proof.Machine
end

section
/-! PROOFS. Steps (INDEX.md): the command at the front of the queue, and the nanosecond that passes where none waits
(17_processors.md R451, 18_power.md R490). -/

namespace Sys2Proof.Machine

/-! ### Commands -/

theorem exec_next (c : Instr) (s : State) : ∃ t, exec c s = .next t := by
  cases c <;> exact ⟨_, rfl⟩

/-- Settles O1: no row of the table has bits, so no word spells a command. -/
theorem stepTakesFront : Obligations.StepTakesFront := by
  unfold Obligations.StepTakesFront
  intro s c rest h
  exact ⟨by rw [step, h], fun nbits w => ⟨rfl, rfl⟩⟩

/-- Settles O2: every row of the dispatch ends in a next state. -/
theorem noCommandStops : Obligations.NoCommandStops := by
  unfold Obligations.NoCommandStops
  intro c s
  obtain ⟨t, ht⟩ := exec_next c s
  rw [ht]
  trivial

/-! ### The fabric, the lanes, the security core and the watchdogs while nothing runs -/

theorem fabTick_of_noNetwork {u : State} (h : ∀ d, d < 8 → cfgGet u d 0x53900 = 0) : fabTick u = u :=
  if_pos (by simpa only [List.all_eq_true, List.mem_range, decide_eq_true_eq] using h)

theorem laneTick_of_off {u : State} (h : ∀ e ∈ u.lane.lanes, e.2.on = false) : laneTick u = u := by
  have hnone : u.lane.lanes.filter (fun e => e.2.on && !isolated u (laneDie e.1)) = [] :=
    List.filter_eq_nil_iff.2 fun e he => by simp [h e he]
  simp [laneTick, hnone]

theorem secTake_of_busy_or_idle {u : State} (h : u.sec.run.isSome = true ∨ reqFirst u = none) : secTake u = u := by
  unfold secTake
  split
  case h_1 hrun hreq => simp [hrun, hreq] at h
  case h_2 => rfl

theorem wdTick_of_stopped {u : State} (hwd : ∀ c, c < 4 → wdRuns u c = false) (hsent : sentRuns u = false) :
    wdTick u = u := by
  have hcores : (List.range 4).foldl (fun s c =>
      if !wdRuns s c then s else if wdLeft s c ≤ 1 then wdBite s c else wdPut s c (wdLeft s c - 1)) u = u := by
    refine List.foldlRecOn (motive := fun t => t = u) _ _ rfl fun t ht c hc => ?_
    subst ht
    simp [hwd c (List.mem_range.1 hc)]
  simp only [wdTick, hcores, hsent, Bool.not_false, if_true]

/-! ### Pulses on EVT_OUT -/

theorem mem_pulsesLeft {l : Tab Nat} {k n : Nat} : (k, n) ∈ pulsesLeft l ↔ n ≠ 0 ∧ (k, n + 1) ∈ l := by
  simp only [pulsesLeft, List.mem_filterMap, Prod.exists]
  constructor
  · rintro ⟨k', m, hmem, hleft⟩
    split at hleft
    · cases hleft
    · obtain ⟨rfl, rfl⟩ := Prod.mk.inj (Option.some.inj hleft)
      have hm : m - 1 + 1 = m := by omega
      exact ⟨by omega, by rwa [hm]⟩
  · rintro ⟨hn, hmem⟩
    exact ⟨k, n + 1, hmem, by rw [if_neg (by omega)]; rfl⟩

/-! ### The time base (R451) -/

/-- The count of the time base in units of 2⁻³² ns after 1 ns. -/
def tbNext (s : State) : Nat :=
  ((((s.hub.now * 2 ^ 32 + s.hub.frac + 2 ^ 32 : Nat) : Int) + signed 32 (getF s TB TB_RATE_RATE)) % 2 ^ 96).toNat

section TimeBase
variable {s : State} (hcmp : flag s TB TB_CTRL_CMP_EN = false)

theorem tbTick_of_stopped (h : s.hub.tbOn = false ∨ s.pow.torpor = true) : tbTick s = s := by
  unfold tbTick
  rw [if_pos (by simpa using h)]

include hcmp

/-- With the comparator off nothing fires. -/
theorem tbTick_of_running (hon : s.hub.tbOn = true) (htorpor : s.pow.torpor = false) :
    tbTick s = { s with hub := { s.hub with now := tbNext s / 2 ^ 32, frac := tbNext s % 2 ^ 32 } } := by
  unfold tbTick
  rw [if_neg (by simp [hon, htorpor])]
  exact if_neg (by rw [Bool.and_eq_true]; exact fun h => Bool.false_ne_true (hcmp.symm.trans h.1))

/-- The time base is a part of the hub. -/
theorem tbTick_frame : tbTick s = { s with hub := (tbTick s).hub } := by
  cases hon : s.hub.tbOn with
  | false => rw [tbTick_of_stopped (.inl hon)]
  | true =>
    cases htorpor : s.pow.torpor with
    | true => rw [tbTick_of_stopped (.inr htorpor)]
    | false => rw [tbTick_of_running hcmp hon htorpor]

theorem tbTick_hub_of_running (hon : s.hub.tbOn = true) (htorpor : s.pow.torpor = false)
    (hrate : getF s TB TB_RATE_RATE = 0) (hnow : s.hub.now + 1 < 2 ^ 64) (hfrac : s.hub.frac < 2 ^ 32) :
    (tbTick s).hub = { s.hub with now := s.hub.now + 1 } := by
  have hnext : tbNext s = (s.hub.now + 1) * 2 ^ 32 + s.hub.frac := by
    have hzero : signed 32 0 = 0 := rfl
    rw [tbNext, hrate, hzero]
    omega
  have hdiv : tbNext s / 2 ^ 32 = s.hub.now + 1 := by omega
  have hmod : tbNext s % 2 ^ 32 = s.hub.frac := by omega
  rw [tbTick_of_running hcmp hon htorpor, hdiv, hmod]

end TimeBase

/-! ### The real-time clock (R490) -/

theorem rtcTick_of_not_ok {s : State} (h : flag s CU CU_OSC_STAT_RTC_OK = false) : rtcTick s = s := by
  simp [rtcTick, h]

theorem rtcTick_frame (s : State) :
    rtcTick s = { s with pow := { s.pow with rtc := (rtcTick s).pow.rtc, rtcFrac := (rtcTick s).pow.rtcFrac } } := by
  unfold rtcTick
  dsimp only
  split
  · rfl
  · split <;> rfl

/-- 32,768 counts a second: 32,768 parts of 10⁹ a nanosecond. -/
theorem rtcTick_count {s : State} (h : flag s CU CU_OSC_STAT_RTC_OK = true) (hrtc : s.pow.rtc + 1 < 2 ^ 48) :
    (rtcTick s).pow.rtc * 1000000000 + (rtcTick s).pow.rtcFrac = s.pow.rtc * 1000000000 + s.pow.rtcFrac + 32768 := by
  unfold rtcTick
  rw [if_neg (by simp [h])]
  dsimp only
  split
  · dsimp only; omega
  · dsimp only; omega

/-- The hub and the counts of the clock make up what 1 ns changes. -/
theorem pulseTick_frame {s u v : State} (hu : u = { s with hub := u.hub })
    (hv : v = { u with pow := { u.pow with rtc := v.pow.rtc, rtcFrac := v.pow.rtcFrac } }) :
    pulseTick v = { s with hub := (pulseTick v).hub, pow := { s.pow with
      rtc := (pulseTick v).pow.rtc, rtcFrac := (pulseTick v).pow.rtcFrac } } := by
  rw [hv, hu]
  rfl

/-- Settles O3: each part of the tick is one lemma above; the time base and the clock read no part that the other sets. -/
theorem idleStepCountsTime : Obligations.IdleStepCountsTime := by
  unfold Obligations.IdleStepCountsTime
  rintro s t hidle rfl
  refine ⟨by rw [step, hidle]; rfl, fun u => fabTick_of_noNetwork, fun u => laneTick_of_off,
    fun u => secTake_of_busy_or_idle, fun u => wdTick_of_stopped, fun l k n => mem_pulsesLeft, fun hcmp => ?_⟩
  have htb := tbTick_frame hcmp
  have hosc : flag (tbTick s) CU CU_OSC_STAT_RTC_OK = flag s CU CU_OSC_STAT_RTC_OK := by rw [htb]; rfl
  have hpow : (tbTick s).pow = s.pow := by rw [htb]
  have hhub : (pulseTick (rtcTick (tbTick s))).hub =
      { (tbTick s).hub with evtPulse := pulsesLeft (tbTick s).hub.evtPulse } := by
    rw [rtcTick_frame]; rfl
  refine ⟨fun hon htorpor hrate hnow hfrac => ?_, fun hstop => ?_, fun hok hrtc => ?_, fun hnot => ?_, ?_⟩
  · rw [hhub, tbTick_hub_of_running hcmp hon htorpor hrate hnow hfrac]
  · rw [hhub, tbTick_of_stopped hstop]
  · have hcount := rtcTick_count (s := tbTick s) (by rw [hosc, hok]) (by rw [hpow]; exact hrtc)
    rwa [hpow] at hcount
  · show (rtcTick (tbTick s)).pow = s.pow
    rw [rtcTick_of_not_ok (by rw [hosc, hnot]), hpow]
  · exact pulseTick_frame htb (rtcTick_frame _)

end Sys2Proof.Machine
end

section
/-! PROOFS. Reset (02_register_pages.md, 04_start.md): a register that nothing has written holds its table's reset value. -/

namespace Sys2Proof.Machine

/-! ### Reset values -/

theorem getReg_reset (a : Nat) : getReg State.reset a = regRst a := rfl

/-- The header registers that faults and events write, at the offsets every page has them. -/
def eventOffsets : List Nat := [0x010, 0x014, 0x018, 0x020, 0x024]

/-- The page maps below 0x040 are the header's, whose fault and event registers reset to 0. -/
theorem regDef_eventOffset (p : Page) (die blk : Nat) : ∀ off ∈ eventOffsets, ∀ d, regDef p die blk off = some d →
    d.flds.foldl (fun n f => n + f.rst % 2 ^ f.wid * 2 ^ f.lsb) 0 = 0 := by
  simp only [eventOffsets, List.forall_mem_cons, List.not_mem_nil, false_imp_iff, implies_true, and_true]
  refine ⟨?_, ?_, ?_, ?_, ?_⟩ <;>
  · intro d hd
    unfold regDef at hd
    split at hd
    · cases hd
    · obtain rfl := Option.some.inj hd
      rfl

/-- No page gives its fault and event registers a value of its own. -/
theorem rstFix_eventOffset (p : Page) (die blk v : Nat) : ∀ off ∈ eventOffsets, rstFix p die blk off v = v := by
  simp only [eventOffsets, List.forall_mem_cons, List.not_mem_nil, false_imp_iff, implies_true, and_true]
  cases p <;> simp [rstFix]

/-- A register whose page gives it no other value than its table resets to the sum of its fields. -/
theorem regRst_eq_zero {a : Nat} {p : Page} (hp : pageOf (regDie a) (regBlk a) = some p)
    (hfix : ∀ v, rstFix p (regDie a) (regBlk a) (regOff a) v = v)
    (htable : ∀ d, regDef p (regDie a) (regBlk a) (regOff a) = some d →
      d.flds.foldl (fun n f => n + f.rst % 2 ^ f.wid * 2 ^ f.lsb) 0 = 0) : regRst a = 0 := by
  unfold regRst
  split
  case h_1 => rfl
  case h_2 q hq =>
    obtain rfl : p = q := Option.some.inj (hp.symm.trans hq)
    split
    case h_1 => rfl
    case h_2 d hd =>
      rw [hfix, htable d hd]
      rfl

theorem regRst_eventOffset {die blk off : Nat} {p : Page} (hp : pageOf die blk = some p) (hoff : off ∈ eventOffsets) :
    regRst (pg die blk + off) = 0 := by
  have hblk := blk_lt_of_pageOf hp
  have hlt : off < 4096 := by
    have hall : ∀ o ∈ eventOffsets, o < 4096 := by decide
    exact hall off hoff
  have hdie := regDie_pg die blk off (by omega)
  have hblk := regBlk_pg die blk off hblk hlt
  have hoffset := regOff_pg die blk off hlt
  refine regRst_eq_zero (p := p) ?_ ?_ ?_ <;> rw [hdie, hblk]
  · exact hp
  · rw [hoffset]
    exact fun v => rstFix_eventOffset p die blk v off hoff
  · rw [hoffset]
    exact regDef_eventOffset p die blk off hoff

theorem getF_reset_eventOffset {die blk : Nat} {p : Page} (hp : pageOf die blk = some p) {f : FieldRef}
    (hf : f.off ∈ eventOffsets) : getF State.reset (pg die blk) f = 0 := by
  rw [getF, getReg_reset, regRst_eventOffset hp hf]
  simp [wGet, nGet]

theorem mailboxes_reset : ∀ m < 96, mboxOf State.reset m = { } ∧
    wGet (getReg State.reset (mbWord m 12 - 4)) 30 2 = (if m < 64 then 2 else 1) ∧
    wGet (getReg State.reset (mbWord m 12 - 4)) 14 2 = (if m < 40 then 0 else if m < 64 then 1 else 3) ∧
    wGet (getReg State.reset (mbWord m 12)) 0 20 = 1000 := by decide +kernel

theorem lanes_reset : ∀ lane < 128, getF State.reset (laneQuad lane) (lf LQ_STAT_STATE lane) = 0 := by decide +kernel

/-- Settles O4: by the tables' reset values, page by page; the header's fault and event registers are the same on every page. -/
theorem resetRegisterValues : Obligations.ResetRegisterValues := by
  unfold Obligations.ResetRegisterValues
  refine ⟨rfl, rfl, rfl, rfl, mailboxes_reset, fun k => rfl, by decide +kernel, lanes_reset, by decide +kernel,
    fun die e => rfl, fun die blk p _ hp => ?_⟩
  simp only [List.forall_mem_cons, List.not_mem_nil, false_imp_iff, implies_true, and_true]
  refine ⟨?_, ?_, ?_, ?_, ?_, ?_⟩ <;>
  · refine getF_reset_eventOffset hp ?_
    decide

end Sys2Proof.Machine
end

section
/-! SUPPORT. An accepted write of a block register, by the page it lies in: the fields stand, the page's own effects follow, and
code 0 answers it (02_register_pages.md R36 to R60). One lemma a page; the rows that are one write to one register cite it. -/

namespace Sys2Proof.Machine

theorem pageOf_pd {i : Nat} (hi : i < 2) : pageOf 8 (0x4000 + i) = some .pd := by revert i; decide

/-- A write of one field of a register of several is a write of that register, the other fields as they were. -/
theorem cmdSet_one (s : State) (ini page : Nat) (f : FieldRef) (v : Nat) :
    cmdSet s ini page [(f, v)] = cmdWriteAt s ini (page + f.off) (setWord s page [(f, v)]) := rfl

theorem cmdSet_at {s : State} {ini page off : Nat} {f : FieldRef} {v : Nat} (hoff : f.off = off) :
    cmdSet s ini page [(f, v)] = cmdWriteAt s ini (page + off) (setWord s page [(f, v)]) := by
  rw [← hoff, cmdSet_one]

theorem wGet_setWord (s : State) (page : Nat) (f : FieldRef) (v : Nat) (hfit : f.lsb + f.wid ≤ 32) :
    wGet (setWord s page [(f, v)]) f.lsb f.wid = v % 2 ^ f.wid := wGet_wPut_self _ _ _ _ hfit

/-- A word of GO in bit 31 and operands below it: GO is set, and the operands stand in the low bits. -/
theorem wGet_goWord {n : Nat} (hn : n < 2 ^ 31) : wGet (BitVec.ofNat 32 (2 ^ 31 + n)) 31 1 = 1 := by
  obtain ⟨x, hx⟩ : ∃ x, x = 2 ^ 31 + n := ⟨_, rfl⟩
  rw [← hx]
  simp only [wGet, nGet, BitVec.toNat_ofNat]
  omega

theorem wGet_goWord_low {n k : Nat} (hn : n < 2 ^ 31) (hk : k ≤ 31) : wGet (BitVec.ofNat 32 (2 ^ 31 + n)) 0 k = n % 2 ^ k := by
  obtain ⟨c, hc⟩ : 2 ^ k ∣ 2 ^ 31 := Nat.pow_dvd_pow 2 hk
  simp only [wGet, nGet, BitVec.toNat_ofNat, pow_zero, Nat.div_one]
  have hlt : 2 ^ 31 + n < 2 ^ 32 := by omega
  rw [Nat.mod_eq_of_lt hlt, hc, Nat.mul_add_mod]

theorem blockWritten_ic (s0 s : State) (ini die blk off : Nat) (old w : Word) :
    blockWritten s0 s ini .ic die blk off old w =
      if off = 0x050 && wGet w 31 1 = 1 then partCommand s die (wGet w 8 3) (wGet w 0 6) else s := by
  show (if off = 0x050 && wGet w 31 1 = 1 then
    partCommand (recordCleared s .ic (pg die blk) off w) die (wGet w 8 3) (wGet w 0 6)
  else recordCleared s .ic (pg die blk) off w) = _
  rw [recordCleared_none s .ic (pg die blk) off w rfl]

/-- An accepted write: the fields stand, `effect` follows on what the register held before, and code 0 answers. -/
def wrote (s : State) (a : Nat) (w : Word) (effect : State → Word → State) : State :=
  answer (effect (storedAt s a w) (getReg (reachAt s a) a)) 0 0

section Writes
variable {s : State} {ini off : Nat} {w : Word}

theorem write_cu (h : writeOkAt s ini (CU + off) w = true)
    (ho : off < 4096 := by omega) (hoff : 0x040 ≤ off := by omega) :
    cmdWriteAt s ini (CU + off) w = wrote s (CU + off) w (fun u old => clkWritten u .cu 8 0x3000 off old) := by
  rw [writeAt_page s ini 8 0x3000 off w .cu CU rfl (by omega) ho hoff (.inr rfl) h, blockWritten_cu]
  rfl

theorem write_cd {k : Nat} (hk : k < 64) (h : writeOkAt s ini (cdPage k + off) w = true)
    (ho : off < 4096 := by omega) (hoff : 0x040 ≤ off := by omega) :
    cmdWriteAt s ini (cdPage k + off) w = wrote s (cdPage k + off) w
      (fun u old => clkWritten u .cd (cdDie k) (0x3100 + k) off old) := by
  rw [writeAt_page s ini (cdDie k) (0x3100 + k) off w .cd (cdPage k) rfl (by omega) ho hoff (.inr (pageOf_cd hk)) h,
    blockWritten_cd]
  rfl

theorem write_kp (h : writeOkAt s ini (KP + off) w = true)
    (ho : off < 4096 := by omega) (hoff : 0x040 ≤ off := by omega) :
    cmdWriteAt s ini (KP + off) w = wrote s (KP + off) w (fun u old => kpWritten u off old w) := by
  rw [writeAt_page s ini 8 0xE000 off w .kp KP rfl (by omega) ho hoff (.inr rfl) h, blockWritten_kp]
  rfl

theorem write_cf {die : Nat} (h : writeOkAt s ini (cfPage die + off) w = true)
    (ho : off < 4096 := by omega) (hoff : 0x040 ≤ off := by omega) (hrec : 0x094 ≠ off := by omega) :
    cmdWriteAt s ini (cfPage die + off) w = wrote s (cfPage die + off) w
      (fun u old => cfWritten u die off old w) := by
  rw [writeAt_page s ini die 0x5000 off w .cf (cfPage die) rfl (by omega) ho hoff pageOf_cf h, blockWritten_cf]
  simp only [recordCleared_other _ .cf _ off 0x094 w rfl hrec]
  rfl

theorem write_ic {die : Nat} (h : writeOkAt s ini (icPage die + off) w = true)
    (ho : off < 4096 := by omega) (hoff : 0x040 ≤ off := by omega) :
    cmdWriteAt s ini (icPage die + off) w = wrote s (icPage die + off) w
      (fun u _ => if off = 0x050 && wGet w 31 1 = 1 then partCommand u die (wGet w 8 3) (wGet w 0 6) else u) := by
  rw [writeAt_page s ini die 0x5002 off w .ic (icPage die) rfl (by omega) ho hoff pageOf_ic h, blockWritten_ic]
  rfl

theorem write_le {die e : Nat} (he : e < 288) (h : writeOkAt s ini (lePage die e + off) w = true)
    (ho : off < 4096 := by omega) (hoff : 0x040 ≤ off := by omega) :
    cmdWriteAt s ini (lePage die e + off) w = wrote s (lePage die e + off) w (fun u old => leWritten u die e off old w) := by
  have hinst : (0x6000 + e) % 4096 = e := by omega
  rw [writeAt_page s ini die (0x6000 + e) off w .le (lePage die e) rfl (by omega) ho hoff (pageOf_le he) h,
    blockWritten_le, hinst]
  rfl

theorem write_rt (h : writeOkAt s ini (RT + off) w = true)
    (ho : off < 4096 := by omega) (hoff : 0x040 ≤ off := by omega) :
    cmdWriteAt s ini (RT + off) w = wrote s (RT + off) w (fun u _ => rtWritten u off w) := by
  rw [writeAt_page s ini 8 0x0003 off w .rt RT rfl (by omega) ho hoff (.inr rfl) h, blockWritten_rt]
  rfl

theorem write_qu (h : writeOkAt s ini (QU + off) w = true)
    (ho : off < 4096 := by omega) (hoff : 0x040 ≤ off := by omega) :
    cmdWriteAt s ini (QU + off) w = wrote s (QU + off) w (fun u _ => quWritten u off) := by
  rw [writeAt_page s ini 8 0x0004 off w .qu QU rfl (by omega) ho hoff (.inr rfl) h, blockWritten_qu]
  rfl

theorem write_nr {die r : Nat} (hr : r < 4096) (h : writeOkAt s ini (nrPage die r + off) w = true)
    (ho : off < 4096 := by omega) (hoff : 0x040 ≤ off := by omega) (hrec : 0x04C ≠ off := by omega) :
    cmdWriteAt s ini (nrPage die r + off) w = wrote s (nrPage die r + off) w
      (fun u old => nrWritten u die r off old w) := by
  have hinst : (0x1000 + r) % 4096 = r := by omega
  rw [writeAt_page s ini die (0x1000 + r) off w .nr (nrPage die r) rfl (by omega) ho hoff (pageOf_nr hr) h,
    blockWritten_nr, hinst]
  simp only [recordCleared_other _ .nr _ off 0x04C w rfl hrec]
  rfl

theorem write_sm {die m : Nat} (hm : m < 18) (h : writeOkAt s ini (smPage die m + off) w = true)
    (ho : off < 4096 := by omega) (hoff : 0x040 ≤ off := by omega) :
    cmdWriteAt s ini (smPage die m + off) w = wrote s (smPage die m + off) w (fun u old => smWritten u die m off old w) := by
  have hinst : (0x2000 + m) % 4096 = m := by omega
  rw [writeAt_page s ini die (0x2000 + m) off w .sm (smPage die m) rfl (by omega) ho hoff (pageOf_sm hm) h,
    blockWritten_sm, hinst]
  rfl

theorem write_di (h : writeOkAt s ini (DI + off) w = true)
    (ho : off < 4096 := by omega) (hoff : 0x040 ≤ off := by omega) :
    cmdWriteAt s ini (DI + off) w = wrote s (DI + off) w (fun u _ => diWritten u off w) := by
  rw [writeAt_page s ini 8 0x0005 off w .di DI rfl (by omega) ho hoff (.inr rfl) h, blockWritten_di]
  rfl

theorem write_lb {die : Nat} (h : writeOkAt s ini (lbPage die + off) w = true)
    (ho : off < 4096 := by omega) (hoff : 0x040 ≤ off := by omega) :
    cmdWriteAt s ini (lbPage die + off) w = wrote s (lbPage die + off) w
      (fun u old => holdsWake (lbWritten u die off old w) die) := by
  rw [writeAt_page s ini die 0x8100 off w .lb (lbPage die) rfl (by omega) ho hoff pageOf_lb h, blockWritten_lb]
  rfl

theorem write_lq {die j : Nat} (hj : j < 8) (h : writeOkAt s ini (lqPage die j + off) w = true)
    (ho : off < 4096 := by omega) (hoff : 0x040 ≤ off := by omega) :
    cmdWriteAt s ini (lqPage die j + off) w = wrote s (lqPage die j + off) w (fun u _ => lqWritten u die j off w) := by
  have hinst : (0x8000 + j) % 4096 = j := by omega
  rw [writeAt_page s ini die (0x8000 + j) off w .lq (lqPage die j) rfl (by omega) ho hoff (pageOf_lq hj) h,
    blockWritten_lq, hinst]
  rfl

theorem write_fs {die : Nat} (h : writeOkAt s ini (fsPage die + off) w = true)
    (ho : off < 4096 := by omega) (hoff : 0x040 ≤ off := by omega) :
    cmdWriteAt s ini (fsPage die + off) w = wrote s (fsPage die + off) w (fun u old => fsWritten u ini die off old w) := by
  rw [writeAt_page s ini die 0x9000 off w .fs (fsPage die) rfl (by omega) ho hoff pageOf_fs h, blockWritten_fs]
  rfl

theorem write_mc {ch : Nat} (hch : ch < 4) (h : writeOkAt s ini (mcPage ch + off) w = true)
    (ho : off < 4096 := by omega) (hoff : 0x040 ≤ off := by omega) (hrec : 0x050 ≠ off := by omega) :
    cmdWriteAt s ini (mcPage ch + off) w = wrote s (mcPage ch + off) w
      (fun u old => mcWritten u (if ch < 2 then 3 else 7) (0xA000 + ch % 2) off old w
        (tagSpan (reachAt s (mcPage ch + off)) ch ((off - 0x100) / 32))) := by
  rw [writeAt_page s ini (if ch < 2 then 3 else 7) (0xA000 + ch % 2) off w .mc (mcPage ch) rfl (by omega)
    ho hoff (.inr (pageOf_mc hch)) h,
    blockWritten_mc, mcChan_at hch]
  simp only [recordCleared_other _ .mc _ off 0x050 w rfl hrec]
  rfl

theorem write_cl (h : writeOkAt s ini (CL + off) w = true)
    (ho : off < 4096 := by omega) (hoff : 0x040 ≤ off := by omega) :
    cmdWriteAt s ini (CL + off) w = wrote s (CL + off) w (fun u old => clWritten u off old w) := by
  rw [writeAt_page s ini 8 0xC000 off w .cl CL rfl (by omega) ho hoff (.inr rfl) h, blockWritten_cl]
  rfl

theorem write_hd (h : writeOkAt s ini (HD + off) w = true)
    (ho : off < 4096 := by omega) (hoff : 0x040 ≤ off := by omega) :
    cmdWriteAt s ini (HD + off) w = wrote s (HD + off) w (fun u _ => hdWritten u off w) := by
  rw [writeAt_page s ini 8 0xC008 off w .hd HD rfl (by omega) ho hoff (.inr rfl) h, blockWritten_hd]
  rfl

theorem write_tb (h : writeOkAt s ini (TB + off) w = true)
    (ho : off < 4096 := by omega) (hoff : 0x040 ≤ off := by omega) :
    cmdWriteAt s ini (TB + off) w = wrote s (TB + off) w (fun u _ => tbWritten u off w) := by
  rw [writeAt_page s ini 8 0xC060 off w .tb TB rfl (by omega) ho hoff (.inr rfl) h, blockWritten_tb]
  rfl

theorem write_lk (h : writeOkAt s ini (LK + off) w = true)
    (ho : off < 4096 := by omega) (hoff : 0x040 ≤ off := by omega) :
    cmdWriteAt s ini (LK + off) w = wrote s (LK + off) w (fun u _ => lkWritten u off w) := by
  rw [writeAt_page s ini 8 0xC020 off w .lk LK rfl (by omega) ho hoff (.inr rfl) h, blockWritten_lk]
  rfl

theorem write_ev (h : writeOkAt s ini (EV + off) w = true)
    (ho : off < 4096 := by omega) (hoff : 0x040 ≤ off := by omega) :
    cmdWriteAt s ini (EV + off) w = wrote s (EV + off) w
      (fun u old => evWritten (if off = 0x044 || off = 0x048 then setReg u (pg 8 0xC030 + off) old else u) off w) := by
  rw [writeAt_page s ini 8 0xC030 off w .ev EV rfl (by omega) ho hoff (.inr rfl) h, blockWritten_ev]
  rfl

theorem write_pc {pc : Nat} (h : writeOkAt s ini (pcPage pc + off) w = true)
    (ho : off < 4096 := by omega) (hoff : 0x040 ≤ off := by omega) :
    cmdWriteAt s ini (pcPage pc + off) w = wrote s (pcPage pc + off) w
      (fun u old => pcWritten u ini (if pc = 0 then 9 else 11) off old w) := by
  rw [writeAt_page s ini (if pc = 0 then 9 else 11) 0xC100 off w .pc (pcPage pc) rfl (by omega) ho hoff (.inr pageOf_pc) h,
    blockWritten_pc]
  rfl

theorem write_pd {i : Nat} (hi : i < 2) (h : writeOkAt s ini (pdPage 8 i + off) w = true)
    (ho : off < 4096 := by omega) (hoff : 0x040 ≤ off := by omega) :
    cmdWriteAt s ini (pdPage 8 i + off) w = wrote s (pdPage 8 i + off) w (fun u old => pdWritten u 8 i off old w) := by
  have hinst : (0x4000 + i) % 4096 = i := by omega
  rw [writeAt_page s ini 8 (0x4000 + i) off w .pd (pdPage 8 i) rfl (by omega) ho hoff (.inr (pageOf_pd hi)) h,
    blockWritten_pd, hinst]
  rfl

theorem write_ds (h : writeOkAt s ini (DS + off) w = true)
    (ho : off < 4096 := by omega) (hoff : 0x040 ≤ off := by omega) :
    cmdWriteAt s ini (DS + off) w = wrote s (DS + off) w (fun u old => dsWritten u off old w) := by
  rw [writeAt_page s ini 8 0xC050 off w .ds DS rfl (by omega) ho hoff (.inr rfl) h, blockWritten_ds]
  rfl

theorem write_sc (h : writeOkAt s ini (SC + off) w = true)
    (ho : off < 4096 := by omega) (hoff : 0x040 ≤ off := by omega) (hrec : 0x078 ≠ off := by omega) :
    cmdWriteAt s ini (SC + off) w = wrote s (SC + off) w
      (fun u _ => scWritten u off w) := by
  rw [writeAt_page s ini 8 0xB000 off w .sc SC rfl (by omega) ho hoff (.inr rfl) h, blockWritten_sc]
  simp only [recordCleared_other _ .sc _ off 0x078 w rfl hrec]
  rfl

theorem write_er (h : writeOkAt s ini (ER + off) w = true)
    (ho : off < 4096 := by omega) (hoff : 0x040 ≤ off := by omega) :
    cmdWriteAt s ini (ER + off) w = wrote s (ER + off) w (fun u _ => erWritten u off w) := by
  rw [writeAt_page s ini 8 0x0006 off w .er ER rfl (by omega) ho hoff (.inr rfl) h, blockWritten_er]
  rfl

theorem write_ax {die : Nat} (h : writeOkAt s ini (axPage die + off) w = true)
    (ho : off < 4096 := by omega) (hoff : 0x040 ≤ off := by omega) (hrec : 0x05C ≠ off := by omega) :
    cmdWriteAt s ini (axPage die + off) w = wrote s (axPage die + off) w
      (fun u _ => if off = 0x040 then axWritten u die
        else u) := by
  rw [writeAt_page s ini die 0x5001 off w .ax (axPage die) rfl (by omega) ho hoff pageOf_ax h, blockWritten_ax]
  simp only [recordCleared_other _ .ax _ off 0x05C w rfl hrec]
  rfl

theorem write_bb (h : writeOkAt s ini (BB + off) w = true)
    (ho : off < 4096 := by omega) (hoff : 0x040 ≤ off := by omega) :
    cmdWriteAt s ini (BB + off) w = wrote s (BB + off) w (fun u _ => bbWritten u off w) := by
  rw [writeAt_page s ini 8 0x0007 off w .bb BB rfl (by omega) ho hoff (.inr rfl) h, blockWritten_bb]
  rfl

theorem write_sd (h : writeOkAt s ini (SD + off) w = true)
    (ho : off < 4096 := by omega) (hoff : 0x040 ≤ off := by omega) :
    cmdWriteAt s ini (SD + off) w = wrote s (SD + off) w (fun u _ => sdWritten u off w) := by
  rw [writeAt_page s ini 8 0x0008 off w .sd SD rfl (by omega) ho hoff (.inr rfl) h, blockWritten_sd]
  rfl

theorem write_st {die : Nat} (h : writeOkAt s ini (stPage die + off) w = true)
    (ho : off < 4096 := by omega) (hoff : 0x040 ≤ off := by omega) (hrec : 0x048 ≠ off := by omega) :
    cmdWriteAt s ini (stPage die + off) w = wrote s (stPage die + off) w
      (fun u _ => if off = 0x040 && wGet w 31 1 = 1 then stStart u die
        else u) := by
  rw [writeAt_page s ini die 0xF000 off w .st (stPage die) rfl (by omega) ho hoff pageOf_st h, blockWritten_st]
  simp only [recordCleared_other _ .st _ off 0x048 w rfl hrec]
  rfl

theorem write_db (h : writeOkAt s ini (DB + off) w = true)
    (ho : off < 4096 := by omega) (hoff : 0x040 ≤ off := by omega) :
    cmdWriteAt s ini (DB + off) w = wrote s (DB + off) w (fun u _ => dbWritten u off w) := by
  rw [writeAt_page s ini 8 0xD000 off w .db DB rfl (by omega) ho hoff (.inr rfl) h, blockWritten_db]
  rfl

theorem write_wd (h : writeOkAt s ini (WD + off) w = true)
    (ho : off < 4096 := by omega) (hoff : 0x040 ≤ off := by omega) :
    cmdWriteAt s ini (WD + off) w = wrote s (WD + off) w (fun u old => wdWritten u off old w) := by
  rw [writeAt_page s ini 8 0xD002 off w .wd WD rfl (by omega) ho hoff (.inr rfl) h, blockWritten_wd]
  rfl

theorem write_io {die a : Nat} (ha : a < 8) (hdie : die ≠ 8) (h : writeOkAt s ini (ioPage die a + off) w = true)
    (ho : off < 4096 := by omega) (hoff : 0x040 ≤ off := by omega) :
    cmdWriteAt s ini (ioPage die a + off) w = wrote s (ioPage die a + off) w
      (fun u _ => if off < 0x04C then pinsLatch u die else u) := by
  rw [writeAt_page s ini die (0x0010 + a) off w .io (ioPage die a) rfl (by omega) ho hoff (pageOf_io ha hdie) h,
    blockWritten_io]
  rfl

end Writes

/-- A read of an aligned offset outside the mailbox pages has no fault. -/
theorem readFault_aligned {s : State} {ini die blk off : Nat} {bar0 peek : Bool} {p : Page} (hmb : p ≠ .mb) (hmbh : p ≠ .mbh)
    (hoff : off % 4 = 0) : readFault s ini bar0 peek p die blk off = none := by
  unfold readFault
  rw [if_neg (by simp [hoff])]
  split
  · exact absurd rfl hmb
  · exact absurd rfl hmbh
  · rfl

end Sys2Proof.Machine
end

section
/-! PROOFS. Accesses to register pages (00_scope.md, 02_register_pages.md R36 to R60): accepted writes of the header registers,
reads, accesses of the wrong size, broadcasts, and the ends of soft resets and of uncommitted values. -/

namespace Sys2Proof.Machine

/-! ### Header registers -/

theorem cmdWrite_accepted {s : State} {ini die blk off : Nat} {bar0 : Bool} {w : Word} {p : Page}
    (hp : pageOf die blk = some p) (h : writeOk s ini bar0 die blk off w = true) :
    cmdWrite s ini bar0 die blk off w = answer (if off < 0x040 then
        headerWritten (stored s die blk off w) ini p die blk off (getReg (reach s die blk off true) (pg die blk + off)) w
      else blockWritten (reach s die blk off true) (stored s die blk off w) ini p die blk off
        (getReg (reach s die blk off true) (pg die blk + off)) w) 0 0 := by
  rw [cmdWrite_ok s ini bar0 die blk off w p hp h, writeDo_stored s ini die blk off w p hp]

theorem cmdWrite_header {s : State} {ini die blk off : Nat} {w : Word} {p : Page} (hp : pageOf die blk = some p)
    (hoff : off < 0x040) (h : writeOk s ini false die blk off w = true) :
    cmdWrite s ini false die blk off w = answer (headerWritten (stored s die blk off w) ini p die blk off
      (getReg (reach s die blk off true) (pg die blk + off)) w) 0 0 := by
  rw [cmdWrite_accepted hp h, if_pos hoff]

/-- Settles O24: each row is one accepted write, and the header register at its offset decides what follows. -/
theorem headerWritesComplete : Obligations.HeaderWritesComplete := by
  unfold Obligations.HeaderWritesComplete
  refine ⟨?write, ?enable, ?reset, ?commit, ?discard, ?force, ?vote, ?lock, ?retain⟩
  case write => exact fun s p ini die blk off bar0 w hp h => congrArg _ (cmdWrite_accepted hp h)
  case enable => rintro s p ini die blk frz en w hp rfl h; exact congrArg _ (cmdWrite_header hp (by decide) h)
  case reset => rintro s p ini die blk w hp rfl h; exact congrArg _ (cmdWrite_header hp (by decide) h)
  case commit => rintro s p ini die blk disc w hp rfl h; exact congrArg _ (cmdWrite_header hp (by decide) h)
  case discard => exact fun s p ini die blk hp h => congrArg _ (cmdWrite_header hp (by decide) h)
  case force => exact fun s p ini die blk w hp h => congrArg _ (cmdWrite_header hp (by decide) h)
  case vote => exact fun s p ini die blk w hp h => congrArg _ (cmdWrite_header hp (by decide) h)
  case lock => exact fun s p ini die blk w hp h => congrArg _ (cmdWrite_header hp (by decide) h)
  case retain =>
    intro s p ini die blk w hp hretain h
    refine congrArg _ ((cmdWrite_header hp (by decide) h).trans (congrArg (answer · 0 0) ?_))
    exact if_neg hretain

/-! ### Other accesses -/

/-- An access of the right initiator to a page that is there passes to its target. -/
theorem cmdAccess_passes {s f : State} {ini die blk off : Nat} {a : Access} (hini : iniAssigned ini = true)
    (hup : busUp s = true) (hquenched : quenched s ini = false) (hcounter : regNoReach s ini die blk off = false) :
    cmdAccess s ini die blk off a f = f := by
  simp [cmdAccess, hini, hup, hquenched, hcounter]

theorem wrongSize_of_page {s : State} {die blk off : Nat} (hoff : off < 4096) (hdie : die < 15)
    (hpage : (pageOf die blk).isSome = true) (hcut : regCut s die = false) :
    wrongSize s die blk off = (pageFault s (pg die blk) 0x0006, 4) := by
  have hne : die ≠ 15 := by omega
  have hsome : (pageOf die blk).isNone = false := by simpa using hpage
  simp [wrongSize, pageAt, hne, hoff, hsome, hcut]

/-- Settles O25: reads, accesses of the wrong size and broadcasts pass to their targets; the two events act where they occur. -/
theorem pageAccessComplete : Obligations.PageAccessComplete := by
  unfold Obligations.PageAccessComplete
  refine ⟨?read, ?wrongSize, ?broadcast, ?resetDone, ?commitPoint⟩
  case read => exact fun s p ini die blk off bar0 peek hp h => congrArg _ (cmdRead_ok s ini bar0 peek die blk off p hp h)
  case wrongSize =>
    intro s ini die blk off hini hup hoff hdie hpage hcut hquenched hcounter
    show execWrongSizeAccess ini die blk off s = _
    rw [execWrongSizeAccess, wrongSize_of_page hoff hdie hpage hcut]
    exact congrArg _ (cmdAccess_passes hini hup hquenched hcounter)
  case broadcast =>
    exact fun s ini blk off w hini hup hquenched hcounter => congrArg _ (cmdAccess_passes hini hup hquenched hcounter)
  case resetDone =>
    intro s die blk hreset
    show execSoftResetDone die blk s = _
    simp [execSoftResetDone, hreset]
  case commitPoint =>
    intro s p die blk hp hplain hup hjoined
    obtain ⟨hle, hlq, hfe, hgv⟩ := hplain
    show execCommitPoint die blk s = _
    rw [execCommitPoint, hp]
    dsimp only
    rw [if_neg (by simp [hup, hjoined])]
    split
    · exact absurd rfl hle
    · exact absurd rfl hlq
    · exact absurd rfl hfe
    · exact absurd rfl hgv
    · rfl

end Sys2Proof.Machine
end

section
/-! PROOFS. Clocks (03_clocks.md): the events of oscillators, PLLs and clock domains, and the commands of their registers. -/

namespace Sys2Proof.Machine

/-- Settles O26: the window of each check decides, and the phase of its oscillator says that it is made. -/
theorem oscillatorEventsComplete : Obligations.OscillatorEventsComplete := by
  unfold Obligations.OscillatorEventsComplete
  refine ⟨?_, ?_, ?_, ?_, ?_, ?_, ?_, ?_, ?_, ?_, ?_, ?_, ?_, ?_⟩
  · intro s b rc hxoPhase hrc hup
    show execXoQualified b rc s = _
    simp [execXoQualified, hxoPhase, hrc, hup]
  · intro s b rc hxoPhase hrc hup
    have hmiss : ¬(26214 ≤ rc ∧ rc ≤ 39322) := by omega
    show execXoQualified b rc s = _
    simp [execXoQualified, hxoPhase, hmiss, hup, xoMiss]
  · intro s b hxoPhase hup
    show execXoQualTimeout b s = _
    simp [execXoQualTimeout, hxoPhase, hup, xoMiss]
  · intro s rc hrtc hrc
    show execRtcQualified rc s = _
    simp [execRtcQualified, hrtc, hrc, rtcVerdict]
  · intro s rc hrtc hrc
    have hmiss : ¬(20000000 ≤ rc ∧ rc ≤ 30000000) := by omega
    show execRtcQualified rc s = _
    simp [execRtcQualified, hrtc, hmiss, rtcVerdict]
  · intro s hrtc
    show execRtcQualTimeout s = _
    simp [execRtcQualTimeout, hrtc, rtcVerdict]
  · intro s b hxoPhase hup
    show execXoEdgeTimeout b s = _
    simp [execXoEdgeTimeout, hxoPhase, hup]
  · intro s b n hxoPhase hn hup
    show execXoWindowCheck b n s = _
    simp [execXoWindowCheck, hxoPhase, hn, hup]
  · intro s b n hxoPhase hn hup
    have hwithin : ¬(n < 640 ∨ 1600 < n) := by omega
    show execXoWindowCheck b n s = _
    simp [execXoWindowCheck, hwithin]
  · intro s hrtc
    show execRtcEdgeTimeout s = _
    simp [execRtcEdgeTimeout, hrtc]
  · intro s n hrtc hn
    show execRtcWindowCheck n s = _
    simp [execRtcWindowCheck, hrtc, hn]
  · intro s hxoA hup
    show execOscEdgesReturn .xoA s = _
    simp [execOscEdgesReturn, hxoA, hup, setXoPhase]
  · intro s hxoB hup
    show execOscEdgesReturn .xoB s = _
    simp [execOscEdgesReturn, hxoB, hup, setXoPhase]
  · intro s hrtc
    show execOscEdgesReturn .rtc s = _
    simp [execOscEdgesReturn, hrtc]

/-- Settles O27: each event acts where its guard holds; gate events below 64 are clock domains', above it engine sets'. -/
theorem clockDomainEventsComplete : Obligations.ClockDomainEventsComplete := by
  unfold Obligations.ClockDomainEventsComplete
  refine ⟨?_, ?_, ?_, ?_, ?_, ?_, ?_, ?_, ?_, ?_, ?_, ?_, ?_, ?_⟩
  · intro s die j hisPll henabled hflag hdie hup hpllRefOn
    show execPllLocked die j s = _
    simp [execPllLocked, hisPll, henabled, hflag, hdie, hup, hpllRefOn]
  · intro s j hj henabled hflag hup hpllRefOn
    have hisPll : isPll 8 j = true := by simp [isPll, hj]
    show execPllLocked 8 j s = _
    simp [execPllLocked, hisPll, henabled, hflag, hup, hpllRefOn]
  · intro s die j hisPll henabled hflag hup
    show execPllRefLost die j s = _
    simp [execPllRefLost, hisPll, henabled, hflag, hup]
  · intro s die j hisFabric hj henabled hflag hup
    show execFpllRefDeviation die j s = _
    simp [execFpllRefDeviation, hisFabric, hj, henabled, hflag, hup]
  · intro s b hxoSwitch hup
    show execClockSwitchDone .xo s = _
    simp [execClockSwitchDone, hxoSwitch, hup]
  · intro s k hflag hup
    show execClockSwitchDone (.cd k) s = _
    simp [execClockSwitchDone, hflag, hup]
  · intro s b hxoSwitch hup
    show execSwitchForced .xo s = _
    simp [execSwitchForced, hxoSwitch, hup]
  · intro s k hflag hup
    show execSwitchForced (.cd k) s = _
    simp [execSwitchForced, hflag, hup]
  · intro s k hflag hgateAcks hup hk
    show execGateClosed k s = _
    simp [execGateClosed, domGateClosed, hflag, hgateAcks, hup, hk]
  · intro s g hcontains hsetIdle
    show execGateClosed (64 + g) s = _
    rw [execGateClosed, if_neg (by omega), Nat.add_sub_cancel_left, setGateClosed, hcontains, hsetIdle]
    rfl
  · intro s k hflag hup hk
    show execGateDenied k s = _
    simp [execGateDenied, domGateDenied, hflag, hup, hk]
  · intro s g
    show execGateDenied (64 + g) s = _
    simp [execGateDenied, setGateDenied]
  · intro s k _ hup
    show execGateReopen k s = _
    simp [execGateReopen, hup]
  · intro s k khz toggled hk hup
    have hcounts : (clkUp s || k = 0 || k = 60) = true := by simpa [or_assoc] using hup
    show execCdFreqUpdate k khz toggled s = _
    simp only [execCdFreqUpdate, hk, hcounts]
    simp

/-- Block `0x3100 + k` is the page of clock domain `k`. -/
theorem cdBlock_domain {k : Nat} (hk : k < 64) : (0x3100 + k) % 4096 - 256 = k := by omega

theorem clkWritten_cdCfg {s : State} {k : Nat} (hk : k < 64) (old : Word) :
    clkWritten s .cd (cdDie k) (0x3100 + k) 0x040 old = cdCfgWritten s k old := by
  simp only [clkWritten, cdBlock_domain hk, if_true]

theorem clkWritten_gate {s : State} {k : Nat} (hk : k < 64) (old : Word) :
    clkWritten s .cd (cdDie k) (0x3100 + k) 0x044 old =
      gateWritten s k (wGet old 0 1 = 1) (wGet (getReg s (pg (cdDie k) (0x3100 + k) + 0x044)) 0 1 = 1) := by
  have hoff : ¬ 0x044 = 0x040 := by decide
  simp only [clkWritten, cdBlock_domain hk, hoff, if_true, if_false]

/-- Settles O28: each row is one accepted write of a clock page. -/
theorem clockWritesComplete : Obligations.ClockWritesComplete := by
  unfold Obligations.ClockWritesComplete
  refine ⟨?_, ?_, ?_⟩
  · intro s ini k w hk hok
    show execCdCfgWrite ini k w s = _
    rw [execCdCfgWrite, if_pos hk, write_cd hk hok]
    rw [wrote, clkWritten_cdCfg hk]
  · intro s ini w hok
    show execXoPrefWrite ini w s = _
    rw [execXoPrefWrite, write_cu hok]
    rfl
  · intro s ini k hk hok
    show execGateRequest ini k s = _
    rw [execGateRequest, if_pos hk, write_cd hk hok]
    rw [wrote, clkWritten_gate hk, cdPage]


end Sys2Proof.Machine
end

section
/-! PROOFS. The start (03_clocks.md, 04_start.md, 05_images.md, 23_pins.md): supplies and pins, the table engine, and the image load. -/

namespace Sys2Proof.Machine

/-- Settles O29: a pin acts outside torpor, and each step of S0 to S2 in the phase that waits for it. -/
theorem startPinEventsComplete : Obligations.StartPinEventsComplete := by
  unfold Obligations.StartPinEventsComplete
  refine ⟨?suppliesValid, ?resetNLow, ?resetNHigh1, ?resetNHigh2, ?deviceResetInternal, ?srcSelLatch,
    ?srcSelChange, ?mgmtPathTimeout1, ?mgmtPathTimeout2, ?keepRecordsRead1, ?keepRecordsRead2, ?quickSelftestDone1,
    ?quickSelftestDone2⟩
  case suppliesValid =>
    rintro s u hsupplies htorpor rfl
    show execSuppliesValid s = _
    simp [execSuppliesValid, hsupplies, htorpor]
  case resetNLow =>
    rintro s u htorpor hsupplies rfl
    show execResetNLow s = _
    simp [execResetNLow, htorpor, hsupplies]
  case resetNHigh1 =>
    intro s hphase htorpor
    show execResetNHigh s = _
    simp [execResetNHigh, hphase, htorpor]
  case resetNHigh2 =>
    intro s htorpor
    show execResetNHigh s = _
    simp [execResetNHigh, htorpor]
  case deviceResetInternal =>
    intro s hsupplies hresetN hpfwN htorpor htripHold
    show execDeviceResetInternal s = _
    simp [execDeviceResetInternal, hsupplies, hresetN, hpfwN, htorpor, htripHold]
  case srcSelLatch =>
    rintro s u hphase rfl
    show execSrcSelLatch s = _
    simp [execSrcSelLatch, hphase]
  case srcSelChange =>
    intro s sel hsel
    show execSrcSelChange sel s = _
    simp [execSrcSelChange, hsel]
  case mgmtPathTimeout1 =>
    intro s m hphase hm hseamReady
    show execMgmtPathTimeout m s = _
    simp [execMgmtPathTimeout, hphase, hm, hseamReady]
  case mgmtPathTimeout2 =>
    intro s m hphase hm hseamReady
    have hfirst : ¬(m = 8 ∨ m = 16) := by omega
    show execMgmtPathTimeout m s = _
    simp [execMgmtPathTimeout, hphase, hm, hfirst, hseamReady]
  case keepRecordsRead1 =>
    rintro s u r0 r1 errs hrecordsDue rfl hdirsLost
    show execKeepRecordsRead r0 r1 errs s = _
    simp [execKeepRecordsRead, hrecordsDue, hdirsLost]
  case keepRecordsRead2 =>
    rintro s u r0 r1 errs hrecordsDue rfl hdirsLost
    show execKeepRecordsRead r0 r1 errs s = _
    simp [execKeepRecordsRead, hrecordsDue, hdirsLost]
  case quickSelftestDone1 =>
    intro s hphase
    show execQuickSelftestDone true s = _
    simp [execQuickSelftestDone, hphase]
  case quickSelftestDone2 =>
    intro s hphase
    show execQuickSelftestDone false s = _
    simp [execQuickSelftestDone, hphase]

/-- Settles O30: the entry that stands at the engine's index decides which row acts, and the answers of its pages what
follows. -/
theorem tableEngineComplete : Obligations.TableEngineComplete := by
  unfold Obligations.TableEngineComplete
  refine ⟨?seqWrite1, ?seqWrite2, ?seqWait1, ?seqWait2, ?seqWaitTimeout, ?releasePart1, ?releasePart2, ?seqEnd1,
    ?seqEnd2⟩
  case seqWrite1 =>
    intro s e i hseqCur haction hseqArrive hseqWriteAll
    show execSeqWrite s = _
    simp [execSeqWrite, hseqCur, haction, hseqArrive, hseqWriteAll]
  case seqWrite2 =>
    intro s e i hseqCur haction hseqArrive hseqWriteAll
    show execSeqWrite s = _
    simp [execSeqWrite, hseqCur, haction, hseqArrive, hseqWriteAll]
  case seqWait1 =>
    rintro s e i x ⟨t, r⟩ hseqCur haction hseqArrive hread rfl hvalue
    show execSeqWait s = _
    simp [execSeqWait, hseqCur, haction, hseqArrive, ← hread, hvalue]
  case seqWait2 =>
    rintro s e i x ⟨t, r⟩ hseqCur haction hseqArrive hread rfl hvalue
    show execSeqWait s = _
    simp [execSeqWait, hseqCur, haction, hseqArrive, ← hread, hvalue]
  case seqWaitTimeout =>
    intro s e i hseqCur haction
    show execSeqWaitTimeout s = _
    simp [execSeqWaitTimeout, hseqCur, haction]
  case releasePart1 =>
    intro s e i hseqCur haction hwGet
    show execReleasePart s = _
    simp [execReleasePart, hseqCur, haction, hwGet]
  case releasePart2 =>
    intro s e i x hseqCur haction hwGet hcontains hpartEntry hisolated hpartStateOn
    show execReleasePart s = _
    simp [execReleasePart, hseqCur, haction, hwGet, hcontains, hpartEntry, hisolated, hpartStateOn,
      -List.contains_eq_mem]
  case seqEnd1 =>
    intro s hseqCur hphase hfabricLocked hseamsAwaited
    show execSeqEnd s = _
    simp [execSeqEnd, hseqCur, hphase, hfabricLocked, hseamsAwaited]
  case seqEnd2 =>
    intro s hseqCur hphase
    show execSeqEnd s = _
    simp [execSeqEnd, hseqCur, hphase]

/-- Settles O31: the phase of the start decides which event of the load acts, and the first check that fails gives the
cause. -/
theorem imageLoadComplete : Obligations.ImageLoadComplete := by
  unfold Obligations.ImageLoadComplete
  refine ⟨?signatureVerified1, ?signatureVerified2, ?frameArrival1, ?frameArrival2, ?frameArrival3, ?configCleared,
    ?sourceTimeout, ?hostPushWrite1, ?hostPushWrite2, ?holdStartCmd1, ?holdStartCmd2, ?holdStartCmd3,
    ?memoryClearDone, ?journalRestore⟩
  case signatureVerified1 =>
    intro s h pad k readOk sigOk nodesOk nodes c v hphase hroom hv hcause
    show execSignatureVerified h pad readOk k sigOk nodesOk nodes s = _
    simp only [execSignatureVerified, ← hv, hcause]
    rw [if_neg (by simpa [hphase] using hroom)]
  case signatureVerified2 =>
    rintro s h k readOk sigOk nodes v w u hphase hroom hv hcause hw hread hlength rfl
    show execSignatureVerified h 0 readOk k sigOk true nodes s = _
    have htab : (if s.start.source = 0 then slotRead v.1 h.nodeOff (32 * h.nodeCount) else (s, true)) = w := hw.symm
    simp only [execSignatureVerified, ← hv, hcause, htab, hread]
    rw [if_neg (by simpa [hphase] using hroom), if_neg (by simp [hlength])]
  case frameArrival1 =>
    intro s r hphase
    show execFrameArrival 16 r s = _
    simp [execFrameArrival, hphase]
  case frameArrival2 =>
    intro s st r hphase hheaderDies
    show execFrameArrival st r s = _
    simp [execFrameArrival, hphase, hheaderDies, -List.contains_eq_mem]
  case frameArrival3 =>
    intro s st r hphase hrejoinAt hheaderDies
    show execFrameArrival st r s = _
    simp [execFrameArrival, hphase, hrejoinAt, hheaderDies, -List.contains_eq_mem]
  case configCleared =>
    rintro s u hphase rfl
    show execConfigCleared s = _
    simp [execConfigCleared, hphase]
  case sourceTimeout =>
    intro s hsource hphase
    have hwaits : sourceWaits s = true := by
      rcases hsource with h | h <;> rcases hphase with k | k | k | k <;> simp [sourceWaits, h, k]
    show execSourceTimeout s = _
    simp [execSourceTimeout, hwaits, sourceFail]
  case hostPushWrite1 =>
    intro s n hsource hsourceWaits
    show execHostPushWrite (s.load.hostNext % loadWindow) n s = _
    simp [execHostPushWrite, hsource, hsourceWaits]
  case hostPushWrite2 =>
    intro s a n hsource hsourceWaits ha
    show execHostPushWrite a n s = _
    simp [execHostPushWrite, hsource, hsourceWaits, ha]
  case holdStartCmd1 =>
    rintro s u k hphase rfl hk
    show execHoldStartCmd k s = _
    obtain rfl | rfl | rfl : k = 1 ∨ k = 2 ∨ k = 3 := by omega
    all_goals simp [execHoldStartCmd, hphase]
  case holdStartCmd2 =>
    rintro s u hphase rfl
    show execHoldStartCmd 4 s = _
    simp [execHoldStartCmd, hphase]
  case holdStartCmd3 =>
    rintro s u k hphase rfl hk
    show execHoldStartCmd k s = _
    rw [execHoldStartCmd, if_neg (by simp [hphase])]
    dsimp only
    split
    iterate 4 · omega
    · rfl
  case memoryClearDone =>
    intro s ps hphase
    show execMemoryClearDone ps s = _
    simp [execMemoryClearDone, hphase]
  case journalRestore =>
    rintro s u hphase rfl
    show execJournalRestore s = _
    simp [execJournalRestore, hphase]


end Sys2Proof.Machine
end

section
/-! PROOFS. The Keep (06_keep.md): its boot record, counters and transfers, the journal and the user area. -/

namespace Sys2Proof.Machine

/-- Registers 0x080 to 0x0BC of the Keep page are the counters: a write that it accepts raises one. -/
theorem kpWritten_counter (s : State) {off k : Nat} (hoff : off = 0x080 + 4 * k) (hk : k < 16) (old w : Word) :
    kpWritten s off old w = if ctrValue s k = some (wGet w 0 16) then s else ctrRaise s k (wGet w 0 16) := by
  have hboot : off ≠ 0x054 := by omega
  have hxfer : off ≠ 0x068 := by omega
  have hrange : 0x080 ≤ off ∧ off < 0x0C0 := by omega
  have hnumber : (off - 0x080) / 4 = k := by omega
  simp [kpWritten, hboot, hxfer, hrange, hnumber]

theorem mergeOf_any {s : State} {n : Nat} {b : MergeBuf} (h : (mergeOf s n).find? (·.unit == n) = some b) :
    (mergeOf s n).any (·.unit == n) = true :=
  List.any_eq_true.2 ⟨b, List.mem_of_find?_eq_some h, List.find?_some (p := fun c : MergeBuf => c.unit == n) h⟩

/-- Settles O32: a row acts where its unit of work waits and no journal append goes first. -/
theorem keepRowsComplete : Obligations.KeepRowsComplete := by
  unfold Obligations.KeepRowsComplete
  refine ⟨?bootRecordWrite, ?bootRecordDone1, ?bootRecordDone2, ?counterWrite, ?xferGo, ?xferDone,
    ?journalWindowEnd, ?journalCommit, ?userAreaWrite, ?userUnitProgram1, ?userUnitProgram2⟩
  case bootRecordWrite =>
    intro s ini w hok hwGet
    show execBootRecordWrite ini w s = _
    rw [execBootRecordWrite, write_kp  hok]
    simp [wrote, kpWritten, hwGet]
  case bootRecordDone1 =>
    rintro s u r hbootWr rfl hunitReadOnly hu hjournalFirst
    show execBootRecordDone false s = _
    simp [execBootRecordDone, hbootWr, hunitReadOnly, hu, hjournalFirst]
  case bootRecordDone2 =>
    intro s r hbootWr hjournalFirst
    show execBootRecordDone true s = _
    simp [execBootRecordDone, hbootWr, hjournalFirst]
  case counterWrite =>
    rintro s u ini k w hk hok rfl
    show execCounterWrite ini k w s = _
    rw [Nat.add_assoc] at hok ⊢
    rw [execCounterWrite, if_pos hk, Nat.add_assoc, write_kp hok, wrote, kpWritten_counter _ rfl hk]
  case xferGo =>
    rintro s u ini w x hok rfl rfl
    show execXferGo ini w s = _
    rw [execXferGo, write_kp hok, wrote, kpWritten, if_neg (by decide), if_pos (by rw [wGet_or_go]; rfl)]
  case xferDone =>
    rintro s x n res errs r hxfer hbusy ⟨hn, hres, hall, hlow⟩ hfirst hstall rfl
    have hends : xferEnds s x n res = true := by
      simp only [xferEnds, hn, hres, hfirst]
      by_cases h : res = 0 <;> cases hp : s.keep.pfwLow <;> simp_all
    show execXferDone n res errs s = _
    simp [execXferDone, hxfer, hbusy, hends, hstall]
  case journalWindowEnd =>
    intro s die blk hcontains
    show execJournalWindowEnd die blk s = _
    simp [execJournalWindowEnd, hcontains, -List.contains_eq_mem]
  case journalCommit =>
    rintro s u j r rest happends rfl
    show Host.Outcome.next (appendCommit s) = _
    rw [appendCommit, happends]
  case userAreaWrite =>
    intro s off bs
    show execUserAreaWrite off bs s = _
    simp [execUserAreaWrite]
  case userUnitProgram1 =>
    intro s n errs b hmergeOf hfirst
    show execUserUnitProgram n errs s = _
    rw [execUserUnitProgram, if_neg (by simp only [hfirst, mergeOf_any hmergeOf]; decide)]
  case userUnitProgram2 =>
    rintro s u n errs b hmergeOf hfirst rfl hread
    show execUserUnitProgram n errs s = _
    rw [execUserUnitProgram, if_neg (by simp only [hfirst, mergeOf_any hmergeOf]; decide), userProgram, hmergeOf]
    simp [hread]


end Sys2Proof.Machine
end

section
/-! PROOFS. The fabric (07_fabric.md): contention, clock networks, crossing groups, capture, readback and EVO. -/

namespace Sys2Proof.Machine

/-- Registers 0x0A0 to 0x0A8 of a fabric page enable its clock networks, 32 to a register. -/
theorem cfWritten_net (s : State) (die : Nat) {off r : Nat} (hoff : off = 0x0A0 + 4 * r) (hr : r < 3) (old w : Word) :
    cfWritten s die off old w = netWritten s die r old := by
  have hcapture : off ≠ 0x040 := by omega
  have hreadback : off ≠ 0x080 := by omega
  have hrange : 0x0A0 ≤ off ∧ off ≤ 0x0A8 := by omega
  have hnumber : (off - 0x0A0) / 4 = r := by omega
  simp [cfWritten, hcapture, hreadback, hrange, hnumber]

/-- Settles O33: each row acts on a joined fabric die where the run or the register it belongs to stands as its clause
says. -/
theorem fabricRowsComplete : Obligations.FabricRowsComplete := by
  unfold Obligations.FabricRowsComplete
  refine ⟨?contentionDetected, ?networkEnableWrite, ?xgTrained, ?xgTrainTimeout, ?captureGo, ?capTrig,
    ?haltTrigger, ?captureEdge1, ?captureEdge2, ?captureAbandon, ?readbackGo, ?readbackDone, ?evoToggle⟩
  case contentionDetected =>
    rintro s u x die addr bit w n en hfabric hjoined hshape hbit hi hj hcold rfl rfl
    have hlegal : (!isFabric die || isolated s die || 2048 ≤ bit || n ≤ bit / w || en ≤ bit % w ||
        oneHot en (frGet (cfgSeen s die addr ^^^ (BitVec.ofNat 2048 1 <<< bit)) (w * (bit / w)) en)) = false := by
      rw [hfabric, hjoined, hcold]
      simp only [Bool.or_eq_false_iff, decide_eq_false_iff_not, not_le]
      exact ⟨⟨⟨⟨by decide, hbit⟩, hi⟩, hj⟩, trivial⟩
    show execContentionDetected die addr bit s = _
    rw [execContentionDetected, hshape]
    exact congrArg _ (if_neg (by rw [hlegal]; decide))
  case networkEnableWrite =>
    intro s ini die r w hr hok
    show execNetworkEnableWrite ini die r w s = _
    rw [Nat.add_assoc] at hok ⊢
    rw [execNetworkEnableWrite, if_pos hr, Nat.add_assoc, write_cf hok, wrote, cfWritten_net _ _ rfl hr]
  case xgTrained =>
    intro s die side g hcan
    show execXgTrained die side g s = _
    rw [execXgTrained, if_pos hcan]
    rfl
  case xgTrainTimeout =>
    intro s die side g hxgCan hxgUp
    show execXgTrainTimeout die side g s = _
    simp [execXgTrainTimeout, hxgCan, hxgUp]
  case captureGo =>
    intro s ini die w hok
    show execCaptureGo ini die w s = _
    rw [execCaptureGo, write_cf hok, wrote, cfWritten, if_pos rfl, if_pos (wGet_or_go w)]
  case capTrig =>
    intro s die hfabric hjoined hruns htrig henabled hbusy
    show execCapTrig die s = _
    simp [execCapTrig, capTrigger, hfabric, hjoined, hruns, htrig, henabled, hbusy]
  case haltTrigger =>
    intro s die hfabric hjoined htrig henabled hbusy
    show execHaltTrigger die s = _
    simp [execHaltTrigger, capTrigger, hfabric, hjoined, htrig, henabled, hbusy]
  case captureEdge1 =>
    rintro s s1 u v die net r hruns hhas hwants rfl hrun hleft rfl rfl
    show execCaptureEdge die net s = _
    simp [execCaptureEdge, hruns, hhas, hwants, capNetDone, hrun, hleft, -List.contains_eq_mem]
  case captureEdge2 =>
    intro s die net hnetRuns hcapHas
    show execCaptureEdge die net s = _
    simp [execCaptureEdge, hnetRuns, hcapHas]
  case captureAbandon =>
    rintro s u die net r hrun hleft rfl
    show execCaptureAbandon die net s = _
    simp [execCaptureAbandon, capNetDone, hrun, hleft, -List.contains_eq_mem]
  case readbackGo =>
    intro s ini die hok
    show execReadbackGo ini die s = _
    rw [execReadbackGo, write_cf hok, wrote, cfWritten, if_neg (by decide), if_pos rfl, if_pos (by decide)]
  case readbackDone =>
    rintro s die n be pfw r c htabGet hwaiting hisolated hbusStall rfl
    show execReadbackDone die n be pfw s = _
    simp [execReadbackDone, htabGet, hwaiting, hisolated, hbusStall]
  case evoToggle =>
    rintro s die i v hisFabric hi hreleasedAt hisolated rfl
    show execEvoToggle die i s = _
    simp [execEvoToggle, hisFabric, hi, hreleasedAt, hisolated]


end Sys2Proof.Machine
end

section
/-! PROOFS. The bank memories (08_memories.md): RAM accesses, queues, token pools, cascades and audits. -/

namespace Sys2Proof.Machine

/-- Settles O34: a port that is clocked and a memory of the row's mode take the operation; the collision clause is the
access counted again. -/
theorem bankRowsComplete : Obligations.BankRowsComplete := by
  unfold Obligations.BankRowsComplete
  refine ⟨?bankAccess1, ?bankAccess2, ?bankAccess3, ?fifoPush1, ?fifoPush2, ?fifoPop, ?tokenGive, ?tokenTake1,
    ?tokenTake2, ?cascadeForward, ?queueViewSync1, ?queueViewSync2, ?queueViewSync3, ?queueViewSync4, ?queueAudit1,
    ?queueAudit2, ?queueAudit3⟩
  case bankAccess1 =>
    rintro s u x x1 sh ecc a old mask v shown d now out die mem portB we addr din srst hbankClocked
      hbankCfg rfl rfl rfl rfl rfl rfl rfl rfl rfl rfl rfl rfl rfl
    show execBankAccess die mem portB true we addr din srst false s = _
    simp [execBankAccess, hbankClocked, hbankCfg]
  case bankAccess2 =>
    intro s die mem portB we addr din srst coll hbankClocked
    show execBankAccess die mem portB false we addr din srst coll s = _
    simp [execBankAccess, hbankClocked]
  case bankAccess3 =>
    intro s t die mem we addr din srst hclocked hram hwrites hexec
    have hsingle : execBankAccess die mem true true we addr din srst false s = .next t := hexec
    show execBankAccess die mem true true we addr din srst true s = _
    simp only [execBankAccess, hclocked, hram, hwrites] at hsingle ⊢
    simp_all
  case fifoPush1 =>
    rintro s e die mem din popToo hclocked hfifo rfl hend hroom hsingle
    show execFifoPush die mem din popToo s = _
    simp only [execFifoPush, hclocked, hfifo, hend]
    simp [hroom] at hsingle ⊢
    intro hpop hclock hhead
    exact absurd hhead (by simp [hsingle hpop hclock])
  case fifoPush2 =>
    rintro s e die mem din hbankClocked hisFifo rfl h1 honeClock hheadView
    show execFifoPush die mem din true s = _
    simp [execFifoPush, hbankClocked, hisFifo, h1, honeClock, hheadView]
  case fifoPop =>
    rintro s e die mem hbankClocked hisFifo rfl h2 hheadView
    show execFifoPop die mem s = _
    simp [execFifoPop, hbankClocked, hisFifo, h2, hheadView]
  case tokenGive =>
    intro s die mem hbankClocked hbankCfg
    show execTokenGive die mem s = _
    simp [execTokenGive, hbankClocked, hbankCfg]
  case tokenTake1 =>
    intro s die mem hclocked hpool hsome
    have hview : ¬((bankMem s die mem).tok - (bankMem s die mem).unseenW = 0) := by omega
    show execTokenTake die mem false s = _
    simp [execTokenTake, hclocked, hpool, hview]
  case tokenTake2 =>
    intro s die mem hclocked hpool hclock hsome
    have hview : ¬((bankMem s die mem).tok - (bankMem s die mem).unseenW = 0 ∧ tokMax s die mem = 0) := by omega
    show execTokenTake die mem true s = _
    simpa [execTokenTake, hclocked, hpool, hclock] using fun h1 h2 => absurd ⟨h1, h2⟩ hview
  case cascadeForward =>
    intro s e die mem v rest hcascade hbankClocked hmem hbankMem hs
    show execCascadeForward die mem s = _
    simp [execCascadeForward, hcascade, hbankClocked, hmem, hbankMem, hs]
  case queueViewSync1 =>
    intro s die mem hmem
    show execQueueViewSync die mem false true s = _
    simp [execQueueViewSync, hmem]
  case queueViewSync2 =>
    intro s die mem hmem
    show execQueueViewSync die mem false false s = _
    simp [execQueueViewSync, hmem]
  case queueViewSync3 =>
    intro s die mem hmem
    show execQueueViewSync die mem true true s = _
    simp [execQueueViewSync, hmem]
  case queueViewSync4 =>
    intro s die mem hmem
    show execQueueViewSync die mem true false s = _
    simp [execQueueViewSync, hmem]
  case queueAudit1 =>
    intro s die mem hisFabric hisolated hmem hdeepFifo
    show execQueueAudit die mem true s = _
    simp [execQueueAudit, hisFabric, hisolated, hmem, hdeepFifo]
  case queueAudit2 =>
    rintro s e die mem hisFabric hisolated hmem rfl h2 hisFifo hbankCfg
    show execQueueAudit die mem false s = _
    simp [execQueueAudit, hisFabric, hisolated, hmem, h2, hisFifo, hbankCfg]
  case queueAudit3 =>
    rintro s e die mem hisFabric hisolated hmem rfl h2 hbankCfg
    show execQueueAudit die mem false s = _
    simp [execQueueAudit, hisFabric, hisolated, hmem, h2, hbankCfg]


end Sys2Proof.Machine
end

section
/-! PROOFS. The deep memories (08_memories.md): requests of the fabric and of the network, write-back and patrol. -/

namespace Sys2Proof.Machine

@[simp] theorem deepFifo_setDeep (s : State) (die j die' j' : Nat) (x : Deep) :
    deepFifo (setDeep s die j x) die' j' = deepFifo s die' j' := rfl

/-- An access from the network to a deep memory whose domain is on, or on again by the touch, is served at once. -/
theorem deepArrive_on {s : State} {die j : Nat} (op : DmOp) (hfabric : isFabric die = true)
    (hjoined : isolated s die = false) (hj : j < 32)
    (hon : (domOf (domTouch (nocClock s die) die (deepDomain j)) die (deepDomain j)).state < 2) :
    deepArrive s die j op = deepAccess (domTouch (nocClock s die) die (deepDomain j)) die j op := by
  rw [deepArrive, if_neg (by simp [hfabric, hj]), if_neg (by simp [hjoined]), if_neg (by omega)]

/-- A write with all eight byte enables set keeps no byte of the word that was there. -/
theorem bytes_allEnabled (new old : Nat) :
    (List.range 8).map (fun i => BitVec.ofNat 8 ((if (255#8).getLsbD i then new else old) / 256 ^ i)) =
      (List.range 8).map fun i => BitVec.ofNat 8 (new / 256 ^ i) := by
  refine List.map_congr_left fun i hi => ?_
  have hset : (255#8).getLsbD i = true := by
    rw [show 255#8 = BitVec.allOnes 8 from rfl, BitVec.getLsbD_allOnes]
    simpa using hi
  rw [if_pos hset]

/-- Settles O35: a deep memory that is clocked or reached takes the operation, as a RAM or as a queue. -/
theorem deepRowsComplete : Obligations.DeepRowsComplete := by
  unfold Obligations.DeepRowsComplete
  refine ⟨?dmFabricRequest1, ?dmFabricRequest2, ?dmFabricRequest3, ?dmFabricResponse1, ?dmFabricResponse2,
    ?dmFabricResponse3, ?dmNocAccess, ?dmNocPush, ?dmNocPop, ?dmWriteback, ?dmPatrolRead1, ?dmPatrolRead2⟩
  case dmFabricRequest1 =>
    rintro s x die mem we addr data be hclocked hram hroom rfl
    have hlen : ¬ 16 ≤ (deepMem s die mem).reqs.length := by omega
    show execDmFabricRequest die mem we addr data be s = _
    simp [execDmFabricRequest, hclocked, hram, hlen]
  case dmFabricRequest2 =>
    rintro s u die mem addr data be hclocked hfifo hu hpush
    have hfifo' : deepFifo u die mem = true := hu ▸ hfifo
    show execDmFabricRequest die mem true addr data be s = _
    simp [execDmFabricRequest, hclocked, ← hu, hfifo', hpush]
  case dmFabricRequest3 =>
    rintro s u die mem addr data be r hclocked hfifo hu hpop hsome rfl
    have hfifo' : deepFifo u die mem = true := hu ▸ hfifo
    show execDmFabricRequest die mem false addr data be s = _
    simp [execDmFabricRequest, hclocked, ← hu, hfifo', hpop, hsome]
  case dmFabricResponse1 =>
    rintro s u die mem r rest v hdeepClocked hdeepMem hwe rfl rfl
    show execDmFabricResponse die mem s = _
    simp [execDmFabricResponse, hdeepClocked, hdeepMem, hwe]
  case dmFabricResponse2 =>
    rintro s u t die mem r rest v hclocked hreqs hwe hbe rfl rfl rfl
    show execDmFabricResponse die mem s = _
    simp [execDmFabricResponse, hclocked, hreqs, hwe, hbe, bytes_allEnabled]
  case dmFabricResponse3 =>
    rintro s u w t die mem r rest old v hclocked hreqs hwe hbe rfl rfl rfl rfl rfl
    have hpart : ¬ r.be = 255#8 := hbe
    show execDmFabricResponse die mem s = _
    simp [execDmFabricResponse, hclocked, hreqs, hwe, hpart]
  case dmNocAccess =>
    rintro s u die mem we off len bytes r hfabric hjoined hmem rfl hon hram hlen rfl
    show Host.Outcome.next (deepArrive s die mem (.access we off len bytes)) = _
    rw [deepArrive_on _ hfabric hjoined hmem hon, deepAccess, if_neg (by simpa [hram] using hlen)]
  case dmNocPush =>
    rintro s u die mem off bytes r hfabric hjoined hmem rfl hon hfifo rfl
    show Host.Outcome.next (deepArrive s die mem (.push off bytes)) = _
    rw [deepArrive_on _ hfabric hjoined hmem hon, deepAccess, if_neg (by simp [hfifo])]
  case dmNocPop =>
    rintro s u die mem off len peek r hfabric hjoined hmem rfl hon hfifo rfl
    show Host.Outcome.next (deepArrive s die mem (.pop off len peek)) = _
    rw [deepArrive_on _ hfabric hjoined hmem hon, deepAccess, if_neg (by simp [hfifo])]
  case dmWriteback =>
    intro s die mem w v rest hdeepMem hdeepReach
    show execDmWriteback die mem s = _
    simp [execDmWriteback, hdeepMem, hdeepReach]
  case dmPatrolRead1 =>
    intro s die mem hdeepReach hgateShut hflag hdeepFifo
    show execDmPatrolRead die mem s = _
    simp [execDmPatrolRead, hdeepReach, hgateShut, hflag, hdeepFifo]
  case dmPatrolRead2 =>
    intro s die mem v hdeepReach hgateShut hflag hdeepFifo hdeepMem
    show execDmPatrolRead die mem s = _
    simp [execDmPatrolRead, hdeepReach, hgateShut, hflag, hdeepFifo, hdeepMem]


end Sys2Proof.Machine
end

section
/-! PROOFS. Partitions (09_partitions.md): the commands of IC_CMD, loads over the internal port, and the groups of a RELOAD. -/

namespace Sys2Proof.Machine

/-- The word of a command to a partition says GO, the command and the partition (09_partitions.md). -/
theorem partWord_fields {op part : Nat} (hop : op < 8) (hpart : part < 64) :
    wGet (partWord op part) 31 1 = 1 ∧ wGet (partWord op part) 8 3 = op ∧ wGet (partWord op part) 0 6 = part := by
  obtain ⟨x, hx⟩ : ∃ x, x = 2 ^ 31 + op * 256 + part := ⟨_, rfl⟩
  rw [partWord, ← hx]
  simp only [wGet, nGet, BitVec.toNat_ofNat]
  refine ⟨?_, ?_, ?_⟩ <;> omega

theorem write_partCommand {s : State} {ini die op part : Nat} (hop : op < 8) (hpart : part < 64)
    (hok : writeOkAt s ini (icPage die + 0x050) (partWord op part) = true) :
    cmdWriteAt s ini (icPage die + 0x050) (partWord op part) =
      answer (partCommand (storedAt s (icPage die + 0x050) (partWord op part)) die op part) 0 0 := by
  obtain ⟨hgo, hcommand, hnumber⟩ := partWord_fields hop hpart
  rw [write_ic hok, wrote, hgo, hcommand, hnumber, if_pos (by decide)]

@[simp] theorem dieParts_putF (s : State) (page : Nat) (f : FieldRef) (v die : Nat) :
    dieParts (putF s page f v) die = dieParts s die := by simp [dieParts]

@[simp] theorem dieParts_putFlag (s : State) (page : Nat) (f : FieldRef) (b : Bool) (die : Nat) :
    dieParts (putFlag s page f b) die = dieParts s die := by simp [dieParts]

/-- Settles O36: an accepted command is the one its word names, and the state the partition is in decides whether it
moves. -/
theorem partitionCommandsComplete : Obligations.PartitionCommandsComplete := by
  unfold Obligations.PartitionCommandsComplete
  refine ⟨?fence, ?unfence, ?hold, ?release, ?reload, ?releaseComplete⟩
  case fence =>
    rintro s u ini die part e hpart hok rfl hentry
    show execFence ini die part s = _
    rw [execFence, if_pos hpart, write_partCommand (by decide) hpart hok, partCommand, hentry]
    simp only
  case unfence =>
    rintro s u ini die part e hpart hok rfl hentry
    show execUnfence ini die part s = _
    rw [execUnfence, if_pos hpart, write_partCommand (by decide) hpart hok, partCommand, hentry]
    simp only
  case hold =>
    rintro s u ini die part e hpart hok rfl hentry
    show execHold ini die part s = _
    rw [execHold, if_pos hpart, write_partCommand (by decide) hpart hok, partCommand, hentry]
    simp only
  case release =>
    rintro s u ini die part e hpart hok rfl hentry
    show execRelease ini die part s = _
    rw [execRelease, if_pos hpart, write_partCommand (by decide) hpart hok, partCommand, hentry]
    simp only
  case reload =>
    rintro s u ini die part e hpart hok rfl hentry
    show execReload ini die part s = _
    rw [execReload, if_pos hpart, write_partCommand (by decide) hpart hok, partCommand, hentry]
    simp only
  case releaseComplete =>
    rintro s u die part e hdieParts hcontains hreleasePassed rfl
    show execReleaseComplete die part s = _
    simp [execReleaseComplete, hdieParts, hcontains, hreleasePassed, -List.contains_eq_mem]

/-- Settles O37: the load that runs decides what a word, a checked header or a group does to it. -/
theorem partialLoadComplete : Obligations.PartialLoadComplete := by
  unfold Obligations.PartialLoadComplete
  refine ⟨?icpWord1, ?icpWord2, ?icpWord3, ?icpAbort, ?icpDataTimeout, ?icpHeaderChecked1, ?icpHeaderChecked2,
    ?icpGroupWrite, ?reloadGroup⟩
  case icpWord1 =>
    rintro s u v die word last l hicpReady rfl hicpLoad hentered hicpWordBad rfl
    show execIcpWord die word last s = _
    simp [execIcpWord, hicpReady, hicpLoad, hentered, hicpWordBad]
  case icpWord2 =>
    rintro s v die word last l hicpReady hicpLoad hentered hicpWordBad rfl
    show execIcpWord die word last s = _
    simp [execIcpWord, hicpReady, hicpLoad, hentered, hicpWordBad]
  case icpWord3 =>
    rintro s u v die word last l r hicpReady rfl hicpLoad hicpWordBad rfl
    show execIcpWord die word last s = _
    simp [execIcpWord, hicpReady, hicpLoad, hicpWordBad]
  case icpAbort =>
    intro s die hicpLoad hflag
    show execIcpAbort die s = _
    simp [execIcpAbort, hicpLoad, hflag]
  case icpDataTimeout =>
    intro s die l hicpLoad hflag
    show execIcpDataTimeout die s = _
    simp [execIcpDataTimeout, hicpLoad, hflag]
  case icpHeaderChecked1 =>
    intro s die h keyHash sigOk nodes l r hload hentered hflag hresult hbytes
    have hshort : ¬ l.bytes < 1024 := by split at hbytes <;> omega
    have hearly : ¬(5 ≤ r ∧ l.bytes < 4097) := by split at hbytes <;> omega
    show execIcpHeaderChecked die h keyHash sigOk nodes s = _
    simp [execIcpHeaderChecked, hload, hentered, hflag, hresult, hshort, hearly]
  case icpHeaderChecked2 =>
    rintro s u die h keyHash sigOk nodes l e st hload hentered hflag hresult hbytes hfind rfl rfl
    have hshort : ¬ l.bytes < 1024 := by omega
    have hlate : ¬ l.bytes < 4097 := by omega
    show execIcpHeaderChecked die h keyHash sigOk nodes s = _
    simp [execIcpHeaderChecked, hload, hentered, hflag, hresult, hshort, hlate, hfind]
  case icpGroupWrite =>
    rintro s die l e n hicpLoad hpartEntry hentered hflag hdie hscrubHolds hframes rfl
    show execIcpGroupWrite die s = _
    simp [execIcpGroupWrite, hicpLoad, hpartEntry, hentered, hflag, hdie, hscrubHolds, hframes]
  case reloadGroup =>
    rintro s die g rest recs l e x hicpLoad hpartEntry htodo hflag hdie hscrubHolds rfl hlength
    show execReloadGroup die recs s = _
    simp [execReloadGroup, hicpLoad, hpartEntry, htodo, hflag, hdie, hscrubHolds, hlength]


end Sys2Proof.Machine
end

section
/-! PROOFS. The loop engines' operations (10_loop_engines.md, 11_loop_programs.md): the row of each slot issues the instruction whole. -/

namespace Sys2Proof.Machine

/-- Settles O38: the row of the operation in the C slot issues the whole instruction; TRAP, where the instruction is legal,
takes its exception instead. -/
theorem leControlRowsComplete : Obligations.LeControlRowsComplete := by
  unfold Obligations.LeControlRowsComplete
  refine ⟨?_, ?_, ?_, ?_, ?_, ?_, ?_, ?_, ?_, ?_, ?_, ?_, ?_, ?_, ?_, ?_, ?_, ?_, ?_, ?trap⟩
  case trap =>
    intro s die eng i h hslot hlegal
    have hexc : leIssueExc (leFetched s die eng) die eng (engOf (leFetched s die eng) die eng) i = excTrap := by
      simp [leIssueExc, hlegal, hslot]
    exact congrArg _ (leRun_trap s die eng i _ h hexc (decide_eq_true hslot))
  all_goals
    intros
    exact congrArg _ (leRun_issued _ _ _ _ _ ‹issues _ _ _ _ = true› (decide_eq_true ‹_›))

/-- Settles O39: the row of the operation in the X, Y or M slot issues the whole instruction. -/
theorem leDataRowsComplete : Obligations.LeDataRowsComplete := by
  unfold Obligations.LeDataRowsComplete
  refine ⟨?_, ?_, ?_, ?_, ?_, ?_, ?_, ?_, ?_, ?_, ?_, ?_, ?_, ?_, ?_, ?_, ?_, ?_, ?_, ?_, ?_, ?_, ?_, ?_, ?_⟩
  all_goals
    intros
    exact congrArg _ (leRun_issued _ _ _ _ _ ‹issues _ _ _ _ = true› (decide_eq_true ‹_›))

end Sys2Proof.Machine
end

section
/-! PROOFS. The loop engines (10_loop_engines.md): LE_MDATA, LE_CMD, starts, runs, streams, descriptors, direct mode and breakpoints. -/

namespace Sys2Proof.Machine

/-- Register 0x064 of an engine page is LE_MDATA: a read answers what the state map holds at LE_MADDR. -/
theorem regRead_mdata {s : State} {ini die e : Nat} {bar0 peek : Bool} (he : e < 288) (h : (mdataGet s die e).2.2 = none) :
    regRead s ini bar0 peek .le die (0x6000 + e) 0x064 = ((mdataGet s die e).1, 0, (mdataGet s die e).2.1) := by
  have hinst : (0x6000 + e) % 4096 = e := by omega
  have hfault : readFault s ini bar0 peek .le die (0x6000 + e) 0x064 = none := rfl
  rw [regRead, hfault, hinst]
  simp [h]

theorem regRead_mdata_fault {s : State} {ini die e code : Nat} {bar0 peek : Bool} (he : e < 288)
    (h : (mdataGet s die e).2.2 = some code) :
    regRead s ini bar0 peek .le die (0x6000 + e) 0x064 = (pageFault (mdataGet s die e).1 (lePage die e) code, 4, 0) := by
  have hinst : (0x6000 + e) % 4096 = e := by omega
  have hfault : readFault s ini bar0 peek .le die (0x6000 + e) 0x064 = none := rfl
  rw [regRead, hfault, hinst, lePage]
  simp [h]

theorem read_mdata {s : State} {ini die e : Nat} (he : e < 288) (h : reaches s ini die (0x6000 + e) 0x064 false = true) :
    cmdReadAt s ini (lePage die e + 0x064) false =
      regAnswer (regRead (reach s die (0x6000 + e) 0x064 false) ini false false .le die (0x6000 + e) 0x064).1 ini
        (pg die (0x6000 + e) + 0x064) false
        (regRead (reach s die (0x6000 + e) 0x064 false) ini false false .le die (0x6000 + e) 0x064).2.1
        (regRead (reach s die (0x6000 + e) 0x064 false) ini false false .le die (0x6000 + e) 0x064).2.2 :=
  readAt_done s ini die (0x6000 + e) 0x064 false .le (by omega) (by decide) (pageOf_le he) h

/-- The word of START in LE_CMD: bit 31 and the vector. -/
theorem startWord_fields (vec : Nat) : nBit (BitVec.ofNat 32 (2 ^ 31 + vec % 8)).toNat 31 = true ∧
    (BitVec.ofNat 32 (2 ^ 31 + vec % 8)).toNat % 8 = vec % 8 := by
  obtain ⟨x, hx⟩ : ∃ x, x = 2 ^ 31 + vec % 8 := ⟨_, rfl⟩
  rw [← hx]
  simp only [nBit, BitVec.toNat_ofNat, beq_iff_eq]
  refine ⟨?_, ?_⟩ <;> omega

theorem leCmd_start (s : State) (die e vec : Nat) : leCmd s die e (BitVec.ofNat 32 (2 ^ 31 + vec % 8)) =
    startPush s die e { src := .software, vec := vec % 8, arg := BitVec.ofNat 24 (getF s (lePage die e) LE_ARG_ARG) } := by
  obtain ⟨hgo, hvec⟩ := startWord_fields vec
  rw [leCmd, if_pos hgo, hvec]

theorem leCmd_abort (s : State) (die e : Nat) :
    leCmd s die e 0x40000000 = if (engOf s die e).cur.isSome then engAbort s die e false .idle else s := by
  have hgo : nBit (0x40000000 : Word).toNat 31 = false := by decide
  have habort : nBit (0x40000000 : Word).toNat 30 = true := by decide
  simp only [leCmd, hgo, habort, Bool.false_eq_true, if_false, if_true]

theorem leCmd_clear {s : State} {die e : Nat} (h : (engOf s die e).mode = .exc) : leCmd s die e 0x20000000 =
    leSettle (putFlag (setEng s die e { engOf s die e with mode := idleMode s die e .idle, before := .idle })
      (lePage die e) LE_EXC_VALID false) die e := by
  have hgo : nBit (0x20000000 : Word).toNat 31 = false := by decide
  have habort : nBit (0x20000000 : Word).toNat 30 = false := by decide
  have hclear : nBit (0x20000000 : Word).toNat 29 = true := by decide
  simp only [leCmd, hgo, habort, hclear, h, decide_true, Bool.and_self, Bool.false_eq_true, if_false, if_true]

theorem leWritten_cmd (s : State) (die e : Nat) (old w : Word) : leWritten s die e 0x04C old w = leCmd s die e w := by
  rw [leWritten, if_pos rfl]

/-- Settles O40: LE_MDATA and LE_CMD by what their register does; a start and a gate request where the engine's set
allows them. -/
theorem engineCommandsComplete : Obligations.EngineCommandsComplete := by
  unfold Obligations.EngineCommandsComplete
  refine ⟨?leMdataWrite, ?leMdataRead1, ?leMdataRead2, ?leStart, ?leAbort, ?leClear, ?fabricStart1, ?fabricStart2,
    ?startDequeue, ?setGateRequest⟩
  case leMdataWrite =>
    intro s ini die eng w heng hok
    show execLeMdataWrite ini die eng w s = _
    rw [execLeMdataWrite, if_pos heng, write_le heng hok, wrote, leWritten, if_neg (by decide), if_pos rfl]
  case leMdataRead1 =>
    rintro s u r ini die eng heng hreaches rfl rfl hword
    show execLeMdataRead ini die eng s = _
    rw [execLeMdataRead, if_pos heng, read_mdata heng hreaches, regRead_mdata heng hword, regAnswer_ok]
  case leMdataRead2 =>
    rintro s u r ini die eng code heng hreaches rfl rfl hword
    show execLeMdataRead ini die eng s = _
    rw [execLeMdataRead, if_pos heng, read_mdata heng hreaches, regRead_mdata_fault heng hword]
  case leStart =>
    rintro s u ini die eng vec heng hok rfl
    show execLeStart ini die eng vec s = _
    rw [execLeStart, if_pos heng, write_le heng hok, wrote, leWritten_cmd, leCmd_start]
  case leAbort =>
    rintro s u ini die eng heng hok rfl
    show execLeAbort ini die eng s = _
    rw [execLeAbort, if_pos heng, write_le heng hok, wrote, leWritten_cmd, leCmd_abort]
  case leClear =>
    rintro s u ini die eng heng hok rfl hexc
    show execLeClear ini die eng s = _
    rw [execLeClear, if_pos heng, write_le heng hok, wrote, leWritten_cmd, leCmd_clear hexc]
  case fabricStart1 =>
    intro s die eng vec arg hportsLive hdomOf hstartRefused
    show execFabricStart die eng vec arg s = _
    simp [execFabricStart, hportsLive, hdomOf, hstartRefused]
  case fabricStart2 =>
    intro s die eng vec arg hportsLive hdomOf
    show execFabricStart die eng vec arg s = _
    simp [execFabricStart, hportsLive, hdomOf]
  case startDequeue =>
    rintro s u v die eng a q r y hengOf hs hleFrozen hgateShut rfl rfl rfl rfl
    show execStartDequeue die eng s = _
    simp [execStartDequeue, hengOf, hs, hleFrozen, hgateShut]
  case setGateRequest =>
    intro s die set hsetIdle hcontains
    show execSetGateRequest die set s = _
    simp [execSetGateRequest, hsetIdle, hcontains, -List.contains_eq_mem]

/-- Settles O41: the engine's mode, its streams and its descriptors decide which event acts. -/
theorem engineEventsComplete : Obligations.EngineEventsComplete := by
  unfold Obligations.EngineEventsComplete
  refine ⟨?runComplete, ?stallTimeout, ?streamBeatIn, ?streamBeatOut, ?nocDescriptorDone1, ?nocDescriptorDone2,
    ?directOp, ?breakpointHit, ?dataWatchHit⟩
  case runComplete =>
    rintro s die eng y hending hdescs hgate rfl
    show execRunComplete die eng s = _
    exact congrArg _ (if_neg (by rw [Option.isNone_eq_false_iff.2 hending, hgate, hdescs]; decide))
  case stallTimeout =>
    intro s die eng hengOf hs hgateShut hgetF
    show execStallTimeout die eng s = _
    simp [execStallTimeout, hengOf, hs, hgateShut, hgetF]
  case streamBeatIn =>
    intro s die eng port data last hlive hport hmode hroom
    show execStreamBeatIn die eng port data last s = _
    rcases Nat.mod_two_eq_zero_or_one port with h | h
    all_goals
      rw [h] at hport hroom
      simp [execStreamBeatIn, hlive, h, hport, hmode]
      intro hfull
      exact absurd hroom (by simpa using hfull)
  case streamBeatOut =>
    intro s die eng port hlive hport
    show execStreamBeatOut die eng port s = _
    rcases Nat.mod_two_eq_zero_or_one port with h | h <;> simp [execStreamBeatOut, hlive, h] <;> simp_all
  case nocDescriptorDone1 =>
    rintro s x d die eng k bs rfl rfl hbusy hresp
    show execNocDescriptorDone die eng k s = _
    simp [execNocDescriptorDone, hbusy, hresp]
  case nocDescriptorDone2 =>
    rintro s d die eng k code bs rfl hbusy hresp hcode
    show execNocDescriptorDone die eng k s = _
    simp [execNocDescriptorDone, hbusy, hresp, hcode]
  case directOp =>
    rintro s die eng op a b hi r hmode hgate henabled hclock hop rfl
    have hone : op ≠ 0 := by omega
    have hfour : ¬ 4 < op := by omega
    show execDirectOp die eng a b op hi s = _
    simp [execDirectOp, hmode, hgate, henabled, hclock, hone, hfour]
  case breakpointHit =>
    intro s die eng hengOf hs hbpHere
    show execBreakpointHit die eng s = _
    simp [execBreakpointHit, hengOf, hs, hbpHere]
  case dataWatchHit =>
    intro s die eng hengOf
    show execDataWatchHit die eng s = _
    simp [execDataWatchHit, hengOf]


end Sys2Proof.Machine
end

section
/-! PROOFS. Packets (12_noc.md): what arrives at an endpoint, accesses, heads at their routers, ageing and audits. -/

namespace Sys2Proof.Machine

/-- A router is on a die of the package: no die numbered 15 or above has one. -/
theorem nodeDie_lt {node : Nat} (h : nodeRtr node < routerCount (nodeDie node)) : nodeDie node < 15 := by
  by_contra hdie
  have hfabric : isFabric (nodeDie node) = false := by simp [isFabric]; omega
  have height : nodeDie node ≠ 8 := by omega
  simp [routerCount, hfabric, height, hdie] at h

/-- A head that is in flight comes to the input port of its router, or to the endpoint of the seam there. -/
theorem headArrival_routed {s : State} {node port flaw : Nat} {p : Packet} (hrouter : nodeRtr node < routerCount (nodeDie node))
    (hep : nodeEp node = 0) (hflight : inFlight s p = true) (hport : seamAt (nodeDie node) (nodeRtr node) port = none) :
    execHeadArrival node port p flaw s = .next (headAt s node port flaw p) := by
  have hdie : ¬ 15 ≤ nodeDie node := by have := nodeDie_lt hrouter; omega
  have hthere : ¬ routerCount (nodeDie node) ≤ nodeRtr node := by omega
  simp [execHeadArrival, hthere, hep, hdie, hflight, hport]

/-- Settles O42: a packet in flight arrives by its command; a head goes to its router's port, or to the seam's
endpoint there. -/
theorem packetsComplete : Obligations.PacketsComplete := by
  unfold Obligations.PacketsComplete
  refine ⟨?rd, ?wr, ?pwr, ?strm, ?rsp, ?crd, ?cfg, ?mgmt1, ?mgmt2, ?mrsp1, ?mrsp2, ?accessInject, ?headArrival1, ?headArrival2, ?headArrival3, ?urgencyAge, ?linkAudit, ?pairAudit⟩
  case rd =>
    intro s p hinFlight hcmd hinOrder
    show execRd p s = _
    simp [execRd, hinFlight, hcmd, hinOrder]
  case wr =>
    intro s p hinFlight hcmd hinOrder
    show execWr p s = _
    simp [execWr, hinFlight, hcmd, hinOrder]
  case pwr =>
    intro s p hinFlight hcmd hinOrder
    show execPwr p s = _
    simp [execPwr, hinFlight, hcmd, hinOrder]
  case strm =>
    intro s p hinFlight hcmd hinOrder
    show execStrm p s = _
    simp [execStrm, hinFlight, hcmd, hinOrder]
  case rsp =>
    intro s p lat o hinFlight hflightDel
    show execRsp p lat s = _
    simp [execRsp, hinFlight, hflightDel]
  case crd =>
    intro s p i hinFlight hnodeIni
    show execCrd p s = _
    simp [execCrd, hinFlight, hnodeIni]
  case cfg =>
    rintro s u p die r hinFlight hcmd rfl rfl hisolated hpoison rfl
    show execCfg p s = _
    simp [execCfg, hinFlight, hcmd, hisolated, hpoison]
  case mgmt1 =>
    intro s p hinFlight hcmd hisDrain
    show execMgmt p s = _
    simp [execMgmt, hinFlight, hcmd, hisDrain]
  case mgmt2 =>
    intro s p hinFlight hcmd hisDrain
    show execMgmt p s = _
    simp [execMgmt, hinFlight, hcmd, hisDrain]
  case mrsp1 =>
    intro s p hflight hcmd hplain
    have hkeep : ((p.src = 72 || p.src = 73) && p.code != 0) = false := by
      rcases hplain with ⟨h72, h73⟩ | hok
      · simp [h72, h73]
      · simp [hok]
    show execMrsp p s = _
    simp only [execMrsp, hflight, hcmd, hkeep]
    simp
  case mrsp2 =>
    rintro s u p die hinFlight hcmd hsrc hcode rfl rfl hrejoinAt
    show execMrsp p s = _
    simp [execMrsp, hinFlight, hcmd, hsrc, hcode, hrejoinAt]
  case accessInject =>
    intro s a hmayAccess
    show execAccessInject a s = _
    simp [execAccessInject, hmayAccess]
  case headArrival1 =>
    rintro s u h r node port flaw p hrouter hep hflight hport hflaw rfl rfl rfl
    refine (headArrival_routed hrouter hep hflight hport).trans (congrArg _ ?_)
    rw [headAt, if_neg hflaw]
    rfl
  case headArrival2 =>
    intro s node port p hrouter hep hflight hport
    refine (headArrival_routed hrouter hep hflight hport).trans (congrArg _ ?_)
    rw [headAt, if_pos rfl]
    rfl
  case headArrival3 =>
    intro s node port m k flaw p hrouter hep hflight hport hready
    have hdie : ¬ 15 ≤ nodeDie node := by have := nodeDie_lt hrouter; omega
    have hthere : ¬ routerCount (nodeDie node) ≤ nodeRtr node := by omega
    show execHeadArrival node port p flaw s = _
    simp [execHeadArrival, hthere, hep, hdie, hflight, hport, hready]
  case urgencyAge =>
    rintro s u node hgetF rfl
    show execUrgencyAge node s = _
    simp [execUrgencyAge, hgetF]
  case linkAudit =>
    intro s node port lane onLink inBuffer returning
    show execLinkAudit node port lane onLink inBuffer returning s = _
    simp [execLinkAudit]
  case pairAudit =>
    intro s ini target hquotaOf hpairDeferred hany
    show execPairAudit ini target s = _
    simp [execPairAudit, hquotaOf, hpairDeferred, hany]


end Sys2Proof.Machine
end

section
/-! PROOFS. Control of the network (12_noc.md): route updates, quench, bridges, time-outs, and the beats of the fabric's ports. -/

namespace Sys2Proof.Machine

/-- Registers 0x400 + 256 * e of a router's page are the bridge's of endpoint e: BR_CTRL of its window. -/
theorem windowNode_of_node (node : Nat) : windowNode (nodeDie node) (nodeRtr node) (0x400 + 256 * nodeEp node) = node := by
  simp only [windowNode, mkNode, nodeDie, nodeRtr, nodeEp]
  omega

theorem nrWritten_bridge (s : State) (node : Nat) (old w : Word) :
    nrWritten s (nodeDie node) (nodeRtr node) (0x400 + 256 * nodeEp node) old w =
      (let t := if wGet w 31 1 = 1 then isoEnter s node 1 true true
        else if wGet old 31 1 = 1 then unitsGo (isoLeave s node 1 true true) else s
      if wGet w 30 1 = 1 then statZero t node else t) := by
  have hwindow : 0x400 ≤ 0x400 + 256 * nodeEp node ∧ (0x400 + 256 * nodeEp node) % 256 = 0 := by omega
  rw [nrWritten, if_pos (by rw [Bool.and_eq_true, decide_eq_true_eq, decide_eq_true_eq]; exact hwindow),
    windowNode_of_node]

theorem write_bridge {s : State} {ini node : Nat} {w : Word}
    (h : writeOkAt s ini (nodePage node + (0x400 + 256 * nodeEp node)) w = true) :
    cmdWriteAt s ini (nodePage node + (0x400 + 256 * nodeEp node)) w =
      wrote s (nodePage node + (0x400 + 256 * nodeEp node)) w fun u old =>
        nrWritten u (nodeDie node) (nodeRtr node) (0x400 + 256 * nodeEp node) old w := by
  have hrouter : nodeRtr node < 32 := Nat.mod_lt _ (by decide)
  have hep : nodeEp node < 8 := Nat.mod_lt _ (by decide)
  exact write_nr (by omega) h

theorem rtWritten_go (s : State) (w : Word) (h : wGet w 31 1 = 1) :
    rtWritten s 0x04C w = routeLoad s (wGet w 0 1 == 1) := by
  simp [rtWritten, h]

/-- Settles O43: writes go by what their register does; a drain, a time-out and a beat by the run, the slot or the
port they belong to. -/
theorem networkControlComplete : Obligations.NetworkControlComplete := by
  unfold Obligations.NetworkControlComplete
  refine ⟨?routeCheck, ?routeInstall, ?drain1, ?drain2, ?drainComplete, ?drainTimeout, ?quenchWrite,
    ?bridgeIsolate, ?statClr, ?targetTimeout, ?responseTimeout, ?rqBeat, ?rsBeat, ?tqBeat1, ?tqBeat2, ?trBeat⟩
  case routeCheck =>
    rintro s u ini hok rfl
    show execRouteCheck ini s = _
    rw [execRouteCheck, write_rt hok, wrote, rtWritten_go _ _ (by decide)]
    rfl
  case routeInstall =>
    rintro s u ini hok rfl
    show execRouteInstall ini s = _
    rw [execRouteInstall, write_rt hok, wrote, rtWritten_go _ _ (by decide)]
    rfl
  case drain1 =>
    intro s node p t hfind hblock hjoined
    show execDrain node s = _
    simp only [execDrain, hfind, drainArrive, hblock]
    rw [if_neg (by simp [hjoined])]
  case drain2 =>
    intro s node p hfind hbad
    show execDrain node s = _
    simp only [execDrain, hfind, drainArrive]
    split
    case h_1 t hblock =>
      have hout : isolated (flightDel s p) (nodeDie p.dst) = true := hbad.resolve_left (by simp [hblock])
      simp [hblock, hout]
    case h_2 hblock => simp [hblock]
  case drainComplete =>
    rintro s u v node r t htabGet hrun hdrainBusy rfl rfl
    show execDrainComplete node s = _
    simp [execDrainComplete, htabGet, hrun, hdrainBusy]
  case drainTimeout =>
    rintro s u node r t htabGet hrun rfl
    show execDrainTimeout node s = _
    simp [execDrainTimeout, htabGet, hrun]
  case quenchWrite =>
    intro s ini k w hk hok
    show execQuenchWrite ini k w s = _
    rw [execQuenchWrite, if_pos hk, Nat.add_assoc, write_qu hok, wrote, quWritten, if_pos (by omega)]
  case bridgeIsolate =>
    rintro s u t ini node a on w old hnode rfl hw hok rfl rfl rfl
    have hfield : wGet w 31 1 = ofBool on % 2 ^ 1 := by
      rw [hw]
      exact wGet_setWord _ _ (brF NR_BR_CTRL_ISOLATE node) _ (show 31 + 1 ≤ 32 by decide)
    have hon : wGet w 31 1 = 1 ↔ on = true := by rw [hfield]; cases on <;> decide
    show execBridgeIsolate ini node on s = _
    rw [execBridgeIsolate, if_pos hnode, cmdSet_at (off := 0x400 + 256 * nodeEp node) rfl, ← hw, write_bridge hok,
      wrote,
      nrWritten_bridge]
    simp only [hon]
  case statClr =>
    rintro s u t ini node a w old hnode rfl hw hok rfl rfl rfl
    have hclear : wGet w 30 1 = 1 := by
      rw [hw]
      exact wGet_setWord _ _ (brF NR_BR_CTRL_STAT_CLR node) _ (show 30 + 1 ≤ 32 by decide)
    show execStatClr ini node s = _
    rw [execStatClr, if_pos hnode, cmdSet_at (off := 0x400 + 256 * nodeEp node) rfl, ← hw, write_bridge hok, wrote,
      nrWritten_bridge]
    simp only [hclear, if_true]
  case targetTimeout =>
    intro s node htime hslot
    exact congrArg _ (if_neg (by rw [hslot, decide_eq_false htime]; decide))
  case responseTimeout =>
    rintro s u ini tag o hfind hbrGet rfl
    show execResponseTimeout ini tag s = _
    simp [execResponseTimeout, hfind, hbrGet]
  case rqBeat =>
    intro s die port b hfabric hport hready hruns
    have hwaits : ¬((nocPort s die port).rq = [] ∧ rqReady s die port b = false) := by
      rintro ⟨hempty, hfull⟩
      simp [hready hempty] at hfull
    show execRqBeat die port b s = _
    cases hlast : b.last <;> simp [execRqBeat, hfabric, hruns, hport, hwaits, hlast]
  case rsBeat =>
    intro s die port b r hbeats hruns
    show execRsBeat die port s = _
    cases hlast : b.last <;> simp [execRsBeat, hruns, hbeats, hlast]
  case tqBeat1 =>
    rintro s u die port b r hbeats hu hstays hruns
    show execTqBeat die port s = _
    simp only [execTqBeat, hruns, if_true, hbeats, ← hu]
    split
    case isTrue hdone =>
      obtain ⟨hlast, hkind⟩ : b.last = true ∧ 2 ≤ b.kind := by simpa using hdone
      have hnone := (hstays.resolve_left (by simp [hlast])).resolve_left (by omega)
      rw [hnone]
    case isFalse => rfl
  case tqBeat2 =>
    rintro s u die port b r y hnocPort rfl hlast hkind hfind hportRuns
    show execTqBeat die port s = _
    simp [execTqBeat, hnocPort, hlast, hkind, hfind, hportRuns]
  case trBeat =>
    intro s die port b hfabric hport hruns
    show execTrBeat die port b s = _
    cases hlast : b.last <;> simp [execTrBeat, hfabric, hruns, hport, hlast]


end Sys2Proof.Machine
end

section
/-! PROOFS. Frames of the seams (13_seams.md): what each kind of frame does, the sender's timers, training and the credit audit. -/

namespace Sys2Proof.Machine

section Seams
variable {s : State} {die seam : Nat}

/-- An endpoint that is neither OFF nor ISOLATED looks at a frame: one whose CRC fails is counted and no more. -/
theorem frameIn_live {crcOk : Bool} {f : State → State} (hon : seamOn die seam = true)
    (hlive : seamState s die seam ≠ 0 ∧ seamState s die seam ≠ 8) :
    frameIn s die seam crcOk f = if crcOk then f s else countUp s (smPage die seam) SM_CRC_COUNT 1 := by
  cases crcOk <;> simp [frameIn, hon, hlive]

/-- Channel 0 goes from READY on, every channel in UP. -/
theorem channelOpen_live {ch : Nat} (h : seamState s die seam = 7 ∨ (seamState s die seam = 6 ∧ ch = 0)) :
    seamState s die seam ≠ 0 ∧ seamState s die seam ≠ 8 := by omega

end Seams

/-- Settles O44: every frame goes through the check of its CRC; the timers and steps act in the states that have them.
-/
theorem seamFramesComplete : Obligations.SeamFramesComplete := by
  unfold Obligations.SeamFramesComplete
  refine ⟨?seamData1, ?seamData2, ?seamData3, ?seamAck, ?seamScred, ?seamHcred, ?seamTrain, ?seamWidth, ?seamIdle, ?counterFrameDue, ?replayTimeout, ?seamCrcSilence, ?seamTrainStepDone1, ?seamTrainStepDone2, ?seamTrainFail, ?creditConditionsMet, ?widthStepTimeout, ?seamCreditAudit⟩
  case seamData1 =>
    rintro s die seam link ch seq flaw flit hon hopen hlink hch rfl
    have hnone : ¬ seamLinks seam ≤ link := by omega
    show execSeamData die seam link ch _ flit true flaw s = _
    rw [execSeamData, frameIn_live hon (channelOpen_live hopen), if_pos (by simp [hch])]
    rcases hopen with h | ⟨h, h0⟩ <;> simp [dataFrame, *]
  case seamData2 =>
    intro s die seam link ch seq flaw flit hon hopen hlink hch hseq
    have hnone : ¬ seamLinks seam ≤ link := by omega
    show execSeamData die seam link ch seq flit true flaw s = _
    rw [execSeamData, frameIn_live hon (channelOpen_live hopen), if_pos (by simp [hch])]
    rcases hopen with h | ⟨h, h0⟩ <;> simp [dataFrame, *]
  case seamData3 =>
    intro s die seam link ch seq flaw flit crcOk hon hlive hbad
    show execSeamData die seam link ch seq flit crcOk flaw s = _
    rw [execSeamData, frameIn_live hon hlive, if_neg (by rcases hbad with h | h <;> simp [h])]
  case seamAck => exact fun s die seam acks crcOk hon hlive => congrArg _ (frameIn_live hon hlive)
  case seamScred => exact fun s die seam counters crcOk hon hlive => congrArg _ (frameIn_live hon hlive)
  case seamHcred => exact fun s die seam counters crcOk hon hlive => congrArg _ (frameIn_live hon hlive)
  case seamTrain =>
    rintro s die seam fromDie seamNo widthReq vcEn epoch hon hlive hfar hseam hepoch
    show execSeamTrain die seam fromDie seamNo widthReq vcEn epoch true s = _
    rw [execSeamTrain, frameIn_live hon hlive, if_pos rfl]
    simp only [trainFrame, hfar, hseam, hepoch]
    simp
  case seamWidth => exact fun s die seam widthReq reply crcOk hon hlive => congrArg _ (frameIn_live hon hlive)
  case seamIdle => exact fun s die seam crcOk hon hlive => congrArg _ (frameIn_live hon hlive)
  case counterFrameDue =>
    intro s die seam kind hseamOn hseamReady
    show execCounterFrameDue die seam kind s = _
    simp [execCounterFrameDue, hseamOn, hseamReady]
  case replayTimeout =>
    intro s die seam link hseamOn hseamReady hepLink
    show execReplayTimeout die seam link s = _
    simp [execReplayTimeout, hseamOn, hseamReady, hepLink]
  case seamCrcSilence =>
    intro s die seam hseamOn
    show execSeamCrcSilence die seam s = _
    simp [execSeamCrcSilence, hseamOn]
  case seamTrainStepDone1 =>
    intro s die seam st hon hstate hst
    show execSeamTrainStepDone die seam s = _
    rcases hst with rfl | rfl | rfl <;> simp [execSeamTrainStepDone, hon, hstate]
  case seamTrainStepDone2 =>
    intro s die seam hon hready hstep
    have hstate : seamState s die seam = 6 ∨ seamState s die seam = 7 := by simpa [seamReady] using hready
    show execSeamTrainStepDone die seam s = _
    rcases hstate with h | h <;> simp [execSeamTrainStepDone, hon, h, hstep]
  case seamTrainFail =>
    rintro s u die seam hon hlow hhigh rfl
    have hbelow : ¬ seamState s die seam < 2 := by omega
    have habove : ¬ 4 < seamState s die seam := by omega
    show execSeamTrainFail die seam s = _
    simp [execSeamTrainFail, hon, hbelow, habove]
  case creditConditionsMet =>
    rintro s u die seam us hseamOn hseamState hcreditReady rfl
    show execCreditConditionsMet die seam us s = _
    simp [execCreditConditionsMet, hseamOn, hseamState, hcreditReady]
  case widthStepTimeout =>
    rintro s die seam x hstep ⟨hsome, hwait⟩
    show execWidthStepTimeout die seam s = _
    rw [execWidthStepTimeout, hstep]
    cases x
    case none => exact absurd rfl hsome
    case widening => exact absurd rfl hwait
    all_goals rfl
  case seamCreditAudit =>
    rintro s die seam link ch unseen hon hopen hlink hch rfl
    have hnone : ¬ seamLinks seam ≤ link := by omega
    have hchannel : ¬ 5 ≤ ch := by omega
    show execSeamCreditAudit die seam link ch s = _
    rcases hopen with h | ⟨h, h0⟩ <;> simp [execSeamCreditAudit, hon, hnone, hchannel, h]
    simp [h0]


end Sys2Proof.Machine
end

section
/-! PROOFS. Control of the seams (13_seams.md): retraining, VC_EN and widths, isolation of a die and its rejoin. -/

namespace Sys2Proof.Machine

theorem seamOn_lt {die seam : Nat} (h : seamOn die seam = true) : seam < 18 := by
  simp only [seamOn, Bool.and_eq_true, decide_eq_true_eq] at h
  exact h.1

/-- A word of one command bit `2 ^ b` and a number below it that four bits hold. -/
theorem goWord_fields {b : Nat} (hb : b = 30 ∨ b = 31) (n : Nat) :
    wGet (BitVec.ofNat 32 (2 ^ b + n % 16)) 0 4 = n % 16 ∧
      wGet (BitVec.ofNat 32 (2 ^ b + n % 16)) 30 1 = 31 - b ∧ wGet (BitVec.ofNat 32 (2 ^ b + n % 16)) 31 1 = b - 30 := by
  obtain ⟨x, hx⟩ : ∃ x, x = 2 ^ b + n % 16 := ⟨_, rfl⟩
  rw [← hx]
  simp only [wGet, nGet, BitVec.toNat_ofNat]
  rcases hb with rfl | rfl <;> refine ⟨?_, ?_, ?_⟩ <;> omega

theorem diWritten_isolate (s : State) (die : Nat) :
    diWritten s 0x040 (BitVec.ofNat 32 (2 ^ 31 + die % 16)) = isolateDie s (die % 16) 1 := by
  obtain ⟨hdie, -, hisolate⟩ := goWord_fields (.inr rfl) die
  rw [diWritten, if_pos rfl, hdie, hisolate]
  rfl

theorem diWritten_rejoin (s : State) (die : Nat) :
    diWritten s 0x040 (BitVec.ofNat 32 (2 ^ 30 + die % 16)) = rejoinStart s (die % 16) := by
  obtain ⟨hdie, hrejoin, hisolate⟩ := goWord_fields (.inl rfl) die
  rw [diWritten, if_pos rfl, hdie, hisolate, hrejoin]
  rfl

/-- Settles O45: a write acts by the values before and after it; a die's isolation and rejoin go by their cause and
their step. -/
theorem seamControlComplete : Obligations.SeamControlComplete := by
  unfold Obligations.SeamControlComplete
  refine ⟨?retrain, ?vcEnWrite, ?widthReqWrite, ?dieIsolateWrite, ?heartbeatTimeout, ?seamsDownTimeout,
    ?dieResetRequest, ?rejoin, ?autoRejoin, ?rejoinStepDone1, ?rejoinStepDone2⟩
  case retrain =>
    rintro s w ini die seam hseam hw hok
    have hretrain : wGet w 31 1 = 1 := by
      rw [hw]
      exact wGet_setWord _ _ SM_CTRL_RETRAIN _ (by decide)
    show execRetrain ini die seam s = _
    rw [execRetrain, if_pos hseam, cmdSet_at (off := 0x040) rfl, ← hw, write_sm (seamOn_lt hseam) hok, wrote,
      smWritten,
      if_pos rfl, hretrain]
    simp [smCtrlWritten]
  case vcEnWrite =>
    rintro s w ini die seam on hseam hw hok
    show execVcEnWrite ini die seam on s = _
    rw [execVcEnWrite, if_pos hseam, cmdSet_at (off := 0x040) rfl, ← hw, write_sm (seamOn_lt hseam) hok, wrote,
      smWritten,
      if_pos rfl]
  case widthReqWrite =>
    rintro s w ini die seam half hseam hw hok
    show execWidthReqWrite ini die seam half s = _
    rw [execWidthReqWrite, if_pos hseam, cmdSet_at (off := 0x040) rfl, ← hw, write_sm (seamOn_lt hseam) hok, wrote,
      smWritten, if_pos rfl]
  case dieIsolateWrite =>
    rintro s u ini die hok rfl
    show execDieIsolateWrite ini die s = _
    rw [execDieIsolateWrite, write_di hok, wrote, diWritten_isolate]
  case heartbeatTimeout =>
    intro s die hbeatsRun
    show execHeartbeatTimeout die s = _
    simp [execHeartbeatTimeout, hbeatsRun]
  case seamsDownTimeout =>
    intro s die hphase hdieSeams
    show execSeamsDownTimeout die s = _
    simp [execSeamsDownTimeout, hphase, hdieSeams]
  case dieResetRequest =>
    intro s die hbeatsRun
    show execDieResetRequest die s = _
    simp [execDieResetRequest, hbeatsRun]
  case rejoin =>
    rintro s u ini die hok rfl
    show execRejoin ini die s = _
    rw [execRejoin, write_di hok, wrote, diWritten_rejoin]
  case autoRejoin =>
    intro s die hdie ha hnBit hgetF hcontains hcauseEnded
    show execAutoRejoin die s = _
    simp [execAutoRejoin, hdie, ha, hnBit, hgetF, hcontains, hcauseEnded, -List.contains_eq_mem]
  case rejoinStepDone1 =>
    intro s die k hgetF hrejoinAt hrejoinLead hrejoinStepReady
    show execRejoinStepDone die true s = _
    simp [execRejoinStepDone, hgetF, hrejoinAt, hrejoinLead, hrejoinStepReady]
  case rejoinStepDone2 =>
    intro s die k hgetF hrejoinAt hrejoinLead
    show execRejoinStepDone die false s = _
    simp [execRejoinStepDone, hgetF, hrejoinAt, hrejoinLead]


end Sys2Proof.Machine
end

section
/-! PROOFS. Lanes and bundles (14_lanes.md): their events, and the commands of LB_BCFG, LQ_CTRL, LQ_PCHK and LQ_PGEN. -/

namespace Sys2Proof.Machine

/-- Settles O46: the state of the lane or of its bundle decides which event acts. -/
theorem laneEventsComplete : Obligations.LaneEventsComplete := by
  unfold Obligations.LaneEventsComplete
  refine ⟨?synthLocked, ?synthesiserUnlock, ?signalDetect1, ?signalDetect2, ?signalLoss1, ?signalLoss2, ?lfmWindow,
    ?seedRejectTimeout, ?bundleTrainTimeout, ?pcsAligned, ?alignmentLoss, ?idleReturnCheck, ?checkerLock,
    ?patternCheckerLockLoss⟩
  case synthLocked =>
    intro s lane hlaneHere hlaneShown
    show execSynthLocked lane s = _
    simp [execSynthLocked, hlaneHere, hlaneShown]
  case synthesiserUnlock =>
    intro s lane hlaneHere hnBit
    show execSynthesiserUnlock lane s = _
    simp [execSynthesiserUnlock, hlaneHere, hnBit]
  case signalDetect1 =>
    rintro s u v lane hlaneHere hlaneState rfl rfl hbundleOn
    show execSignalDetect lane s = _
    simp [execSignalDetect, hlaneHere, hlaneState, hbundleOn]
  case signalDetect2 =>
    rintro s u v lane k hlaneHere hlaneState rfl rfl hbundleOn
    show execSignalDetect lane s = _
    simp [execSignalDetect, hlaneHere, hlaneState, hbundleOn]
  case signalLoss1 =>
    rintro s u lane k together hlaneHere hlaneState rfl hbundleOn hbundleState
    show execSignalLoss lane together s = _
    simp [execSignalLoss, hlaneHere, hlaneState, hbundleOn, hbundleState]
  case signalLoss2 =>
    rintro s u lane together hhere hstate hu hquiet
    show execSignalLoss lane together s = _
    simp only [execSignalLoss, hhere, ← hu]
    rw [if_neg (by simp [hstate])]
    split
    case h_1 => rfl
    case h_2 k hk =>
      have hstate' : bundleState u (laneDie lane) k ≠ 4 := by simpa [hk] using hquiet
      rw [if_pos (by simp [hstate'])]
  case lfmWindow =>
    rintro s lane eyes above cfg ms r hlfmCounts rfl
    show execLfmWindow lane eyes above cfg ms s = _
    simp [execLfmWindow, hlfmCounts]
  case seedRejectTimeout =>
    rintro s u v lane hlaneHere hlaneState hflag hlaneOf rfl rfl
    show execSeedRejectTimeout lane s = _
    simp [execSeedRejectTimeout, hlaneHere, hlaneState, hflag, hlaneOf]
  case bundleTrainTimeout =>
    intro s die k hbundleIn
    show execBundleTrainTimeout die k s = _
    simp [execBundleTrainTimeout, hbundleIn]
  case pcsAligned =>
    intro s die k logical inverted skew hbundleIn
    show execPcsAligned die k logical inverted skew s = _
    simp [execPcsAligned, hbundleIn]
  case alignmentLoss =>
    intro s die k hbundleIn
    show execAlignmentLoss die k s = _
    simp [execAlignmentLoss, hbundleIn]
  case idleReturnCheck =>
    intro s die k hbundleIn hflag hs hbundleLanes
    show execIdleReturnCheck die k s = _
    simp [execIdleReturnCheck, hbundleIn, hflag, hs, hbundleLanes]
  case checkerLock =>
    intro s lane hlaneHere hlaneState hflag
    show execCheckerLock lane s = _
    simp [execCheckerLock, hlaneHere, hlaneState, hflag]
  case patternCheckerLockLoss =>
    intro s lane hlaneHere hflag
    show execPatternCheckerLockLoss lane s = _
    simp [execPatternCheckerLockLoss, hlaneHere, hflag]

/-- Registers 0x080 + 8 * k of a lane die's bundle page are LB_BCFG of bundle k. -/
theorem lbWritten_bundle (s : State) (die : Nat) {off k : Nat} (hoff : off = 0x080 + 8 * k) (hk : k < 16) (old w : Word) :
    lbWritten s die off old w = bcfgWritten s die k old w := by
  have hrange : 0x080 ≤ off ∧ off < 0x100 := by omega
  have haligned : off % 8 = 0 := by omega
  have hnumber : (off - 0x080) / 8 = k := by omega
  simp [lbWritten, hrange, haligned, hnumber]

theorem cmdSet_bundle {s : State} {ini die k : Nat} {f : FieldRef} {v : Nat} (hoff : f.off = 0x080) (hstride : f.stride = 8)
    (hk : k < 16) (hok : writeOkAt s ini (lbPage die + (0x080 + 8 * k)) (setWord s (lbPage die) [(f.nth k, v)]) = true) :
    cmdSet s ini (lbPage die) [(f.nth k, v)] =
      answer (holdsWake (bcfgWritten (storedAt s (lbPage die + (0x080 + 8 * k)) (setWord s (lbPage die) [(f.nth k, v)])) die k
        (getReg (reachAt s (lbPage die + (0x080 + 8 * k))) (lbPage die + (0x080 + 8 * k)))
        (setWord s (lbPage die) [(f.nth k, v)])) die) 0 0 := by
  rw [cmdSet_at (off := 0x080 + 8 * k) (by rw [FieldRef.nth, hoff, hstride]), write_lb hok, wrote,
    lbWritten_bundle _ _ rfl hk]

/-- Register `o` of lane `lane` lies at 0x100 + 0x80 * (lane % 4) + o of the page of its quad. -/
theorem lqWritten_lane (s : State) {lane off o : Nat} (hoff : off = 0x100 + 0x80 * laneK lane + o) (ho : o < 0x80) (w : Word) :
    lqWritten s (laneDie lane) (lane % 32 / 4) off w = laneWritten s (laneDie lane) lane o w := by
  simp only [laneK] at hoff
  have hlane : ¬ off < 0x100 := by omega
  have hnumber : laneNo (laneDie lane) (4 * (lane % 32 / 4) + (off - 0x100) / 0x80 % 4) = lane := by
    simp only [laneNo, laneDie]
    omega
  have hregister : off % 0x80 = o := by omega
  rw [lqWritten, if_neg hlane, hnumber, hregister]

theorem write_lane {s : State} {ini lane off o : Nat} {w : Word} (hoff : off = 0x100 + 0x80 * laneK lane + o) (ho : o < 0x80)
    (hok : writeOkAt s ini (laneQuad lane + off) w = true) :
    cmdWriteAt s ini (laneQuad lane + off) w =
      answer (laneWritten (storedAt s (laneQuad lane + off) w) (laneDie lane) lane o w) 0 0 := by
  have hk : laneK lane < 4 := Nat.mod_lt _ (by decide)
  rw [laneQuad] at hok ⊢
  rw [write_lq (by omega) hok, wrote, lqWritten_lane _ hoff ho]

/-- Settles O47: each row writes one field of a register of its bundle or lane, and that register's effect follows. -/
theorem laneCommandsComplete : Obligations.LaneCommandsComplete := by
  unfold Obligations.LaneCommandsComplete
  refine ⟨?bundleEnWrite, ?bundleRetrain, ?bundleIdleWrite, ?seedSave, ?seedClr, ?checkerClear, ?injGo⟩
  case bundleEnWrite =>
    rintro s w ini die k on hk rfl hok
    exact congrArg _ ((if_pos hk).trans (cmdSet_bundle rfl rfl hk hok))
  case bundleRetrain =>
    rintro s w ini die k hk rfl hok
    exact congrArg _ ((if_pos hk).trans (cmdSet_bundle rfl rfl hk hok))
  case bundleIdleWrite =>
    rintro s w ini die k on hk rfl hok
    exact congrArg _ ((if_pos hk).trans (cmdSet_bundle rfl rfl hk hok))
  case seedSave =>
    rintro s u w ini lane hlane hw hok rfl
    have hsave : wGet w 0 1 = 1 := by
      rw [hw]
      exact wGet_setWord _ _ (lf LQ_CTRL_SEED_SAVE lane) _ (show 0 + 1 ≤ 32 by decide)
    show execSeedSave ini lane s = _
    rw [execSeedSave, if_pos hlane, cmdSet_at (off := 0x114 + 0x80 * laneK lane) rfl, ← hw,
      write_lane (o := 0x14) (by omega) (by decide) hok, laneWritten, if_neg (by decide), if_pos rfl, seedCtrl, if_pos hsave]
  case seedClr =>
    rintro s u w ini lane hlane hw hok rfl hsave
    have hclear : wGet w 1 1 = 1 := by
      rw [hw]
      exact wGet_setWord _ _ (lf LQ_CTRL_SEED_CLR lane) _ (show 1 + 1 ≤ 32 by decide)
    show execSeedClr ini lane s = _
    rw [execSeedClr, if_pos hlane, cmdSet_at (off := 0x114 + 0x80 * laneK lane) rfl, ← hw,
      write_lane (o := 0x14) (by omega) (by decide) hok, laneWritten, if_neg (by decide), if_pos rfl, seedCtrl,
      if_neg (by omega), if_pos hclear]
  case checkerClear =>
    rintro s u w ini lane hlane hw hok rfl
    show execCheckerClear ini lane s = _
    rw [execCheckerClear, if_pos hlane, cmdSet_at (off := 0x134 + 0x80 * laneK lane) rfl, ← hw,
      write_lane (o := 0x34) (by omega) (by decide) hok, laneWritten, if_neg (by decide), if_neg (by decide),
      if_neg (by decide), if_pos rfl]
  case injGo =>
    rintro s u w ini lane hlane hw hok rfl
    have hgo : wGet w 31 1 = 1 := by
      rw [hw]
      exact wGet_setWord _ _ (lf LQ_PGEN_INJ_GO lane) _ (show 31 + 1 ≤ 32 by decide)
    show execInjGo ini lane s = _
    rw [execInjGo, if_pos hlane, cmdSet_at (off := 0x130 + 0x80 * laneK lane) rfl, ← hw,
      write_lane (o := 0x30) (by omega) (by decide) hok, laneWritten, if_neg (by decide), if_neg (by decide), if_pos rfl,
      pgenWritten, hgo]
    cases h : pcieOwns (storedAt s (laneQuad lane + (0x130 + 0x80 * laneK lane)) w) lane <;> simp


end Sys2Proof.Machine
end

section
/-! PROOFS. Flow slices (15_flow_slices.md): frames, meters, gates and tokens, and the commands of the tables and of admission. -/

namespace Sys2Proof.Machine

/-- Settles O48: a frame, a meter, a gate or a slot is taken where the slice or the port is there and the event's
condition holds. -/
theorem flowEventsComplete : Obligations.FlowEventsComplete := by
  unfold Obligations.FlowEventsComplete
  refine ⟨?rxFrame, ?txFrameStart1, ?txFrameStart2, ?txFrameEnd, ?seqRecovery, ?streamPacketTimeout, ?meterSweep, ?cbResetTimeout, ?gateEntryAdvance, ?gclSwitch, ?tokenAudit, ?injectSlot⟩
  case rxFrame =>
    intro s die port bytes fcsOk sec ended hmacHere hport hflag henabled
    show execRxFrame die port bytes fcsOk sec ended s = _
    simp [execRxFrame, hmacHere, hport, hflag, henabled]
  case txFrameStart1 =>
    intro s die port queue f hhere hport hqueue hlink hbusy hlong hfirst hbegins
    have hhigher : ((List.range 8).any fun q => queue < q && (canBegin s die port q).isSome) = false := by
      rw [List.any_eq_false]
      intro q hq
      by_cases hlt : queue < q
      · simp [hfirst q (List.mem_range.1 hq) hlt]
      · simp [hlt]
    have hport' : ¬ 16 ≤ port := by omega
    have hqueue' : ¬ 8 ≤ queue := by omega
    show execTxFrameStart die port queue s = _
    simp only [execTxFrameStart, hlong, hhigher, hbegins]
    simp [hhere, hport', hqueue', hlink, hbusy]
  case txFrameStart2 =>
    intro s die port queue f hmacHere hport hqueue hflag hportBusy hoverLong
    show execTxFrameStart die port queue s = _
    simp [execTxFrameStart, hmacHere, hport, hqueue, hflag, hportBusy, hoverLong]
  case txFrameEnd =>
    intro s die port f hmacHere hsliceOf
    show execTxFrameEnd die port s = _
    simp [execTxFrameEnd, hmacHere, hsliceOf]
  case seqRecovery =>
    intro s die id f hsliceHere hsliceOf
    show execSeqRecovery die id s = _
    simp [execSeqRecovery, hsliceHere, hsliceOf]
  case streamPacketTimeout =>
    intro s die id f hsliceHere hsliceOf
    show execStreamPacketTimeout die id s = _
    simp [execStreamPacketTimeout, hsliceHere, hsliceOf]
  case meterSweep =>
    intro s die ctx hhere hctx hmetered hold
    show execMeterSweep die ctx s = _
    rw [execMeterSweep, if_pos (by simp only [hhere, hctx, hmetered, hold]; decide)]
  case cbResetTimeout =>
    intro s die ctx hsliceHere hctx hwGet
    show execCbResetTimeout die ctx s = _
    simp [execCbResetTimeout, hsliceHere, hctx, hwGet]
  case gateEntryAdvance =>
    intro s die port hsliceHere hport
    show execGateEntryAdvance die port s = _
    simp [execGateEntryAdvance, hsliceHere, hport]
  case gclSwitch =>
    intro s die port t hsliceHere hport htabGet hgclPoint
    show execGclSwitch die port s = _
    simp [execGclSwitch, hsliceHere, hport, htabGet, hgclPoint]
  case tokenAudit =>
    intro s die hsliceHere
    show execTokenAudit die s = _
    simp [execTokenAudit, hsliceHere]
  case injectSlot =>
    rintro s u die r hsliceHere henabled hgetF hbusStall rfl rfl
    show execInjectSlot die s = _
    simp [execInjectSlot, hsliceHere, henabled, hgetF, hbusStall]

/-- The words of a command to the exact-match table, to admission and to the tables: GO, the operation and its operands. -/
theorem flowWord_fields {op : Nat} (hop : op < 4) (n : Nat) :
    wGet (flowWord op n) 31 1 = 1 ∧ wGet (flowWord op n) 28 2 = op ∧ wGet (flowWord op n) 28 1 = op % 2 ∧
      wGet (flowWord op n) 0 16 = n % 65536 := by
  obtain ⟨x, hx⟩ : ∃ x, x = 2 ^ 31 + op * 2 ^ 28 + n % 65536 := ⟨_, rfl⟩
  rw [flowWord, ← hx]
  simp only [wGet, nGet, BitVec.toNat_ofNat]
  refine ⟨?_, ?_, ?_, ?_⟩ <;> omega

theorem tblWord_fields {op : Nat} (hop : op < 4) (table index : Nat) :
    wGet (tblWord op table index) 31 1 = 1 ∧ wGet (tblWord op table index) 24 3 = op ∧
      wGet (tblWord op table index) 20 4 = table % 16 ∧ wGet (tblWord op table index) 0 18 = index % 2 ^ 18 := by
  obtain ⟨x, hx⟩ : ∃ x, x = 2 ^ 31 + op * 2 ^ 24 + table % 16 * 2 ^ 20 + index % 2 ^ 18 := ⟨_, rfl⟩
  rw [tblWord, ← hx]
  simp only [wGet, nGet, BitVec.toNat_ofNat]
  refine ⟨?_, ?_, ?_, ?_⟩ <;> omega

section FsPage
variable {s : State} {ini die op : Nat} {old : Word}

theorem fsWritten_table {table index : Nat} (hop : op < 4) :
    fsWritten s ini die 0x060 old (tblWord op table index) = tblRun s ini die op (table % 16) (index % 2 ^ 18) := by
  obtain ⟨hgo, hcommand, htable, hindex⟩ := tblWord_fields hop table index
  rw [fsWritten, if_pos rfl, if_pos hgo, hcommand, htable, hindex]

theorem fsWritten_match {n : Nat} (hop : op < 4) :
    fsWritten s ini die 0x0C0 old (flowWord op n) = emRun s die op (n % 65536) := by
  obtain ⟨hgo, hcommand, -, hctx⟩ := flowWord_fields hop n
  rw [fsWritten, if_neg (by decide), if_pos rfl, if_pos hgo, hcommand, hctx]

theorem fsWritten_admit {n : Nat} (hop : op < 2) :
    fsWritten s ini die 0x100 old (flowWord op n) = admitRun s die op (n % 65536) := by
  obtain ⟨hgo, -, hcommand, hctx⟩ := flowWord_fields (by omega : op < 4) n
  rw [fsWritten, if_neg (by decide), if_neg (by decide), if_pos rfl, if_pos hgo, hcommand, hctx, Nat.mod_eq_of_lt hop]

/-- Registers 0x140 + 4 * i are the trunk reservations: RESERVE of the word and of the register before it decide. -/
theorem fsWritten_trunk (s : State) (ini die : Nat) {off i : Nat} (hoff : off = 0x140 + 4 * i) (hi : i < 16) (old w : Word) :
    fsWritten s ini die off old w =
      if wGet w 31 1 = 1 ∨ wGet old 31 1 = 1 then trunkWritten s die i (wGet w 31 1 = 1) else s := by
  have htable : off ≠ 0x060 := by omega
  have hmatch : off ≠ 0x0C0 := by omega
  have hadmit : off ≠ 0x100 := by omega
  have hrange : 0x140 ≤ off ∧ off < 0x180 := by omega
  have hnumber : (off - 0x140) / 4 = i := by omega
  simp [fsWritten, htable, hmatch, hadmit, hrange, hnumber]

end FsPage

/-- Settles O49: the word of each command names the operation and its operands; a read of FE_TXTS goes by the page's
own rule. -/
theorem flowCommandsComplete : Obligations.FlowCommandsComplete := by
  unfold Obligations.FlowCommandsComplete
  refine ⟨?lookup, ?insert, ?delete, ?tblRead, ?tblWrite, ?writeCfg, ?zero, ?admitCtx, ?withdraw, ?trunkReserve, ?trunkRelease, ?injHeadWrite, ?txtsPop⟩
  case lookup =>
    rintro s u ini die hok rfl
    show execLookup ini die s = _
    rw [execLookup, write_fs hok, wrote, fsWritten_match (by decide)]
  case insert =>
    rintro s u ini die ctx hok rfl
    show execInsert ini die ctx s = _
    rw [execInsert, write_fs hok, wrote, fsWritten_match (by decide)]
  case delete =>
    rintro s u ini die hok rfl
    show execDelete ini die s = _
    rw [execDelete, write_fs hok, wrote, fsWritten_match (by decide)]
  case tblRead =>
    rintro s u ini die table index hok rfl
    show execTblRead ini die table index s = _
    rw [execTblRead, write_fs hok, wrote, fsWritten_table (by decide)]
  case tblWrite =>
    rintro s u ini die table index hok rfl
    show execTblWrite ini die table index s = _
    rw [execTblWrite, write_fs hok, wrote, fsWritten_table (by decide)]
  case writeCfg =>
    rintro s u ini die table index hok rfl
    show execWriteCfg ini die table index s = _
    rw [execWriteCfg, write_fs hok, wrote, fsWritten_table (by decide)]
  case zero =>
    rintro s u ini die table index hok rfl
    show execZero ini die table index s = _
    rw [execZero, write_fs hok, wrote, fsWritten_table (by decide)]
  case admitCtx =>
    rintro s u ini die ctx hok rfl
    show execAdmitCtx ini die ctx s = _
    rw [execAdmitCtx, write_fs hok, wrote, fsWritten_admit (by decide)]
  case withdraw =>
    rintro s u ini die ctx hok rfl
    show execWithdraw ini die ctx s = _
    rw [execWithdraw, write_fs hok, wrote, fsWritten_admit (by decide)]
  case trunkReserve =>
    rintro s u w old ini die i hi hw hok rfl rfl
    have hon : wGet w 31 1 = 1 := by
      rw [hw]
      exact wGet_setWord _ _ (FS_TRUNK_RESERVE.nth i) _ (show 31 + 1 ≤ 32 by decide)
    show execTrunkReserve ini die i s = _
    rw [execTrunkReserve, if_pos hi, cmdSet_at (off := 0x140 + 4 * i) rfl, ← hw, write_fs hok, wrote,
      fsWritten_trunk _ _ _ rfl hi, hon]
    simp
  case trunkRelease =>
    rintro s u w old ini die i hi hw hok rfl rfl
    have hoff : wGet w 31 1 = 0 := by
      rw [hw]
      exact wGet_setWord _ _ (FS_TRUNK_RESERVE.nth i) _ (show 31 + 1 ≤ 32 by decide)
    show execTrunkRelease ini die i s = _
    rw [execTrunkRelease, if_pos hi, cmdSet_at (off := 0x140 + 4 * i) rfl, ← hw, write_fs hok, wrote,
      fsWritten_trunk _ _ _ rfl hi, hoff]
    simp
  case injHeadWrite =>
    intro s ini die w hok
    show execInjHeadWrite ini die w s = _
    rw [execInjHeadWrite, write_fs hok, wrote, fsWritten, if_neg (by decide), if_neg (by decide), if_neg (by decide),
      if_neg (by decide)]
  case txtsPop =>
    rintro s u r ini die port peek hport hreaches rfl rfl
    have hnumber : (0x9100 + port) % 4096 - 256 = port := by omega
    show execTxtsPop ini die port peek s = _
    rw [execTxtsPop, if_pos hport]
    refine congrArg _ (readAt_special s ini die (0x9100 + port) 0x120 peek .fe (fePage die port) _ rfl (by omega) (by decide)
      (pageOf_fe hport) hreaches rfl (by simp) ?_)
    rw [specialRead, if_pos rfl, hnumber]


end Sys2Proof.Machine
end

section
/-! PROOFS. External memory (16_external_memory.md): the life of a channel, its lines, late checks, patrol and protected ranges. -/

namespace Sys2Proof.Machine

section McPage
variable {s : State} {ini ch off range : Nat} {old w : Word} {tags : Nat × Nat}

/-- Registers 0x100 + 32 * j of a channel's page are RNG_CTRL: EN of the word and of the register before it decide. -/
theorem mcWritten_range (hch : ch < 4) (hoff : off = 0x100 + 32 * range) (hrange : range < 16) :
    mcWritten s (if ch < 2 then 3 else 7) (0xA000 + ch % 2) off old w tags =
      if wGet w 31 1 = 1 && wGet old 31 1 = 0 then holdsWake (rangeStart s ch range) (if ch < 2 then 3 else 7)
      else if wGet w 31 1 = 0 && wGet old 31 1 = 1 then rangeStop s ch range tags
      else s := by
  have hconfig : off ≠ 0x040 := by omega
  have hkey : off ≠ 0x074 := by omega
  have hrelease : off ≠ 0x078 := by omega
  have hwindow : 0x100 ≤ off ∧ off < 0x300 := by omega
  have haligned : off % 32 = 0 := by omega
  have hnumber : (off - 0x100) / 32 = range := by omega
  simp only [mcWritten, mcChan_at hch, hnumber]
  simp [hconfig, hkey, hrelease, hwindow, haligned]

theorem mcWritten_key (hch : ch < 4) :
    mcWritten s (if ch < 2 then 3 else 7) (0xA000 + ch % 2) 0x074 old w tags = keyWritten s ch w := by
  rw [mcWritten, mcChan_at hch, if_neg (by decide), if_pos rfl]

theorem mcWritten_release (hch : ch < 4) (id : Nat) :
    mcWritten s (if ch < 2 then 3 else 7) (0xA000 + ch % 2) 0x078 old (BitVec.ofNat 32 (2 ^ 31 + id % 1024)) tags =
      isoLeave s (iniNode (id % 1024)) 5 true false := by
  obtain ⟨x, hx⟩ : ∃ x, x = 2 ^ 31 + id % 1024 := ⟨_, rfl⟩
  have hgo : wGet (BitVec.ofNat 32 x) 31 1 = 1 := by simp only [wGet, nGet, BitVec.toNat_ofNat]; omega
  have hid : wGet (BitVec.ofNat 32 x) 0 10 = id % 1024 := by simp only [wGet, nGet, BitVec.toNat_ofNat]; omega
  rw [← hx, mcWritten, mcChan_at hch, if_neg (by decide), if_neg (by decide), if_pos rfl, if_pos hgo, hid]

theorem write_range (hch : ch < 4) (hrange : range < 16) (hok : writeOkAt s ini (mcPage ch + (0x100 + 32 * range)) w = true) :
    cmdWriteAt s ini (mcPage ch + (0x100 + 32 * range)) w = wrote s (mcPage ch + (0x100 + 32 * range)) w fun u old =>
      mcWritten u (if ch < 2 then 3 else 7) (0xA000 + ch % 2) (0x100 + 32 * range) old w
        (tagSpan (reachAt s (mcPage ch + (0x100 + 32 * range))) ch range) := by
  have hnumber : (0x100 + 32 * range - 0x100) / 32 = range := by omega
  rw [write_mc hch hok, hnumber]

theorem write_mcCtrl (hch : ch < 4) (hok : writeOkAt s ini (mcPage ch + 0x008) w = true) :
    cmdWriteAt s ini (mcPage ch + 0x008) w = wrote s (mcPage ch + 0x008) w fun u old =>
      ctrlWritten u .mc (if ch < 2 then 3 else 7) (0xA000 + ch % 2) old w :=
  writeAt_ctrl s ini (if ch < 2 then 3 else 7) (0xA000 + ch % 2) w .mc (mcPage ch) rfl (by omega) (.inr (pageOf_mc hch)) hok

end McPage

/-- Settles O50: events act on a channel that serves, or that is in the state its clause names; writes by what their
register does. -/
theorem dramRowsComplete : Obligations.DramRowsComplete := by
  unfold Obligations.DramRowsComplete
  refine ⟨?ddrEnable, ?ddrDisable, ?spdReadDone, ?ddrTrainDone, ?ilvWrite, ?ddrRead, ?lateTagCheck1,
    ?lateTagCheck2, ?lateTagCheck3, ?ddrWrite, ?ddrWriteback, ?ddrPatrolRead, ?rangeEnable, ?rangeDisable,
    ?rangeInitDone, ?keyDataWrite, ?mcRelease⟩
  case ddrEnable =>
    rintro s u ini ch w old hch hw hok rfl rfl
    show execDdrEnable ini ch s = _
    rw [execDdrEnable, if_pos hch, cmdSet_at (off := 0x008) rfl, ← hw, write_mcCtrl hch hok, wrote]
  case ddrDisable =>
    rintro s u ini ch w old hch hw hok rfl rfl
    show execDdrDisable ini ch s = _
    rw [execDdrDisable, if_pos hch, cmdSet_at (off := 0x008) rfl, ← hw, write_mcCtrl hch hok, wrote]
  case spdReadDone =>
    rintro s u ch cause ranks dens g hch hmcState hchanOf hchanCap rfl
    show execSpdReadDone ch cause ranks dens s = _
    simp [execSpdReadDone, hch, hmcState, hchanOf, hchanCap]
  case ddrTrainDone =>
    intro s ch ms ok hchanHere hmcState hchanOf
    show execDdrTrainDone ch ok ms s = _
    simp [execDdrTrainDone, hchanHere, hmcState, hchanOf]
  case ilvWrite =>
    rintro s u ini ilv w old hw hok rfl rfl
    have hfield : wGet w 4 2 = ilv % 4 := by
      rw [hw]
      exact (wGet_setWord _ _ MC_CFG_ILV _ (by decide)).trans (Nat.mod_mod _ _)
    show execIlvWrite ini ilv s = _
    rw [execIlvWrite, cmdSet_at (off := 0x040) rfl, ← hw, write_mc (by decide) hok, wrote, mcWritten,
      mcChan_at (by decide), if_pos rfl, hfield]
    by_cases hsame : wGet (getReg (reachAt s (mcPage 0 + 0x040)) (mcPage 0 + 0x040)) 4 2 = ilv % 4 <;> simp [hsame]
  case ddrRead =>
    rintro s ch line ini errs hit tagBad r hchanHere hline hmcState rfl
    show execDdrRead ch line ini errs hit tagBad s = _
    simp [execDdrRead, hchanHere, hline, hmcState]
  case lateTagCheck1 =>
    rintro s u ch l bs hfind htagOk hwb rfl
    show execLateTagCheck ch s = _
    simp [execLateTagCheck, hfind, htagOk, hwb]
  case lateTagCheck2 =>
    rintro s u ch l hfind htagOk hwb rfl
    show execLateTagCheck ch s = _
    simp [execLateTagCheck, hfind, htagOk, hwb]
  case lateTagCheck3 =>
    rintro s t u v ch act l hfind htagOk rfl rfl rfl rfl
    show execLateTagCheck ch s = _
    simp [execLateTagCheck, hfind, htagOk]
  case ddrWrite =>
    intro s ch line off ini bytes poison errs hit tagBad hchanHere hline hmcState hbytes hoff
    show execDdrWrite ch line off ini bytes poison errs hit tagBad s = _
    simp [execDdrWrite, hchanHere, hline, hmcState, hbytes, hoff]
  case ddrWriteback =>
    intro s ch line w hchanHere hmcState hchanOf
    show execDdrWriteback ch line s = _
    simp [execDdrWriteback, hchanHere, hmcState, hchanOf]
  case ddrPatrolRead =>
    rintro s u ch errs hit tagBad c hchanHere hmcState hgateShut hflag rfl hcm rfl
    show execDdrPatrolRead ch errs hit tagBad s = _
    simp [execDdrPatrolRead, hchanHere, hmcState, hgateShut, hflag, hcm]
  case rangeEnable =>
    rintro s u ini ch range w old hch hrange hw hok rfl rfl
    have hon : wGet w 31 1 = 1 := by
      rw [hw]
      exact wGet_setWord _ _ (RNG_CTRL_EN.nth range) _ (show 31 + 1 ≤ 32 by decide)
    show execRangeEnable ini ch range s = _
    rw [execRangeEnable, if_pos (by simp [hch, hrange]), cmdSet_at (off := 0x100 + 32 * range) rfl, ← hw,
      write_range hch hrange hok, wrote, mcWritten_range hch rfl hrange, hon]
    simp
  case rangeDisable =>
    rintro s u ini ch range w old hch hrange hw hok rfl rfl
    have hoff : wGet w 31 1 = 0 := by
      rw [hw]
      exact wGet_setWord _ _ (RNG_CTRL_EN.nth range) _ (show 31 + 1 ≤ 32 by decide)
    show execRangeDisable ini ch range s = _
    rw [execRangeDisable, if_pos (by simp [hch, hrange]), cmdSet_at (off := 0x100 + 32 * range) rfl, ← hw,
      write_range hch hrange hok, wrote, mcWritten_range hch rfl hrange, hoff]
    simp
  case rangeInitDone =>
    rintro s u ch range hchanHere hmcState hchanOf rfl
    show execRangeInitDone ch range s = _
    simp [execRangeInitDone, hchanHere, hmcState, hchanOf, -List.contains_eq_mem]
  case keyDataWrite =>
    rintro s u ini ch val hch hok rfl
    show execKeyDataWrite ini ch val s = _
    rw [execKeyDataWrite, if_pos hch, write_mc hch hok, wrote, mcWritten_key hch]
  case mcRelease =>
    rintro s u ini ch id w hch rfl hok rfl
    show execMcRelease ini ch id s = _
    rw [execMcRelease, if_pos hch, write_mc hch hok, wrote, mcWritten_release hch]


end Sys2Proof.Machine
end

section
/-! PROOFS. Registers of the hub (17_processors.md): cores, cache operations, DMA, time base, locks, event routes and messages. -/

namespace Sys2Proof.Machine

section HubPages
variable {s : State} {ini off : Nat} {old w : Word}

theorem clWritten_cmo {op : Nat} (hop : op < 4) :
    clWritten s 0x04C old (BitVec.ofNat 32 (2 ^ 31 + op)) = cmoStart s op := by
  have hgo := wGet_goWord (show op < 2 ^ 31 by omega)
  have hcommand : wGet (BitVec.ofNat 32 (2 ^ 31 + op)) 0 2 = op := by
    rw [wGet_goWord_low (by omega) (by decide)]
    omega
  rw [clWritten, if_neg (by decide), if_pos (by rw [hgo]; decide), hcommand]

/-- Registers 0x114 + 32 * ch are HD_CTRL of DMA channel ch: GO starts it, and ABORT of one that runs is kept. -/
theorem hdWritten_ctrl {ch : Nat} (hoff : off = 0x114 + 32 * ch) :
    hdWritten s off w = if wGet w 31 1 = 1 then dmaStart s ch
      else if wGet w 30 1 = 1 && dmaRuns s ch then putF s HD (HD_CTRL_ABORT.nth ch) 1 else s := by
  have hrange : 0x100 ≤ off := by omega
  have hplace : off % 32 = 0x14 := by omega
  have hnumber : (off - 0x100) / 32 = ch := by omega
  simp only [hdWritten, hrange, hplace, hnumber, decide_true, Bool.and_self, if_true]

/-- Registers 0x100 + 4 * k of the lock page are the lock words: a write releases, a read takes. -/
theorem lkWritten_word {k : Nat} (hoff : off = 0x100 + 4 * k) (hk : k < 256) : lkWritten s off w = setLock s k none := by
  have hforce : off ≠ 0x040 := by omega
  have hrange : 0x100 ≤ off ∧ off < 0x500 := by omega
  have hnumber : (off - 0x100) / 4 = k := by omega
  simp [lkWritten, hforce, hrange, hnumber]

theorem lkWritten_force (k : Nat) : lkWritten s 0x040 (BitVec.ofNat 32 (2 ^ 31 + k % 256)) = setLock s (k % 256) none := by
  have hgo := wGet_goWord (show k % 256 < 2 ^ 31 by omega)
  have hnumber : wGet (BitVec.ofNat 32 (2 ^ 31 + k % 256)) 0 8 = k % 256 := by
    rw [wGet_goWord_low (by omega) (by decide)]
    omega
  rw [lkWritten, if_pos (by rw [hgo]; decide), hnumber]

theorem lkRead_word {k : Nat} {peek : Bool} (hoff : off = 0x100 + 4 * k) (hk : k < 256) :
    lkRead s ini peek off = some (lockTake s ini k peek) := by
  have hrange : 0x100 ≤ off ∧ off < 0x500 := by omega
  have hnumber : (off - 0x100) / 4 = k := by omega
  simp [lkRead, hrange, hnumber]

/-- Registers 0x044 and 0x048 of the event page write the route of the selected source, and keep no value of their own. -/
theorem evWritten_route {word : Nat} (hoff : off = 0x044 + 4 * word) (hword : word < 2) :
    evWritten s off w = wfiFollow (routePut s (getF s EV EV_RSEL_SRC) word w) := by
  obtain rfl | rfl : word = 0 ∨ word = 1 := by omega
  · rw [evWritten, if_pos hoff]
  · rw [evWritten, if_neg (by omega), if_pos hoff]

/-- Registers 0x080 + 4 * c of the event page end the service of core c. -/
theorem evWritten_done {c : Nat} (hoff : off = 0x080 + 4 * c) (hc : c < 4) :
    evWritten s off w = wfiFollow (serviceEnd s c (wGet w 0 10)) := by
  have hlow : off ≠ 0x044 := by omega
  have hhigh : off ≠ 0x048 := by omega
  have hrange : 0x080 ≤ off ∧ off < 0x090 := by omega
  have hnumber : (off - 0x080) / 4 = c := by omega
  simp [evWritten, hlow, hhigh, hrange, hnumber]

/-- Registers 0x070 + 4 * c of the event page claim the next interrupt of core c. -/
theorem evRead_claim {c : Nat} {peek : Bool} (hoff : off = 0x070 + 4 * c) (hc : c < 4) :
    evRead s peek off = some ((claimSource s c).elim (s, 0) fun x => (if peek then s else claim s c x, 2 ^ 31 + x)) := by
  have hlow : off ≠ 0x044 := by omega
  have hhigh : off ≠ 0x048 := by omega
  have hrange : 0x070 ≤ off ∧ off < 0x080 := by omega
  have hnumber : (off - 0x070) / 4 = c := by omega
  cases h : claimSource s c <;> simp [evRead, hlow, hhigh, hrange, hnumber, h]

theorem read_claim {c : Nat} {peek : Bool} (hc : c < 4) (h : reaches s ini 8 0xC030 (0x070 + 4 * c) false = true)
    {r : State × Nat} (hr : evRead (reach s 8 0xC030 (0x070 + 4 * c) false) peek (0x070 + 4 * c) = some r) :
    cmdReadAt s ini (EV + (0x070 + 4 * c)) peek = answer r.1 0 r.2 :=
  readAt_special s ini 8 0xC030 (0x070 + 4 * c) peek .ev EV r rfl (by decide) (by omega) (.inr rfl) h
    (readFault_aligned (by decide) (by decide) (by omega)) (by simp) hr

theorem pcWritten_msi {pc fn : Nat} (hoff : off = 0x080 + 4 * fn) (hpc : pc < 2) (hfn : fn < 2) :
    pcWritten s ini (if pc = 0 then 9 else 11) off old w = msiWritten s pc fn w := by
  have hat : pcAt (if pc = 0 then 9 else 11) = pc := by
    obtain rfl | rfl : pc = 0 ∨ pc = 1 := by omega
    all_goals decide
  obtain rfl | rfl : fn = 0 ∨ fn = 1 := by omega
  · simp [pcWritten, hat, hoff]
  · simp [pcWritten, hat, hoff]

end HubPages

/-- Settles O51: each row is one access to one register, and the page's rule for that register says what it does. -/
theorem hubRegistersComplete : Obligations.HubRegistersComplete := by
  unfold Obligations.HubRegistersComplete
  refine ⟨?hartEnWrite, ?cmoClean, ?cmoInvalidate, ?cmoCleanInvalidate, ?dmaGo, ?dmaAbort, ?timeSet, ?timeStep,
    ?tbNowRead, ?lockRead, ?lockRelease, ?lockForce, ?evRouteWrite, ?evClaim1, ?evClaim2, ?evDone, ?msiSend⟩
  case hartEnWrite =>
    rintro s u ini en w old rfl hok rfl rfl
    show execHartEnWrite ini en s = _
    rw [execHartEnWrite, write_cl hok, wrote, clWritten, if_pos rfl]
  case cmoClean =>
    rintro s u ini hok rfl
    show execCmoClean ini s = _
    rw [execCmoClean, write_cl hok, wrote, clWritten_cmo (by decide)]
  case cmoInvalidate =>
    rintro s u ini hok rfl
    show execCmoInvalidate ini s = _
    rw [execCmoInvalidate, write_cl hok, wrote, clWritten_cmo (by decide)]
  case cmoCleanInvalidate =>
    rintro s u ini hok rfl
    show execCmoCleanInvalidate ini s = _
    rw [execCmoCleanInvalidate, write_cl hok, wrote, clWritten_cmo (by decide)]
  case dmaGo =>
    rintro s u ini ch w hch hw hok rfl
    have hgo : wGet w 31 1 = 1 := by
      rw [hw]
      exact wGet_setWord _ _ (HD_CTRL_GO.nth ch) _ (show 31 + 1 ≤ 32 by decide)
    show execDmaGo ini ch s = _
    rw [execDmaGo, if_pos hch, cmdSet_at (off := 0x114 + 32 * ch) rfl, ← hw, write_hd hok, wrote, hdWritten_ctrl rfl,
      if_pos hgo]
  case dmaAbort =>
    rintro s u ini ch w hch hw hgo hok rfl
    have habort : wGet w 30 1 = 1 := by
      rw [hw]
      exact wGet_setWord _ _ (HD_CTRL_ABORT.nth ch) _ (show 30 + 1 ≤ 32 by decide)
    show execDmaAbort ini ch s = _
    rw [execDmaAbort, if_pos hch, cmdSet_at (off := 0x114 + 32 * ch) rfl, ← hw, write_hd hok, wrote,
      hdWritten_ctrl rfl,
      if_neg (by omega), habort]
    simp
  case timeSet =>
    rintro s u ini w hw hok rfl
    have hset : wGet w 31 1 = 1 := by
      rw [hw]
      exact wGet_setWord _ _ TB_CTRL_SET _ (by decide)
    show execTimeSet ini s = _
    rw [execTimeSet, cmdSet_at (off := 0x040) rfl, ← hw, write_tb hok, wrote, tbWritten, if_pos rfl, tbCtrlWritten,
      hset,
      if_pos (by decide)]
  case timeStep =>
    rintro s u ini w hw hset hok rfl
    have hstep : wGet w 30 1 = 1 := by
      rw [hw]
      exact wGet_setWord _ _ TB_CTRL_STEP _ (by decide)
    show execTimeStep ini s = _
    rw [execTimeStep, cmdSet_at (off := 0x040) rfl, ← hw, write_tb hok, wrote, tbWritten, if_pos rfl,
      tbCtrlWritten, hset,
      hstep, if_neg (by decide), if_pos (by decide)]
  case tbNowRead =>
    intro s u ini hreaches hu
    rw [hu]
    exact congrArg _ (readAt_special s ini 8 0xC060 0x044 false .tb TB _ rfl (by decide) (by decide) (.inr rfl) hreaches rfl
      (by simp) (by rw [specialRead, if_pos rfl]))
  case lockRead =>
    rintro s u ini k peek r hk hreaches rfl rfl
    show execLockRead ini k peek s = _
    rw [execLockRead, if_pos hk, Nat.add_assoc]
    exact congrArg _ (readAt_special s ini 8 0xC020 (0x100 + 4 * k) peek .lk LK _ rfl (by decide) (by omega) (.inr rfl) hreaches
      (readFault_aligned (by decide) (by decide) (by omega)) (by simp) (lkRead_word rfl hk))
  case lockRelease =>
    rintro s u ini k val hk hok rfl
    show execLockRelease ini k val s = _
    rw [execLockRelease, if_pos hk, Nat.add_assoc, write_lk hok, wrote, lkWritten_word rfl hk]
  case lockForce =>
    rintro s u ini k w rfl hok rfl
    show execLockForce ini k s = _
    rw [execLockForce, write_lk hok, wrote, lkWritten_force]
  case evRouteWrite =>
    rintro s u ini word val old hword hok rfl rfl
    have hroute : 0x044 + 4 * word = 0x044 ∨ 0x044 + 4 * word = 0x048 := by omega
    show execEvRouteWrite ini word val s = _
    rw [execEvRouteWrite, if_pos hword, Nat.add_assoc, write_ev hok, wrote, if_pos (by simpa using hroute),
      evWritten_route rfl hword]
  case evClaim1 =>
    rintro s u ini c peek hc hreaches rfl hnone
    show execEvClaim ini c peek s = _
    rw [execEvClaim, if_pos hc, Nat.add_assoc, read_claim hc hreaches (evRead_claim rfl hc), hnone]
    rfl
  case evClaim2 =>
    rintro s u ini c x peek hc hreaches rfl hsome
    show execEvClaim ini c peek s = _
    rw [execEvClaim, if_pos hc, Nat.add_assoc, read_claim hc hreaches (evRead_claim rfl hc), hsome]
    rfl
  case evDone =>
    rintro s u ini c v w hc rfl hok rfl
    have hsource : wGet (BitVec.ofNat 32 (v % 1024)) 0 10 = v % 1024 := by
      simp only [wGet, nGet, BitVec.toNat_ofNat]
      omega
    have hlow : ¬(0x080 + 4 * c = 0x044 ∨ 0x080 + 4 * c = 0x048) := by omega
    show execEvDone ini c v s = _
    rw [execEvDone, if_pos hc, Nat.add_assoc, write_ev hok, wrote, if_neg (by simpa using hlow),
      evWritten_done rfl hc, hsource]
  case msiSend =>
    rintro s u ini pc fn val hpc hfn hok rfl
    show execMsiSend ini pc fn val s = _
    rw [execMsiSend, if_pos (by simp [hpc, hfn]), Nat.add_assoc, write_pc hok, wrote, pcWritten_msi rfl hpc hfn]


end Sys2Proof.Machine
end

section
/-! PROOFS. Events of the hub (17_processors.md): ends of cache and DMA work, compare, sources, EVI lines, PCIe links and doorbells. -/

namespace Sys2Proof.Machine

/-- Settles O52: each event acts where the operation runs, the source exists or the controller's die is joined. -/
theorem hubEventsComplete : Obligations.HubEventsComplete := by
  unfold Obligations.HubEventsComplete
  refine ⟨?cmoDone, ?dmaDone, ?timeCompare, ?eventArrival1, ?eventArrival2, ?eviToggle, ?perstAssert, ?perstDeassert, ?pcieLinkUp, ?pcieLinkDown, ?doorbell⟩
  case cmoDone =>
    intro s hisSome hwritingBack
    show execCmoDone s = _
    simp [execCmoDone, hisSome, hwritingBack]
  case dmaDone =>
    rintro s ch bytes result r hch htorpor hruns hends hgate ⟨hsource, hdest⟩ hallowed rfl
    have hstalled : (8 ≤ ch || s.pow.torpor || gateShut s 5 || !dmaRuns s ch || !dmaEnds s ch bytes result) = false := by
      rw [htorpor, hgate, hruns, hends, decide_eq_false (by omega)]
      rfl
    have hshut : (result != 0xE && quenched s 5) = false := by
      rcases hallowed with h | h
      · rw [h, bne_self_eq_false, Bool.false_and]
      · rw [h, Bool.and_false]
    show execDmaDone ch bytes result s = _
    rw [execDmaDone, if_neg (by rw [hstalled]; decide), if_neg (by rw [hshut]; decide), hsource, hdest]
  case timeCompare =>
    intro s hflag htbOn
    show execTimeCompare s = _
    simp [execTimeCompare, hflag, htbOn]
  case eventArrival1 =>
    intro s src hsrc
    show execEventArrival src none s = _
    simp [execEventArrival, hsrc]
  case eventArrival2 =>
    intro s src b hsrc
    show execEventArrival src (some b) s = _
    simp [execEventArrival, hsrc]
  case eviToggle =>
    rintro s die line n hdie hline rfl hn
    show execEviToggle die line s = _
    simp [execEviToggle, hdie, hline, hn]
  case perstAssert =>
    rintro s u pc hpc hisolated rfl
    show execPerstAssert pc s = _
    simp [execPerstAssert, hpc, hisolated]
  case perstDeassert =>
    intro s pc hpc hisolated
    show execPerstDeassert pc s = _
    simp [execPerstDeassert, hpc, hisolated]
  case pcieLinkUp =>
    intro s pc width gen flit hpc hisolated hflag hpcieOf hs
    show execPcieLinkUp pc width gen flit s = _
    simp [execPcieLinkUp, hpc, hisolated, hflag, hpcieOf, hs]
  case pcieLinkDown =>
    intro s pc hpc
    show execPcieLinkDown pc s = _
    simp [execPcieLinkDown, hpc]
  case doorbell =>
    intro s ini pc val hpc hiniAssigned hisolated
    show execDoorbell ini pc val s = _
    simp [execDoorbell, hpc, hiniAssigned, hisolated]


end Sys2Proof.Machine
end

section
/-! PROOFS. Mailboxes (17_processors.md, 18_power.md): send, take, withdraw, time-outs, audits, unmasked vectors and the newt cores. -/

namespace Sys2Proof.Machine

/-- Mailboxes 0 to 63 have their pages in the hub, mailboxes 64 to 95 on the dies of the host links. -/
theorem pageOf_mailbox {m : Nat} (hm : m < 96) : pageOf (regDie (mbPage m)) (regBlk (mbPage m)) = some .mb ∨
    pageOf (regDie (mbPage m)) (regBlk (mbPage m)) = some .mbh := by
  revert m
  decide

/-- The pages of the mailboxes answer a read by one rule, in the hub and on the dies of the host links. -/
theorem regRead_take {s : State} {ini m : Nat} {bar0 peek : Bool} {p : Page} (hm : m < 96) (hp : p = .mb ∨ p = .mbh)
    (hfault : mbFault s ini bar0 false peek (regDie (mbPage m)) (regBlk (mbPage m)) (mbOff m 0x024) 0 = none) :
    regRead s ini bar0 peek p (regDie (mbPage m)) (regBlk (mbPage m)) (mbOff m 0x024) =
      (if (mboxOf s m).full && !peek && iniClass ini != 5 then mbTaken s m else s, 0,
        if (mboxOf s m).full then 2 ^ 31 + ((mboxOf s m).sender % 1024 * 65536 + (mboxOf s m).seq % 65536) else 0) := by
  have haligned : ¬((mbOff m 0x024 % 4 != 0) = true) := by
    have : mbOff m 0x024 % 4 = 0 := by unfold mbOff; omega
    simp [this]
  have hread : ∀ q, q = .mb ∨ q = .mbh → readFault s ini bar0 peek q (regDie (mbPage m)) (regBlk (mbPage m)) (mbOff m 0x024) = none := by
    rintro q (rfl | rfl)
    all_goals
      unfold readFault
      rw [if_neg haligned]
      exact hfault
  rcases hp with rfl | rfl
  all_goals
    rw [regRead, hread _ (by decide)]
    simp only [specialRead, mbAt_off hm (show 0x024 < 64 by decide),
      mbOff_mod (m := m) (show 0x024 < 64 by decide), mbRead]
    rfl

theorem cmdRead_take {s : State} {ini m : Nat} {bar0 peek : Bool} (hm : m < 96)
    (hreaches : reaches s ini (regDie (mbPage m)) (regBlk (mbPage m)) (mbOff m 0x024) false = true)
    (hfault : mbFault (reach s (regDie (mbPage m)) (regBlk (mbPage m)) (mbOff m 0x024) false) ini bar0 false peek
      (regDie (mbPage m)) (regBlk (mbPage m)) (mbOff m 0x024) 0 = none) {u : State}
    (hu : u = reach s (regDie (mbPage m)) (regBlk (mbPage m)) (mbOff m 0x024) false) :
    cmdRead s ini bar0 (regDie (mbPage m)) (regBlk (mbPage m)) (mbOff m 0x024) peek =
      answer (if (mboxOf u m).full && !peek && iniClass ini != 5 then mbTaken u m else u) 0
        (if (mboxOf u m).full then 2 ^ 31 + ((mboxOf u m).sender % 1024 * 65536 + (mboxOf u m).seq % 65536) else 0) := by
  obtain hp | hp := pageOf_mailbox hm
  all_goals
    rw [cmdRead_ok s ini bar0 peek _ _ _ _ hp hreaches, ← hu, regRead_take hm (by decide) (hu ▸ hfault)]
    exact regAnswer_ok ..

/-- Settles O53: a send, a take and a withdrawal go by the window of their mailbox; the events by what it holds. -/
theorem mailboxRowsComplete : Obligations.MailboxRowsComplete := by
  unfold Obligations.MailboxRowsComplete
  refine ⟨?send, ?mbWithdraw, ?take, ?mbTimeout, ?mailboxAudit, ?msixUnmask, ?newtRequestTake, ?diePowerReport,
    ?scrubReport⟩
  case send =>
    rintro s u ini m bar0 hm hok rfl
    show execSend ini m bar0 s = _
    rw [execSend, if_pos hm, mbWrite_ok s ini m 0x020 1 bar0 hm (by decide) hok, mbWritten, mbAt_off hm (by decide),
      mbOff_mod (by decide)]
    simp only
    rw [if_pos (by decide)]
  case mbWithdraw =>
    rintro s u ini m bar0 hm hok rfl
    show execMbWithdraw ini m bar0 s = _
    rw [execMbWithdraw, if_pos hm, mbWrite_ok s ini m 0x034 1 bar0 hm (by decide) hok, mbWritten,
      mbAt_off hm (by decide),
      mbOff_mod (by decide)]
    simp only
    rw [if_neg (by decide), if_pos (by decide)]
  case take =>
    rintro s u ini m bar0 peek hm hreaches rfl hfault
    show execTake ini m bar0 peek s = _
    rw [execTake, if_pos hm, cmdRead_take hm hreaches hfault rfl]
  case mbTimeout =>
    rintro s u m hm hmboxOf hs rfl
    show execMbTimeout m s = _
    simp [execMbTimeout, hm, hmboxOf, hs]
  case mailboxAudit =>
    intro s m hm
    show execMailboxAudit m s = _
    simp [execMailboxAudit, hm]
  case msixUnmask =>
    intro s pc fn vec hpc hfn hvec hfnExists hflag
    show execMsixUnmask pc fn vec s = _
    simp [execMsixUnmask, hpc, hfn, hvec, hfnExists, hflag]
  case newtRequestTake =>
    intro s m hm hmboxOf hs hisolated htorpor hnewtTurn
    show execNewtRequestTake m s = _
    simp [execNewtRequestTake, hm, hmboxOf, hs, hisolated, htorpor, hnewtTurn]
  case diePowerReport =>
    intro s n hn
    show execDiePowerReport n s = _
    simp [execDiePowerReport, hn]
  case scrubReport =>
    rintro s n r hn rfl
    show execScrubReport n s = _
    simp [execScrubReport, hn]


end Sys2Proof.Machine
end

section
/-! PROOFS. Power (18_power.md, 00_scope.md): drops and wakes of domains, torpor, the alarm, the clock and VCC_AON. -/

namespace Sys2Proof.Machine

theorem pdWritten_torpor (s : State) (old w : Word) :
    pdWritten s 8 1 0x060 old w = if wGet old 8 1 = 1 then setReg s (pdPage 8 1 + 0x060) old else s := by
  rw [pdWritten, if_neg (by decide), if_neg (by decide)]
  by_cases hentering : wGet old 8 1 = 1
  · rw [if_pos hentering, if_pos (by rw [hentering]; decide)]
  · rw [if_neg hentering, if_neg (by rw [decide_eq_false hentering]; decide)]

theorem pdWritten_rtcHi (s : State) (old w : Word) :
    pdWritten s 8 0 0x064 old w = setReg (rtcSet s w) (pdPage 8 0 + 0x064) old := by
  rw [pdWritten, if_neg (by decide), if_pos (by decide)]

/-- Settles O54: the state of the domain, or of the way to torpor, decides which event acts; two rows are writes of PD
registers. -/
theorem powerRowsComplete : Obligations.PowerRowsComplete := by
  unfold Obligations.PowerRowsComplete
  refine ⟨?dropStart1, ?dropStart2, ?dropped, ?dropDenied, ?domainWake, ?woken, ?wakeTimeout, ?torporArm,
    ?torporEntry, ?torporEntered1, ?torporEntered2, ?rtcAlarm, ?rtcHiWrite, ?vccAonLoss, ?vccAonValid⟩
  case dropStart1 =>
    intro s die idx hdroppable hdomOf hdomVoted hdomHeld hdomKind
    show execDropStart die idx s = _
    simp [execDropStart, hdroppable, hdomOf, hdomVoted, hdomHeld, hdomKind]
  case dropStart2 =>
    rintro s u die idx hdroppable hdomOf hdomVoted hdomHeld hdomKind rfl
    show execDropStart die idx s = _
    simp [execDropStart, hdroppable, hdomOf, hdomVoted, hdomHeld, hdomKind]
  case dropped =>
    intro s die idx hdroppable hdomOf hcachesDirty
    show execDropped die idx s = _
    simp [execDropped, hdroppable, hdomOf, hcachesDirty]
  case dropDenied =>
    rintro s u die idx hdroppable hdomOf rfl
    show execDropDenied die idx s = _
    simp [execDropDenied, hdroppable, hdomOf]
  case domainWake =>
    intro s die idx hdroppable
    show execDomainWake die idx s = _
    simp [execDomainWake, hdroppable]
  case woken =>
    intro s die idx us hdroppable hdomOf hisolated
    show execWoken die idx us s = _
    simp [execWoken, hdroppable, hdomOf, hisolated]
  case wakeTimeout =>
    intro s die idx hdomOf
    show execWakeTimeout die idx s = _
    simp [execWakeTimeout, hdomOf]
  case torporArm =>
    rintro s u ini val old hok rfl rfl
    show execTorporArm ini val s = _
    rw [execTorporArm, write_pd (by decide) hok, wrote, pdWritten_torpor]
  case torporEntry =>
    intro s hdue
    show Host.Outcome.next (torporBegin s) = _
    rw [torporBegin, if_pos hdue]
  case torporEntered1 =>
    rintro s u why hway hstep rfl hexitAtEntry
    show execTorporEntered s = _
    simp [execTorporEntered, hway, hstep, hexitAtEntry]
  case torporEntered2 =>
    rintro s u hway hstep rfl hexitAtEntry
    show execTorporEntered s = _
    simp [execTorporEntered, hway, hstep, hexitAtEntry]
  case rtcAlarm =>
    intro s hflag hs hrtc
    show execRtcAlarm s = _
    simp [execRtcAlarm, hflag, hs, hrtc]
  case rtcHiWrite =>
    rintro s u ini val old hok rfl rfl
    show execRtcHiWrite ini val s = _
    rw [execRtcHiWrite, write_pd (by decide) hok, wrote, pdWritten_rtcHi]
  case vccAonLoss =>
    intro s
    show execVccAonLoss s = _
    simp [execVccAonLoss]
  case vccAonValid =>
    intro s
    show execVccAonValid s = _
    simp [execVccAonValid]


end Sys2Proof.Machine
end

section
/-! PROOFS. The thermal governor and the dispatcher (18_power.md). -/

namespace Sys2Proof.Machine

section DsPage
variable {s : State} {ini off : Nat} {peek : Bool}

/-- The words of the dispatcher's commands: a descriptor in the low 12 bits, and an operand from bit 16 on. -/
theorem descWord_fields {n : Nat} (hn : n < 2048) (d : Nat) :
    wGet (BitVec.ofNat 32 (n * 65536 + d % 4096)) 0 12 = d % 4096 ∧ wGet (BitVec.ofNat 32 (n * 65536 + d % 4096)) 16 2 = n % 4 ∧
      wGet (BitVec.ofNat 32 (n * 65536 + d % 4096)) 16 11 = n := by
  obtain ⟨x, hx⟩ : ∃ x, x = n * 65536 + d % 4096 := ⟨_, rfl⟩
  rw [← hx]
  simp only [wGet, nGet, BitVec.toNat_ofNat]
  refine ⟨?_, ?_, ?_⟩ <;> omega

theorem descWord_submit (d : Nat) : wGet (BitVec.ofNat 32 (d % 4096)) 0 12 = d % 4096 := by
  obtain ⟨x, hx⟩ : ∃ x, x = d % 4096 := ⟨_, rfl⟩
  rw [← hx]
  simp only [wGet, nGet, BitVec.toNat_ofNat]
  omega

/-- Registers 0x070 + 4 * c and 0x080 + 4 * n of the dispatcher's page are the multicast and the partition queues. -/
theorem dsRead_multicast {c : Nat} (hoff : off = 0x070 + 4 * c) (hc : c < 4) : dsRead s peek off = some (mqPop s c peek) := by
  have hcompletion : off ≠ 0x060 := by omega
  have hrange : 0x070 ≤ off ∧ off < 0x080 := by omega
  have hnumber : (off - 0x070) / 4 = c := by omega
  simp [dsRead, hcompletion, hrange, hnumber]

theorem dsRead_partition {n : Nat} (hoff : off = 0x080 + 4 * n) (hn : n < 8) : dsRead s peek off = some (pqPop s n peek) := by
  have hcompletion : off ≠ 0x060 := by omega
  have hmulticast : ¬(0x070 ≤ off ∧ off < 0x080) := by omega
  have hrange : 0x080 ≤ off ∧ off < 0x0A0 := by omega
  have hnumber : (off - 0x080) / 4 = n := by omega
  simp [dsRead, hcompletion, hmulticast, hrange, hnumber]

theorem read_ds (hoff : off < 4096) (haligned : off % 4 = 0) (h : reaches s ini 8 0xC050 off false = true) {r : State × Nat}
    (hr : dsRead (reach s 8 0xC050 off false) peek off = some r) : cmdReadAt s ini (DS + off) peek = answer r.1 0 r.2 :=
  readAt_special s ini 8 0xC050 off peek .ds DS r rfl (by decide) hoff (.inr rfl) h
    (readFault_aligned (by decide) (by decide) haligned) (by simp) hr

end DsPage

/-- Settles O55: the events act by the pool and the queues as they stand; the commands by the dispatcher's registers.
-/
theorem governorRowsComplete : Obligations.GovernorRowsComplete := by
  unfold Obligations.GovernorRowsComplete
  refine ⟨?governorSample, ?revokeTimeout, ?budgetAudit, ?dsSubmit, ?descriptorIssue1, ?descriptorIssue2,
    ?refusalPauseEnd, ?reserveTimeout, ?dsDone, ?dsRel, ?dsCqPop, ?dsMqPop, ?dsPqPop⟩
  case governorSample =>
    rintro s u temps milliwatts hgovSamples rfl
    show execGovernorSample temps milliwatts s = _
    simp [execGovernorSample, hgovSamples]
  case revokeTimeout =>
    intro s d hdescOf hs hd
    show execRevokeTimeout d s = _
    simp [execRevokeTimeout, hdescOf, hs, hd]
  case budgetAudit =>
    intro s
    show execBudgetAudit s = _
    simp [execBudgetAudit]
  case dsSubmit =>
    rintro s u ini d w rfl hok rfl
    show execDsSubmit ini d s = _
    rw [execDsSubmit, write_ds hok, wrote, dsWritten, descWord_submit, if_neg (by decide), if_pos rfl]
  case descriptorIssue1 =>
    rintro s u henabled rfl hissuePick
    show execDescriptorIssue s = _
    simp [execDescriptorIssue, henabled, hissuePick]
  case descriptorIssue2 =>
    rintro s u q d henabled rfl hissuePick
    show execDescriptorIssue s = _
    simp [execDescriptorIssue, henabled, hissuePick]
  case refusalPauseEnd =>
    intro s q
    show execRefusalPauseEnd q s = _
    simp [execRefusalPauseEnd]
  case reserveTimeout =>
    intro s q hreadyQ
    show execReserveTimeout q s = _
    simp [execReserveTimeout, hreadyQ]
  case dsDone =>
    rintro s u ini d status w rfl hok rfl
    obtain ⟨hdesc, hstatus, -⟩ := descWord_fields (show status % 4 < 2048 by omega) d
    show execDsDone ini d status s = _
    rw [execDsDone, write_ds hok, wrote, dsWritten, hdesc, hstatus, if_neg (by decide), if_neg (by decide),
      if_pos rfl,
      Nat.mod_mod]
  case dsRel =>
    rintro s u ini d count w rfl hok rfl
    obtain ⟨hdesc, -, hcount⟩ := descWord_fields (show count % 2048 < 2048 by omega) d
    show execDsRel ini d count s = _
    rw [execDsRel, write_ds hok, wrote, dsWritten, hdesc, hcount, if_neg (by decide), if_neg (by decide),
      if_neg (by decide),
      if_pos rfl]
  case dsCqPop =>
    intro s u ini peek hreaches hu
    rw [hu]
    exact congrArg _ (read_ds (by decide) (by decide) hreaches (if_pos rfl))
  case dsMqPop =>
    intro s u ini c peek hc hreaches hu
    show execDsMqPop ini c peek s = _
    rw [hu, execDsMqPop, if_pos hc, Nat.add_assoc, read_ds (by omega) (by omega) hreaches (dsRead_multicast rfl hc)]
  case dsPqPop =>
    intro s u ini n peek hn hreaches hu
    show execDsPqPop ini n peek s = _
    rw [hu, execDsPqPop, if_pos hn, Nat.add_assoc, read_ds (by omega) (by omega) hreaches (dsRead_partition rfl hn)]


end Sys2Proof.Machine
end

section
/-! PROOFS. The security core's commands and the test window (19_security.md). -/

namespace Sys2Proof.Machine

/-- The command that runs in the security core ends: it is answered with its status and its count of bytes. -/
theorem secServe_runs {s u : State} {m code : Nat} {run : State → SecRes} {r : SecRes} (hu : u = secTake s)
    (hruns : secRuns u m = true) (hcode : reqWord u 0 = code) (hstall : secStall u code = none) (hr : r = run u) :
    secServe s m code run = secReply r.s m code r.status r.bytes := by
  subst hu hr
  simp [secServe, hruns, hcode, hstall]

/-- Settles O56: every command of the core ends by one rule; an unknown code and the test window have their own. -/
theorem securityRowsComplete : Obligations.SecurityRowsComplete := by
  unfold Obligations.SecurityRowsComplete
  refine ⟨?attest, ?getCert, ?commitVersion, ?setCtr, ?signerAdd, ?signerRevoke, ?lcAdvance, ?returnNonce, ?provision, ?certWrite, ?clearStest, ?unknownCommand, ?testWindowGo⟩
  case attest =>
    exact fun s u m bufOk r hu hruns hcode hstall hr => congrArg _ (secServe_runs hu hruns hcode hstall hr)
  case getCert =>
    exact fun s u m bufOk r hu hruns hcode hstall hr => congrArg _ (secServe_runs hu hruns hcode hstall hr)
  case commitVersion =>
    exact fun s u m keepOk r hu hruns hcode hstall hr => congrArg _ (secServe_runs hu hruns hcode hstall hr)
  case setCtr =>
    exact fun s u m keepOk r hu hruns hcode hstall hr => congrArg _ (secServe_runs hu hruns hcode hstall hr)
  case signerAdd =>
    exact fun s u m bufOk keepOk r hu hruns hcode hstall hr => congrArg _ (secServe_runs hu hruns hcode hstall hr)
  case signerRevoke =>
    exact fun s u m keepOk r hu hruns hcode hstall hr => congrArg _ (secServe_runs hu hruns hcode hstall hr)
  case lcAdvance =>
    exact fun s u m token bufOk keepOk r hu hruns hcode hstall hr => congrArg _ (secServe_runs hu hruns hcode hstall hr)
  case returnNonce =>
    exact fun s u m nonce bufOk r hu hruns hcode hstall hr => congrArg _ (secServe_runs hu hruns hcode hstall hr)
  case provision =>
    exact fun s u m pub bufOk keepOk r hu hruns hcode hstall hr => congrArg _ (secServe_runs hu hruns hcode hstall hr)
  case certWrite =>
    exact fun s u m bufOk keepOk r hu hruns hcode hstall hr => congrArg _ (secServe_runs hu hruns hcode hstall hr)
  case clearStest =>
    exact fun s u m keepOk r hu hruns hcode hstall hr => congrArg _ (secServe_runs hu hruns hcode hstall hr)
  case unknownCommand =>
    rintro s u m rfl hruns hcode
    have hunknown : ¬(1 ≤ reqWord (secTake s) 0 ∧ reqWord (secTake s) 0 ≤ 0xB) := by omega
    show execUnknownCommand m s = _
    rw [execUnknownCommand, if_neg (by simpa [hruns] using hunknown)]
  case testWindowGo =>
    rintro s u ini hok rfl
    show execTestWindowGo ini s = _
    rw [execTestWindowGo, write_sc hok, wrote, scWritten, if_pos (by decide)]


end Sys2Proof.Machine
end

section
/-! PROOFS. Errors, the scrubbers and the black box (20_errors.md). -/

namespace Sys2Proof.Machine

theorem erWritten_done_next {s : State} {w : Word} {n : ErrRec} (hgo : wGet w 31 1 = 1) (hnext : s.err.next = some n) :
    erWritten s 0x040 w = { s with err := { s.err with first := some n, next := none } } := by
  rw [erWritten, if_pos (by rw [hgo]; decide), hnext]

theorem erWritten_done_last {s : State} {w : Word} (hgo : wGet w 31 1 = 1) (hnext : s.err.next = none) :
    erWritten s 0x040 w = { s with err := { s.err with first := none, handling := false } } := by
  rw [erWritten, if_pos (by rw [hgo]; decide), hnext]

/-- Settles O57: a report goes by its code's class, a scrubbed frame by its words, a copy of the ring by what is
selected. -/
theorem errorRowsComplete : Obligations.ErrorRowsComplete := by
  unfold Obligations.ErrorRowsComplete
  refine ⟨?errorReport, ?fatalHoldExpiry, ?errorDone1, ?errorDone2, ?scrubFrameRead, ?regenDone1, ?regenDone2,
    ?axEnWrite, ?scrubHeartbeatMiss, ?bbEntryWrite, ?bbMark, ?bbCopy, ?bbXferGo, ?bbXferDone1, ?bbXferDone2⟩
  case errorReport =>
    intro s cls die src code info herrClass
    show execErrorReport cls die src code info s = _
    simp [execErrorReport, herrClass]
  case fatalHoldExpiry =>
    intro s hfatal hflag
    show execFatalHoldExpiry s = _
    simp [execFatalHoldExpiry, hfatal, hflag]
  case errorDone1 =>
    rintro s u ini val n hok rfl hnext
    show execErrorDone ini val s = _
    rw [execErrorDone, write_er hok, wrote, erWritten_done_next (wGet_or_go val) hnext]
  case errorDone2 =>
    rintro s u ini val hok rfl hnext
    show execErrorDone ini val s = _
    rw [execErrorDone, write_er hok, wrote, erWritten_done_last (wGet_or_go val) hnext]
  case scrubFrameRead =>
    rintro s die errs x good seen haxScans hscrubSkips rfl rfl rfl
    show execScrubFrameRead die errs s = _
    simp [execScrubFrameRead, haxScans, hscrubSkips]
  case regenDone1 =>
    intro s die reads f haxOf hisFabric hisolated hregenGood hgateShut
    show execRegenDone die reads s = _
    simp [execRegenDone, haxOf, hisFabric, hisolated, hregenGood, hgateShut]
  case regenDone2 =>
    intro s die reads haxOf hisFabric hisolated hregenGood hgateShut
    show execRegenDone die reads s = _
    simp [execRegenDone, haxOf, hisFabric, hisolated, hregenGood, hgateShut]
  case axEnWrite =>
    rintro s u ini die val hok rfl
    show execAxEnWrite ini die val s = _
    rw [execAxEnWrite, write_ax hok, wrote, if_pos rfl]
  case scrubHeartbeatMiss =>
    rintro s die x hfabric rfl hvote hjoined hstate
    have hruns : ((axOf s die).state = 1 || (axOf s die).state = 2) = true := by simpa using hstate
    show execScrubHeartbeatMiss die s = _
    rw [execScrubHeartbeatMiss, if_neg (by rw [hfabric, hvote, hjoined, hruns]; decide)]
  case bbEntryWrite =>
    intro s
    show execBbEntryWrite s = _
    simp [execBbEntryWrite]
  case bbMark =>
    rintro s u ini val hok rfl
    show execBbMark ini val s = _
    rw [execBbMark, write_bb hok, wrote, bbWritten, if_pos rfl]
  case bbCopy =>
    intro s reason ok hreason ha
    show execBbCopy reason ok s = _
    simp [execBbCopy, hreason, ha]
  case bbXferGo =>
    rintro s u ini w hw hok rfl
    have hgo : wGet w 31 1 = 1 := by
      rw [hw]
      exact wGet_setWord _ _ BB_XFER_CTRL_GO _ (by decide)
    show execBbXferGo ini s = _
    rw [execBbXferGo, cmdSet_at (off := 0x06C) rfl, ← hw, write_bb hok, wrote, bbWritten, if_neg (by decide),
      if_pos (by rw [hgo]; decide)]
  case bbXferDone1 =>
    intro s ok c hresult hsel hstall
    show execBbXferDone ok s = _
    rw [execBbXferDone, if_neg (by rw [hresult]; decide), hsel]
    simp only
    rw [hstall]
  case bbXferDone2 =>
    intro s ok hgetF hcopySel
    show execBbXferDone ok s = _
    simp [execBbXferDone, hgetF, hcopySel]


end Sys2Proof.Machine
end

section
/-! PROOFS. Shutdown rows (21_shutdown.md, 23_pins.md): SD_CTRL's commands, and every row completes (O58). -/

namespace Sys2Proof.Machine

/-- SD_CTRL with only SHDN set begins the orderly shutdown. -/
theorem sdWritten_shdn (s : State) : sdWritten s 0x040 0x80000000 = orderlyBegin s := by
  have hshdn : nBit (0x80000000 : Word).toNat 31 = true := by decide
  simp only [sdWritten, hshdn, if_true]

/-- SD_CTRL with only ARM set starts arming. -/
theorem sdWritten_arm (s : State) : sdWritten s 0x040 0x40000000 = armStart s := by
  have hshdn : nBit (0x40000000 : Word).toNat 31 = false := by decide
  have harm : nBit (0x40000000 : Word).toNat 30 = true := by decide
  simp only [sdWritten, hshdn, harm, Bool.false_eq_true, if_false, if_true]

/-- SD_CTRL with only DISARM set disarms. -/
theorem sdWritten_disarm (s : State) : sdWritten s 0x040 0x20000000 = disarmNow s := by
  have hshdn : nBit (0x20000000 : Word).toNat 31 = false := by decide
  have harm : nBit (0x20000000 : Word).toNat 30 = false := by decide
  have hdisarm : nBit (0x20000000 : Word).toNat 29 = true := by decide
  simp only [sdWritten, hshdn, harm, hdisarm, Bool.false_eq_true, if_false, if_true]

/-- Settles O58: each row's guard is met by its hypotheses; an accepted page write reaches the effect of its page. -/
theorem shutdownRowsComplete : Obligations.ShutdownRowsComplete := by
  unfold Obligations.ShutdownRowsComplete
  refine ⟨?pfwFall, ?pfwRise, ?lastGaspStepDone, ?captureStopTimeout1, ?captureStopTimeout2, ?sdArm, ?disarm,
    ?shdn, ?armDone, ?shdnReqNLow, ?shutdownSelftestDone, ?selftestGo, ?selftestDone, ?brownOut, ?thermalTrip,
    ?ioSafeWrite⟩
  case pfwFall =>
    intro s
    show execPfwFall s = _
    simp [execPfwFall]
  case pfwRise =>
    intro s
    show execPfwRise s = _
    simp [execPfwRise]
  case lastGaspStepDone =>
    intro s hway
    show execLastGaspStepDone s = _
    simp [execLastGaspStepDone, hway]
  case captureStopTimeout1 =>
    intro s die net hcapHas
    show execCaptureStopTimeout die net true s = _
    simp [execCaptureStopTimeout, hcapHas]
  case captureStopTimeout2 =>
    intro s die net hcapHas
    show execCaptureStopTimeout die net false s = _
    simp [execCaptureStopTimeout, hcapHas]
  case sdArm =>
    rintro s u ini hok rfl
    show execSdArm ini s = _
    rw [execSdArm, write_sd hok, wrote, sdWritten_arm]
  case disarm =>
    rintro s u ini hok rfl
    show execDisarm ini s = _
    rw [execDisarm, write_sd hok, wrote, sdWritten_disarm]
  case shdn =>
    rintro s u ini hok rfl
    show execShdn ini s = _
    rw [execShdn, write_sd hok, wrote, sdWritten_shdn]
  case armDone =>
    intro s hgetF
    show execArmDone s = _
    simp [execArmDone, hgetF]
  case shdnReqNLow =>
    rintro s u rfl
    show execShdnReqNLow s = _
    simp [execShdnReqNLow]
  case shutdownSelftestDone =>
    rintro s u ms fail hway hstep rfl
    show execShutdownSelftestDone ms fail s = _
    simp [execShutdownSelftestDone, hway, hstep]
  case selftestGo =>
    rintro s u ini die val hok rfl
    show execSelftestGo ini die val s = _
    rw [execSelftestGo, write_st hok, wrote, if_pos (by rw [wGet_or_go]; rfl)]
  case selftestDone =>
    intro s die fail hflag
    show execSelftestDone die fail s = _
    simp [execSelftestDone, hflag]
  case brownOut =>
    intro s rail hrail htorpor
    show execBrownOut rail s = _
    simp [execBrownOut, hrail, htorpor]
  case thermalTrip =>
    intro s htorpor htooHot hway hstarting
    show execThermalTrip s = _
    obtain ⟨hlastGasp, hwayTorpor⟩ := hway
    rw [execThermalTrip, if_neg (by simp [htorpor, htooHot, hlastGasp, hwayTorpor]), if_neg]
    rcases hstarting with h | h | h | h <;> simp [h]
  case ioSafeWrite =>
    rintro s u ini die a i val hdie ha hi hok rfl
    show execIoSafeWrite ini die a i val s = _
    rw [execIoSafeWrite, if_pos hi, Nat.add_assoc, write_io ha hdie hok, wrote, if_pos (by omega)]


end Sys2Proof.Machine
end

section
/-! PROOFS. Debug rows (22_debug.md): the test port, run control, trace, watchdogs and the sentinel complete (O59, O60). -/

namespace Sys2Proof.Machine

/-- Settles O59: each branch of the port's instructions and of an access's end is chosen by its hypotheses. -/
theorem testPortRowsComplete : Obligations.TestPortRowsComplete := by
  unfold Obligations.TestPortRowsComplete
  refine ⟨?testLogicReset, ?extest, ?samplePreload, ?idcode, ?clamp, ?highz, ?bypass, ?dbgAcc1, ?dbgAcc2, ?dbgAcc3,
    ?dbgAccDone1, ?dbgAccDone2, ?dbgAccDone3, ?dbgAccDone4, ?dbgStat⟩
  case testLogicReset =>
    intro s
    show execTestLogicReset s = _
    simp [execTestLogicReset]
  case extest =>
    intro s
    show execExtest s = _
    simp [execExtest]
  case samplePreload =>
    intro s sampled preload
    show execSamplePreload sampled preload s = _
    simp [execSamplePreload]
  case idcode =>
    intro s
    show execIdcode s = _
    simp [execIdcode]
  case clamp =>
    intro s
    show execClamp s = _
    simp [execClamp]
  case highz =>
    intro s
    show execHighz s = _
    simp [execHighz]
  case bypass =>
    intro s ir hir hcontains
    show execBypass ir s = _
    simp [execBypass, hir, hcontains, -List.contains_eq_mem]
  case dbgAcc1 =>
    rintro s u dr rfl hacc hdbgLost hnGet
    show execDbgAcc dr s = _
    simp [execDbgAcc, hacc, hdbgLost, hnGet]
  case dbgAcc2 =>
    rintro s u dr rfl hacc hdbgLost hnGet
    show execDbgAcc dr s = _
    simp [execDbgAcc, hacc, hdbgLost, hnGet]
  case dbgAcc3 =>
    rintro s u dr rfl hisSome
    show execDbgAcc dr s = _
    simp [execDbgAcc, hisSome]
  case dbgAccDone1 =>
    intro s x n hacc hbus hlost hdestOf haccessOk hquenched hcausesT hisolated
    show execDbgAccDone s = _
    simp [execDbgAccDone, hacc, hbus, hlost, hdestOf, haccessOk, hquenched, hcausesT, hisolated]
  case dbgAccDone2 =>
    intro s x n hacc hbus hlost hdestOf haccessOk hquenched hclosed
    show execDbgAccDone s = _
    simp only [execDbgAccDone, hacc, hbus, hlost, hdestOf, haccessOk, hquenched]
    rcases hclosed with h | h | h <;> simp [h]
  case dbgAccDone3 =>
    intro s x hacc hbus hlost hdestOf
    show execDbgAccDone s = _
    simp [execDbgAccDone, hacc, hbus, hlost, hdestOf]
  case dbgAccDone4 =>
    intro s x hacc hbus hlost
    show execDbgAccDone s = _
    simp [execDbgAccDone, hacc, hbus, hlost]
  case dbgStat =>
    rintro s u dr rfl
    show execDbgStat dr s = _
    simp [execDbgStat]

/-- The fields of a run-control word: GO, the operation, the die and the engine. -/
theorem wGet_dbLeWord_go {op : Nat} (die eng : Nat) (hop : op < 4) : wGet (dbLeWord op die eng) 31 1 = 1 := by
  rw [dbLeWord, Nat.add_assoc, Nat.add_assoc]
  exact wGet_goWord (by omega)

theorem wGet_dbLeWord_eng {op : Nat} (die eng : Nat) (hop : op < 4) : wGet (dbLeWord op die eng) 0 9 = eng % 512 := by
  rw [dbLeWord, Nat.add_assoc, Nat.add_assoc, wGet_goWord_low (by omega) (by decide)]
  omega

theorem wGet_dbLeWord_op {op : Nat} (die eng : Nat) (hop : op < 4) : wGet (dbLeWord op die eng) 28 2 = op := by
  simp only [wGet, nGet, dbLeWord, BitVec.toNat_ofNat]
  omega

theorem wGet_dbLeWord_die (op die eng : Nat) : wGet (dbLeWord op die eng) 21 4 = die % 16 := by
  simp only [wGet, nGet, dbLeWord, BitVec.toNat_ofNat]
  omega

/-- A run-control word acts on the engine it names by its operation. -/
theorem dbWritten_leWord (s : State) {op : Nat} (die eng : Nat) (hop : op < 4) :
    dbWritten s 0x070 (dbLeWord op die eng) =
      if op = 1 then leDbgHalt s (die % 16) (eng % 512)
      else if op = 2 then leDbgResume s (die % 16) (eng % 512)
      else leDbgStep s (die % 16) (eng % 512) := by
  rw [dbWritten, if_neg (by decide), if_neg (by simp), if_pos (by simp [wGet_dbLeWord_go die eng hop]),
    leRunControl, wGet_dbLeWord_op die eng hop, wGet_dbLeWord_die, wGet_dbLeWord_eng die eng hop]

/-- Settles O60: the word written carries the operation's fields, and each row's guard is met by its hypotheses. -/
theorem debugRowsComplete : Obligations.DebugRowsComplete := by
  unfold Obligations.DebugRowsComplete
  refine ⟨?haltReq, ?resumeReq, ?step, ?coreHalt, ?dbRegcmd, ?leHalt, ?leResume, ?leStep, ?traceEntryWrite,
    ?watchdogKick, ?watchdogExpiry, ?sentinelStart, ?sentinelKick, ?sentinelBite⟩
  case haltReq =>
    rintro s u ini cores w hw hok rfl
    show execHaltReq ini cores s = _
    have hreq : wGet w 0 4 = cores % 16 := by
      rw [hw]
      exact (wGet_setWord _ _ DB_HALT_HALT_REQ _ (by decide)).trans (Nat.mod_mod _ _)
    rw [execHaltReq, cmdSet_at (off := 0x040) rfl, ← hw, write_db hok, wrote, dbWritten, if_pos rfl, hreq]
  case resumeReq =>
    rintro s u ini cores w hw hok rfl
    show execResumeReq ini cores s = _
    have hreq : wGet w 4 4 = cores % 16 := by
      rw [hw]
      exact (wGet_setWord _ _ DB_HALT_RESUME_REQ _ (by decide)).trans (Nat.mod_mod _ _)
    rw [execResumeReq, cmdSet_at (off := 0x040) rfl, ← hw, write_db hok, wrote, dbWritten, if_pos rfl, hreq]
  case step =>
    rintro s u ini cores w hw hok rfl
    show execStep ini cores s = _
    have hreq : wGet w 8 4 = cores % 16 := by
      rw [hw]
      exact (wGet_setWord _ _ DB_HALT_STEP _ (by decide)).trans (Nat.mod_mod _ _)
    rw [execStep, cmdSet_at (off := 0x040) rfl, ← hw, write_db hok, wrote, dbWritten, if_pos rfl, hreq]
  case coreHalt =>
    intro s c cause hit regs hc hhartOf hs hcoreBusy hhitsOk hhaltCause
    show execCoreHalt c cause hit regs s = _
    simp [execCoreHalt, hc, hhartOf, hs, hcoreBusy, hhitsOk, hhaltCause]
  case dbRegcmd =>
    rintro s u ini val hok rfl
    show execDbRegcmd ini val s = _
    rw [execDbRegcmd, write_db hok, wrote, dbWritten, if_neg (by decide), if_pos (by rw [wGet_or_go]; rfl)]
  case leHalt =>
    rintro s u ini die eng w hw hok rfl
    show execLeHalt ini die eng s = _
    rw [execLeHalt, ← hw, write_db hok, wrote, hw, dbWritten_leWord _ _ _ (by decide), if_pos rfl]
  case leResume =>
    rintro s u ini die eng w hw hok rfl
    show execLeResume ini die eng s = _
    rw [execLeResume, ← hw, write_db hok, wrote, hw, dbWritten_leWord _ _ _ (by decide), if_neg (by decide),
      if_pos rfl]
  case leStep =>
    rintro s u ini die eng w hw hok rfl
    show execLeStep ini die eng s = _
    rw [execLeStep, ← hw, write_db hok, wrote, hw, dbWritten_leWord _ _ _ (by decide), if_neg (by decide),
      if_neg (by decide)]
  case traceEntryWrite =>
    rintro s u e rest htraceQ hflag htraceStopped rfl
    show execTraceEntryWrite s = _
    simp [execTraceEntryWrite, htraceQ, hflag, htraceStopped]
  case watchdogKick =>
    rintro s u ini c val hc hok rfl
    show execWatchdogKick ini c val s = _
    have hslot : (0x054 + 16 * c - 0x050) / 16 = c := by omega
    have hload : (0x050 ≤ 0x054 + 16 * c && 0x054 + 16 * c < 0x090 && (0x054 + 16 * c) % 16 = 0) = false := by
      have : (0x054 + 16 * c) % 16 = 4 := by omega
      simp [this]
    have hkick : (0x050 ≤ 0x054 + 16 * c && 0x054 + 16 * c < 0x090 && (0x054 + 16 * c) % 16 = 4) = true := by
      simp only [Bool.and_eq_true, decide_eq_true_eq]
      omega
    rw [execWatchdogKick, if_pos hc, Nat.add_assoc, write_wd hok, wrote]
    simp only [wdWritten, hload, hkick, hslot, Bool.false_eq_true, if_false, if_true]
  case watchdogExpiry =>
    rintro s u v c hc hflag hfrozen rfl rfl
    show execWatchdogExpiry c s = _
    rw [execWatchdogExpiry, if_pos (by rw [wdRuns, hflag, hfrozen]; simpa using hc), wdBite]
  case sentinelStart =>
    rintro s u ini val old hok rfl rfl
    show execSentinelStart ini val s = _
    rw [execSentinelStart, write_wd  hok]
    simp [wrote, wdWritten]
  case sentinelKick =>
    rintro s u ini val hok rfl
    show execSentinelKick ini val s = _
    rw [execSentinelKick, write_wd  hok]
    simp [wrote, wdWritten]
  case sentinelBite =>
    intro s hflag htorpor hrunning
    show execSentinelBite s = _
    have hruns : sentRuns s = true := by
      rw [sentRuns, hflag, htorpor]
      rcases hrunning with h | h <;> rw [h] <;> simp
    rw [execSentinelBite, if_pos hruns, sentBite]


end Sys2Proof.Machine
end
